-- ==== Sys2Proof/Word.lean ====
section
/-! DEFINITION. The word and byte types of the block and its keyed collections. -/

namespace Sys2Proof

/-- A 64-bit register or memory word (16 R480). -/
abbrev Word := BitVec 64

/-- A byte. Multi-byte fields are little-endian (00 R5). -/
abbrev Byte := BitVec 8

/-- A keyed collection: a list of (key, value) pairs with the keys strictly rising and no entry equal to the
collection's default value. `Machine/Ops.lean` reads and writes it. -/
abbrev Map (α : Type) := List (Nat × α)

end Sys2Proof
end

