-- ==== Sys2Proof/Word/Records.lean ====
section
/-! DEFINITION. The records that commands carry: tile sets, items, plan entries, packets and the like. A tile is
named by y × 768 + x for its physical coordinate (x, y); this order is the order "on y then x" of 02 R58. -/

namespace Sys2Proof

/-- A place in the Rill where contributions or replies combine (02 R65, R67). -/
inductive Node where
  | router (tile : Nat)    -- the Rill router of a tile
  | junction (field : Nat) -- the junction of a field
  | port (n : Nat)         -- centre injection port n
  | centre                 -- the centre itself
  deriving DecidableEq, Repr, Inhabited

/-- The transaction header of a request (13 R411). `opcode` is filled in when the request is served. `defect` is 0
for a well-encoded request, else the REASON of 13 R413 its encoding earns (a reserved bit, a wrong body length). -/
structure ReqHdr where
  opcode : Nat := 0
  session : Nat := 0
  tag : Nat := 0
  reqId : Nat := 0
  atEarliest : Bool := false
  opt : Bool := false
  defect : Nat := 0
  deriving DecidableEq, Repr, Inhabited

/-- A tile set: words 2 and 3 of a multicast (02 R54). Steps are 1 to 16. -/
structure TileSet where
  x0 : Nat := 0
  x1 : Nat := 0
  y0 : Nat := 0
  y1 : Nat := 0
  xstep : Nat := 1
  ystep : Nat := 1
  lfilt : Bool := false
  spares : Bool := false
  lx0 : Nat := 0
  lx1 : Nat := 0
  ly0 : Nat := 0
  ly1 : Nat := 0
  deriving DecidableEq, Repr, Inhabited

/-- A staged item (06 R184): NWORDS is the length of `data`. -/
structure Item where
  kind : Nat := 1
  addr : Nat := 0
  data : List Word := []
  deriving DecidableEq, Repr, Inhabited

/-- A STAGE packet (06 R193). -/
structure StagePkt where
  txn : Nat := 0
  offset : Nat := 0
  final : Bool := false
  deadlineLo : Nat := 0
  words : List Word := []
  lchk : Bool := false
  multi : Bool := false
  mapEpoch : Nat := 0
  ltn : Nat := 0
  cchk : Bool := false
  ctxEpoch : Nat := 0
  deriving DecidableEq, Repr, Inhabited

/-- One entry of a transaction (06 R188, 13 R435). -/
structure TxnEntry where
  /-- 1 bit; 13 R435 FORM; written when added. -/
  isSet : Bool := true
  /-- 128 bits; 02 R54; written when added. -/
  set : TileSet := {}
  /-- 64 bits; 00 R6 the address of the one tile, FORM 1; written when added. -/
  addr : Nat := 0
  /-- 1 bit; 13 R435 CCHK; written when added. -/
  cchk : Bool := false
  /-- 8 bits; 13 R435 CTX_EPOCH; written when added. -/
  ctxEpoch : Nat := 0
  /-- up to 512 words; 06 R184; written when added. -/
  items : List Item := []
  /-- 06 R177 R219 R385: 0 the same items everywhere, else items built per tile: 1 bank, 2 counter plan, 5 trace plan; written when added. -/
  perTile : Nat := 0
  deriving DecidableEq, Repr, Inhabited

/-- An eddy record (10 R302). -/
structure Eddy where
  /-- 40 bits; 10 R302 TIME, TS40S; 0 (R307). -/
  time : Nat := 0
  /-- 8 bits; 10 R302 CODE; 0. -/
  code : Nat := 0
  /-- 8 bits; 10 R302 FLAGS; 0. -/
  flags : Nat := 0
  /-- 8 bits; 10 R302 SEQ; 0. -/
  seq : Nat := 0
  /-- 64 bits; 10 R302 DATA; 0. -/
  data : Word := 0
  deriving DecidableEq, Repr, Inhabited

/-- A tagged line (08 R244). -/
structure SnoopLine where
  /-- 10 bits; 08 R244 WR_ADDR; from the write port. -/
  line : Nat := 0
  /-- 512 bits; 08 R244 WR_DATA; from the write port. -/
  data : BitVec 512 := 0
  /-- 64 bits; 08 R244 WR_BE; from the write port. -/
  be : BitVec 64 := 0
  /-- 8 bits; 08 R244 WR_TAG; from the write port. -/
  tag : Nat := 0
  deriving DecidableEq, Repr, Inhabited

/-- The command a tile runs (05 R166). -/
structure Command where
  /-- 16 bits; 05 R166; from the tap. -/
  layer : Nat := 0
  /-- 16 bits; 05 R166; from the tap. -/
  oper : Nat := 0
  /-- 32 bits; 05 R166; from the tap. -/
  step : Nat := 0
  /-- 48 bits; 05 R166; from the tap. -/
  tok : Option (Nat × Nat) := none
  deriving DecidableEq, Repr, Inhabited

/-- A FOLD packet's content (02 R66). -/
structure FoldPartial where
  /-- 20 bits; 02 R66 COUNT; from the packet. -/
  count : Nat := 0
  /-- 8 bits; 02 R66 MISS_COUNT; from the packet. -/
  missCount : Nat := 0
  /-- 1 bit; 02 R66 OVF; from the packet. -/
  ovf : Bool := false
  /-- 1 bit; 02 R66 DARKSEEN; from the packet. -/
  darkSeen : Bool := false
  /-- 19 bits; 02 R66 MISS_AT; from the packet. -/
  missAt : Nat := 524287
  /-- 8 bits; 02 R66 MISS_MASK; from the packet. -/
  missMask : Nat := 0
  /-- 19 bits; 02 R64 the coordinate of the extreme; from the packet. -/
  loc : Option Nat := none
  /-- 64 containers; 02 R63; from the packet. -/
  data : List Nat := []
  deriving DecidableEq, Repr, Inhabited

/-- A slice image of one member (13 R434, 08 R247). -/
structure Slice where
  base : Nat := 0
  stride : Nat := 0
  off : Nat := 0
  len : Nat := 0
  rowlen : Nat := 1
  tokstride : Nat := 0
  deriving DecidableEq, Repr, Inhabited

/-- A dip entry (08 R246, 13 R434). -/
structure DipEntry where
  set : TileSet := {}
  slot : Nat := 0
  fmt : Nat := 0
  histBase : Int := 0
  sumExp : Int := 0
  foldSel : Nat := 0
  foldBase : Nat := 0
  epochTmo : Nat := 50
  replica : Bool := false
  group : Nat := 0
  tensor : Nat := 0
  minInt : Nat := 1
  step0 : Nat := 0
  step1 : Nat := 0
  slices : List Slice := []
  deriving DecidableEq, Repr, Inhabited

/-- A capture entry (09 R281, 13 R434). -/
structure CapEntry where
  slot : Nat := 0
  still : Bool := false
  keepLast : Bool := false
  tokEn : Bool := false
  frames : Nat := 1
  holdMax : Nat := 0
  tensor : Nat := 0
  step0 : Nat := 0
  step1 : Nat := 0
  tok0 : Nat := 0
  tok1 : Nat := 0
  deriving DecidableEq, Repr, Inhabited

/-- A watch plan entry (05 R175, 13 R434). -/
inductive WatchEntry where
  | comparator (set : TileSet) (n : Nat) (ctl a b c : Word)
  | binding (cls action region hold limit : Nat)
  | condition (foldId element test : Nat) (once : Bool) (cls : Nat) (thresh : Word)
  | dip (d : DipEntry)
  | capture (c : CapEntry)
  deriving DecidableEq, Repr, Inhabited

/-- A fold plan entry (02 R72, 13 R434). -/
structure FoldEntry where
  set : TileSet := {}
  foldId : Nat := 0
  op : Nat := 0
  ty : Nat := 0
  vlen : Nat := 1
  loc : Bool := false
  event : Bool := false
  interval : Nat := 1
  epochTmo : Nat := 50
  src : Nat := 0
  deriving DecidableEq, Repr, Inhabited

/-- A drain destination (11 R357). -/
structure Dest where
  endpoint : Nat := 0
  base : Nat := 0
  limit : Nat := 0
  key : Nat := 0
  deriving DecidableEq, Repr, Inhabited

/-- A counter plan entry: at most 15 AG_DKEY images, and for each member its PLANNED values (07 R219, 13 R434). -/
structure CntEntry where
  set : TileSet := {}
  epochTmo : Nat := 50
  minInt : Nat := 1
  keys : List Word := []
  planned : List (List Nat) := []
  deriving DecidableEq, Repr, Inhabited

/-- A trace plan entry (10 R310, 13 R434). -/
structure TraceEntry where
  set : TileSet := {}
  mask : BitVec 8 := 0xFF
  policy : Nat := 0
  flushUs : Nat := 100
  trigMask : BitVec 16 := 0
  fullClass : Nat := 0
  w : Nat := 0
  drainMax : Nat := 100
  dest : Dest := {}
  deriving DecidableEq, Repr, Inhabited

/-- A symbol record (09 R277). -/
structure SymRecord where
  tensor : Nat := 0
  fmt : Nat := 0
  seq : Bool := false
  inplace : Bool := false
  wlayer : Nat := 0
  woper : Nat := 0
  elements : Nat := 0
  name : List Byte := []
  deriving DecidableEq, Repr, Inhabited

/-- A placement map record (09 R278). -/
structure MapRecord where
  tensor : Nat := 0
  ltn : Nat := 0
  slice : Slice := {}
  deriving DecidableEq, Repr, Inhabited

/-- A fingerprint record (08 R263). -/
structure FpRecord where
  engine : Nat := 0
  group : Nat := 0
  tensor : Nat := 0
  step : Nat := 0
  complete : Bool := false
  ovf : Bool := false
  broken : Bool := false
  disturbed : Bool := false
  elements : Nat := 0
  fingerprint : Word := 0
  deriving DecidableEq, Repr, Inhabited

/-- Data handed to the edge I/O for a destination (11 R357). -/
structure Drain where
  dest : Dest := {}
  offset : Nat := 0
  bytes : List Byte := []
  deriving DecidableEq, Repr, Inhabited

/-- A defect record (12 R388). -/
structure DefectRec where
  seq : Nat := 0
  press : Nat := 0
  engine : Nat := 0
  kind : Nat := 0
  cls : Nat := 0
  tile : Nat := 0
  deadPos : Nat := 0
  sparePos : Nat := 255
  mapEpoch : Nat := 0
  snapId : Nat := 0
  deriving DecidableEq, Repr, Inhabited

/-- A Spring operation under way (16 R488): a page program or a 64 KiB block erase. The last one of a request answers
it. -/
structure SpringOp where
  erase : Bool := false
  offset : Nat := 0
  bytes : List Byte := []
  last : Bool := false
  reply : Option ReqHdr := none
  deriving DecidableEq, Repr, Inhabited

/-- A Rill packet (02 R44): `word1` is header word 1 (R46, R66), `ext` the third and fourth header words, and `crcOk` says
whether its CRC-16 matches (R49). -/
structure Packet where
  kind : Nat := 0
  len : Nat := 0
  dest : Nat := 0
  src : Nat := 0
  tag : Nat := 0
  crcOk : Bool := true
  word1 : Word := 0
  ext : List Word := []
  payload : List Word := []
  deriving DecidableEq, Repr, Inhabited

/-- What one of a tile's four engines does in a cycle (07 R212): whether it holds a command, whether it does work of it, and why it
may not: its SRAM access lost arbitration, its output has no credit. -/
structure EngineCycle where
  holds : Bool := false
  works : Bool := false
  conflict : Bool := false
  blocked : Bool := false
  deriving DecidableEq, Repr, Inhabited

/-- A run of `n` TCLK cycles alike: FRZ, THR_GATE, a context switch or load, THR_ANY, and the four engines: array, vector, mover,
router (07 R212, R217). -/
structure CycleRun where
  n : Nat := 0
  frz : Bool := false
  gate : Bool := false
  ctx : Bool := false
  thrAny : Bool := false
  engines : List EngineCycle := []
  deriving DecidableEq, Repr, Inhabited

/-- What the tap reports of the TCLK cycles since its last report (07 R212). -/
structure Cycles where
  runs : List CycleRun := []
  deriving DecidableEq, Repr, Inhabited

/-- A write descriptor as presented on DESC (08 R245). -/
structure DescIn where
  tag : Nat := 0
  tensor : Nat := 0
  step : Nat := 0
  lines : Nat := 1
  scales : List Nat := []
  svalid : Nat := 0
  deriving DecidableEq, Repr, Inhabited

/-- What a start phase finds outside the hub (15 R469): SFDP results, link tests, echo intervals, stubs that do not
answer. -/
structure PhaseReport where
  springSfdpOk : Bool := true
  wellSfdpOk : Bool := true
  springReg : Word := 0
  wellReg : Word := 0
  eraseMaxUs : Nat := 0
  progMaxUs : Nat := 0
  badLinks : List Nat := []
  badJunctions : List Nat := []
  unreachable : Bool := false
  missing : List Nat := []
  echo : List (Nat × Nat) := []
  wipeOk : Bool := true
  mapRetried : Bool := false
  mapRinsed : Bool := false
  mapCause : Nat := 0
  elapsedUs : Nat := 0
  deriving DecidableEq, Repr, Inhabited

/-- A frame as the octets received spell it (13 R404, R411): `ty` is its TYPE, `rxLength` the number of payload bytes received,
and the fields from `opcode` on are those of the transaction header in its payload. -/
structure DataFrame where
  crcOk : Bool := true
  gen : Nat := 0
  length : Nat := 0
  rxLength : Nat := 0
  seq : Nat := 0
  ack : Nat := 0
  ty : Nat := 1
  opcode : Nat := 0
  flags : Nat := 0
  tag : Nat := 0
  hdrRsvd : Bool := false
  linkRsvd : Bool := false
  bodyLength : Nat := 0
  frag : Nat := 0
  session : Nat := 0
  reqId : Nat := 0
  body : List Byte := []
  deriving DecidableEq, Repr, Inhabited

/-- An entry of Spring's partition table (15 R463). Kinds: 1 IMAGE, 2 CONFIG, 3 USER. -/
structure SpringPart where
  kind : Nat := 0
  offset : Nat := 0
  size : Nat := 0
  deriving DecidableEq, Repr, Inhabited

/-- A configuration block as read (15 R466): its TYPE, whether its header and CRC stand, and its body. -/
structure CfgBlock where
  kind : Nat := 0
  sound : Bool := false
  body : List Byte := []
  deriving DecidableEq, Repr, Inhabited

end Sys2Proof
end

