-- ==== Sys2Proof/Syntax.lean ====
section
/-! DEFINITION. The commands of the block: one constructor per row of spec/opcode_table.json, in its order. `h` is a
request's transaction header; `tile` is y × 768 + x of a physical coordinate; the rest are the row's operands. -/

namespace Sys2Proof

/-- A command: a host request, or an event at a place of the block. -/
inductive Instr where
  /-- SESSION_OPEN (R421). Opens an observer session, or an intrusive session, or in FD an observer session with a grant nonce. -/
  | sessionOpen (h : ReqHdr) (kind : Nat)
  /-- GRANT (R422). Checks the nonce, the owner key digest and the ECDSA signature, and makes the session intrusive with the rights in RIGHTS. -/
  | grant (h : ReqHdr) (nonce : BitVec 128) (rights x y r sg : Nat)
  /-- SESSION_CLOSE (R420). Closes a session; an uncommitted transaction ends, a staging transaction rinses, and plans stay active without an owner. -/
  | sessionClose (h : ReqHdr)
  /-- SESSION_TIMEOUT (R420). A session that has sent no request for SESS_TMO seconds closes. -/
  | sessionTimeout (session : Nat)
  /-- HUB_INFO (R426). Returns SK_ID, SK_CAP, HUB_UID, ENGINE, the life-cycle state, the ROM flag and the firmware version. -/
  | hubInfo (h : ReqHdr)
  /-- STATUS_READ (R424). Returns the latest status frame and SK_EVENTS. -/
  | statusRead (h : ReqHdr)
  /-- STATUS_READ_CLEAR (R426). STATUS_READ with OPT: returns the latest status frame and SK_EVENTS, then clears the returned SK_EVENTS bits. -/
  | statusReadClear (h : ReqHdr)
  /-- NOP (R420). Does nothing and keeps the session open. -/
  | nop (h : ReqHdr)
  /-- CENTRE_RESET (R472). Sends its response and then starts a centre warm reset. -/
  | centreReset (h : ReqHdr) (copyOk : Bool)
  /-- POWER_STATE (R474). Puts the hub in QUIET, or returns it to ACTIVE. -/
  | powerState (h : ReqHdr) (state : Nat)
  /-- MEM_READ (R482). Reads bytes of a memory space or registers by hub address, sampling them as R482 states. -/
  | memRead (h : ReqHdr) (addr length : Nat)
  /-- MEM_WRITE (R481). Writes bytes to a memory space or to registers, after checking a CSR write whole. -/
  | memWrite (h : ReqHdr) (addr : Nat) (data : List Byte) (otpOk : Bool)
  /-- SPRING_ERASE (R426). Erases a range of Spring in 64 KiB blocks. -/
  | springErase (h : ReqHdr) (offset length : Nat)
  /-- MCAST_WRITE (R426). Writes registers or tile SRAM on a tile set by multicast and returns the combined reply. -/
  | mcastWrite (h : ReqHdr) (set : TileSet) (space offset : Nat) (data : List Byte)
  /-- CENSUS (R426). Runs a census predicate on a register of a tile set and returns the combined reply. -/
  | census (h : ReqHdr) (set : TileSet) (offset : Nat) (mask value : Word) (test : Nat)
  /-- AGENT_RESET (R472). Resets one agent core; it is refused with BUSY while the stub holds staged content. -/
  | agentReset (h : ReqHdr) (addr : Nat)
  /-- TIME_EXCHANGE (R99). Answers in hardware with the receive timestamp t2 and the transmit timestamp t3. -/
  | timeExchange (h : ReqHdr) (rxAt txAt : Nat)
  /-- TIME_ADJUST (R101). Steps hub time and re-marks the wafer, or steers the PLL, or refuses the correction. -/
  | timeAdjust (h : ReqHdr) (c : Int)
  /-- STEER_DONE (R101). The accumulated steer reaches the correction c; the PLL returns to nominal, STEERING clears and ALIGN becomes SYSTEM. -/
  | steerDone
  /-- MEASURE_TIME (R103). Repeats the echo measurement, updates the field delays and L_still, and sets DRIFT where a delay has moved. -/
  | measureTime (h : ReqHdr) (echo : List (Nat × Nat))
  /-- MEASURE_TIME_REMARK (R103). MEASURE_TIME with REMARK also re-marks the stubs, and only on a still wafer with no action queued. -/
  | measureTimeRemark (h : ReqHdr) (echo : List (Nat × Nat))
  /-- TIME_MARK_LAUNCH (R94). When hub time equals M, the root launches the mark word. -/
  | timeMarkLaunch
  /-- TIME_MARK (R94). `word` with its two parity wires. An armed stub captures a mark word and loads its time counter; an unarmed stub, or one that sees a parity error, keeps its counter. -/
  | timeMark (tile word : Nat) (parity : Bool × Bool)
  /-- STILL_AT (R113). Queues a STILL for a scope at a target tick. -/
  | stillAt (h : ReqHdr) (tick scope : Nat)
  /-- RELEASE_AT (R113). Queues a RELEASE for a scope at a target tick. -/
  | releaseAt (h : ReqHdr) (tick scope : Nat)
  /-- STEP_TICK (R146). Queues a RELEASE and a closing STILL N ns apart. -/
  | stepTick (h : ReqHdr) (tick scope n : Nat)
  /-- STEP_CMD (R148). Arms STEP_K on every member, then queues the step's RELEASE and its closing STILL. -/
  | stepCmd (h : ReqHdr) (tick scope k limit : Nat)
  /-- ACTION_CANCEL (R117). Removes a queued action that has not been launched. -/
  | actionCancel (h : ReqHdr) (tick scope kind : Nat)
  /-- REGION_SET (R110). Writes the region membership bits by multicast and confirms them by census. -/
  | regionSet (h : ReqHdr) (region : Nat) (valid : Bool) (lx0 lx1 ly0 ly1 : Nat)
  /-- STILL_QUERY (R113). Returns SK_STILL_STATUS, SK_STILL_T, the step counts, the straggler list and the discarded actions. -/
  | stillQuery (h : ReqHdr)
  /-- STILL_QUERY_REFRESH (R135). STILL_QUERY with REFRESH repeats the still census. -/
  | stillQueryRefresh (h : ReqHdr)
  /-- ACTION_LAUNCH (R80). At T − L_still, the still root launches a queued action word. -/
  | actionLaunch
  /-- STILL_WORD_CAPTURE (R80). A stub captures a still-tree word, recovers its tick T and hands the action to the core, or records LATE_ACTION or TREE_PARITY. `head` is bits [47:32] of the word, `p0` and `p1` its parity wires. -/
  | stillWordCapture (tile head tickLo : Nat) (p0 p1 : Bool)
  /-- STILL_ACT (R108). At the first TCLK edge at or after T, the agent sets the scope's mask bit and asserts FRZ. -/
  | stillAct (tile cycles : Nat) (vpend : Bool)
  /-- RELEASE_ACT (R138). At the first TCLK edge at or after T2, the agent clears mask bits and drops FRZ when the mask is zero. -/
  | releaseAct (tile : Nat) (idle : Bool)
  /-- PRESS_ACT (R199). At the acting edge, an ARMED stub applies its staged set in order. -/
  | pressAct (tile : Nat)
  /-- PRESS_APPLY_DONE (R199). The SRAM and ROUTE items are written; the stub sets TSTATE APPLIED and drops HOLD_AWAKE. -/
  | pressApplyDone (tile : Nat)
  /-- EDGE_STILL_ACT (R127). An edge agent freezes or unfreezes its egress queues for a scope-0 action. -/
  | edgeStillAct (die action tick : Nat)
  /-- STUB_STILL_NO_CLOCK (R140). In a powered region whose TCLK is stopped, the stub sets the mask bit at T and STATE FREEZING. `tile` and the TCLK cycles it has run. -/
  | stubStillNoClock (tile : Nat × Nat)
  /-- FREEZE_SETTLED (R125). FRZ_ACK, RFRZ_ACK and every XQ_SETTLED are high; the stub sets STATE STILL and records FRZ_TS. -/
  | freezeSettled (tile : Nat)
  /-- FREEZE_NOACK (R124). FRZ_ACK or RFRZ_ACK has not risen 1 µs after E; the agent sets NOACK and records an eddy. -/
  | freezeNoack (tile : Nat) (frzAck rfrzAck : Bool)
  /-- STILL_CENSUS (R129). At T + 1 µs the centre runs the still census, declares the still or names stragglers, and starts the action that waits on the still. -/
  | stillCensus
  /-- STILL_CENSUS_REPEAT (R132). At the retry tick + 1 µs, the centre repeats the still census over the whole scope and makes the outcome final. -/
  | stillCensusRepeat
  /-- AUTO_RELEASE (R160). The HOLD time of an alarm still has passed; the centre queues a release of the scope. -/
  | autoRelease
  /-- ALARM_ACCEPT (R78). The alarm root accepts a class, sets SK_ALARM and starts the bound action, such as an alarm STILL. -/
  | alarmAccept (classes : BitVec 16)
  /-- ALARM_REARM (R161). Clears USED and DISARMED for the named classes. -/
  | alarmRearm (h : ReqHdr) (classes : BitVec 16)
  /-- SRAM_WRITE (R267). A tile SRAM write cycle is snooped: comparators test it, and a tagged line is matched, classified and captured, or waits. -/
  | sramWrite (tile : Nat) (w : SnoopLine)
  /-- DESC_ARRIVE (R266). A write descriptor enters the table, replacing or displacing an entry, and waiting lines with its tag match. -/
  | descArrive (tile : Nat) (d : DescIn)
  /-- LINE_DISCARD (R267). A waiting line has waited 16 counted cycles unmatched and is discarded and counted. -/
  | lineDiscard (tile : Nat)
  /-- DESC_CLOSE (R268). A descriptor closes when its lines have matched or its command ends. -/
  | descClose (tile tag : Nat)
  /-- DIP_ACC_CLOSE (R250). An accumulation closes, copies into LAST and sends its fold contributions. `slot` and whether it is the older of its two accumulations. -/
  | dipAccClose (tile : Nat) (slot : Nat × Bool)
  /-- COMMAND_START (R216). At a command's first cycle the per-command banks swap, deviations are checked and a step may close. -/
  | commandStart (tile : Nat) (cmd : Command) (cyc : Cycles)
  /-- COMMAND_END (R304). At a command's last cycle, CMD_END is recorded, the hang watchdog returns to zero and step counting advances. `cyc` and the level of VPEND. -/
  | commandEnd (tile : Nat) (cyc : Cycles × Bool)
  /-- CONTEXT_SWITCH (R165). The tile switches its configuration context, which a CONTEXT comparator may match. -/
  | contextSwitch (tile old new : Nat)
  /-- CONTEXT_LOAD (R209). The tile reports a context load, and the stub adds 1 to CTX_EPOCH. -/
  | contextLoad (tile : Nat)
  /-- TILE_ERROR_EVENT (R213). An ECC, link CRC or fabric retry event is counted, recorded, and may raise UNCORR or CRCSTORM. -/
  | tileErrorEvent (tile index line port : Nat)
  /-- WAIT_DESCRIPTOR (R321). The tile reports a valid wait descriptor; the stub holds it and records WAIT. -/
  | waitDescriptor (tile e : Nat) (d : Word)
  /-- HANG (R320). The hang watchdog reaches its limit; it records HANG and raises class 3. -/
  | hang (tile : Nat)
  /-- CWDT_EXPIRY (R369). No counter increment has come for 100 µs; the stub sets CWDT_FIRED and raises class 2. -/
  | cwdtExpiry (tile : Nat)
  /-- STILL_COPY_HOLD_END (R287). The shim acknowledges the last line, or HOLD_MAX passes, and the hold ends. -/
  | stillCopyHoldEnd (tile slot : Nat) (acked : Bool)
  /-- SNOOP_FRAME_CLOSE (R284). A snoop frame closes once its last line has left the agent; the shim writes the close fields. `slot` and whether it is the older of its two frames. -/
  | snoopFrameClose (tile : Nat) (slot : Nat × Bool)
  /-- WATCH_LOAD (R177). Checks a watch plan, fetches the banks and activates the plan by one press. -/
  | watchLoad (h : ReqHdr) (id activate : Nat) (entries : List WatchEntry)
  /-- WATCH_REMOVE (R176). WATCH_LOAD with OPT and no entry: activates the empty bank everywhere and resets the user class bindings. -/
  | watchRemove (h : ReqHdr)
  /-- FOLD_LOAD (R72). Checks a fold plan against the slot and VC1 limits and installs it. -/
  | foldLoad (h : ReqHdr) (id : Nat) (entries : List FoldEntry)
  /-- FOLD_READ (R428). Returns the latest stored results of a fold. -/
  | foldRead (h : ReqHdr) (foldId count : Nat)
  /-- FOLD_CONTRIB (R72). A member sends its contribution for a fold epoch, or a dark stub sends the identity. -/
  | foldContrib (tile foldId epoch : Nat)
  /-- FOLD_ARRIVAL (R68). A slot combines a contribution, holds a contribution for the next epoch, or drops a late one. `p` and whether its CRC-16 is right. -/
  | foldArrival (node : Node) (child foldId epoch : Nat) (p : FoldPartial × Bool)
  /-- FOLD_EPOCH_CLOSE (R69). A slot's epoch deadline passes; it sends its partial with its missing children recorded. -/
  | foldEpochClose (node : Node) (foldId : Nat)
  /-- FOLD_RESULT_STORE (R71). The centre completes a fold epoch, stores the result and evaluates the centre conditions on it. -/
  | foldResultStore (foldId : Nat)
  /-- CNT_LOAD (R219). Fetches, confirms and activates a counter plan by a centre transaction. -/
  | cntLoad (h : ReqHdr) (id : Nat) (entries : List CntEntry)
  /-- CNT_FOLD (R223). Carries out the step fold of the delta tables at once for a given step. -/
  | cntFold (h : ReqHdr) (step : Nat)
  /-- STEP_DESC (R235). Records or replaces the token count of a step. -/
  | stepDesc (h : ReqHdr) (step tokens : Nat)
  /-- LC_READ (R230). Returns light census results from the ring. -/
  | lcRead (h : ReqHdr) (count : Nat)
  /-- LEDGER_READ (R236). Returns step energy records from the ring. -/
  | ledgerRead (h : ReqHdr) (count : Nat)
  /-- LC_BOUNDARY (R229). At a light census boundary, stubs close their period and contribute, and the centre starts READ_EIN and the RELOAD census. -/
  | lcBoundary
  /-- PMBUS_DONE (R232). A PMBus reading completes; READ_EIN updates the energy ledger, or the interval is marked as a gap. -/
  | pmbusDone (data : List Byte) (pecOk : Bool)
  /-- PMBUS_TIMEOUT (R231). A PMBus transaction passes 5 ms; the bus is clocked free and the failure counted. -/
  | pmbusTimeout
  /-- PACE_REFILL (R238). Every 1 µs the edge agent refills its token bucket at the live-lane rate. -/
  | paceRefill (die liveLanes : Nat)
  /-- TXN_OPEN (R188). Opens a host transaction and returns its identifier. -/
  | txnOpen (h : ReqHdr) (mapEpoch tmo : Nat)
  /-- TXN_ADD (R189). Checks entries and items and appends them to the open transaction. -/
  | txnAdd (h : ReqHdr) (txn : Nat) (entries : List TxnEntry)
  /-- TXN_COMMIT (R190). Checks the transaction, then stages, checks and presses it. -/
  | txnCommit (h : ReqHdr) (txn tick : Nat)
  /-- TXN_RINSE (R188). Abandons a transaction that has not been pressed. -/
  | txnRinse (h : ReqHdr) (txn : Nat)
  /-- TXN_QUERY (R188). Returns the transaction registers and the rinse or straggler details. -/
  | txnQuery (h : ReqHdr)
  /-- STAGE (R194). A stub stores STAGE words, or answers NAK; on FINAL it computes its digest and sets STAGED. -/
  | stage (tile : Nat) (p : StagePkt)
  /-- TXN_CHECK (R197). All staging replies are in; the centre checks counts and digests and queues the PRESS or rinses. -/
  | txnCheck
  /-- RINSE (R204). A stub discards its staged content for a RINSE, a STAGE of another identifier, or the deadline D. -/
  | rinse (tile txn : Nat)
  /-- STAGE_DEADLINE (R204). Stub time reaches D while TSTATE is not ARMED; the stub discards its content. -/
  | stageDeadline (tile : Nat)
  /-- FENCE_END (R203). D has passed after a fence, and the centre may stage again. -/
  | fenceEnd
  /-- PRESS_CONFIRM (R200). At T_P + 5 µs the centre counts APPLIED targets. -/
  | pressConfirm
  /-- PRESS_RECOUNT (R200). At T_P + 1 ms the centre recounts targets still APPLYING and marks the rest LOST. -/
  | pressRecount
  /-- FP_READ (R263). Returns fingerprint records from the ring. -/
  | fpRead (h : ReqHdr) (group count tensor : Nat)
  /-- FP_COMPARE (R264). Compares peer fingerprint records with the hub's own and may raise SDC. -/
  | fpCompare (h : ReqHdr) (group tensor step : Nat) (peers : List FpRecord)
  /-- SYM_LOAD (R279). Appends symbol records, emptying both areas when BUILD changes. -/
  | symLoad (h : ReqHdr) (build : Nat) (recs : List SymRecord)
  /-- PMAP_LOAD (R279). Appends placement map records, emptying both areas when BUILD changes. -/
  | pmapLoad (h : ReqHdr) (build : Nat) (recs : List MapRecord)
  /-- WATCH_STATUS (R297). Returns watch area usage and frame totals gathered by census. -/
  | watchStatus (h : ReqHdr)
  /-- WATCH_RESET (R297). Clears the frames of a capture entry and its NEXT and FULL_SKIPS. -/
  | watchReset (h : ReqHdr) (entry : Nat)
  /-- WATCH_DRAIN (R296). The shims send the VALID frames of an entry to a destination by DMA. -/
  | watchDrain (h : ReqHdr) (entry : Nat) (set : Option TileSet) (dest : Dest)
  /-- CAPTURE_NOW (R297). Copies each member's slice into its next frame on a declared wafer still. -/
  | captureNow (h : ReqHdr) (entry : Nat)
  /-- EDDY_READ (R308). Freezes rings, reads their newest records and unfreezes them. -/
  | eddyRead (h : ReqHdr) (set : Option TileSet) (addrs : List Nat) (count : Nat)
  /-- EDDY_FREEZE_TIMEOUT (R308). The stub clears FREEZE by itself 100 µs after it was set, and writes a GAP. -/
  | eddyFreezeTimeout (tile : Nat)
  /-- EDDY_GAP (R306). The write queue has room after a loss, and the stub enters a GAP record. -/
  | eddyGap (tile : Nat)
  /-- TRACE_LOAD (R310). Installs a trace plan, empties the partitions and switches tiles to stream mode by a centre transaction. -/
  | traceLoad (h : ReqHdr) (id : Nat) (entries : List TraceEntry)
  /-- TRACE_REMOVE (R311). TRACE_LOAD with OPT and no entry: returns every streaming tile to ring mode and empties the partitions. -/
  | traceRemove (h : ReqHdr)
  /-- TRACE_REARM (R316). Empties every partition and sets STATE to RUNNING. -/
  | traceRearm (h : ReqHdr)
  /-- TRACE_DRAIN (R318). Sends the held records of the partitions to a destination. -/
  | traceDrain (h : ReqHdr) (set : Option TileSet)
  /-- TRACE_STATUS (R318). Returns the partition sizes and a range of partition headers. -/
  | traceStatus (h : ReqHdr) (first count : Nat)
  /-- STREAM_CHUNK_SEND (R313). A streaming stub sends 16 records, or a partial chunk on the flush timeout, a flush or a plan change. -/
  | streamChunkSend (tile : Nat) (flush : Bool)
  /-- EDDY_CHUNK_ARRIVE (R315). The shim stores an arriving chunk's records under the partition's policy. -/
  | eddyChunkArrive (tile : Nat) (recs : List Eddy)
  /-- STILL_ON_FULL_RAISE (R317). A stub's unsent count reaches 48 and it drives FULL_CLASS once. -/
  | stillOnFullRaise (tile : Nat)
  /-- TRACE_DRAIN_RELEASE (R317). The partitions are empty, or DRAIN_MAX has passed, and the centre issues the drain release. -/
  | traceDrainRelease
  /-- WFG_BUILD (R322). Builds the wait-for graph of a still wafer, finding cycles and roots. -/
  | wfgBuild (h : ReqHdr)
  /-- SNAP_TAKE (R334). Takes a snapshot of the declared still, or queues a wafer STILL for one. -/
  | snapTake (h : ReqHdr) (id : Nat) (autoRel : Bool) (tick : Nat)
  /-- SNAP_GO (R335). The still is declared without stragglers; the centre starts the shims' copy and COW_OPEN. -/
  | snapGo
  /-- COW_ACK (R339). The controller acknowledges COW_OPEN once every earlier write is in memory. -/
  | cowAck (field : Nat)
  /-- COW_ACK_TIMEOUT (R343). No COW_ACK has come within 10 µs; the snapshot breaks with MEMNAK. -/
  | cowAckTimeout (field : Nat) (nak : Bool)
  /-- IMAGE_COPY_DONE (R336). A tile's image has been copied into the pond, and its stub drops HOLD_AWAKE. `tile`, and whether the pond holds the image with an uncorrectable error (R352). -/
  | imageCopyDone (tile : Nat × Bool)
  /-- SHIM_DONE (R335). Every shim reports DONE; the centre queues the release and the snapshot enters SEALING. -/
  | shimDone (field : Nat)
  /-- SNAP_COPY_TIMEOUT (R337). The copy is not done by T + 245 µs; the snapshot breaks with TIMEOUT and the wafer is released. -/
  | snapCopyTimeout
  /-- SLOT_REQ (R339). A first write to a granule in the epoch requests a slot and copies the old content before the write. -/
  | slotReq (field granule : Nat) (write : List (Nat × Byte))
  /-- COPY_DONE (R343). The controller has stored the old content, or reports COPY_NAK, which breaks dependent snapshots. -/
  | copyDone (field granule answer : Nat)
  /-- ING_COPY (R345). A delivered unit on a logged flow is copied into the log. -/
  | ingCopy (die srcEngine srcDie : Nat) (unit : List Byte)
  /-- MK_SEEN (R346). A marker is delivered on a flow; the flow's log closes, and the log is written when every flow is closed. -/
  | mkSeen (die engine peerDie snapId kind : Nat)
  /-- LOG_WRITTEN (R338). Every log is in its field area; the snapshot commits and becomes CURRENT. -/
  | logWritten (die : Nat)
  /-- MARKER_TIMEOUT (R347). A peer's marker is missing MARKER_TMO after release; the snapshot breaks, or a restore sets UNPAIRED. `die`, and whether its link layer has rejected a marker (R349). -/
  | markerTimeout (die : Nat × Bool)
  /-- EG_FROZEN_TIMEOUT (R349). EG_FROZEN has not risen 1 µs after EG_FREEZE; the snapshot breaks with TIMEOUT. -/
  | egFrozenTimeout (die : Nat)
  /-- EG_FROZEN_FALL (R349). EG_FROZEN falls while EG_FREEZE is high; it is counted and breaks a snapshot in TAKING. -/
  | egFrozenFall (die : Nat)
  /-- SNAP_RESTORE (R354). Writes the images back, copies back the slots, loads the logs and queues the release. -/
  | snapRestore (h : ReqHdr) (id : Nat) (memKept : Bool) (tr : Nat)
  /-- CB_DONE (R343). The controller completes a COPYBACK, or fails it or times out, which fails the restore. -/
  | cbDone (field granule answer : Nat)
  /-- SNAP_DRAIN (R358). Drains a snapshot's field areas and images, and for FULL the tier as of T, to a destination. -/
  | snapDrain (h : ReqHdr) (id : Nat) (full : Bool) (dest : Dest)
  /-- ASOF_DATA (R359). A granule's as-of content arrives for a FULL drain, or a 10 µs timeout ends the drain. -/
  | asofData (field : Nat) (ok : Bool)
  /-- DRAIN_DONE (R359). Every shim has finished the drain, and it completes. -/
  | drainDone
  /-- SNAP_PLAN (R360). Installs the snapshot plan. -/
  | snapPlan (h : ReqHdr) (p0 period k baseId : Nat) (forceNext : Bool)
  /-- SNAP_PLAN_STOP (R360). SNAP_PLAN with OPT: removes the snapshot plan. -/
  | snapPlanStop (h : ReqHdr)
  /-- SNAP_PLAN_POINT (R361). At a plan point due for a snapshot, the centre queues a still and takes a snapshot, or skips the point. -/
  | snapPlanPoint
  /-- PEER_SET (R344). Writes an edge die's mode and peer table. -/
  | peerSet (h : ReqHdr) (die : Nat) (cut : Bool) (entries : List (Nat × Nat))
  /-- SNAP_DROP (R351). Retires a named snapshot. -/
  | snapDrop (h : ReqHdr) (id : Nat)
  /-- SNAP_QUERY (R363). Returns the snapshot registers and the field-area headers. -/
  | snapQuery (h : ReqHdr)
  /-- CRASH_LIST (R396). Lists committed crash records and both last-gasp slots. -/
  | crashList (h : ReqHdr) (count : Nat)
  /-- REC_POLICY (R396). Writes the recovery policy and binding of a system class. -/
  | recPolicy (h : ReqHdr) (cls action image : Nat)
  /-- MEND_NOW (R396). Retires a tile and mends its segment with no rollback. -/
  | mendNow (h : ReqHdr) (tile : Nat)
  /-- DEFECT_FLUSH (R396). Moves pending defect records from the Well to Spring. -/
  | defectFlush (h : ReqHdr)
  /-- RECOVERY_START (R372). Once the still of a STILL_DUMP action is declared, the centre starts the crash record and the recovery decision. -/
  | recoveryStart
  /-- RECOVERY_READY (R375). The recovery's restore completes; the wafer is READY and is released under RESUME AUTO. -/
  | recoveryReady
  /-- WELL_WRITE_DONE (R380). A crash record is written with COMMIT last, and the Well header is updated. -/
  | wellWriteDone
  /-- DEFECT_RECORD_WRITE (R388). After a mend press, the centre appends a defect record to Spring, or to the Well pending area. -/
  | defectRecordWrite (ok : Bool)
  /-- REC_OVERRUN (R389). A recovery passes 50 ms; REC_OVERRUN is set and the recovery continues. -/
  | recOverrun
  /-- WELL_BURST_TIMEOUT (R395). A 4 KiB Well burst passes 1 ms; it is retried once, then WELL_FAIL is set. -/
  | wellBurstTimeout
  /-- SPRING_PROGRAM_TIMEOUT (R395). A Spring page program passes 5 ms; the defect record goes to the pending area. -/
  | springProgramTimeout
  /-- LAST_GASP (R392). PF_WARN_N low for 32 cycles: class 0 stills the wafer and the last-gasp record is written to the Well. -/
  | lastGasp (lowCycles : Nat)
  /-- PF_WARN_RISE (R392). PF_WARN_N rises again; the wafer stays still for the host. -/
  | pfWarnRise
  /-- LC_TRANSITION (R451). Checks a life-cycle transition token and starts the transition sequencer. -/
  | lcTransition (h : ReqHdr) (target : Nat) (token : BitVec 256)
  /-- LC_TRANSITION_DONE (R452). The sequencer has programmed the intent, any wipe and the three copies; decoding confirms and a cold reset follows. -/
  | lcTransitionDone (wipeOk pfFell : Bool)
  /-- FW_WRITE (R465). Programs firmware image bytes, erasing the partition at OFFSET 0. -/
  | fwWrite (h : ReqHdr) (offset : Nat) (data : List Byte)
  /-- FW_COMMIT (R456). Verifies the written image and restarts the hub into it when it passes. -/
  | fwCommit (h : ReqHdr) (length : Nat)
  /-- COLD_RESET (R459). HUB_RESET_N low, a supply out of range, a completed transition or FW_COMMIT clears state and quiets every interface. -/
  | coldReset (cause lowNs : Nat)
  /-- START (R469). The cold reset ends and the start sequence runs its phases up to SERVICE or ROM minimal mode. -/
  | start
  /-- START_PHASE_DONE (R469). A start phase completes and the next phase begins. -/
  | startPhaseDone (r : PhaseReport)
  /-- WARM_RESET (R472). A centre warm reset restarts firmware from hub SRAM and resumes the centre's operations. -/
  | warmReset (cause : Nat) (copyOk : Bool)
  /-- HUB_WATCHDOG_EXPIRY (R472). The hub processor watchdog reaches 100 ms and starts a centre warm reset. -/
  | hubWatchdogExpiry (copyOk : Bool)
  /-- ENGINE_RESET (R472). ENG_RESET resets every agent core; stubs record RESET and set RELOAD. -/
  | engineReset
  /-- DARK_PENDING_RISE (R225). The stub saves the core's counters and raises DARK_READY. -/
  | darkPendingRise (tile : Nat) (savedOk : Bool)
  /-- DARK_PENDING_FALL (R225). DARK_PENDING falls before power is removed, cancelling the handshake. -/
  | darkPendingFall (tile : Nat)
  /-- DARK_SAVE_TIMEOUT (R225). The save is not complete 10 µs after DARK_PENDING; the stub raises DARK_READY and sets SAVE_LOST. -/
  | darkSaveTimeout (tile : Nat)
  /-- CORE_PWR_FALL (R141). The tile domain loses power; the stub records DARK, and a held transaction becomes VOID. -/
  | corePwrFall (tile : Nat)
  /-- CORE_PWR_RISE (R475). The tile domain is powered again; the core rebuilds core time and the stub restores counters and sets RELOAD. -/
  | corePwrRise (tile : Nat)
  /-- CORE_TIME_REBUILT (R98). The core has rebuilt core time from its stub and may act. `tile` and the level of VPEND. -/
  | coreTimeRebuilt (tile : Nat × Bool)
  /-- THR_REGION_CHANGE (R224). THR_REGION rises or falls; the stub watchdog pauses or restarts and the hang limit changes. -/
  | thrRegionChange (tile : Nat) (high stopped : Bool)
  /-- TCLK_RESUME (R140). TCLK runs again in a region stilled without a clock; the core asserts FRZ at its first edge. `tile` and the level of VPEND. -/
  | tclkResume (tile : Nat × Bool)
  /-- PLAN_RESTORE (R476). A core with RELOAD fetches and checks its plans and activates them, or counts a failure. -/
  | planRestore (tile : Nat) (ok : Bool)
  /-- REFCLK_LOSS (R90). REFCLK edges stop for 100 ns; the PLL enters holdover and ALIGN may degrade. -/
  | refclkLoss
  /-- REFCLK_RETURN (R90). REFCLK returns; the PLL relocks without a step and HOLDOVER clears. -/
  | refclkReturn
  /-- FLOCK_HOLD (R89). The port loses block lock while FLOCK is locked, and the loop enters hold. -/
  | flockHold
  /-- FLOCK_HOLD_TIMEOUT (R89). A hold lasts more than 1 ms; ALIGN becomes DEGRADED. -/
  | flockHoldTimeout
  /-- FLOCK_LOCKED (R88). The frequency loop acquires lock. -/
  | flockLocked
  /-- RILL_PACKET_ARRIVE (R45). A router forwards a packet, or drops it for KIND, LEN or CRC. -/
  | rillPacketArrive (node : Node) (port : Nat) (pkt : Packet)
  /-- MCAST_COPY (R56). A router holds an MREQ in a multicast buffer and copies it to its branches. `credit` names the branches that can send; with it whether the packet's CRC-16 is right. -/
  | mcastCopy (node : Node) (tag : Nat) (credit : List Nat × Bool)
  /-- MCAST_BRANCH_TIMEOUT (R57). A copy waits 20 µs for credit; it is dropped and its members reported BUFFER. -/
  | mcastBranchTimeout (node : Node) (tag branch : Nat)
  /-- MRSP_COMBINE (R58). A router combines its branches' replies into one MRSP. `tag`, and whether the combined reply's CRC-16 is right where it arrives. -/
  | mrspCombine (node : Node) (tag : Nat × Bool)
  /-- COMBINER_TIMEOUT (R58). A branch has not answered 24 µs after the copy; it is counted NOREPLY. -/
  | combinerTimeout (node : Node) (tag branch : Nat)
  /-- RILL_REPLY (R60). The centre receives an RSP or MRSP, or resends a READ or CENSUS that counted lost members. `tag` and whether its CRC-16 is right. -/
  | rillReply (tag : Nat × Bool)
  /-- RILL_RESPONSE_TIMEOUT (R60). No reply within the Rill response timeout; the centre resends once or reports TIMEOUT. -/
  | rillResponseTimeout (kind arg : Nat)
  /-- STUB_READ (R47). A stub carries out a READ of agent, stub or tile SRAM words. -/
  | stubRead (tile tag : Nat)
  /-- STUB_WRITE (R47). A stub carries out a WRITE. -/
  | stubWrite (tile tag : Nat)
  /-- STUB_CENSUS (R76). A stub evaluates a census predicate and replies for combining. -/
  | stubCensus (tile tag : Nat)
  /-- FETCH (R61). An agent fetches plan blocks from hub SRAM by MREAD. -/
  | fetch (tile : Nat) (restore : Bool) (plan : Nat)
  /-- COPYOUT (R47). A stub streams tile data as BULK packets. -/
  | copyout (tile offset len : Nat)
  /-- CLOSE_EPOCH (R47). A router closes a fold epoch on the centre's request. -/
  | closeEpoch (router foldId : Nat)
  /-- CORE_TIMEOUT (R77). The core has not answered within 1 µs; the stub answers CORE_TIMEOUT. -/
  | coreTimeout (tile tag : Nat)
  /-- MREAD_ARRIVE (R61). An MREAD merges into an open entry, or opens one and is forwarded. `plan` and whether its CRC-16 is right. -/
  | mreadArrive (holder sender : Node) (addr len : Nat) (plan : Nat × Bool)
  /-- MDATA_RETURN (R61). MDATA returns; the holder multicasts it to the requester set and frees the entry. `data` and whether its CRC-16 is right. -/
  | mdataReturn (holder : Node) (addr len plan : Nat) (data : List Word × Bool)
  /-- WEIR_SLIP (R75). A weir's pointer separation reaches 2 or 6; it records a slip and retrains. -/
  | weirSlip (weir separation : Nat)
  /-- WEIR_RETRAIN_DONE (R75). The weir has drained and reset its pointers, and it restores credits. -/
  | weirRetrainDone (weir : Nat)
  /-- LINK_GATE (R474). In QUIET, a 64-bit link gates its serialiser after 64 idle RCLK cycles. -/
  | linkGate (link : Nat)
  /-- EDGE_LINK_DOWN (R157). An edge agent raises class 6 for an optical link down or an edge log overflow. -/
  | edgeLinkDown (die : Nat) (overflow : Bool)
  /-- STATUS_FRAME (R423). At each 10 µs tick the hub sends a 64-byte status frame. -/
  | statusFrame
  /-- DATA_FRAME (R408). The hub accepts a DATA frame and assembles its request fragment, or drops it with a NAK. -/
  | dataFrame (octets : List Byte) (aborted : Bool)
  /-- ACK_FRAME (R406). An ACK from the host frees acknowledged DATA frames. -/
  | ackFrame (gen ack : Nat)
  /-- NAK_FRAME (R407). A NAK from the host makes the hub resend from its oldest unacknowledged frame. -/
  | nakFrame (gen ack reason : Nat)
  /-- KEEPALIVE (R409). A KEEPALIVE frame carries an acknowledgement and shows the link alive. -/
  | keepalive (gen ack : Nat)
  /-- PORT_ACK_TIMEOUT (R407). A DATA frame is unacknowledged for 200 µs; the hub resends, and after 16 timeouts resets the link. -/
  | portAckTimeout
  /-- HOST_SILENT_TIMEOUT (R409). No valid frame has arrived for 1 ms; the hub starts a port link reset. -/
  | hostSilentTimeout
  /-- BLOCK_LOCK_LOST (R436). The PCS loses block lock; status frames continue. -/
  | blockLockLost
  /-- BLOCK_LOCK_REGAINED (R409). Block lock returns after more than 1 µs without it; the hub starts a port link reset. -/
  | blockLockRegained
  /-- LRESET (R410). A received LRESET is answered with LRESET_ACK, and the link reset is applied. -/
  | lreset (gen : Nat)
  /-- LRESET_ACK (R410). An LRESET_ACK with the new GEN completes a link reset the hub started. -/
  | lresetAck (gen : Nat)
  /-- LRESET_REPEAT (R410). Every 10 µs without LRESET_ACK, the hub repeats LRESET. -/
  | lresetRepeat
  /-- TAP_RESET (R440). TRST_N or Test-Logic-Reset resets the TAP and ends the mailbox session. -/
  | tapReset
  /-- MBOX_GO (R439). GO hands the mailbox fragment to the hub as a request. -/
  | mboxGo
  /-- MBOX_ABORT (R439). ABORT empties both mailbox buffers. -/
  | mboxAbort
  /-- MBOX_DATA_WRITE (R439). Update-DR under MBOX_DATA appends 64 bits to the request buffer while IDLE. -/
  | mboxDataWrite (w : Word)
  /-- MBOX_DATA_READ (R439). Capture-DR under MBOX_DATA removes 64 bits from the response buffer. -/
  | mboxDataRead
  /-- TAP_INSTRUCTION (R437). An instruction selects a TAP data register, or acts as BYPASS where the state forbids it. -/
  | tapInstruction (code : Nat)
  /-- VPEND_FALL (R126). The tile's outstanding memory-side replies have landed and VPEND falls, so a shim that deferred the tile may copy its image. -/
  | vpendFall (tile : Nat)
  /-- EG_FROZEN_RISE (R349). The optical I/O die's link layer raises EG_FROZEN once every egress queue holds. -/
  | egFrozenRise (die : Nat)
  /-- CONTROLLER_FATAL_STATE (R368). A memory-side controller reports a fatal state; the centre raises class 7 and treats the die as lost, which acts as STILL_DUMP with outcome LEAVE. -/
  | controllerFatalState (field : Nat)
  /-- VDD_AON_FALL (R502). VDD_AON leaves its tolerance while HUB_RESET_N is high; stub, ring and still-mask contents become undefined, and the centre reports a failed census of every stub. -/
  | vddAonFall
  /-- PRESS_PLACE_TIMEOUT (R198). No action-queue entry has freed by D − 1 µs for a checked transaction's PRESS, and the transaction rinses with cause TIMEOUT. -/
  | pressPlaceTimeout
  /-- RETURN_TO_ACTIVE_DONE (R474). The return from QUIET to ACTIVE completes within 20 µs, WAKING clears, and the request or action that waited proceeds. -/
  | returnToActiveDone
  /-- SPRING_OPERATION_DONE (R488). A Spring page program or 64 KiB block erase completes, as found by status polling, and the xSPI bus is free for the next operation. -/
  | springOperationDone
  deriving DecidableEq, Repr

end Sys2Proof
end

