-- ==== Sys2Proof/Machine/State.lean ====
section
/-! DEFINITION. The state of the block: every register, queue, buffer, table and signal the spec gives it, as plain
data. Each field's line says its width, the file and rule of spec/ that names it, and its reset value; "DESIGN CHOICE"
names the row of the assumption log (notes/assumptions). A structure's default values are its reset values. -/

namespace Sys2Proof.Machine

/-- Why the block stops with a fault. The spec stops the block on no command, so there is no constructor: nothing
raises a fault, which is neither safe nor unsafe. -/
inductive Fault where
  deriving DecidableEq, Repr

/-- Why the model gives a command no meaning. -/
inductive Refusal where
  /-- The command has no meaning yet in this model. Raised by an arm of `Machine/Dispatch.lean`. Safe: the model stops
  where the block goes on. -/
  | notModelled (mnemonic : String)
  deriving DecidableEq, Repr

/-- A still-tree action held by the centre (04 R118) or by a stub (03 R96). -/
structure StillAction where
  /-- 3 bits; 02 R79 ACTION; written when queued. -/
  kind : Nat := 1
  /-- 4 bits; 02 R79 SCOPE; written when queued. -/
  scope : Nat := 0
  /-- 64 bits; 04 R118 target tick; written when queued. -/
  tick : Nat := 0
  /-- 64 bits; 03 R93 launch time computed when queued; written when queued. -/
  launchAt : Nat := 0
  /-- 3 bits; 04 R118 R160 R361: 0 host, 1 alarm, 2 step, 3 snapshot, 4 centre retry, 5 press, 6 recovery or drain release; written when queued. -/
  origin : Nat := 0
  /-- 16 bits; 06 R198 the transaction of a PRESS; written when queued. -/
  txn : Nat := 0
  /-- 1 bit; 02 R80 at a stub, the word arrived past its tick and LATE_ACTION is recorded; written when captured. -/
  late : Bool := false
  deriving DecidableEq, Repr, Inhabited

/-- SK_REGION[n] (04 R154). -/
structure Region where
  /-- 1 bit; 04 R154 VALID; 0. -/
  valid : Bool := false
  /-- 10 bits; 04 R154; 0. -/
  lx0 : Nat := 0
  /-- 10 bits; 04 R154; 0. -/
  lx1 : Nat := 0
  /-- 9 bits; 04 R154; 0. -/
  ly0 : Nat := 0
  /-- 9 bits; 04 R154; 0. -/
  ly1 : Nat := 0
  deriving DecidableEq, Repr, Inhabited

/-- Hub time, alignment and clocks (03). -/
structure TimeState where
  /-- 64 bits; 03 R84 SK_TIME; 0 (R85). -/
  hub : Nat := 0
  /-- 1 bit; 03 R85 the PLL is locked and the time base counts; DESIGN CHOICE false (log 3). -/
  running : Bool := false
  /-- 32 bits; 03 R87 upper half latched by the last 4-byte read of the lower half; DESIGN CHOICE 0 (log 3). -/
  latch : Nat := 0
  /-- 1 bit; 16 R487 SK_TIME_CTL.FLOCK_EN; 0. -/
  flockEn : Bool := false
  /-- 8 bits; 16 R487 SK_TIME_CTL.STEER_PPM; 100. -/
  steerPpm : Nat := 100
  /-- 2 bits; 03 R105 FLOCK; 0. -/
  flock : Nat := 0
  /-- 1 bit; 03 R105 HOLDOVER; 0. -/
  holdover : Bool := false
  /-- 1 bit; 03 R105 STEERING; 0. -/
  steering : Bool := false
  /-- 1 bit; 03 R105 STEPPED; 0. -/
  stepped : Bool := false
  /-- 1 bit; 03 R105 DRIFT; 0. -/
  drift : Bool := false
  /-- 2 bits; 03 R105 ALIGN; 0. -/
  align : Nat := 0
  /-- signed 64 bits; 03 R101 correction c of the steer in progress, from which 16 R487 SK_TIME_STEER is reckoned; 0. -/
  steerRemain : Int := 0
  /-- 64 bits; 03 R101 hub time from which the steer runs at the present STEER_PPM; DESIGN CHOICE 0 (log 3). -/
  steerFrom : Nat := 0
  /-- 03 R101 difference accumulated before steerFrom, in millionths of 1 ns; DESIGN CHOICE 0 (log 3). -/
  steerAcc : Nat := 0
  /-- 64 bits; 03 R89 hub time at which a hold began; none. -/
  holdSince : Option Nat := none
  /-- 48 x 16 bits; 16 R487 SK_FIELD_DELAY; 0. -/
  fieldDelay : Map Nat := []
  /-- 16 bits; 16 R487 SK_LSTILL; 0. -/
  lstill : Nat := 0
  /-- 64 bits; 03 R94 tick M of the mark in preparation; none. -/
  markTick : Option Nat := none
  /-- 64 bits; 03 R94 hub time at which the last mark word was launched; DESIGN CHOICE 0 (log 3). -/
  markAt : Nat := 0
  /-- 16 bits; 16 R487 SK_RILL_TMO; 30. -/
  rillTmo : Nat := 30
  deriving DecidableEq, Repr, Inhabited

/-- A still that awaits its census, or the repeat of it (04 R129, R132). -/
structure Confirm where
  /-- 04 R129 the STILL; written at launch. -/
  act : StillAction := {}
  /-- 64 bits; 04 R132 hub time of the repeated census; none. -/
  repeatAt : Option Nat := none
  /-- 1 bit; 04 R135 its census could not complete; false. -/
  failed : Bool := false
  deriving DecidableEq, Repr, Inhabited

/-- The still-tree root, the still census and SK_STILL_STATUS (04). -/
structure RootState where
  /-- 64 entries; 04 R118; empty (15 R473). -/
  queue : List StillAction := []
  /-- words launched whose outcome is not yet known; 02 R80; DESIGN CHOICE empty (log 3). -/
  launched : List StillAction := []
  /-- 64 bits; 02 R79 hub time of the last launch; DESIGN CHOICE 0 (log 3). -/
  lastLaunch : Nat := 0
  /-- 20 bits; 04 R153 STRAG_COUNT; 0. -/
  stragCount : Nat := 0
  /-- 15 bits; 04 R153 REGIONS, bit n for region n; 0. -/
  regionsStill : BitVec 16 := 0
  /-- 1 bit; 04 R153 CENSUS_FAIL; 0. -/
  censusFail : Bool := false
  /-- 1 bit; 04 R153 REL_CANCEL; 0. -/
  relCancel : Bool := false
  /-- 1 bit; 04 R153 RETRIED; 0. -/
  retried : Bool := false
  /-- 3 bits; 04 R153 STEP; 0. -/
  stepKind : Nat := 0
  /-- 4 bits; 04 R153 WSTATE; 0. -/
  wstate : Nat := 0
  /-- 64 bits; 16 R487 SK_STILL_T; 0. -/
  stillT : Nat := 0
  /-- 15 x 64 bits; 04 R154 SK_REGION; 0. -/
  regions : Map Region := []
  /-- 256 entries; 04 R131 straggler list; DESIGN CHOICE empty (log 3). -/
  stragglers : List Nat := []
  /-- 4 bits; 04 R131 scope of the straggler list; DESIGN CHOICE 0 (log 3). -/
  stragScope : Nat := 0
  /-- 20 bits; 04 R130 OK_COUNT of the last still census; DESIGN CHOICE 0 (log 3). -/
  okCount : Nat := 0
  /-- 20 bits; 12 R516 NAK_COUNT of the last still census; DESIGN CHOICE 0 (log 3). -/
  nakCount : Nat := 0
  /-- 32 bits; 04 R129 FLAGS_OR of the last still census; DESIGN CHOICE 0 (log 3). -/
  flagsOr : Nat := 0
  /-- stills whose census is due, oldest first; 04 R129 R132; DESIGN CHOICE empty (log 3). -/
  confirm : List Confirm := []
  /-- 4 bits; 04 R145 scope of the step; DESIGN CHOICE 0 (log 3). -/
  stepScope : Nat := 0
  /-- 1 bit; 04 R117 R142 the step's RELEASE has been launched; DESIGN CHOICE false (log 3). -/
  stepReleased : Bool := false
  /-- 64 bits; 04 R146 R148 tick of the closing STILL; DESIGN CHOICE 0 (log 3). -/
  stepClose : Nat := 0
  /-- 8 bits; 04 R148 K of the command step; DESIGN CHOICE 0 (log 3). -/
  stepK : Nat := 0
  /-- 20 bits; 04 R150; DESIGN CHOICE 0 (log 3). -/
  selfStilled : Nat := 0
  /-- 20 bits; 04 R150; DESIGN CHOICE 0 (log 3). -/
  blocked : Nat := 0
  /-- 20 bits; 04 R150; DESIGN CHOICE 0 (log 3). -/
  idle : Nat := 0
  /-- up to 10; 04 R150 LIST of the census of blocked tiles; DESIGN CHOICE empty (log 3). -/
  blockedList : List Nat := []
  /-- 4 bits; 04 R145 WSTATE when the step's RELEASE was launched; DESIGN CHOICE 0 (log 3). -/
  stepPrior : Nat := 0
  /-- 04 R118 the centre's own actions that wait for room in the queue; DESIGN CHOICE empty (log 3). -/
  waiting : List StillAction := []
  /-- 04 R142 actions discarded by a warm reset; DESIGN CHOICE empty (log 3). -/
  discarded : List StillAction := []
  deriving DecidableEq, Repr, Inhabited

/-- SK_CLASS[c] (05 R183). -/
structure ClassBinding where
  /-- 16 bits; 05 R183 HOLD; 0. -/
  hold : Nat := 0
  /-- 8 bits; 05 R183 LIMIT; 0. -/
  limit : Nat := 0
  /-- 8 bits; 05 R183 USED; 0. -/
  used : Nat := 0
  /-- 1 bit; 05 R183 FROM_PLAN; 0. -/
  fromPlan : Bool := false
  /-- 4 bits; 05 R183 REGION; 0. -/
  region : Nat := 0
  /-- 3 bits; 05 R183 ACTION; 0, and 5 for class 0. -/
  action : Nat := 0
  deriving DecidableEq, Repr, Inhabited

/-- The alarm action that runs (05 R162). -/
structure AlarmAction where
  /-- 3 bits; 05 R159; written when it starts. -/
  action : Nat := 0
  /-- 4 bits; 05 R162 the class it takes HOLD and region from; written when it starts. -/
  cls : Nat := 0
  /-- 4 bits; 05 R160 the scope it stilled; written when it starts. -/
  scope : Nat := 0
  /-- 64 bits; 04 R119 tick of its STILL; written when it starts. -/
  tick : Nat := 0
  /-- 64 bits; 05 R158 hub time of acceptance; written when it starts. -/
  accepted : Nat := 0
  /-- 16 bits; 05 R160 HOLD in us; written when it starts. -/
  hold : Nat := 0
  /-- 64 bits; 05 R160 when the still was declared or the snapshot completed; none. -/
  declaredAt : Option Nat := none
  /-- 1 bit; 01 R30 05 R160 its own STILL alone holds the scope; written when it starts. -/
  issued : Bool := true
  /-- 1 bit; 05 R160 its snapshot is being copied; written when the snapshot starts. -/
  snapWait : Bool := false
  deriving DecidableEq, Repr, Inhabited

/-- A class wire of the alarm tree as the root sees it (02 R78). -/
structure Wire where
  /-- 64 bits; 02 R78 hub time the wire rose; DESIGN CHOICE 0 (log 3). -/
  since : Nat := 0
  /-- 64 bits; 02 R78 hub time it falls unless it is driven again; DESIGN CHOICE 0 (log 3). -/
  until_ : Nat := 0
  /-- 1 bit; 02 R78 the root has accepted this pulse; false. -/
  taken : Bool := false
  deriving DecidableEq, Repr, Inhabited

/-- The alarm root (05 R183). -/
structure AlarmState where
  /-- 1 bit; 15 R459 R469 the root accepts classes; false (R459). -/
  enabled : Bool := false
  /-- 16 bits; 05 R183 RAISED; 0. -/
  raised : BitVec 16 := 0
  /-- 16 bits; 05 R183 DISARMED; 0. -/
  disarmed : BitVec 16 := 0
  /-- 1 bit; 05 R183 ABANDONED; 0. -/
  abandoned : Bool := false
  /-- 1 bit; 05 R183 SNAP_SKIPPED; 0. -/
  snapSkipped : Bool := false
  /-- 16 x 64 bits; 05 R183 SK_CLASS; 5 for class 0, else 0. -/
  classes : Map ClassBinding := [(0, { action := 5 })]
  /-- 05 R162 the action in progress; none. -/
  running : Option AlarmAction := none
  /-- 05 R162 the stronger action that waits on the wafer still; none. -/
  next : Option AlarmAction := none
  /-- 16; 02 R78 the class wires; empty. -/
  wires : Map Wire := []
  /-- 6 bits; 12 R392 HCLK cycles PF_WARN_N has been low, up to 32; DESIGN CHOICE 0 (log 3). -/
  pfLow : Nat := 0
  /-- 64 bits; 15 R470 hub time of the last rise of PF_WARN_N; DESIGN CHOICE 0 (log 3). -/
  pfRoseAt : Nat := 0
  /-- 1 bit; 12 R392 PF_WARN_N is low; DESIGN CHOICE false (log 3). -/
  pfWarn : Bool := false
  deriving DecidableEq, Repr, Inhabited

/-- A transaction of the host or of the centre (06). -/
structure Txn where
  /-- 16 bits; 06 R189; assigned at open. -/
  id : Nat := 0
  /-- 16 bits; 06 R188; from TXN_OPEN. -/
  mapEpoch : Nat := 0
  /-- 14 bits; 06 R188; from TXN_OPEN or SK_TXN_CTL. -/
  tmo : Nat := 100
  /-- 16 bits; 06 R188 the owning session; from TXN_OPEN. -/
  owner : Nat := 0
  /-- 4 MiB; 06 R189; empty at open. -/
  entries : List TxnEntry := []
  /-- 1 bit; 06 R190; false at open. -/
  committed : Bool := false
  /-- 64 bits; 06 R188 TICK of TXN_COMMIT; 0. -/
  tick : Nat := 0
  /-- 1 bit; 06 R188; false. -/
  atEarliest : Bool := false
  /-- 1 bit; 06 R210 CENTRE; false. -/
  centre : Bool := false
  /-- 4 bits; 06 R192: 0 host, 1 watch plan, 2 counter plan, 3 trace plan, 4 mend; written at open. -/
  purpose : Nat := 0
  /-- 1 bit; 06 R202 a second staging is in progress; false. -/
  restaged : Bool := false
  /-- 13 R411 the request that is answered when it closes; none. -/
  reply : Option ReqHdr := none
  deriving DecidableEq, Repr, Inhabited

/-- A STAGE packet that a target has answered (06 R195). -/
structure StageSent where
  /-- 19 bits; 06 R195; when answered. -/
  tile : Nat := 0
  /-- 10 bits; 06 R193 OFFSET; when answered. -/
  offset : Nat := 0
  /-- 3 bits; 06 R193 staged words carried; when answered. -/
  words : Nat := 0
  /-- 1 bit; 06 R193 FINAL; when answered. -/
  final : Bool := false
  deriving DecidableEq, Repr, Inhabited

/-- SK_TXN_STATUS, SK_TXN_CTL and the transaction in progress (06 R210). -/
structure TxnState where
  /-- 16 bits; 06 R210 TXN_ID; 0. -/
  id : Nat := 0
  /-- 20 bits; 06 R210 TARGETS; 0. -/
  targets : Nat := 0
  /-- 4 bits; 06 R210 CAUSE; 0. -/
  cause : Nat := 0
  /-- 1 bit; 06 R210 LOSTSEEN; 0. -/
  lostSeen : Bool := false
  /-- 1 bit; 06 R210 CENTRE; 0. -/
  centre : Bool := false
  /-- 4 bits; 06 R210 TSTATE; 0. -/
  tstate : Nat := 0
  /-- 14 bits; 06 R210 STAGE_TMO; 100. -/
  stageTmo : Nat := 100
  /-- 64 bits; 06 R210 SK_TXN_T; 0. -/
  t : Nat := 0
  /-- 64 bits; 06 R210 SK_TXN_D; 0. -/
  d : Nat := 0
  /-- 06 R192 the host transaction; none. -/
  host : Option Txn := none
  /-- 06 R192 the transaction that stages or presses; none. -/
  active : Option Txn := none
  /-- 06 R192 centre transactions that wait; empty. -/
  waiting : List Txn := []
  /-- 16 bits; 06 R189 last identifier assigned; DESIGN CHOICE 0 (log 3). -/
  lastId : Nat := 0
  /-- 20 bits; 06 R197 FINAL replies OK; DESIGN CHOICE 0 (log 3). -/
  okCount : Nat := 0
  /-- 20 bits; 06 R197 NAKs; DESIGN CHOICE 0 (log 3). -/
  nakCount : Nat := 0
  /-- 64 bits; 06 R197 XOR of the digests answered; DESIGN CHOICE 0 (log 3). -/
  digestXor : Word := 0
  /-- 19 bits; 02 R58 FIRST_NAK; none. -/
  firstNak : Option Nat := none
  /-- 4 bits; 02 R58 FIRST_REASON; DESIGN CHOICE 0 (log 3). -/
  firstReason : Nat := 0
  /-- 06 R195 STAGE packets of this staging that have been answered; empty. -/
  answered : List StageSent := []
  /-- 1 bit; 06 R200 targets in APPLYING are counted once more; DESIGN CHOICE false (log 3). -/
  recount : Bool := false
  /-- 06 R206 the TXN_COMMIT that is answered once the last-gasp record is written; none. -/
  owed : Option ReqHdr := none
  /-- 256 entries; 06 R200 targets not APPLIED; DESIGN CHOICE empty (log 3). -/
  lost : List Nat := []
  /-- 1 bit; 06 R201 the PRESS word has been launched; DESIGN CHOICE false (log 3). -/
  pressed : Bool := false
  /-- 1 bit; 05 R177 06 R207 the centre's own changes at T_P are made; DESIGN CHOICE false (log 3). -/
  centreDone : Bool := false
  /-- 2 bits; 15 R470 12 R385 rinses of a start or mend transaction; DESIGN CHOICE 0 (log 3). -/
  mapTries : Nat := 0
  deriving DecidableEq, Repr, Inhabited

/-- Stub time and marks (03 R94, 16 R492). -/
structure StubTime where
  /-- 67 bits; 03 R94 stub time minus hub time in 1/8 ns, modulo 2^67; DESIGN CHOICE 0 (log 3). -/
  off8 : Nat := 0
  /-- 1 bit; 16 R492 TIME_UNSET; 1. -/
  unset : Bool := true
  /-- 32 bits; 16 R492 ST_TIME_HI; 0. -/
  hi : Nat := 0
  /-- 16 bits; 16 R492 ST_TIME_COMP; 0. -/
  comp : Nat := 0
  /-- 1 bit; 03 R94 ST_TIME_HI written since the last mark; DESIGN CHOICE false (log 3). -/
  armedHi : Bool := false
  /-- 1 bit; 03 R94 ST_TIME_COMP written since the last mark; DESIGN CHOICE false (log 3). -/
  armedComp : Bool := false
  /-- 1 bit; 10 R303 between the write of ST_TIME_HI and the mark; DESIGN CHOICE false (log 3). -/
  marking : Bool := false
  /-- 16 bits; 03 R103 ST_TIME_COMP loaded at the last mark; DESIGN CHOICE 0 (log 3). -/
  compAtMark : Nat := 0
  deriving DecidableEq, Repr, Inhabited

/-- Power, reset and thermal signals of a stub (07 R224, 06 R205, 12 R381). -/
structure StubPower where
  /-- 1 bit; 16 R492 CORE_PWR_OK; 0. -/
  pwrOk : Bool := false
  /-- 1 bit; 16 R492 CORE_READY; 0. -/
  ready : Bool := false
  /-- 1 bit; 16 R492 DARK_PENDING; 0. -/
  darkPending : Bool := false
  /-- 1 bit; 07 R224 DARK_READY; high (15 R459). -/
  darkReady : Bool := true
  /-- 1 bit; 16 R492 THR; 0. -/
  thr : Bool := false
  /-- 1 bit; 04 R140 TCLK is stopped in a powered region; DESIGN CHOICE false (log 3). -/
  noClock : Bool := false
  /-- 1 bit; 11 R336 HOLD_AWAKE for a snapshot copy; low (15 R459). -/
  holdSnap : Bool := false
  /-- 64 bits; 07 R225 hub time DARK_PENDING rose; DESIGN CHOICE 0 (log 3). -/
  pendingAt : Nat := 0
  /-- 1 bit; 12 R399 RETIRED, drives TILE_RETIRE; 0. -/
  retired : Bool := false
  /-- 1 bit; 12 R399 CWDT_FIRED; 0. -/
  cwdtFired : Bool := false
  /-- 1 bit; 12 R369 expired and increments have not resumed; DESIGN CHOICE false (log 3). -/
  cwdtHeld : Bool := false
  /-- 64 bits; 12 R369 the stub's time of the last increment or return to zero; DESIGN CHOICE 0 (log 3). -/
  cwdtSince : Nat := 0
  /-- 1 bit; 15 R470 17 R502 the stub's replies reach the centre; DESIGN CHOICE true (log 8). -/
  answers : Bool := true
  deriving DecidableEq, Repr, Inhabited

/-- A RELEASE that acted during a still-copy hold and takes effect when that ends (09 R287). -/
structure HeldRelease where
  /-- 4 bits; 04 R108; written when it acts. -/
  scope : Nat := 0
  /-- 1 bit; 04 R156 the command queue was empty; written when it acts. -/
  idle : Bool := false
  /-- 1 bit; 04 R145 the RELEASE of a step; written when it acts. -/
  step : Bool := false
  deriving DecidableEq, Repr, Inhabited

/-- ST_STILL, ST_STEP, ST_STEP_K, ST_REGION and the freeze signals (04 R155, R156, R122). -/
structure StubStill where
  /-- 16 bits; 04 R155 MASK; 0. -/
  mask : BitVec 16 := 0
  /-- 3 bits; 04 R155 STATE; 0. -/
  state : Nat := 0
  /-- 40 bits; 04 R155 FRZ_TS; 0. -/
  frzTs : Nat := 0
  /-- 1 bit; 04 R155 LATEFRZ; 0. -/
  lateFrz : Bool := false
  /-- 1 bit; 04 R155 MISSED; 0. -/
  missed : Bool := false
  /-- actions captured and not yet acted; 03 R96; empty. -/
  pending : List StillAction := []
  /-- 64 bits; 04 R155 tick of the last STILL; DESIGN CHOICE 0 (log 3). -/
  actTick : Nat := 0
  /-- 64 bits; 04 R124 hub time of edge E; DESIGN CHOICE 0 (log 3). -/
  edgeAt : Nat := 0
  /-- 1 bit; 04 R122 FRZ; low (15 R459). -/
  frz : Bool := false
  /-- 1 bit; 04 R122 FRZ_ACK as last reported; DESIGN CHOICE false (log 3). -/
  frzAck : Bool := false
  /-- 1 bit; 04 R122 RFRZ_ACK as last reported; DESIGN CHOICE false (log 3). -/
  rfrzAck : Bool := false
  /-- 1 bit; 04 R122 VPEND; DESIGN CHOICE false (log 3). -/
  vpend : Bool := false
  /-- 16 bits; 04 R156 STEP_CYC; 0. -/
  stepCyc : Nat := 0
  /-- 1 bit; 04 R156 IDLE; 0. -/
  idle : Bool := false
  /-- 8 bits; 04 R156 STEP_RUN; 0. -/
  stepRun : Nat := 0
  /-- 8 bits; 16 R492 STEP_K; 0. -/
  stepK : Nat := 0
  /-- 16 bits; 04 R156 ST_REGION; 0. -/
  region : BitVec 16 := 0
  /-- RELEASEs that acted during a still-copy hold; 09 R287; DESIGN CHOICE empty (log 3). -/
  heldRel : List HeldRelease := []
  /-- 1 bit; 04 R139 a step is in progress on this tile; DESIGN CHOICE false (log 3). -/
  stepping : Bool := false
  deriving DecidableEq, Repr, Inhabited

/-- ST_TXN, ST_TXN_DIGEST, ST_IDENT and the staged set (06 R211). -/
structure StubTxn where
  /-- 16 bits; 06 R211 TXN_ID; 0. -/
  id : Nat := 0
  /-- 10 bits; 06 R211 WORDS; 0. -/
  words : Nat := 0
  /-- 3 bits; 06 R211 TSTATE; 0. -/
  tstate : Nat := 0
  /-- 1 bit; 06 R211 VOID; 0. -/
  void : Bool := false
  /-- 1 bit; 06 R211 HOLD; 0. -/
  hold : Bool := false
  /-- 64 bits; 06 R211 DEADLINE_LO, kept widened (R193); 0. -/
  deadline : Nat := 0
  /-- 64 bits; 06 R211 ST_TXN_DIGEST; 0. -/
  digest : Word := 0
  /-- 512 x 64 bits; 06 R184 the staged set; empty. -/
  staged : Map Word := []
  /-- 512 bits; 06 R194 the words of the staged set that have been written; empty. -/
  written : List Nat := []
  /-- 16 bits; 06 R211 MAP_EPOCH; 0. -/
  mapEpoch : Nat := 0
  /-- 8 bits; 06 R211 CTX_EPOCH; 0. -/
  ctxEpoch : Nat := 0
  /-- 1 bit; 06 R211 LTN_VALID; 0. -/
  ltnValid : Bool := false
  /-- 19 bits; 06 R211 LTN; 0. -/
  ltn : Nat := 0
  deriving DecidableEq, Repr, Inhabited

/-- ST_PLAN, ST_PLAN_DIGEST, ST_CNT, ST_LC (15 R479, 07 R242, 16 R492). -/
structure StubPlan where
  /-- 8 bits; 15 R479 WATCH_ID; 0. -/
  watchId : Nat := 0
  /-- 8 bits; 15 R479 CNT_ID; 0. -/
  cntId : Nat := 0
  /-- 2 bits; 15 R479 FAILS; 0. -/
  fails : Nat := 0
  /-- 1 bit; 15 R479 RELOAD; 0. -/
  reload : Bool := false
  /-- 64 bits; 15 R479 ST_PLAN_DIGEST; 0. -/
  digest : Word := 0
  /-- 32 bits; 07 R242 CLOSED_STEP; all ones. -/
  closedStep : Nat := 4294967295
  /-- 1 bit; 07 R242 OVERRUN; 0. -/
  overrun : Bool := false
  /-- 1 bit; 07 R242 SAVE_LOST; 0. -/
  saveLost : Bool := false
  /-- 1 bit; 07 R242 SAVED; 0. -/
  saved : Bool := false
  /-- 64 bits; 07 R242 ST_LC_BASE; 0. -/
  lcBase : Nat := 0
  /-- 10 x 48 bits; 16 R492 ST_LC; 0. -/
  lc : Map Nat := []
  deriving DecidableEq, Repr, Inhabited

/-- The eddy ring and its registers (10 R325). -/
structure StubEddy where
  /-- 64 x 128 bits (32 on SK-S); 10 R325 ST_EDDY; 0. -/
  ring : Map Eddy := []
  /-- 6 bits; 10 R325 HEAD; 0. -/
  head : Nat := 0
  /-- 1 bit; 10 R325 WRAPPED; 0. -/
  wrapped : Bool := false
  /-- 8 bits; 10 R325 SEQ; 0. -/
  seq : Nat := 0
  /-- 7 bits; 10 R325 UNSENT; 0. -/
  unsent : Nat := 0
  /-- 32 bits; 10 R325 LOST_STREAM; 0. -/
  lostStream : Nat := 0
  /-- 32 bits; 10 R313 records lost since the last chunk; DESIGN CHOICE 0 (log 3). -/
  streamGap : Nat := 0
  /-- 64 records (32 on SK-S); 10 R313 unsent records, oldest first; empty. -/
  streamQ : List Eddy := []
  /-- 8 bits; 10 R325 MASK; 0xFF. -/
  mask : BitVec 8 := 0xFF
  /-- 16 bits; 10 R325 FLUSH_US; 100. -/
  flushUs : Nat := 100
  /-- 4 bits; 10 R325 FULL_CLASS; 0. -/
  fullClass : Nat := 0
  /-- 2 bits; 10 R325 POLICY; 0. -/
  policy : Nat := 0
  /-- 1 bit; 10 R325 FREEZE; 0. -/
  freeze : Bool := false
  /-- 1 bit; 10 R325 MODE; 0. -/
  stream : Bool := false
  /-- 64 bits; 10 R308 hub time FREEZE was set; DESIGN CHOICE 0 (log 3). -/
  freezeAt : Nat := 0
  /-- 32 bits; 10 R308 records held back by FREEZE; DESIGN CHOICE 0 (log 3). -/
  held : Nat := 0
  /-- 10 R308 records held back that a stream still sends; empty. -/
  heldQ : List Eddy := []
  /-- 4 bits; 10 R306 records in the write queue in this RCLK cycle; DESIGN CHOICE 0 (log 3). -/
  wq : Nat := 0
  /-- 64 bits; 10 R306 RCLK cycle the occupancy counts from; DESIGN CHOICE 0 (log 3). -/
  wqCycle : Nat := 0
  /-- 4 bits; 10 R306 events of that cycle written so far; DESIGN CHOICE 0 (log 3). -/
  burst : Nat := 0
  /-- 32 bits; 10 R306 events lost since the last GAP; DESIGN CHOICE 0 (log 3). -/
  lostQ : Nat := 0
  /-- 4 x 65 bits; 10 R305 stub time plus one of the last record of each limited kind; none written. -/
  lastKind : Map Nat := []
  /-- 1 bit; 10 R313 a flush the stub has not carried out for want of credit; DESIGN CHOICE false (log 3). -/
  flushAsked : Bool := false
  /-- 1 bit; 10 R317 FULL_CLASS driven and UNSENT not yet below 16; DESIGN CHOICE false (log 3). -/
  fullDriven : Bool := false
  deriving DecidableEq, Repr, Inhabited

/-- Hang watchdog, wait descriptors and stub error counts (10 R325, 02, 12 R370). -/
structure StubHang where
  /-- 1 bit; 10 R325 EN; 0. -/
  en : Bool := false
  /-- 4 bits; 10 R325 THR_MULT; 4. -/
  thrMult : Nat := 4
  /-- 20 bits; 10 R325 LIMIT_US; 500. -/
  limitUs : Nat := 500
  /-- 16 bits; 10 R325 EPISODES; 0. -/
  episodes : Nat := 0
  /-- 1 bit; 10 R325 FIRED; 0. -/
  fired : Bool := false
  /-- 30 bits; 10 R320, R325 ELAPSED in ns, up to `since`; 0. -/
  elapsed : Nat := 0
  /-- 64 bits; 10 R320 stub time up to which `elapsed` counts; DESIGN CHOICE 0 (log 3). -/
  since : Nat := 0
  /-- 4 x 64 bits; 10 R325 ST_WAIT; 0. -/
  wait : Map Word := []
  /-- 02 R45 packets dropped as malformed, width not given; DESIGN CHOICE 0 (log 3). -/
  malformed : Nat := 0
  /-- 02 R49 packets dropped for CRC, width not given; DESIGN CHOICE 0 (log 3). -/
  crcBad : Nat := 0
  /-- 02 R68 late fold contributions, width not given; DESIGN CHOICE 0 (log 3). -/
  foldLate : Nat := 0
  /-- 02 R75 weir slips, width not given; DESIGN CHOICE 0 (log 3). -/
  slips : Nat := 0
  /-- 12 R370 link CRC errors at the router in the 1 ms window; DESIGN CHOICE 0 (log 3). -/
  stormErrs : Nat := 0
  /-- 64 bits; 12 R370 start of the window; DESIGN CHOICE 0 (log 3). -/
  stormFrom : Nat := 0
  /-- 1 bit; 12 R370 CRCSTORM raised in this window; DESIGN CHOICE false (log 3). -/
  stormDone : Bool := false
  deriving DecidableEq, Repr, Inhabited

/-- Run-time state of a comparator (05 R169, R182). -/
structure Cmp where
  /-- 16 bits; 05 R169 match count; 0. -/
  nmatch : Nat := 0
  /-- 1 bit; 05 R182 FIRED; 0. -/
  fired : Bool := false
  /-- 1 bit; 05 R182 ARMED, for ARM_BY 1 to 4; 0. -/
  armed : Bool := false
  /-- 40 bits; 05 R182 FIRST_TS; 0. -/
  firstTs : Nat := 0
  /-- 20 bits; 05 R182 HITS; 0. -/
  hits : Nat := 0
  deriving DecidableEq, Repr, Inhabited

/-- A per-command bank (07 R217). -/
structure CmdBank where
  /-- 16 bits; 07 R217 LAYER; 0. -/
  layer : Nat := 0
  /-- 16 bits; 07 R217 OPER; 0. -/
  oper : Nat := 0
  /-- 32 bits; 07 R217 STEP; 0. -/
  step : Nat := 0
  /-- 32 bits; 07 R217 CYC; 0. -/
  cyc : Nat := 0
  /-- 32 bits; 07 R217 STILL_CYC; 0. -/
  stillCyc : Nat := 0
  /-- 32 bits; 07 R217 TAIL; 0. -/
  tail : Nat := 0
  /-- 32 bits; 07 R217 ABUSY; 0. -/
  abusy : Nat := 0
  /-- 32 bits; 07 R217 VBUSY; 0. -/
  vbusy : Nat := 0
  /-- 32 bits; 07 R217 MBUSY; 0. -/
  mbusy : Nat := 0
  /-- 32 bits; 07 R217 RBUSY; 0. -/
  rbusy : Nat := 0
  /-- 32 bits; 07 R217 ASTALL; 0. -/
  astall : Nat := 0
  /-- 1 bit; 07 R217 THR_SEEN; 0. -/
  thrSeen : Bool := false
  /-- 1 bit; 07 R217 WAIT_SEEN; 0. -/
  waitSeen : Bool := false
  deriving DecidableEq, Repr, Inhabited

/-- An entry of a delta table (07 R220). -/
structure DeltaEntry where
  /-- 32 bits; 07 R241 CMDS; 0. -/
  cmds : Nat := 0
  /-- 48 bits; 07 R241 CYC; 0. -/
  cyc : Nat := 0
  /-- 48 bits; 07 R241 ABUSY; 0. -/
  abusy : Nat := 0
  /-- 48 bits; 07 R241 ASTALL; 0. -/
  astall : Nat := 0
  /-- 16 bits; 07 R241 DEV_THR; 0. -/
  devThr : Nat := 0
  /-- 16 bits; 07 R241 DEV_UNX; 0. -/
  devUnx : Nat := 0
  deriving DecidableEq, Repr, Inhabited

/-- A dip accumulation (08 R250, R274). -/
structure Acc where
  /-- 32 bits; 08 R274 STEP; 0. -/
  step : Nat := 0
  /-- 1 bit; 08 R274 VALID; 0. -/
  valid : Bool := false
  /-- 1 bit; 08 R274 CLOSED; 0. -/
  closed : Bool := false
  /-- 1 bit; 08 R274 DISTURBED; 0. -/
  disturbed : Bool := false
  /-- 1 bit; 08 R274 OVF; 0. -/
  ovf : Bool := false
  /-- 48 bits; 08 R274 ELEMENTS; 0. -/
  elements : Nat := 0
  /-- 48 bits; 08 R274 NAN; 0. -/
  nan : Nat := 0
  /-- 48 bits; 08 R274 PINF; 0. -/
  pinf : Nat := 0
  /-- 48 bits; 08 R274 NINF; 0. -/
  ninf : Nat := 0
  /-- 48 bits; 08 R274 ZERO; 0. -/
  zero : Nat := 0
  /-- 48 bits; 08 R274 SUBNORMAL; 0. -/
  subnormal : Nat := 0
  /-- 48 bits; 08 R274 SATURATED; 0. -/
  saturated : Nat := 0
  /-- 48 bits; 08 R274 INEXACT; 0. -/
  inexact : Nat := 0
  /-- 48 bits; 08 R274 SKIPPED; 0. -/
  skipped : Nat := 0
  /-- 48 bits; 08 R274 BLOCKS; 0. -/
  blocks : Nat := 0
  /-- 48 bits; 08 R274 SAT_BLOCKS; 0. -/
  satBlocks : Nat := 0
  /-- 64 bits; 08 R274 FINGERPRINT; 0. -/
  fingerprint : Nat := 0
  /-- 48 bits; 08 R274 UNMATCHED; 0. -/
  unmatched : Nat := 0
  /-- 96 bits; 08 R255 SUM, two's complement; 0. -/
  sumFix : Nat := 0
  /-- 64 bits; 08 R256 SUM in binary64; 0. -/
  sumF64 : Nat := 0
  /-- 64 bits; 08 R256 SUMSQ in binary64; 0. -/
  sumSq : Nat := 0
  /-- 32 bits; 08 R254 MAX; 0 while VALID is 0, -Inf in an open accumulation. -/
  max : Nat := 0xFF800000
  /-- 32 bits; 08 R254 MIN; 0 while VALID is 0, +Inf in an open accumulation. -/
  min : Nat := 0x7F800000
  /-- 32 bits; 08 R254 ABSMAX; 0 while VALID is 0, -Inf in an open accumulation. -/
  absmax : Nat := 0xFF800000
  /-- 64 x 32 bits; 08 R257; 0. -/
  expBins : Map Nat := []
  /-- 16 x 32 bits; 08 R258; 0. -/
  headBins : Map Nat := []
  /-- 1 bit; 05 R167 the NAN condition has matched in this accumulation; false. -/
  matchedNan : Bool := false
  /-- 4 bits; 05 R167 comparators whose ABSMAX condition has matched; 0. -/
  matchedAbs : BitVec 4 := 0
  /-- 4 bits; 05 R167 comparators whose SAT condition has matched; 0. -/
  matchedSat : BitVec 4 := 0
  deriving DecidableEq, Repr, Inhabited

/-- A dip slot's accumulations (08 R250). -/
structure DipSlot where
  /-- 08 R274 AG_DIPn_CUR, the newest open accumulation; none. -/
  cur : Option Acc := none
  /-- 08 R250 the older of two open accumulations; none. -/
  older : Option Acc := none
  /-- 08 R274 AG_DIPn_LAST; 0. -/
  last : Acc := {}
  /-- 33 bits; 08 R270 first step a slot accepts after a bank press or restore; DESIGN CHOICE 0 (log 3). -/
  minStep : Nat := 0
  deriving DecidableEq, Repr, Inhabited

/-- A write descriptor held (08 R245, R282). -/
structure Desc where
  /-- 8 bits; 08 R245 TAG; from DESC. -/
  tag : Nat := 0
  /-- 32 bits; 08 R245 TENSOR; from DESC. -/
  tensor : Nat := 0
  /-- 32 bits; 08 R245 STEP; from DESC. -/
  step : Nat := 0
  /-- 7 bits; 08 R245 LINES; from DESC. -/
  lines : Nat := 1
  /-- 7 bits; 08 R268 lines matched; 0. -/
  matched : Nat := 0
  /-- 4 x 8 bits; 08 R245 SCALE; from DESC. -/
  scales : List Nat := []
  /-- 4 bits; 08 R245 SVALID; from DESC. -/
  svalid : Nat := 0
  /-- 2 x 24 bits; 09 R282 token range of the issuing command; from the tap. -/
  tok : Option (Nat × Nat) := none
  /-- 08 R268 the issuing command; from the tap. -/
  cmdSeq : Nat := 0
  deriving DecidableEq, Repr, Inhabited

/-- A capture frame being filled (09 R284, R291). -/
structure OpenFrame where
  /-- 8 bits; 09 R294 frame index; set at open. -/
  frame : Nat := 0
  /-- 32 bits; 09 R291 STEP; set at open. -/
  step : Nat := 0
  /-- 48 bits; 09 R291 TOK0, TOK1; set at open. -/
  tok : Option (Nat × Nat) := none
  /-- 09 R284 the issuing command; set at open. -/
  cmdSeq : Nat := 0
  /-- 768 bits; 09 R291 LINE_MAP; empty. -/
  lines : List Nat := []
  /-- 32 bits; 09 R291 LOST; 0. -/
  lost : Nat := 0
  /-- 16 bits; 09 R292 FLAGS; 0. -/
  flags : BitVec 16 := 0
  deriving DecidableEq, Repr, Inhabited

/-- A captured line in the queue (09 R285). -/
structure CapLine where
  /-- 2 bits; 09 R285; the capture slot. -/
  slot : Nat := 0
  /-- 8 bits; 09 R285; index of its frame. -/
  frame : Nat := 0
  /-- 09 R285; the line. -/
  line : SnoopLine := {}
  deriving DecidableEq, Repr, Inhabited

/-- A capture slot's run-time state (09 R300). -/
structure CapSlot where
  /-- 16 bits; 09 R300 FRAMES_DONE; 0. -/
  framesDone : Nat := 0
  /-- 16 bits; 09 R300 LOST_LINES; 0. -/
  lostLines : Nat := 0
  /-- 16 bits; 09 R300 FULL_SKIPS; 0. -/
  fullSkips : Nat := 0
  /-- 8 bits; 09 R300 NEXT; 0. -/
  next : Nat := 0
  /-- 1 bit; 09 R300 HOLDING; 0. -/
  holding : Bool := false
  /-- 64 bits; 09 R287 hub time of edge E of the hold; DESIGN CHOICE 0 (log 3). -/
  holdFrom : Nat := 0
  /-- 09 R300 OPEN, the newest open frame; none. -/
  open_ : Option OpenFrame := none
  /-- 09 R284 the older of two open frames; none. -/
  older : Option OpenFrame := none
  /-- 33 bits; 09 R299 first step captured after a bank press; DESIGN CHOICE 0 (log 3). -/
  minStep : Nat := 0
  /-- 09 R294 frames closed since load or WATCH_RESET; 0. -/
  taken : Nat := 0
  /-- 32 bits; 09 R291 SEQ, frames closed since load; 0. -/
  seq : Nat := 0
  /-- 09 R294 step and command of the frame last not taken; none. -/
  skipKey : Option (Nat × Nat) := none
  deriving DecidableEq, Repr, Inhabited

/-- Snoop and capture state of a core (08 R266, R267, R275; 09). -/
structure CoreDip where
  /-- 4 slots; 08 R243; 0. -/
  slots : Map DipSlot := []
  /-- 16 entries; 08 R266; empty. -/
  descs : List Desc := []
  /-- 16 x 64 bytes; 08 R267; empty. -/
  waitq : List SnoopLine := []
  /-- 16 bits; 08 R275 DESC_REPLACED; 0. -/
  replaced : Nat := 0
  /-- 16 bits; 08 R275 DESC_DROPPED; 0. -/
  dropped : Nat := 0
  /-- 5 bits; 08 R275 QUEUE_PEAK; 0. -/
  queuePeak : Nat := 0
  /-- 5 bits; 08 R275 DESC_PEAK; 0. -/
  descPeak : Nat := 0
  /-- 4 slots; 09 R300; 0. -/
  caps : Map CapSlot := []
  /-- 64 lines; 09 R285 capture queue; empty. -/
  capq : List CapLine := []
  /-- 32 bits; 08 R250 greatest step of a command that has started; DESIGN CHOICE 0 (log 3). -/
  maxStep : Nat := 0
  deriving DecidableEq, Repr, Inhabited

/-- Counters, per-command banks and delta tables of a core (07 R240, R241). -/
structure CoreCount where
  /-- 41 x 48 bits; 07 R240 AG_CNT; 0. -/
  cnt : Map Nat := []
  /-- 41 x 48 bits; 07 R240 AG_CNTL; 0. -/
  latched : Map Nat := []
  /-- 1 bit; 07 R240 RUN; 0. -/
  run : Bool := false
  /-- 1 bit; 07 R240 CLEARED; 0. -/
  cleared : Bool := false
  /-- 8 x 64 bits; 07 R241 AG_CMDO; 0. -/
  cmdo : CmdBank := {}
  /-- 8 x 64 bits; 07 R241 AG_CMDL; 0. -/
  cmdl : CmdBank := {}
  /-- 1 bit; 07 R216 a command's bank is open; DESIGN CHOICE false (log 3). -/
  cmdOpen : Bool := false
  /-- 15 x 64 bits; 07 R240 AG_DKEY; 0. -/
  dkey : Map Word := []
  /-- 15 x 64 bits; 07 R240 AG_DPLAN; 0. -/
  dplan : Map Word := []
  /-- 30 x 64 bits; 16 R493 AG_DNEXT; 0. -/
  dnext : Map Word := []
  /-- 32 bits; 07 R240 FOLD_STEP; 0. -/
  foldStep : Nat := 0
  /-- 1 bit; 07 R240 SEL; 0. -/
  sel : Bool := false
  /-- 8 bits; 07 R240 PLAN_ID; 0. -/
  planId : Nat := 0
  /-- 16 x 256 bits; 07 R241 AG_DTAB; 0. -/
  dtab : Map DeltaEntry := []
  /-- 16 x 256 bits; 07 R241 AG_DCLS; 0. -/
  dcls : Map DeltaEntry := []
  /-- 32 bits; 07 R221 TAB_STEP; DESIGN CHOICE 0 (log 3). -/
  tabStep : Nat := 0
  /-- 32 bits; 07 R221 step of the command last started; DESIGN CHOICE 0 (log 3). -/
  curStep : Nat := 0
  /-- 1 bit; 07 R221 a command has started since the core reset; DESIGN CHOICE false (log 3). -/
  anyCmd : Bool := false
  /-- 1 bit; 07 R221 the closed table has been folded; DESIGN CHOICE true (log 3). -/
  folded : Bool := true
  /-- 1 bit; 07 R219 the current step is PARTIAL; DESIGN CHOICE false (log 3). -/
  partialStep : Bool := false
  /-- 64 bits; 07 R217 hub time of the last report of cycles; DESIGN CHOICE 0 (log 3). -/
  reportAt : Nat := 0
  /-- 8 bits; 07 R219 R225 the counter plan whose steps the tables hold; DESIGN CHOICE 0 (log 3). -/
  tabPlan : Nat := 0
  /-- 15 keys; 07 R218 keys with a deviation recorded in this step; empty. -/
  devSeen : List Nat := []
  deriving DecidableEq, Repr, Inhabited

/-- The agent core (01 R21). -/
structure Core where
  /-- 1 bit; 05 R182 ACTIVE; 0. -/
  active : Bool := false
  /-- 8 bits; 05 R182 PLAN_ID0; 0. -/
  planId0 : Nat := 0
  /-- 8 bits; 05 R182 PLAN_ID1; 0. -/
  planId1 : Nat := 0
  /-- 57 x 64 bits; 05 R515 bank 0; 0. -/
  bank0 : Map Word := []
  /-- 57 x 64 bits; 05 R515 bank 1; 0. -/
  bank1 : Map Word := []
  /-- 4; 05 R169; 0. -/
  cmps : Map Cmp := []
  /-- 08 and 09; 0. -/
  dip : CoreDip := {}
  /-- 07; 0. -/
  count : CoreCount := {}
  /-- 05 R166 the running or last command; DESIGN CHOICE 0 (log 3). -/
  cmd : Command := {}
  /-- 08 R268 commands started; DESIGN CHOICE 0 (log 3). -/
  cmdSeq : Nat := 0
  /-- 1 bit; 10 R320 some engine holds a command; DESIGN CHOICE false (log 3). -/
  cmdBusy : Bool := false
  deriving DecidableEq, Repr, Inhabited

/-- What the stub saves of a core before dark (07 R225). -/
structure SaveArea where
  /-- 1,280 bytes; 07 R225; empty. -/
  count : CoreCount := {}
  deriving DecidableEq, Repr, Inhabited

/-- The tile's own state, as a pond image holds it (11 R329). -/
structure Engine where
  /-- 49,152 bytes; 11 R329; DESIGN CHOICE 0 (log 5). -/
  sram : List Host.Cell := []
  /-- 2,048 bytes at image offsets 0xC000 to 0xC7FF, without the header; 11 R329; DESIGN CHOICE 0 (log 5). -/
  opaqueState : List Host.Cell := []
  /-- 64 x 64 bits; 06 R185 route table; DESIGN CHOICE 0 (log 3). -/
  route : Map Word := []
  /-- 2 bits; 06 R185 selected context; DESIGN CHOICE 0 (log 3). -/
  ctxSel : Nat := 0
  deriving DecidableEq, Repr, Inhabited

/-- One physical tile with its agent (01 R18). -/
structure Tile where
  /-- 03; see StubTime. -/
  time : StubTime := {}
  /-- 07, 12; see StubPower. -/
  power : StubPower := {}
  /-- 04; see StubStill. -/
  still : StubStill := {}
  /-- 06; see StubTxn. -/
  txn : StubTxn := {}
  /-- 15, 07; see StubPlan. -/
  plan : StubPlan := {}
  /-- 10; see StubEddy. -/
  eddy : StubEddy := {}
  /-- 10, 02, 12; see StubHang. -/
  hang : StubHang := {}
  /-- 01 R21; see Core. -/
  core : Core := {}
  /-- 07 R225 the saved counters; none. -/
  save : Option SaveArea := none
  /-- 11 R329; see Engine. -/
  engine : Engine := {}
  deriving DecidableEq, Repr, Inhabited

/-- A centre condition with its run-time flag (05 R173). -/
structure Condition where
  /-- 8 bits; 05 R173 FOLD_ID; from the plan. -/
  foldId : Nat := 0
  /-- 8 bits; 05 R173 ELEMENT; from the plan. -/
  element : Nat := 0
  /-- 3 bits; 05 R173 TEST; from the plan. -/
  test : Nat := 0
  /-- 64 bits; 05 R173 THRESH; from the plan. -/
  thresh : Word := 0
  /-- 4 bits; 05 R173 CLASS; from the plan. -/
  cls : Nat := 8
  /-- 1 bit; 05 R173 ONCE; from the plan. -/
  once : Bool := false
  /-- 1 bit; 05 R173 raised since the plan became active; false. -/
  fired : Bool := false
  deriving DecidableEq, Repr, Inhabited

/-- The watch plan (05 R175). -/
structure WatchPlan where
  /-- 8 bits; 05 R175; from WATCH_LOAD. -/
  id : Nat := 0
  /-- 4,096 entries; 05 R175; from WATCH_LOAD. -/
  entries : List WatchEntry := []
  /-- 16 bits; 05 R179 owning session; from WATCH_LOAD. -/
  owner : Option Nat := none
  /-- 1 bit; 05 R179 the owner is an intrusive session; from WATCH_LOAD. -/
  intrusiveOwner : Bool := false
  /-- 16 bits; 09 R290 map epoch at load; from WATCH_LOAD. -/
  mapEpoch : Nat := 0
  deriving DecidableEq, Repr, Inhabited

/-- The fold plan (02 R72). -/
structure FoldPlan where
  /-- 8 bits; 02 R72; from FOLD_LOAD. -/
  id : Nat := 0
  /-- 02 R72; from FOLD_LOAD. -/
  entries : List FoldEntry := []
  /-- 16 bits; 13 R428 owning session; from FOLD_LOAD. -/
  owner : Option Nat := none
  /-- 1 bit; 05 R179; from FOLD_LOAD. -/
  intrusiveOwner : Bool := false
  deriving DecidableEq, Repr, Inhabited

/-- The counter plan (07 R219). -/
structure CntPlan where
  /-- 8 bits; 07 R219; from CNT_LOAD. -/
  id : Nat := 0
  /-- 128 bits; 07 R219; from CNT_LOAD. -/
  set : TileSet := {}
  /-- 14 bits; 07 R219; from CNT_LOAD. -/
  epochTmo : Nat := 50
  /-- 10 bits; 07 R219; from CNT_LOAD. -/
  minInt : Nat := 1
  /-- 15 x 64 bits; 07 R219; from CNT_LOAD. -/
  keys : List Word := []
  /-- 15 x 32 bits per member; 13 R434; from CNT_LOAD. -/
  planned : List (List Nat) := []
  /-- 16 bits; 07 R239; from CNT_LOAD. -/
  owner : Option Nat := none
  /-- 1 bit; 05 R179; from CNT_LOAD. -/
  intrusiveOwner : Bool := false
  deriving DecidableEq, Repr, Inhabited

/-- The trace plan (10 R310). -/
structure TracePlan where
  /-- 8 bits; 13 R434; from TRACE_LOAD. -/
  id : Nat := 0
  /-- 10 R310; from TRACE_LOAD. -/
  cfg : TraceEntry := {}
  /-- 16 bits; 10 R324; from TRACE_LOAD. -/
  owner : Option Nat := none
  /-- 1 bit; 05 R179; from TRACE_LOAD. -/
  intrusiveOwner : Bool := false
  /-- 64 bits; 10 R317 hub time the STILL_ON_FULL drain began; none. -/
  drainFrom : Option Nat := none
  /-- 64 bits; 10 R316 t_a; none. -/
  triggered : Option Nat := none
  deriving DecidableEq, Repr, Inhabited

/-- The snapshot plan (11 R360). -/
structure SnapPlan where
  /-- 64 bits; 11 R360 P0; from SNAP_PLAN. -/
  p0 : Nat := 0
  /-- 32 bits; 11 R360 PERIOD; from SNAP_PLAN. -/
  period : Nat := 1000
  /-- 8 bits; 11 R360 K; from SNAP_PLAN. -/
  k : Nat := 1
  /-- 31 bits; 11 R360 BASE_ID; from SNAP_PLAN. -/
  baseId : Nat := 0
  /-- 1 bit; 11 R360 FORCE_NEXT; from SNAP_PLAN. -/
  forceNext : Bool := false
  /-- 11 R361 the last point reached; none. -/
  lastPoint : Option Nat := none
  deriving DecidableEq, Repr, Inhabited

/-- The LTN a tile held when a plan was loaded, where the tile has been re-identified since (02 R67). -/
structure Moved where
  /-- 2 bits; 02 R67: 0 fold plan, 1 watch plan, 2 counter plan, 3 light census; when the tile is re-identified. -/
  plan : Nat := 0
  /-- 19 bits; 02 R67; when the tile is re-identified. -/
  tile : Nat := 0
  /-- 19 bits; 02 R67; when the tile is re-identified. -/
  ltn : Option Nat := none
  deriving DecidableEq, Repr, Inhabited

/-- The plans and tables in hub SRAM (05, 02, 07, 10, 11, 09). -/
structure PlanState where
  /-- 05 R175 the active watch plan; none. -/
  watch : Option WatchPlan := none
  /-- 05 R177 the plan being activated; none. -/
  watchNext : Option WatchPlan := none
  /-- 1 bit; 05 R176 a removal is being pressed; DESIGN CHOICE false (log 3). -/
  watchRemoving : Bool := false
  /-- 32; 05 R173; empty. -/
  conditions : List Condition := []
  /-- 02 R72; none. -/
  fold : Option FoldPlan := none
  /-- 02 R67 what the expected masks of the plans in force were computed from, where the map has changed since; empty. -/
  moved : List Moved := []
  /-- 07 R219; none. -/
  cnt : Option CntPlan := none
  /-- 07 R219 the plan being activated; none. -/
  cntNext : Option CntPlan := none
  /-- 10 R310; none. -/
  trace : Option TracePlan := none
  /-- 10 R310 the plan being activated; none. -/
  traceNext : Option TracePlan := none
  /-- 1 bit; 10 R311 a removal is being pressed; DESIGN CHOICE false (log 3). -/
  traceRemoving : Bool := false
  /-- 11 R360; none. -/
  snap : Option SnapPlan := none
  /-- 64 bits; 09 R276 BUILD; DESIGN CHOICE 0 (log 3). -/
  build : Nat := 0
  /-- 16,384 records; 09 R276; empty. -/
  symbols : List SymRecord := []
  /-- 209,715 records; 09 R276; empty. -/
  pmap : List MapRecord := []
  deriving DecidableEq, Repr, Inhabited

/-- A stored fold result (02 R71, 13 R428). -/
structure FoldResult where
  /-- 3 bits; 02 R63 element type, coded as in 13 R434; from the fold. -/
  ty : Nat := 0
  /-- 8 bits; 02 R71 FOLD_ID; from the fold. -/
  foldId : Nat := 0
  /-- 16 bits; 02 R71 EPOCH; from the fold. -/
  epoch : Nat := 0
  /-- 20 bits; 02 R71 COUNT; from the fold. -/
  count : Nat := 0
  /-- 1 bit; 02 R71 OVF; from the fold. -/
  ovf : Bool := false
  /-- 1 bit; 02 R71 DARKSEEN; from the fold. -/
  darkSeen : Bool := false
  /-- 1 bit; 02 R71; from the fold. -/
  incomplete : Bool := false
  /-- 8 bits; 02 R71 MISS_COUNT; from the fold. -/
  missCount : Nat := 0
  /-- 19 bits; 02 R71 MISS_AT; from the fold. -/
  missAt : Nat := 524287
  /-- 8 bits; 02 R71 MISS_MASK; from the fold. -/
  missMask : Nat := 0
  /-- 64 bits; 13 R428 stored tick; from the fold. -/
  stored : Nat := 0
  /-- 19 bits; 02 R64 LOC; from the fold. -/
  loc : Option Nat := none
  /-- elements in the container of 02 R63; from the fold. -/
  data : List Nat := []
  deriving DecidableEq, Repr, Inhabited

/-- A fold slot (02 R67, R68). Children are numbered in the order of R65. -/
structure FoldSlot where
  /-- 02 R67 the router, the junction or the centre; set when taken. -/
  node : Node := .router 0
  /-- 8 bits; 02 R67; set when taken. -/
  foldId : Nat := 0
  /-- 8 bits; 02 R67 expected children; set when taken. -/
  expected : List Nat := []
  /-- 16 bits; 02 R68 e; 0. -/
  epoch : Nat := 0
  /-- 02 R68 contributions to e, by child; empty. -/
  got : List (Nat × FoldPartial) := []
  /-- 02 R68 contributions to e + 1, held in their input buffers; empty. -/
  held : List (Nat × FoldPartial) := []
  /-- 64 bits; 02 R69 first arrival for e; none. -/
  firstAt : Option Nat := none
  /-- 02 R69 h; set when taken. -/
  height : Nat := 0
  deriving DecidableEq, Repr, Inhabited

/-- A fold partial on its way up (02 R66). -/
structure Upward where
  /-- 02 R65 the place it goes to; when sent. -/
  dest : Node := .centre
  /-- 02 R65 its place in the fixed order there; when sent. -/
  child : Nat := 0
  /-- 8 bits; 02 R66 FOLD_ID; when sent. -/
  foldId : Nat := 0
  /-- 16 bits; 02 R66 EPOCH; when sent. -/
  epoch : Nat := 0
  /-- 02 R66; when sent. -/
  content : FoldPartial := {}
  deriving DecidableEq, Repr, Inhabited

/-- Folds under way and their results (02, 13 R428). -/
structure FoldState where
  /-- 8 per router and junction; 02 R67; empty. -/
  slots : List FoldSlot := []
  /-- 02 R68 partials on their way up; empty. -/
  upward : List Upward := []
  /-- last 16 of each fold; 13 R428; empty. -/
  results : List FoldResult := []
  /-- 8 bits; 13 R423 FOLD_ID of the latest stored result; DESIGN CHOICE 0 (log 3). -/
  latest : Nat := 0
  /-- 07 R223 steps already folded; empty. -/
  stepFolded : List Nat := []
  /-- 32 bits; 07 R223 the greatest step that LC_STEP has shown closed since the plan's activation; none. -/
  stepShown : Option Nat := none
  deriving DecidableEq, Repr, Inhabited

/-- A light census result (07 R230). -/
structure LcResult where
  /-- 64 bits; 07 R230 BOUNDARY; at the boundary. -/
  boundary : Nat := 0
  /-- 32 bits; 07 R230 PERIOD; at the boundary. -/
  period : Nat := 0
  /-- 1 bit; 07 R230 FLAGS[0]; at the boundary. -/
  incomplete : Bool := false
  /-- 1 bit; 07 R230 FLAGS[1]; at the boundary. -/
  ovf : Bool := false
  /-- 1 bit; 07 R230 FLAGS[2]; at the boundary. -/
  gap : Bool := false
  /-- 10 x 64 bits; 07 R230 LC_SUM; at the boundary. -/
  sum : List Nat := []
  /-- 16 x 48 bits; 07 R230 LC_HIST; at the boundary. -/
  hist : List Nat := []
  /-- 64 bits; 07 R230 LC_STEP; at the boundary. -/
  step : Nat := 18446744073709551615
  /-- 64 bits; 07 R230 ENERGY_UJ; 0 until the reading. -/
  energy : Nat := 0
  deriving DecidableEq, Repr, Inhabited

/-- A step record of the energy ledger (07 R236). -/
structure LedgerRec where
  /-- 32 bits; 07 R236 STEP; when it closes. -/
  step : Nat := 0
  /-- 1 bit; 07 R236 FLAGS[0]; when it closes. -/
  noTokens : Bool := true
  /-- 1 bit; 07 R236 FLAGS[1]; when it closes. -/
  partialRec : Bool := false
  /-- 1 bit; 07 R236 FLAGS[2]; when it closes. -/
  first : Bool := false
  /-- 1 bit; 07 R236 FLAGS[3]; when it closes. -/
  forced : Bool := false
  /-- 64 bits; 07 R236 START; when it closes. -/
  start : Nat := 0
  /-- 64 bits; 07 R236 END; when it closes. -/
  end_ : Nat := 0
  /-- 64 bits; 07 R236 ENERGY_UJ; when it closes. -/
  energy : Nat := 0
  /-- 64 bits; 07 R236 TOKENS; when it closes. -/
  tokens : Nat := 0
  /-- 64 bits; 07 R236 J_PER_TOKEN, binary64; when it closes. -/
  jPerToken : Nat := 0
  /-- 64 bits; 07 R236 AVG_POWER_W, binary64; when it closes. -/
  avgPower : Nat := 0
  deriving DecidableEq, Repr, Inhabited

/-- A successful READ_EIN reading (07 R232). -/
structure EinReading where
  /-- 8 bits; 07 R232; from the bus. -/
  rollover : Nat := 0
  /-- 16 bits; 07 R232; from the bus. -/
  accumulator : Nat := 0
  /-- 24 bits; 07 R232; from the bus. -/
  samples : Nat := 0
  /-- 64 bits; 07 R232 hub tick; from the bus. -/
  started : Nat := 0
  /-- 64 bits; 07 R232 the boundary it was started at; from the bus. -/
  boundary : Nat := 0
  deriving DecidableEq, Repr, Inhabited

/-- Light census, PMBus and energy ledger (07 R242). -/
structure CensusState where
  /-- 1 bit; 07 R242 LC_EN; 0. -/
  lcEn : Bool := false
  /-- 64 bits; 07 R229 P0; DESIGN CHOICE 0 (log 3). -/
  p0 : Nat := 0
  /-- 07 R229 index of the next boundary; DESIGN CHOICE 0 (log 3). -/
  nextK : Nat := 0
  /-- 4,096 results; 07 R230; empty. -/
  ring : List LcResult := []
  /-- 64 bits; 07 R242 SK_EIN_TOTAL; 0. -/
  einTotal : Nat := 0
  /-- 7 bits; 07 R242 ADDR; 0 until CONFIG (R483). -/
  pmAddr : Nat := 0
  /-- 1 bit; 07 R242 PEC_EN; 0 until CONFIG (R483). -/
  pecEn : Bool := false
  /-- 10 bits; 07 R242 GAP_MAX; 100. -/
  gapMax : Nat := 100
  /-- 16 bits; 07 R242 STATUS_WORD; 0. -/
  statusWord : Nat := 0
  /-- 16 bits; 07 R242 TMO_COUNT; 0. -/
  tmoCount : Nat := 0
  /-- 16 bits; 07 R242 PEC_COUNT; 0. -/
  pecCount : Nat := 0
  /-- 1 bit; 07 R242 GAP; 0. -/
  gap : Bool := false
  /-- 16 bits; 12 R393 last READ_VIN; DESIGN CHOICE 0 (log 3). -/
  vin : Nat := 0
  /-- 16 bits; 12 R393 last READ_IIN; DESIGN CHOICE 0 (log 3). -/
  iin : Nat := 0
  /-- 16 bits; 12 R393 last READ_PIN; DESIGN CHOICE 0 (log 3). -/
  pin : Nat := 0
  /-- 1 bit; 12 R516 READINGS_VALID; 0. -/
  readValid : Bool := false
  /-- 07 R231 PMBus transaction in progress: command, start, boundary; none. -/
  busy : Option (Nat × Nat × Nat) := none
  /-- 07 R231 transactions still to start at this boundary: command, boundary; empty. -/
  queued : List (Nat × Nat) := []
  /-- 2 bits; 07 R231 next of READ_VIN, READ_IIN, READ_PIN, STATUS_WORD; DESIGN CHOICE 0 (log 3). -/
  rotation : Nat := 0
  /-- 07 R232 reading a; none. -/
  lastEin : Option EinReading := none
  /-- 4,096 records; 07 R236; empty. -/
  ledger : List LedgerRec := []
  /-- 07 R235 the open step, its start and FIRST; none. -/
  curStep : Option (Nat × Nat × Bool) := none
  /-- 07 R235 R239 steps whose record has closed; empty. -/
  closed : List Nat := []
  /-- 1 bit; 07 R236 PARTIAL so far; DESIGN CHOICE false (log 3). -/
  curPartial : Bool := false
  /-- 07 R235 step descriptors; empty. -/
  tokens : List (Nat × Nat) := []
  /-- 1,024 records; 08 R263; empty. -/
  fpRing : List FpRecord := []
  deriving DecidableEq, Repr, Inhabited

/-- A copy-on-write slot in use (11 R339). -/
structure CowSlot where
  /-- 11 R339 granule; from SLOT_REQ. -/
  granule : Nat := 0
  /-- 11 R339 epoch; from SLOT_REQ. -/
  epoch : Nat := 0
  /-- 64 KiB; 11 R339 the old content; from SLOT_REQ. -/
  content : List Host.Cell := []
  /-- 1 bit; 11 R343 the copy failed; false. -/
  bad : Bool := false
  deriving DecidableEq, Repr, Inhabited

/-- A capture frame in a watch area (09 R291). -/
structure Frame where
  /-- 2 bits; 09 R295; at load. -/
  slot : Nat := 0
  /-- 19 bits; 09 R295 the member's LTN; at load. -/
  tile : Nat := 0
  /-- 8 bits; 09 R295 f; at load. -/
  index : Nat := 0
  /-- 6 bits; 09 R291 ENTRY; at load. -/
  entry : Nat := 0
  /-- 32 bits; 09 R291 TENSOR; at load. -/
  tensor : Nat := 0
  /-- 48 bits; 09 R291 BASE; at load. -/
  base : Nat := 0
  /-- 48 bits; 09 R291 STRIDE; at load. -/
  stride : Nat := 0
  /-- 48 bits; 09 R291 TOKSTRIDE; at load. -/
  tokstride : Nat := 0
  /-- 24 bits; 09 R291 ROWLEN; at load. -/
  rowlen : Nat := 0
  /-- 16 bits; 09 R300 SLICE_OFF; at load. -/
  sliceOff : Nat := 0
  /-- 16 bits; 09 R291 SLICE_LEN; at load. -/
  sliceLen : Nat := 0
  /-- 4 bits; 09 R291 FMT; at load. -/
  fmt : Nat := 0
  /-- 1 bit; 09 R291 MODE; at load. -/
  mode : Bool := false
  /-- 32 bits; 09 R291 STEP; at close. -/
  step : Nat := 0
  /-- 48 bits; 09 R291 TOK0, TOK1; at close. -/
  tok : Option (Nat × Nat) := none
  /-- 16 bits; 09 R291 MAP_EPOCH; at close. -/
  mapEpoch : Nat := 0
  /-- 32 bits; 09 R291 SEQ; at close. -/
  seq : Nat := 0
  /-- 40 bits; 09 R291 CLOSE_TS; at close. -/
  closeTs : Nat := 0
  /-- 16 bits; 09 R292 FLAGS; 0 at load. -/
  flags : BitVec 16 := 0
  /-- 32 bits; 09 R291 LOST; at close. -/
  lost : Nat := 0
  /-- 768 bits; 09 R291 LINE_MAP; at close. -/
  lineMap : List Nat := []
  /-- SLICE_LEN bytes; 09 R291 the slice's bytes; zero. -/
  data : List Host.Cell := []
  deriving DecidableEq, Repr, Inhabited

/-- A trace partition of the eddy pool (10 R314). -/
structure Partition where
  /-- 19 bits; 10 R314 physical coordinate; at load. -/
  tile : Nat := 0
  /-- 8 bits; 10 R314 STATE; 0. -/
  state : Nat := 0
  /-- 1 bit; 10 R314 TRIG_LATE; 0. -/
  trigLate : Bool := false
  /-- 32 bits; 10 R314 C; at load. -/
  cap : Nat := 0
  /-- 32 bits; 10 R314 WR; 0. -/
  wr : Nat := 0
  /-- 32 bits; 10 R314 HEAD_GAP's count; 0. -/
  headGap : Nat := 0
  /-- 32 bits; 10 R314 TAIL_GAP's count; 0. -/
  tailGap : Nat := 0
  /-- 32 bits; 10 R314 SPLIT; none. -/
  split : Option Nat := none
  /-- 32 bits; 10 R314 POST; 0. -/
  post : Nat := 0
  /-- 64 bits; 10 R314 TRIG_TICK; 0. -/
  trigTick : Nat := 0
  /-- C records; 10 R314 held records, oldest first; empty. -/
  held : List Eddy := []
  /-- 25 bits; 10 R312 partition size; at load. -/
  size : Nat := 0
  deriving DecidableEq, Repr, Inhabited

/-- A pond shim (11 R366, 16 R495, 09 R290). -/
structure Shim where
  /-- 18 bits; 11 R366 LOW_SLOTS; 0 until CONFIG (R483). -/
  lowSlots : Nat := 0
  /-- 14 bits; 11 R366 FAULTS; 0. -/
  faults : Nat := 0
  /-- 131,072; 11 R366 slots in use, TOTAL less FREE; empty. -/
  slots : List CowSlot := []
  /-- 11 R339 the open copy-on-write epoch; none (R459). -/
  epoch : Option Nat := none
  /-- 1 bit; 11 R339 COW_ACK received for the open epoch; DESIGN CHOICE false (log 3). -/
  cowAcked : Bool := false
  /-- 64 bits; 11 R343 hub time of COW_OPEN; DESIGN CHOICE 0 (log 3). -/
  cowSentAt : Nat := 0
  /-- 1 bit; 11 R335 DONE reported; DESIGN CHOICE false (log 3). -/
  done : Bool := false
  /-- 11 R339 granules written in the epoch; empty. -/
  written : List Nat := []
  /-- 11 R328 tile-visible memory of the die; DESIGN CHOICE 0 (log 5). -/
  tier : List Host.Cell := []
  /-- 1 bit; 12 R368 the die is lost; DESIGN CHOICE false (log 3). -/
  lost : Bool := false
  /-- 12 R368 consecutive centre requests failed; DESIGN CHOICE 0 (log 3). -/
  fails : Nat := 0
  /-- WATCH_MIB; 09 R290 the watch area; empty (R473). -/
  frames : List Frame := []
  /-- 256 MiB; 10 R312 the eddy pool; empty (R473). -/
  partitions : List Partition := []
  /-- 1 bit; 10 R317 VC3 credit withheld; DESIGN CHOICE false (log 3). -/
  creditHeld : Bool := false
  /-- 11 R354 slots still to copy back; empty. -/
  copyback : List Nat := []
  /-- 19 bits; 11 R359 granules read by ASOF_READ for the running FULL drain; DESIGN CHOICE 0 (log 3). -/
  asof : Nat := 0
  deriving DecidableEq, Repr, Inhabited

/-- An edge agent (11 R367, 07 R242, 16 R494). -/
structure Edge where
  /-- 6 bits; 16 R494 FIELD, wired; DESIGN CHOICE 0 (log 4). -/
  field : Nat := 0
  /-- 1 bit; 16 R494 PORT, wired; DESIGN CHOICE A (log 4). -/
  port : Bool := false
  /-- 1 bit; 16 R494 SVC, wired; DESIGN CHOICE false (log 4). -/
  svc : Bool := false
  /-- 5 bits; 07 R242 PERMILLE; 30. -/
  permille : Nat := 30
  /-- 16 bits; 07 R242 LIVE_LANES; 0. -/
  liveLanes : Nat := 0
  /-- 48 bits; 07 R242 BYTES; 0. -/
  bytes : Nat := 0
  /-- 64 KiB; 07 R237 tokens in the bucket, in units of 1/1000 byte; DESIGN CHOICE 0 (log 3). -/
  bucket : Nat := 0
  /-- 1 bit; 11 R367 MODE; 0. -/
  cut : Bool := false
  /-- 17 bits; 11 R367 MARKER_TMO; 10,000. -/
  markerTmo : Nat := 10000
  /-- 32 bits; 11 R367 SNAP_ID; 0. -/
  snapId : Nat := 0
  /-- 7 bits; 11 R367 OPEN, the peers whose marker is awaited; empty. -/
  openFlows : List Nat := []
  /-- 1 bit; 11 R367 UNPAIRED; 0. -/
  unpaired : Bool := false
  /-- 3 bits; 11 R367 STATE; 0. -/
  state : Nat := 0
  /-- 64 entries; 11 R367 EA_PEER, engine plus one and die; not VALID. -/
  peers : Map (Nat × Nat) := []
  /-- 262,144 bytes; 11 R346 the log; empty. -/
  log : List Byte := []
  /-- 1 bit; 11 R346 the log is in its field area; DESIGN CHOICE false (log 3). -/
  logWritten : Bool := false
  /-- 11 R345 markers appended: flow, SNAP_ID, kind; empty. -/
  markersPut : List (Nat × Nat × Nat) := []
  /-- 11 R349 RPL_PUT, the units put for delivery ahead of arrivals; empty. -/
  replayed : List (List Byte) := []
  /-- 64 bits; 11 R349 ING_DISCARD, the flows whose arrivals are dropped; empty. -/
  ingDiscard : List Nat := []
  /-- 1 bit; 11 R349 the still census flags the die; DESIGN CHOICE false (log 3). -/
  flagged : Bool := false
  /-- 1 bit; 11 R349 EG_FREEZE; low (R459). -/
  egFreeze : Bool := false
  /-- 64 bits; 11 R349 hub time EG_FREEZE rose; DESIGN CHOICE 0 (log 3). -/
  egFreezeAt : Nat := 0
  /-- 1 bit; 11 R349 EG_FROZEN; DESIGN CHOICE false (log 3). -/
  egFrozen : Bool := false
  /-- 11 R349 falls of EG_FROZEN counted, width not given; DESIGN CHOICE 0 (log 3). -/
  egFalls : Nat := 0
  /-- 11 R347 markers discarded, width not given; DESIGN CHOICE 0 (log 3). -/
  badMarkers : Nat := 0
  /-- 64 bits; 11 R347 hub time of the release; DESIGN CHOICE 0 (log 3). -/
  releasedAt : Nat := 0
  /-- 1 bit; 12 R368 the die is lost; DESIGN CHOICE false (log 3). -/
  lost : Bool := false
  /-- 12 R368 consecutive centre requests failed; DESIGN CHOICE 0 (log 3). -/
  fails : Nat := 0
  deriving DecidableEq, Repr, Inhabited

/-- A tile image in a pond (11 R329, R330). -/
structure Image where
  /-- 32 bits; 11 R330 SNAP_ID; when copied. -/
  snapId : Nat := 0
  /-- 1 bit; 11 R330; when copied. -/
  ltnValid : Bool := false
  /-- 19 bits; 11 R330; when copied. -/
  ltn : Nat := 0
  /-- 16 bits; 11 R330; when copied. -/
  mapEpoch : Nat := 0
  /-- 8 bits; 11 R330; when copied. -/
  ctxEpoch : Nat := 0
  /-- 1 bit; 11 R330 FLAGS[0]; when copied. -/
  dark : Bool := false
  /-- 1 bit; 11 R330 FLAGS[1]; when copied. -/
  vpendWaited : Bool := false
  /-- 1 bit; 11 R330 FLAGS[2]; when copied. -/
  lateFrz : Bool := false
  /-- 40 bits; 11 R330 FRZ_TS; when copied. -/
  frzTs : Nat := 0
  /-- 33 bits; 08 R270 the first step after the one the tile runs; when copied. -/
  nextStep : Nat := 0
  /-- 51,200 bytes less the header; 11 R329; when copied. -/
  state : Engine := {}
  /-- 64 bits; 11 R329 DIGEST; when copied. -/
  digest : Word := 0
  /-- 1 bit; 11 R352 the pond holds it with an uncorrectable error; when copied, the model's own (log 141). -/
  bad : Bool := false
  deriving DecidableEq, Repr, Inhabited

/-- SK_SNAP_POND[p], SK_SNAP_T[p] and the pond's contents (11 R365, R331). -/
structure Pond where
  /-- 32 bits; 11 R365 SNAP_ID; 0. -/
  snapId : Nat := 0
  /-- 4 bits; 11 R365 STATE; 0. -/
  state : Nat := 0
  /-- 4 bits; 11 R365 CAUSE; 0. -/
  cause : Nat := 0
  /-- 1 bit; 11 R365 DRAINING; 0. -/
  draining : Bool := false
  /-- 1 bit; 11 R365 NO_COW; 0. -/
  noCow : Bool := false
  /-- 1 bit; 11 R365 CUT; 0. -/
  cut : Bool := false
  /-- 1 bit; 11 R365 PREVIOUS; 0. -/
  previous : Bool := false
  /-- 16 bits; 11 R365 MAP_EPOCH; 0. -/
  mapEpoch : Nat := 0
  /-- 64 bits; 11 R365 SK_SNAP_T; 0. -/
  t : Nat := 0
  /-- 64 bits; 11 R331 RELEASE_TS; DESIGN CHOICE 0 (log 5). -/
  releaseTs : Nat := 0
  /-- 64 bits; 11 R331 COMMIT_TS; 0. -/
  commitTs : Nat := 0
  /-- 1 bit; 11 R331 FORCED; DESIGN CHOICE 0 (log 5). -/
  forced : Bool := false
  /-- 11 R339 its copy-on-write epoch; DESIGN CHOICE 0 (log 3). -/
  epoch : Nat := 0
  /-- 368,640 images; 11 R329; empty. -/
  images : List (Nat × Image) := []
  /-- 32 x 262,144 bytes; 11 R331 logs by die; empty. -/
  logs : Map (List Byte) := []
  /-- 32 bits; 11 R331 dies in mode CUT at T; empty. -/
  cutDies : List Nat := []
  /-- 32 bits; 11 R346 dies whose log of this snapshot lies in its field area; empty. -/
  logged : List Nat := []
  deriving DecidableEq, Repr, Inhabited

/-- The snapshot being taken (11 R334 to R338). -/
structure SnapTake where
  /-- 32 bits; 11 R333 SNAP_ID; at the take. -/
  id : Nat := 0
  /-- 1 bit; 11 R333 target pond; at the take. -/
  pond : Nat := 0
  /-- 2 bits; 11 R333: 0 SNAP_TAKE, 1 plan, 2 alarm; at the take. -/
  kind : Nat := 0
  /-- 1 bit; 11 R334 AUTO_REL; at the take. -/
  autoRel : Bool := false
  /-- 1 bit; 11 R337 it issues its own still; at the take. -/
  ownStill : Bool := false
  /-- 64 bits; 11 R334 T; at the take. -/
  t : Nat := 0
  /-- 64 bits; 11 R335 hub time of SNAP_GO; none. -/
  goAt : Option Nat := none
  /-- 1 bit; 11 R338 SEALING; false. -/
  sealing : Bool := false
  /-- 1 bit; 11 R342 FORCED; false. -/
  forced : Bool := false
  /-- 1 bit; 11 R362 the copy was restarted after a centre warm reset, so that no bound applies; false. -/
  rerun : Bool := false
  /-- 11 R336 tiles deferred for VPEND; empty. -/
  deferred : List Nat := []
  /-- the request answered at commit or break; 11 R338; none. -/
  reply : Option ReqHdr := none
  deriving DecidableEq, Repr, Inhabited

/-- SK_SNAP_STATUS and snapshots under way (11 R364). -/
structure SnapState where
  /-- 32 bits; 11 R364 CUR_ID; 0. -/
  curId : Nat := 0
  /-- 4 bits; 11 R364 CAUSE; 0. -/
  cause : Nat := 0
  /-- 1 bit; 11 R364 RES_LOW; 0. -/
  resLow : Bool := false
  /-- 1 bit; 11 R364 FORCED; 0. -/
  forced : Bool := false
  /-- 1 bit; 11 R364 BROKE; 0. -/
  broke : Bool := false
  /-- 8 bits; 11 R364 SKIPPED; 0. -/
  skipped : Nat := 0
  /-- 1 bit; 11 R364 RESTORING; 0. -/
  restoring : Bool := false
  /-- 1 bit; 11 R364 DRAINING; 0. -/
  draining : Bool := false
  /-- 1 bit; 11 R364 CUR_POND; 0. -/
  curPond : Nat := 0
  /-- 1 bit; 11 R364 CUR_VALID; 0. -/
  curValid : Bool := false
  /-- 31 bits; 11 R365 SK_SNAP_AUTO; 1. -/
  auto : Nat := 1
  /-- 2; 11 R365; EMPTY. -/
  ponds : Map Pond := []
  /-- 11 R338 the snapshot TAKING or SEALING; none. -/
  take : Option SnapTake := none
  /-- 11 R339 number of the next copy-on-write epoch; DESIGN CHOICE 1 (log 3). -/
  nextEpoch : Nat := 1
  /-- 1 bit; 11 R354 the pond being restored; DESIGN CHOICE 0 (log 3). -/
  restorePond : Nat := 0
  /-- 64 bits; 11 R353 T_R; DESIGN CHOICE 0 (log 3). -/
  restoreTr : Nat := 0
  /-- 1 bit; 11 R353 AT_EARLIEST; DESIGN CHOICE false (log 3). -/
  restoreEarliest : Bool := false
  /-- 1 bit; 12 R375 the restore of a recovery; DESIGN CHOICE false (log 3). -/
  restoreRec : Bool := false
  /-- 11 R363 the request answered when it ends; none. -/
  restoreReply : Option ReqHdr := none
  /-- 1 bit; 11 R358; DESIGN CHOICE 0 (log 3). -/
  drainPond : Nat := 0
  /-- 1 bit; 11 R358 MODE; DESIGN CHOICE false (log 3). -/
  drainFull : Bool := false
  /-- 11 R359 the request answered when it ends; none. -/
  drainReply : Option ReqHdr := none
  /-- 32 bytes; 11 R357 destination of the running drain; DESIGN CHOICE 0 (log 3). -/
  drainDest : Dest := {}
  /-- 09 R296, 10 R318, 11 R358 data handed to the edge I/O; empty. -/
  drains : List Drain := []
  deriving DecidableEq, Repr, Inhabited

/-- A suspect of a recovery (12 R373). -/
structure Suspect where
  /-- 19 bits; 12 R516 coordinate; when named. -/
  tile : Nat := 0
  /-- 4 bits; 12 R516 class; when named. -/
  cls : Nat := 0
  /-- 64 bits; 12 R368 onset; when named. -/
  onset : Nat := 0
  deriving DecidableEq, Repr, Inhabited

/-- One of the last 64 recoveries (12 R374). -/
structure PastRecovery where
  /-- 12 R374 the classes it rolled back for; when it rolled back. -/
  classes : List Nat := []
  /-- 12 R374 class and tile of each suspect; when it rolled back. -/
  tiles : List (Nat × Nat) := []
  /-- 64 bits; 12 R374 resume; when it rolled back. -/
  resumed : Nat := 0
  deriving DecidableEq, Repr, Inhabited

/-- SK_REC_POLICY[c] (12 R398). -/
structure Policy where
  /-- 16 bits; 12 R398 REPEAT_MS; 60,000. -/
  repeatMs : Nat := 60000
  /-- 1 bit; 12 R398 MEM_OK; 0. -/
  memOk : Bool := false
  /-- 2 bits; 12 R398 RESUME; 1. -/
  resume : Nat := 1
  /-- 1 bit; 12 R398 MEND; 1. -/
  mend : Bool := true
  /-- 1 bit; 12 R398 ROLLBACK; 1. -/
  rollback : Bool := true
  deriving DecidableEq, Repr, Inhabited

/-- A crash record on its way to the Well (12 R376). -/
structure CrashWrite where
  /-- 24 bits; 12 R377; when assembled. -/
  offset : Nat := 0
  /-- 1 MiB; 12 R378 header and frame, without COMMIT; when assembled. -/
  bytes : List Byte := []
  /-- 1 bit; 12 R395 a burst has been retried; false. -/
  retried : Bool := false
  /-- 1 bit; 12 R380 the record is in the Well, COMMIT included; false. -/
  written : Bool := false
  /-- 1 bit; 12 R395 the write failed and the record stays in hub SRAM; false. -/
  failed : Bool := false
  /-- 1 bit; 12 R380 its recovery has ended: OUTCOME and SNAP_ID are in it; false. -/
  ended : Bool := false
  /-- 12 bits; 12 R380 records that it overwrote; 0. -/
  lost : Nat := 0
  /-- 12 R393 the rings that its capture has read; when assembled. -/
  rings : List (List Byte) := []
  deriving DecidableEq, Repr, Inhabited

/-- SK_REC_STATUS, the recovery and its journal (12 R397). -/
structure RecState where
  /-- 10 bits; 12 R397 DEAD_X; 0. -/
  deadX : Nat := 0
  /-- 9 bits; 12 R397 DEAD_Y; 0. -/
  deadY : Nat := 0
  /-- 24 bits; 12 R397 ELAPSED_US; 0. -/
  elapsedUs : Nat := 0
  /-- 1 bit; 12 R397 DEFECT_PENDING; 0. -/
  defectPending : Bool := false
  /-- 1 bit; 12 R397 REC_OVERRUN; 0. -/
  overrun : Bool := false
  /-- 2 bits; 12 R397 RESTARTS; 0. -/
  restarts : Nat := 0
  /-- 1 bit; 12 R397 WELL_FAIL; 0. -/
  wellFail : Bool := false
  /-- 4 bits; 12 R397 CLASS; 0. -/
  cls : Nat := 0
  /-- 4 bits; 12 R397 OUTCOME; 0. -/
  outcome : Nat := 0
  /-- 4 bits; 12 R397 PF_GLITCH; 0. -/
  pfGlitch : Nat := 0
  /-- 4 bits; 12 R397 PHASE; 0. -/
  phase : Nat := 0
  /-- 5 x 64 bits; 12 R398 SK_REC_POLICY; defaults of R398. -/
  policies : Map Policy := []
  /-- 64 bits; 12 R389 acceptance tick; DESIGN CHOICE 0 (log 3). -/
  start : Nat := 0
  /-- 16; 12 R373; empty. -/
  suspects : List Suspect := []
  /-- 64 bits; 12 R373 onset; none. -/
  onset : Option Nat := none
  /-- 12 R391 classes accepted during the recovery, with tick; empty. -/
  joined : List (Nat × Nat) := []
  /-- 12 R372 dead tiles; empty. -/
  dead : List Nat := []
  /-- 32 bits; 12 R378 SNAP_ID restored; DESIGN CHOICE 0 (log 3). -/
  snapId : Nat := 0
  /-- 12 R391 warm resets within the recovery; DESIGN CHOICE 0 (log 3). -/
  warmSeen : Nat := 0
  /-- 64; 12 R374; empty. -/
  past : List PastRecovery := []
  /-- 12 R385 retired tiles that the mend under way is for; empty. -/
  mending : List Nat := []
  /-- 16 bits; 12 R378 SK_ALARM.RAISED at the still; DESIGN CHOICE 0 (log 3). -/
  raised : BitVec 16 := 0
  /-- 12 R376 the record of the last recovery; none. -/
  crash : Option CrashWrite := none
  /-- 12 R376 records of earlier recoveries that are still to be written; empty. -/
  older : List CrashWrite := []
  /-- 12 R392 the last-gasp record being written; none. -/
  lastGasp : Option CrashWrite := none
  /-- 12 R388 defect records still to be written; empty. -/
  defects : List DefectRec := []
  /-- 12 R379 SDC key GROUP, TENSOR, STEP; none. -/
  sdcKey : Option (Nat × Nat × Nat) := none
  /-- 12 R379 its differing values; empty. -/
  sdcValues : List Word := []
  /-- 12 R396 MEND_NOW in progress; none. -/
  mendRequest : Option ReqHdr := none
  /-- 19 bits; 12 R396 tile of MEND_NOW; DESIGN CHOICE 0 (log 3). -/
  mendTile : Nat := 0
  /-- 1 bit; 12 R371 the action is a die loss; DESIGN CHOICE false (log 3). -/
  dieLoss : Bool := false
  /-- 64 x 64 bytes; 12 R379 the last status frames; empty. -/
  frames : List (List Byte) := []
  /-- 12 R387 segments mended: row, group, epoch; empty. -/
  lastMendEpoch : List (Nat × Nat × Nat) := []
  /-- 12 R373 largest LIMIT_US x THR_MULT in force; DEDUCED 500 x 4. -/
  maxHang : Nat := 2000
  deriving DecidableEq, Repr, Inhabited

/-- A combined reply (02 R58), or a single reply of one stub. -/
structure Mrsp where
  /-- 02 R58 who combined it; from the sender. -/
  origin : Node := .router 0
  /-- 20 bits; 02 R58 OK_COUNT; from the members. -/
  ok : Nat := 0
  /-- 20 bits; 02 R58 NAK_COUNT; from the members. -/
  nak : Nat := 0
  /-- 64 bits; 02 R58 DIGEST_XOR; from the members. -/
  digest : Word := 0
  /-- 19 bits; 02 R58 FIRST_NAK; none. -/
  firstNak : Option Nat := none
  /-- 4 bits; 02 R58 FIRST_REASON; 0. -/
  firstReason : Nat := 0
  /-- 32 bits; 02 R58 FLAGS_OR; from the members. -/
  flags : Nat := 0
  /-- 10 entries; 02 R58 LIST; from the members. -/
  list : List Nat := []
  /-- 64 bytes; 02 R47 data of a READ; from the stub. -/
  data : List Byte := []
  /-- 20 bits; 02 R60 members counted BUFFER or NOREPLY; 0. -/
  lost : Nat := 0
  deriving DecidableEq, Repr, Inhabited

/-- An operation the centre has in flight on the Rill (02 R51, R60). -/
structure RillOp where
  /-- 15 bits; 02 R44 TAG; when sent. -/
  tag : Nat := 0
  /-- 8 bits; 02 R47 OP; when sent. -/
  op : Nat := 1
  /-- 1 bit; 02 R54 multicast; when sent. -/
  multi : Bool := false
  /-- 128 bits; 02 R54; when sent. -/
  set : TileSet := {}
  /-- 19 bits; 02 R44 DEST; when sent. -/
  target : Nat := 0
  /-- 19 bits; 02 R46 LCHK with this LTN; when sent. -/
  byLtn : Option Nat := none
  /-- 16 bits; 02 R46 MAP_EPOCH; when sent. -/
  mapEpoch : Nat := 0
  /-- 8 bits; 00 R7; when sent. -/
  space : Nat := 2
  /-- 32 bits; 00 R6; when sent. -/
  offset : Nat := 0
  /-- 32 bits; 13 R426; when sent. -/
  length : Nat := 0
  /-- 64 bytes; 13 R426; when sent. -/
  data : List Byte := []
  /-- 64 bits; 13 R426 CENSUS MASK; when sent. -/
  mask : Word := 0
  /-- 64 bits; 13 R426 CENSUS VALUE; when sent. -/
  value : Word := 0
  /-- 3 bits; 13 R426 CENSUS TEST; when sent. -/
  test : Nat := 0
  /-- 02 R58 replies gathered so far; empty. -/
  partials : List Mrsp := []
  /-- 02 R58 members whose reply or reason is gathered; empty. -/
  counted : List Nat := []
  /-- 02 R57 members whose copy was dropped; empty. -/
  dropped : List Nat := []
  /-- 02 R60 tiles whose stub has taken the operation; empty. -/
  acted : List Nat := []
  /-- 1 bit; 02 R60; false. -/
  resent : Bool := false
  /-- 1 bit; 06 R208; false. -/
  staleResent : Bool := false
  /-- the request it serves; 13 R411; none. -/
  reply : Option ReqHdr := none
  /-- 64 bits; 02 R60 hub time sent; when sent. -/
  sentAt : Nat := 0
  deriving DecidableEq, Repr, Inhabited

/-- A packet held in a multicast buffer (02 R56). -/
structure McastBuf where
  /-- 15 bits; 02 R44; when held. -/
  tag : Nat := 0
  /-- 5 branches; 02 R57 branches whose copy has not left; when held. -/
  branches : List Nat := []
  /-- 64 bits; 02 R57 hub time held; when held. -/
  since : Nat := 0
  deriving DecidableEq, Repr, Inhabited

/-- A reply combiner of a router (02 R58). -/
structure Combiner where
  /-- 15 bits; 02 R44; when a copy leaves. -/
  tag : Nat := 0
  /-- 5 branches; 02 R58 branches whose copy has left, with the hub time; empty. -/
  copies : List (Nat × Nat) := []
  deriving DecidableEq, Repr, Inhabited

/-- The multicast buffers and combiners of a router, a junction or an injection port (02 R56, R58). -/
structure RouterState where
  /-- two; 02 R56 multicast buffers held; empty. -/
  mcast : List McastBuf := []
  /-- 02 R56 tags of multicasts that wait in the input buffer; empty. -/
  input : List Nat := []
  /-- 02 R58; empty. -/
  combiners : List Combiner := []
  deriving DecidableEq, Repr, Inhabited

/-- An open entry of a read-merge table (02 R61). -/
structure MergeEntry where
  /-- 25 bits; 02 R61 hub SRAM address; when opened. -/
  address : Nat := 0
  /-- 9 bits; 02 R61; when opened. -/
  length : Nat := 0
  /-- 8 bits; 02 R61; when opened. -/
  plan : Nat := 0
  /-- 02 R62; when opened. -/
  requesters : List Node := []
  deriving DecidableEq, Repr, Inhabited

/-- A packet in the input buffer of a node's port, or the part of it that stands there (02 R50, R52). -/
structure Flow where
  /-- 02 R50 which packet it is; written when it enters. -/
  id : Nat := 0
  /-- 02 R52 the node; written when it enters. -/
  node : Node := .router 0
  /-- 4 bits; 02 R52 the input port; written when it enters. -/
  port : Nat := 0
  /-- 02 R44; written when it enters. -/
  pkt : Packet := {}
  /-- 9 bits; 02 R52 flits that have come in; 0. -/
  got : Nat := 0
  /-- 9 bits; 02 R50 flits that have gone on; 0. -/
  gone : Nat := 0
  /-- 4 bits; 02 R50 the output port that its worm holds; written with its first flit. -/
  out : Nat := 0
  /-- 1 bit; 02 R41 its flits come from an agent, a shim, an edge agent or the centre; written when it enters. -/
  feed : Bool := false
  /-- 1 bit; 02 R45 the router drops it; written when it enters. -/
  drop : Bool := false
  deriving DecidableEq, Repr, Inhabited

/-- An entry of a weir's FIFO (02 R74). -/
structure WeirSlot where
  /-- 64 bits; 02 R74 the packet, and how many of its flits; none. -/
  flit : Option (Nat × Packet × Nat) := none
  /-- 02 R74 credits of the opposite direction, by virtual channel; empty. -/
  credit : List (Nat × Nat) := []
  deriving DecidableEq, Repr, Inhabited

/-- A weir (02 R74). -/
structure Weir where
  /-- 3 bits; 02 R74; 4. -/
  separation : Nat := 4
  /-- 8 entries; 02 R74 those between the read and the write pointer; idle. -/
  slots : List WeirSlot := [{}, {}, {}, {}]
  /-- 4 x 6 bits; 02 R52 R74 credits that the sender has spent, by virtual channel; 0. -/
  used : Map Nat := []
  /-- 1 bit; 02 R75; DESIGN CHOICE false (log 3). -/
  retraining : Bool := false
  /-- 02 R75 hub times of recent slips; empty. -/
  slipTimes : List Nat := []
  /-- 1 bit; 02 R75 the link is marked down; DESIGN CHOICE false (log 3). -/
  down : Bool := false
  deriving DecidableEq, Repr, Inhabited

/-- The Rill (02). -/
structure RillState where
  /-- 1 bit; 15 R459 released from reset; false (R459). -/
  inService : Bool := false
  /-- 15 bits; 02 R44; DESIGN CHOICE 0 (log 3). -/
  nextTag : Nat := 0
  /-- 24 per injection port; 02 R51; empty. -/
  ops : List RillOp := []
  /-- 02 R60 replies discarded under an abandoned tag, width not given; DESIGN CHOICE 0 (log 3). -/
  stray : Nat := 0
  /-- 02 R49 packets with a bad CRC at the centre, width not given; DESIGN CHOICE 0 (log 3). -/
  crcBad : Nat := 0
  /-- 368,640; 02 R52; empty. -/
  routers : Map RouterState := []
  /-- 16 per holder; 02 R61; empty. -/
  merge : List (Node × MergeEntry) := []
  /-- 02 R61 MREADs sent on; DESIGN CHOICE empty (log 3). -/
  forwarded : List (Node × MergeEntry) := []
  /-- 02 R61 MDATA sent to a requester set; DESIGN CHOICE empty (log 3). -/
  multicast : List (Node × List Node × List Word) := []
  /-- 02 R47 data streamed as BULK, by tile; DESIGN CHOICE empty (log 3). -/
  bulk : List (Nat × List Byte) := []
  /-- 02 R74 by link and direction; separation 4. -/
  weirs : Map Weir := []
  /-- 15 R474 64-bit links whose serialiser is gated; empty. -/
  gated : List Nat := []
  /-- 82 + 8 bits; 02 R43 R75 express and centre links found unusable or marked down; empty. -/
  badLinks : List Nat := []
  /-- 48 bits; 02 R43 junctions found unusable; empty. -/
  badJunctions : List Nat := []
  /-- 8 flits a router port and VC, 8 words a junction port and VC; 02 R52; empty. -/
  flows : List Flow := []
  /-- 02 R50 the number of the next packet; DESIGN CHOICE 0 (log 3). -/
  nextPkt : Nat := 0
  /-- 02 R42 packets that have left the Rill, by node and port; DESIGN CHOICE empty (log 3). -/
  delivered : List (Node × Nat × Packet) := []
  /-- 48 bits; 15 R477 OVERLAT; empty. -/
  overLat : List Nat := []
  deriving DecidableEq, Repr, Inhabited

/-- An open session (13 R419). -/
structure Session where
  /-- 16 bits; 13 R419; when opened. -/
  id : Nat := 0
  /-- 1 bit; 13 R421; when opened. -/
  intrusive : Bool := false
  /-- 1 bit; 13 R441 GRANTED; false. -/
  granted : Bool := false
  /-- 32 bits; 13 R422 RIGHTS; when opened. -/
  rights : Nat := 0
  /-- 128 bits; 13 R421; none. -/
  nonce : Option (BitVec 128) := none
  /-- 64 bits; 13 R421 hub time of the nonce; when issued. -/
  nonceAt : Nat := 0
  /-- 64 bits; 13 R420 hub time of its last request; when opened. -/
  lastSeen : Nat := 0
  /-- 49 bits; 13 R416 one more than the highest REQ_ID, 0 while there is none; 0. -/
  maxReqId : Nat := 0
  deriving DecidableEq, Repr, Inhabited

/-- A response (13 R412, R413). -/
structure Response where
  /-- 8 bits; 13 R412; from the request. -/
  opcode : Nat := 0
  /-- 8 bits; 13 R413; when answered. -/
  status : Nat := 0
  /-- 10 bits; 13 R412; from the request. -/
  tag : Nat := 0
  /-- 16 bits; 13 R412; from the request. -/
  session : Nat := 0
  /-- 48 bits; 13 R412; from the request. -/
  reqId : Nat := 0
  /-- 16 MiB; 13 R413 detail body or catalogue body; when answered. -/
  body : List Byte := []
  deriving DecidableEq, Repr, Inhabited

/-- An entry of the class C cache (13 R416). -/
structure CacheEntry where
  /-- 16 bits; 13 R416; when taken. -/
  session : Nat := 0
  /-- 48 bits; 13 R416; when taken. -/
  reqId : Nat := 0
  /-- 512 bytes; 13 R416; none while in progress. -/
  response : Option Response := none
  deriving DecidableEq, Repr, Inhabited

/-- A DATA frame to send (13 R406). -/
structure TxFrame where
  /-- 12 bits; 13 R404 SEQ; when sent. -/
  seq : Nat := 0
  /-- 16 bits; 13 R412 FRAG; when made. -/
  frag : Nat := 0
  /-- 1 bit; 13 R412 LAST; when made. -/
  last : Bool := true
  /-- 13 R412; when made. -/
  response : Response := {}
  /-- 64 bits; 13 R407 when it was last sent; when sent. -/
  sentAt : Nat := 0
  deriving DecidableEq, Repr, Inhabited

/-- A request being assembled or complete (13 R415). -/
structure Assembly where
  /-- 8 bits; 13 R411; from the header. -/
  opcode : Nat := 0
  /-- 8 bits; 13 R411; from the header. -/
  flags : Nat := 0
  /-- 10 bits; 13 R411; from the header. -/
  tag : Nat := 0
  /-- 16 bits; 13 R411; from the header. -/
  session : Nat := 0
  /-- 48 bits; 13 R411; from the header. -/
  reqId : Nat := 0
  /-- 16 bits; 13 R415; 0. -/
  nextFrag : Nat := 0
  /-- 8 MiB; 13 R415; empty. -/
  body : List Byte := []
  /-- 1 bit; 13 R415; false. -/
  complete : Bool := false
  /-- 1 bit; 13 R415 the buffer filled, and the remaining fragments are discarded; false. -/
  spoiled : Bool := false
  deriving DecidableEq, Repr, Inhabited

/-- The service port (13 R441). -/
structure PortState where
  /-- 1 bit; 13 R402 start has opened the port; false (R402). -/
  opened : Bool := false
  /-- 10 bits; 13 R441 SESS_TMO; 10. -/
  sessTmo : Nat := 10
  /-- 1 bit; 13 R441 FEC_EN; 0 until CONFIG (R483). -/
  fecEn : Bool := false
  /-- 16 bits; 13 R441 GEN; 0. -/
  gen : Nat := 0
  /-- 1 bit; 13 R441 FEC_ACTIVE; 0. -/
  fecActive : Bool := false
  /-- 1 bit; 13 R441 LINK_UP; 0. -/
  linkUp : Bool := false
  /-- 1 bit; 13 R441 BLOCK_LOCK; 0. -/
  blockLock : Bool := false
  /-- 64 bits; 13 R409 hub time block lock was lost; DESIGN CHOICE 0 (log 3). -/
  lockLostAt : Nat := 0
  /-- 16 bits; 13 R441 CRC_ERR; 0. -/
  crcErr : Nat := 0
  /-- 16 bits; 13 R441 RESENDS; 0. -/
  resends : Nat := 0
  /-- 16 bits; 13 R441 LINK_RESETS; 0. -/
  linkResets : Nat := 0
  /-- 16 bits; 13 R441 FEC_UNCORR; 0. -/
  fecUncorr : Nat := 0
  /-- 16 bits; 13 R441 SK_EVENTS; 0. -/
  events : BitVec 16 := 0
  /-- 16 bits; 13 R423 EVENTS since the last status frame; DESIGN CHOICE 0 (log 3). -/
  newEvents : BitVec 16 := 0
  /-- 32 bits; 13 R423 SEQ; DESIGN CHOICE 0 (log 3). -/
  frameSeq : Nat := 0
  /-- 64 bytes; 13 R426 latest status frame; DESIGN CHOICE empty (log 3). -/
  frame : List Byte := []
  /-- 64 bits; 13 R423 the next multiple of 10,000 ns; DESIGN CHOICE 0 (log 3). -/
  frameDue : Nat := 0
  /-- 12 bits; 13 R408 expected number; 0 (R410). -/
  rxSeq : Nat := 0
  /-- 12 bits; 13 R407 next number; 0 (R410). -/
  txSeq : Nat := 0
  /-- 1 bit; 13 R408 a NAK has been sent for the expected number; DESIGN CHOICE false (log 3). -/
  nakSent : Bool := false
  /-- 64; 13 R407; empty. -/
  unacked : List TxFrame := []
  /-- 13 R407 frames that wait for the window; empty. -/
  txWait : List TxFrame := []
  /-- 13 R406 control frames sent: TYPE, REASON, GEN; DESIGN CHOICE empty (log 3). -/
  control : List (Nat × Nat × Nat) := []
  /-- 13 R407 consecutive acknowledgement timeouts; DESIGN CHOICE 0 (log 3). -/
  timeouts : Nat := 0
  /-- 64 bits; 13 R407 hub time the oldest frame was sent or acknowledged; DESIGN CHOICE 0 (log 3). -/
  ackedAt : Nat := 0
  /-- 64 bits; 13 R409 hub time of the last valid frame; DESIGN CHOICE 0 (log 3). -/
  lastValid : Nat := 0
  /-- 16 bits; 13 R410 GEN of a reset the hub started; none. -/
  resetting : Option Nat := none
  /-- 64 bits; 13 R410 hub time of the last LRESET sent; DESIGN CHOICE 0 (log 3). -/
  lresetAt : Nat := 0
  /-- 1 bit; 13 R436 more than 100 link resets within 1 s; DESIGN CHOICE false (log 3). -/
  storm : Bool := false
  /-- 13 R436 hub times of recent link resets; empty. -/
  resetTimes : List Nat := []
  /-- 64 bits by register offset; 00 R11 the W1C bits the hub has set in the HCLK cycle w1cAt; empty. -/
  w1c : Map Nat := []
  /-- 64 bits; 00 R11 hub time of that HCLK cycle; DESIGN CHOICE 0 (log 3). -/
  w1cAt : Nat := 0
  deriving DecidableEq, Repr, Inhabited

/-- Sessions, requests and the cache (13 R414 to R422). -/
structure SessionState where
  /-- 4,096; 13 R419; empty. -/
  sessions : List Session := []
  /-- 16 bits; 13 R419; DESIGN CHOICE 1 (log 3). -/
  nextSession : Nat := 1
  /-- 256; 13 R414; empty. -/
  outstanding : List ReqHdr := []
  /-- 8 MiB; 13 R415 request buffer; empty. -/
  assembling : List Assembly := []
  /-- 2,048; 13 R416; empty. -/
  cache : List CacheEntry := []
  /-- 49 bits; 13 R416 one more than the highest REQ_ID of SESSION 0, 0 while there is none; DESIGN CHOICE 0 (log 3). -/
  maxReqId0 : Nat := 0
  /-- the model's own counter of entropy draws; 13 R421 (log 7); DESIGN CHOICE 0. -/
  entropy : Nat := 0
  deriving DecidableEq, Repr, Inhabited

/-- TAP and mailbox (13 R437 to R440). -/
structure TapState where
  /-- 8 bits; 13 R437 instruction; IDCODE (R437). -/
  ir : Nat := 1
  /-- 64 bits; 13 R437 value last captured into the data register; DESIGN CHOICE 0 (log 3). -/
  capture : Nat := 0
  /-- 2,048 bytes; 13 R439 request buffer; empty. -/
  reqBuf : List Word := []
  /-- 2,048 bytes; 13 R439 response buffer; empty. -/
  respBuf : List Word := []
  /-- 1 bit; 13 R439 OVERFLOW; 0. -/
  overflow : Bool := false
  /-- 1 bit; 13 R439 a fragment is being processed; DESIGN CHOICE false (log 3). -/
  busy : Bool := false
  /-- 1 bit; 13 R439 the response in progress is discarded; DESIGN CHOICE false (log 3). -/
  discard : Bool := false
  /-- 13 R439 the later fragments of the response; empty. -/
  respWait : List (List Word) := []
  /-- 13 R440 session 0xFFFF; observer until TAP reset. -/
  session : Session := { id := 65535 }
  /-- 1 bit; 13 R440 the mailbox session exists; DESIGN CHOICE false (log 3). -/
  alive : Bool := false
  deriving DecidableEq, Repr, Inhabited

/-- Life cycle (14 R458). -/
structure LcState where
  /-- 3 bits; 14 R458 PHASE; 0. -/
  phase : Nat := 0
  /-- 1 bit; 14 R458 BOOT_DONE; 0. -/
  bootDone : Bool := false
  /-- 1 bit; 14 R458 ID_FAULT; from OTP. -/
  idFault : Bool := false
  /-- 8 bits; 14 R452 target of the running transition; DESIGN CHOICE 0 (log 3). -/
  target : Nat := 0
  /-- 64 bits; 14 R452 hub time at which it was accepted; DESIGN CHOICE 0 (log 3). -/
  since : Nat := 0
  /-- 8 bits; 14 R458 STATE as last decoded; from OTP. -/
  code : Nat := 0
  /-- the request answered at the end; 14 R451; none. -/
  reply : Option ReqHdr := none
  /-- 1 bit; 17 R512 service die junction above 85 C; DESIGN CHOICE false (log 3). -/
  junctionHot : Bool := false
  deriving DecidableEq, Repr, Inhabited

/-- Configuration block values and wired values (15 R466). -/
structure CfgState where
  /-- 1 bit; 00 variants: 0 SK-F, 1 SK-S; DESIGN CHOICE SK-F (log 4). -/
  skS : Bool := false
  /-- 16 bits; 15 R466 ENGINE; 0 until CONFIG. -/
  engine : Nat := 0
  /-- 8 bits; 15 R466 SVC_DIE; 0 until CONFIG. -/
  svcDie : Nat := 0
  /-- 48 x 16 bits; 15 R466 TREE; 0 until CONFIG. -/
  fanout : Map Nat := []
  /-- 16 bits; 15 R466 PORT; 0 until CONFIG. -/
  rxFec : Nat := 0
  /-- 16 bits; 15 R466 PORT; 0 until CONFIG. -/
  txFec : Nat := 0
  /-- 16 bits; 15 R466 PORT; 0 until CONFIG. -/
  rxNoFec : Nat := 0
  /-- 16 bits; 15 R466 PORT; 0 until CONFIG. -/
  txNoFec : Nat := 0
  /-- 16 bits; 15 R466 PMBUS m; DESIGN CHOICE 1 (log 3). -/
  pmM : Int := 1
  /-- 16 bits; 15 R466 PMBUS b; 0 until CONFIG. -/
  pmB : Int := 0
  /-- 8 bits; 15 R466 PMBUS R; 0 until CONFIG. -/
  pmR : Int := 0
  /-- 32 bits; 15 R466 DEFECTS OFFSET; 0 until CONFIG. -/
  defOff : Nat := 0
  /-- 32 bits; 15 R466 DEFECTS SIZE; 0 until CONFIG. -/
  defSize : Nat := 0
  /-- 16 bits; 15 R466 WATCH_MIB; default 1,024. -/
  watchMib : Nat := 1024
  /-- 32 bits; 15 R466 RESERVE_MIB; default 2,048. -/
  reserveMib : Nat := 2048
  /-- 18 bits; 15 R466 LOW_SLOTS; default 8,192. -/
  lowSlots : Nat := 8192
  /-- 20 bits; 15 R466 LIMIT_US; default 500. -/
  limitUs : Nat := 500
  /-- 4 bits; 15 R466 THR_MULT; default 4. -/
  thrMult : Nat := 4
  /-- 16 bits; 15 R466 STORM_N; default 64. -/
  stormN : Nat := 64
  /-- 32 bits; 15 R464 FW_VERSION of the running image; DESIGN CHOICE 0 (log 3). -/
  fwVersion : Nat := 0
  /-- 1 bit; 16 R483 the CONFIG phase has loaded the block; false. -/
  loaded : Bool := false
  /-- 16 x 64 bits; 15 R466 the cold bindings of the system classes: 05 R157, or the POLICY block; class 0 FIXED, 1 to 5 STILL_DUMP. -/
  bindings : Map ClassBinding := [(0, { action := 5 }), (1, { action := 4 }), (2, { action := 4 }), (3, { action := 4 }), (4, { action := 4 }), (5, { action := 4 })]
  deriving DecidableEq, Repr, Inhabited

/-- SK_BOOT_STATUS, SK_PWR and start (15 R479, 16 R487). -/
structure BootState where
  /-- 24 bits; 15 R479 START_US; 0. -/
  startUs : Nat := 0
  /-- 8 bits; 15 R479 WARM_COUNT; 0. -/
  warmCount : Nat := 0
  /-- 4 bits; 15 R479 LAST_WARM; 0. -/
  lastWarm : Nat := 0
  /-- 4 bits; 15 R479 ROM_REASON; 0. -/
  romReason : Nat := 0
  /-- 4 bits; 15 R479 CFG_REJECTED; 0. -/
  cfgRejected : Nat := 0
  /-- 1 bit; 15 R479 NARROWED; 0. -/
  narrowed : Bool := false
  /-- 1 bit; 15 R479 WELL_FMT; 0. -/
  wellFmt : Bool := false
  /-- 1 bit; 15 R479 SFDP_FALLBACK; 0. -/
  sfdpFallback : Bool := false
  /-- 1 bit; 15 R479 RILL_FAULT; 0. -/
  rillFault : Bool := false
  /-- 1 bit; 15 R479 WELL_ABSENT; 0. -/
  wellAbsent : Bool := false
  /-- 1 bit; 15 R479 RELOAD_STUCK; 0. -/
  reloadStuck : Bool := false
  /-- 4 bits; 15 R479 PHASE; 0. -/
  phase : Nat := 0
  /-- 1 bit; 15 R459 a cold reset is in force; DESIGN CHOICE true (log 9). -/
  inReset : Bool := true
  /-- 1 bit; 16 R487 QUIET; 0. -/
  quiet : Bool := false
  /-- 1 bit; 16 R487 WAKING; 0. -/
  waking : Bool := false
  /-- 1 bit; 07 R224 THR_ANY; DESIGN CHOICE false (log 3). -/
  thrAny : Bool := false
  /-- 64 bits; 07 R217 hub time at which THR_ANY last fell; DESIGN CHOICE 0 (log 3). -/
  thrAnyAt : Nat := 0
  /-- 1 bit; 17 R502 VDD_AON has fallen since the last cold reset; false. -/
  aonLost : Bool := false
  /-- the model's own counter of free values drawn; 17 R502, R504 (log 7); DESIGN CHOICE 0. -/
  freeCount : Nat := 0
  /-- 15 R467 tiles start retires; empty. -/
  defectTiles : List Nat := []
  deriving DecidableEq, Repr, Inhabited

/-- A host write to the Well that waits (16 R496). -/
structure WellWait where
  /-- 24 bits; 16 R496; from MEM_WRITE. -/
  offset : Nat := 0
  /-- 16 R496; from MEM_WRITE. -/
  bytes : List Byte := []
  /-- 13 R426 the request it answers; from MEM_WRITE. -/
  reply : Option ReqHdr := none
  deriving DecidableEq, Repr, Inhabited

/-- xSPI and the attached memories (16 R488). -/
structure XspiState where
  /-- 16 bits; 16 R488 WELL_TMO; 0. -/
  wellTmo : Nat := 0
  /-- 16 bits; 16 R488 SPRING_TMO; 0. -/
  springTmo : Nat := 0
  /-- 8 bits; 16 R488 SCK_MHZ; 0. -/
  sckMhz : Nat := 0
  /-- 2 bits; 16 R488 OWNER; 0. -/
  owner : Nat := 0
  /-- 1 bit; 16 R488 QUAD; 0. -/
  quad : Bool := false
  /-- 1 bit; 16 R488 ADDR4; 0. -/
  addr4 : Bool := false
  /-- 64 bits; 16 R488 SK_XSPI_SPRING; 0. -/
  springReg : Word := 0
  /-- 64 bits; 16 R488 SK_XSPI_WELL; 0. -/
  wellReg : Word := 0
  /-- 32 bits; 16 R488 ERASE_MAX_US; 0. -/
  eraseMaxUs : Nat := 0
  /-- 32 bits; 16 R488 PROG_MAX_US; 0. -/
  progMaxUs : Nat := 0
  /-- 64 MiB; 16 R496 space 0x06; DESIGN CHOICE all bytes 0xFF (log 5). -/
  spring : List Host.Cell := []
  /-- 16 MiB; 16 R496 space 0x05; DESIGN CHOICE all bytes 0xFF (log 5). -/
  well : List Host.Cell := []
  /-- 4 KiB; 14 R445 space 0x07; DESIGN CHOICE blank (log 5). -/
  otp : List Host.Cell := []
  /-- 14 R446 fields whose read-back failed; empty. -/
  otpBad : List Nat := []
  /-- 1 bit; 15 R465 the IMAGE partition has been erased by FW_WRITE; DESIGN CHOICE false (log 3). -/
  fwErased : Bool := false
  /-- 15 R465 ranges programmed since the erase; empty. -/
  fwWritten : List (Nat × Nat) := []
  /-- 16 R488 Spring operations under way, oldest first; empty. -/
  pending : List SpringOp := []
  /-- 16 R496 host writes to the Well that wait for a record's write; empty. -/
  wellWaits : List WellWait := []
  deriving DecidableEq, Repr, Inhabited

/-- The whole block. -/
structure State where
  /-- 16 bits; 16 R487 SK_MAP_EPOCH; 0. -/
  mapEpoch : Nat := 0
  /-- 03; see TimeState. -/
  time : TimeState := {}
  /-- 04; see RootState. -/
  root : RootState := {}
  /-- 05; see AlarmState. -/
  alarm : AlarmState := {}
  /-- 06; see TxnState. -/
  txn : TxnState := {}
  /-- 05, 02, 07, 09, 10, 11; see PlanState. -/
  plans : PlanState := {}
  /-- 02; see FoldState. -/
  folds : FoldState := {}
  /-- 07, 08; see CensusState. -/
  census : CensusState := {}
  /-- 11; see SnapState. -/
  snap : SnapState := {}
  /-- 12; see RecState. -/
  recov : RecState := {}
  /-- 13; see PortState. -/
  port : PortState := {}
  /-- 13; see SessionState. -/
  sess : SessionState := {}
  /-- 13; see TapState. -/
  tap : TapState := {}
  /-- 14; see LcState. -/
  lc : LcState := {}
  /-- 15; see BootState. -/
  boot : BootState := {}
  /-- 15; see CfgState. -/
  cfg : CfgState := {}
  /-- 16; see XspiState. -/
  xspi : XspiState := {}
  /-- 02; see RillState. -/
  rill : RillState := {}
  /-- 368,640; 01 R18, by y x 768 + x; every tile as Tile's line says. -/
  tiles : Map Tile := []
  /-- 32; 01 R18; as Edge's lines say. -/
  edges : Map Edge := []
  /-- 48; 01 R18; as Shim's lines say. -/
  shims : Map Shim := []
  /-- the queue of waiting commands, first in, first out; the model's own; empty. -/
  pending : List Instr := []
  deriving DecidableEq, Repr, Inhabited

/-- The block right after reset: a cold reset in force, every field at the value its line gives (15 R459, 16 R483).
The fields the spec gives no reset value are DESIGN CHOICE, logs 3, 4, 5, 7 and 9. -/
def State.reset : State := {}

end Sys2Proof.Machine
end

