-- ==== Sys2Proof/Config.lean ====
section
/-! DEFINITION. What an implementation fixes and the spec does not state: uninterpreted constants, with no body, so
that nothing can be proved of their values. Logs 7 and 10 name them. -/

namespace Sys2Proof.Config

/-- The k-th 128-bit value drawn from the centre's entropy source (13 R421, 14 R447). -/
opaque entropy : Nat → BitVec 128

/-- A Zstandard frame (RFC 8878) that decodes to the given bytes (12 R376). The spec fixes the format and no encoder. -/
opaque zstd : List Byte → List Byte

/-- The k-th undefined content of a stub whose always-on supply left its tolerance (17 R502), for a tile. -/
opaque freeTile : Nat → Nat → Machine.Tile

/-- The k-th undefined number, with a second argument that tells values drawn at one place apart. -/
opaque freeNat : Nat → Nat → Nat

/-- The k-th undefined memory content, with a second argument: address and byte pairs (11 R356, 17 R502). -/
opaque freeCells : Nat → Nat → List (Nat × Byte)

/-- The route words a mend writes for a tile, given the tiles its roles move from: the engine's own rule (12 R385). -/
opaque mendRoute : Nat → Nat → List Word

/-- Byte `i` of the tile-register part of an image, given the route table, the selected context and the other registers' bytes: the
engine's own layout, which its documentation gives (11 R329). -/
opaque tileRegister : List Word → Nat → List Byte → Nat → Byte

end Sys2Proof.Config
end

