-- ==== Sys2Proof/Machine/Ops.lean ====
section
/-! DEFINITION. The named operations over keyed collections, bytes, bit fields, places on the wafer and the state's
parts. -/

namespace Sys2Proof.Machine

/-! Keyed collections -/

/-- The value under key `k`, or `d` where the collection lists none. -/
def mget {α : Type} (d : α) : Map α → Nat → α
  | [], _ => d
  | (j, v) :: r, k => if j = k then v else mget d r k

/-- The collection without key `k`. -/
def merase {α : Type} (m : Map α) (k : Nat) : Map α := m.filter (fun p => p.1 != k)

/-- Puts an entry before the first greater key. -/
def mins {α : Type} (k : Nat) (v : α) : Map α → Map α
  | [] => [(k, v)]
  | (j, w) :: r => if k < j then (k, v) :: (j, w) :: r else (j, w) :: mins k v r

/-- Writes `v` under `k`; writing the default `d` removes the entry, so that equal collections are equal lists. -/
def mput {α : Type} [DecidableEq α] (d : α) (m : Map α) (k : Nat) (v : α) : Map α :=
  if v = d then merase m k else mins k v (merase m k)

/-- Changes the value under `k`. -/
def mmod {α : Type} [DecidableEq α] (d : α) (m : Map α) (k : Nat) (f : α → α) : Map α :=
  mput d m k (f (mget d m k))

/-- Changes every listed value; a value that becomes the default leaves the collection. -/
def mapAll {α : Type} [DecidableEq α] (d : α) (f : Nat → α → α) (m : Map α) : Map α :=
  (m.map (fun p => (p.1, f p.1 p.2))).filter (fun p => decide (p.2 ≠ d))

/-- Changes the value under every key below `n`, listed or not. -/
def mapBelow {α : Type} [DecidableEq α] (d : α) (n : Nat) (f : Nat → α → α) (m : Map α) : Map α :=
  ((List.range n).map (fun k => (k, f k (mget d m k)))).filter (fun p => decide (p.2 ≠ d))

/-- Whether the keys of a list of entries strictly rise. -/
def keysRise {α : Type} : Map α → Bool
  | [] => true
  | [_] => true
  | (j, _) :: (k, w) :: r => decide (j < k) && keysRise ((k, w) :: r)

/-- The canonical form: keys strictly rising and no entry equal to the default. -/
def mwf {α : Type} [DecidableEq α] (d : α) (m : Map α) : Bool := keysRise m && m.all (fun p => decide (p.2 ≠ d))

/-! Bytes. A memory is a collection of bytes by address; `d` is what an unlisted address reads as. -/

/-- `n` bytes from address `a`. -/
def bytesAt (d : Byte) (m : List Host.Cell) (a n : Nat) : List Byte := (List.range n).map (fun i => mget d m (a + i))

/-- Stores bytes from address `a`. -/
def storeBytes (d : Byte) (m : List Host.Cell) (a : Nat) : List Byte → List Host.Cell
  | [] => m
  | b :: bs => storeBytes d (mput d m a b) (a + 1) bs

/-- The collection without the keys from `a` to `a + n - 1`. -/
def clearRange {α : Type} (m : Map α) (a n : Nat) : Map α := m.filter (fun p => decide (p.1 < a) || decide (a + n ≤ p.1))

/-- The entries with keys from `a` to `a + n - 1`. -/
def sliceRange {α : Type} (m : Map α) (a n : Nat) : Map α := m.filter (fun p => decide (a ≤ p.1) && decide (p.1 < a + n))

/-- Little-endian bytes of a number (00 R5). -/
def le (n v : Nat) : List Byte := (List.range n).map (fun i => BitVec.ofNat 8 (v / 2 ^ (8 * i)))

/-- The number that little-endian bytes spell. -/
def unle (bs : List Byte) : Nat := bs.foldr (fun b a => b.toNat + 256 * a) 0

/-- `n` zero bytes. -/
def zeros (n : Nat) : List Byte := List.replicate n 0

/-- The bytes padded with zeros, or cut, to `n` bytes. -/
def padTo (n : Nat) (bs : List Byte) : List Byte := (bs ++ zeros (n - bs.length)).take n

/-- Little-endian bytes of 64-bit words. -/
def wordBytes (ws : List Word) : List Byte := ws.flatMap (fun w => le 8 w.toNat)

/-- Cuts a list into pieces of `n`, the last one perhaps shorter; an empty list gives one empty piece. -/
def pieces {α : Type} (n : Nat) (bs : List α) : List (List α) :=
  (List.range (max 1 ((bs.length + n - 1) / n))).map (fun i => (bs.drop (i * n)).take n)

/-- The 64-bit words that bytes spell, the last padded with zeros. -/
def bytesWords (bs : List Byte) : List Word :=
  if bs = [] then [] else (pieces 8 bs).map (fun p => BitVec.ofNat 64 (unle p))

/-! Bit fields -/

/-- Bits [hi:lo] of a number. -/
def bits (hi lo v : Nat) : Nat := v / 2 ^ lo % 2 ^ (hi - lo + 1)

/-- Bit n of a number. -/
def bit (n v : Nat) : Bool := v / 2 ^ n % 2 == 1

/-- A register image from its fields, each given as (lowest bit, width, value). -/
def pack (fs : List (Nat × Nat × Nat)) : Nat := fs.foldl (fun a f => a + f.2.2 % 2 ^ f.2.1 * 2 ^ f.1) 0

/-- A flag as a number. -/
def b2n (b : Bool) : Nat := if b then 1 else 0

/-- Addition that stops at the greatest number of `w` bits. -/
def satAdd (w a b : Nat) : Nat := min (a + b) (2 ^ w - 1)

/-- A signed number as `w` bits in two's complement. -/
def ofSigned (w : Nat) (v : Int) : Nat := (v % (2 ^ w : Int)).toNat

/-- The signed number that `w` bits hold in two's complement. -/
def toSigned (w v : Nat) : Int := if v % 2 ^ w < 2 ^ (w - 1) then (v % 2 ^ w : Nat) else (v % 2 ^ w : Nat) - (2 ^ w : Int)

/-- The numbers below `n` whose predicate holds, as a bit mask. -/
def maskOf (n : Nat) (p : Nat → Bool) : Nat := (List.range n).foldl (fun a i => if p i then a + 2 ^ i else a) 0

/-- Exclusive or of words. -/
def xorAll (ws : List Word) : Word := ws.foldl (fun a w => a ^^^ w) 0

/-! Places. A tile is y × 768 + x; field f = 8 × fy + fx (02). -/

/-- Physical tiles (01 R18). -/
def numTiles : Nat := 368640
/-- Fields, and pond shims (01 R18). -/
def numFields : Nat := 48
/-- Edge dies (01 R18). -/
def numDies : Nat := 32

def tileX (t : Nat) : Nat := t % 768
def tileY (t : Nat) : Nat := t / 768
def tileAt (x y : Nat) : Nat := y * 768 + x
/-- The field of a tile (02, Topology). -/
def fieldOf (t : Nat) : Nat := 8 * (tileY t / 80) + tileX t / 96
/-- A coordinate as responses carry it: x in [9:0], y in [18:10] (13 R413). -/
def coord (t : Nat) : Nat := tileX t + 1024 * tileY t
/-- The tile that a coordinate word names. -/
def ofCoord (c : Nat) : Nat := tileAt (bits 9 0 c) (bits 18 10 c)
/-- A coordinate as a Rill word carries it: x in [18:9], y in [8:0] (02 R44, R58). -/
def rillCoord (t : Nat) : Nat := tileX t * 512 + tileY t
/-- Every tile, on y then x. -/
def allTiles : List Nat := List.range numTiles
/-- The tiles of a field. -/
def fieldTiles (f : Nat) : List Nat :=
  (List.range 80).flatMap (fun y => (List.range 96).map (fun x => tileAt (96 * (f % 8) + x) (80 * (f / 8) + y)))
/-- Whether a column is a spare column: the last of every 16 (01 R19, 12 R383). -/
def spareCol (x : Nat) : Bool := x % 16 == 15

/-! Parts of the state -/

/-- The tile `t`. -/
def tileOf (s : State) (t : Nat) : Tile := mget {} s.tiles t
/-- Changes tile `t`; there is no tile beyond the wafer. -/
def onTile (t : Nat) (f : Tile → Tile) (s : State) : State :=
  if t < numTiles then { s with tiles := mmod {} s.tiles t f } else s
/-- Changes each tile of a list. -/
def onTiles (ts : List Nat) (f : Nat → Tile → Tile) (s : State) : State := ts.foldl (fun s t => onTile t (f t) s) s
/-- Changes every tile that is listed: for a change that leaves a tile at its reset values as it is. -/
def onListedTiles (f : Nat → Tile → Tile) (s : State) : State := { s with tiles := mapAll {} f s.tiles }
/-- Changes every tile of the wafer. -/
def onEveryTile (f : Nat → Tile → Tile) (s : State) : State := { s with tiles := mapBelow {} numTiles f s.tiles }
/-- The pond shim of field `f`. -/
def shimOf (s : State) (f : Nat) : Shim := mget {} s.shims f
def onShim (k : Nat) (f : Shim → Shim) (s : State) : State :=
  if k < numFields then { s with shims := mmod {} s.shims k f } else s
/-- The edge agent of die `d`. -/
def edgeOf (s : State) (d : Nat) : Edge := mget {} s.edges d
def onEdge (k : Nat) (f : Edge → Edge) (s : State) : State :=
  if k < numDies then { s with edges := mmod {} s.edges k f } else s
/-- Changes every listed shim, or every shim; likewise for edge agents. -/
def onListedShims (f : Nat → Shim → Shim) (s : State) : State := { s with shims := mapAll {} f s.shims }
def onEveryShim (f : Nat → Shim → Shim) (s : State) : State := { s with shims := mapBelow {} numFields f s.shims }
def onListedEdges (f : Nat → Edge → Edge) (s : State) : State := { s with edges := mapAll {} f s.edges }
def onEveryEdge (f : Nat → Edge → Edge) (s : State) : State := { s with edges := mapBelow {} numDies f s.edges }
def onTime (f : TimeState → TimeState) (s : State) : State := { s with time := f s.time }
def onRoot (f : RootState → RootState) (s : State) : State := { s with root := f s.root }
def onAlarm (f : AlarmState → AlarmState) (s : State) : State := { s with alarm := f s.alarm }
def onTxn (f : TxnState → TxnState) (s : State) : State := { s with txn := f s.txn }
def onPlans (f : PlanState → PlanState) (s : State) : State := { s with plans := f s.plans }
def onFolds (f : FoldState → FoldState) (s : State) : State := { s with folds := f s.folds }
def onCensus (f : CensusState → CensusState) (s : State) : State := { s with census := f s.census }
def onSnap (f : SnapState → SnapState) (s : State) : State := { s with snap := f s.snap }
def onRec (f : RecState → RecState) (s : State) : State := { s with recov := f s.recov }
def onPort (f : PortState → PortState) (s : State) : State := { s with port := f s.port }
def onSess (f : SessionState → SessionState) (s : State) : State := { s with sess := f s.sess }
def onTap (f : TapState → TapState) (s : State) : State := { s with tap := f s.tap }
def onLc (f : LcState → LcState) (s : State) : State := { s with lc := f s.lc }
def onBoot (f : BootState → BootState) (s : State) : State := { s with boot := f s.boot }
def onCfg (f : CfgState → CfgState) (s : State) : State := { s with cfg := f s.cfg }
def onXspi (f : XspiState → XspiState) (s : State) : State := { s with xspi := f s.xspi }
def onRill (f : RillState → RillState) (s : State) : State := { s with rill := f s.rill }
/-- A change made only where a condition holds; elsewhere nothing changes (log 2). -/
def when (c : Bool) (f : State → State) (s : State) : State := if c then f s else s

/-- Hub time (03 R84). -/
def now (s : State) : Nat := s.time.hub
/-- The part is in service: no cold reset is in force and the Rill and stubs are released (15 R459). -/
def inService (s : State) : Bool := s.rill.inService
/-- Hub time at the latest RCLK edge: RCLK runs at 500 MHz, and its edges lie on even hub ticks (01 R35, 03 R94; log 109). -/
def rclkNow (s : State) : Nat := now s - now s % 2
/-- The first RCLK edge at or after a hub time. -/
def edgeUp (t : Nat) : Nat := t + t % 2
/-- The RCLK edge after now (04 R119). -/
def nextEdge (s : State) : Nat := rclkNow s + 2
/-- A stub's time counter in eighths of a nanosecond: it adds 2 ns on every RCLK edge (03 R94). -/
def stub8 (s : State) (t : Nat) : Nat := (8 * rclkNow s + (tileOf s t).time.off8) % 2 ^ 67
/-- A core's time in eighths of a nanosecond: the stub's counter, placed between its RCLK edges (03 R96). -/
def core8 (s : State) (t : Nat) : Nat := (8 * now s + (tileOf s t).time.off8) % 2 ^ 67
/-- The hub time at which a tile's own time reaches a tick: now, where it has passed it (01 R28, 03 R96). -/
def reachAt (s : State) (t tick : Nat) : Nat :=
  let d := (8 * tick + 2 ^ 67 - core8 s t) % 2 ^ 67
  if d < 2 ^ 66 then now s + (d + 7) / 8 else now s
/-- A stub's aligned time in ns. -/
def stubNow (s : State) (t : Nat) : Nat := stub8 s t / 8
/-- A hub time as a tile's own time in ns. -/
def ownTime (x : Tile) (e : Nat) : Nat := (8 * e + x.time.off8) % 2 ^ 67 / 8
/-- A logical position as an LTN: 720 × y + x (12 R383). -/
def ltnAt (lx ly : Nat) : Nat := 720 * ly + lx
/-- The LTN of a tile under the current map, if it holds one. -/
def ltnOf (s : State) (t : Nat) : Option Nat :=
  if (tileOf s t).txn.ltnValid then some (tileOf s t).txn.ltn else none
/-- The tile that holds an LTN under the current map (00 R514). -/
def holderOf (s : State) (n : Nat) : Option Nat :=
  (s.tiles.find? (fun p => p.2.txn.ltnValid && p.2.txn.ltn == n)).map (·.1)
/-- A tile takes plans: it holds an LTN and is not retired (12 R382, 15 R476). -/
def takesPlan (x : Tile) : Bool := x.txn.ltnValid && !x.power.retired
/-- A core is up: powered and not retired (16 R490). -/
def coreUp (t : Tile) : Bool := t.power.pwrOk && !t.power.retired
/-- The registers with W1C bits: a centre register is named by its offset, those of tile t's agent and of die d's edge agent
by numbers above every centre offset. -/
def agentKey (t o : Nat) : Nat := 2 ^ 32 * (t + 1) + o
def edgeKey (d o : Nat) : Nat := 2 ^ 20 * (d + 1) + o
/-- Notes that the hub changes bits of register `o` in this HCLK cycle: it sets W1C bits (00 R11), or clears a field (16 R484). -/
def setW1c (o m : Nat) (s : State) : State :=
  onPort (fun p =>
    let old := if p.w1cAt = now s then p.w1c else []
    { p with
      w1cAt := now s
      w1c := mput 0 old o (mget 0 old o ||| m) }) s
/-- The bits of a register that a host write in this HCLK cycle does not change (00 R11, 16 R484). -/
def keptW1c (s : State) (o : Nat) : Nat := if s.port.w1cAt = now s then mget 0 s.port.w1c o else 0
/-- Marks events in SK_EVENTS and in the next status frame (13 R424). -/
def event (n : Nat) (s : State) : State :=
  setW1c 0x020 (2 ^ n)
    (onPort (fun p => { p with events := p.events ||| (1 <<< n), newEvents := p.newEvents ||| (1 <<< n) }) s)
/-- A Well write has failed: WELL_FAIL (12 R395, 16 R487). -/
def failWell (s : State) : State := setW1c 0xA00 (2 ^ 16) (onRec (fun r => { r with wellFail := true }) s)
/-- Draws a free value: advances the model's counter. -/
def drawFree (s : State) : State := onBoot (fun b => { b with freeCount := b.freeCount + 1 }) s

/-- The last `n` of a list. -/
def lastN {α : Type} (n : Nat) (l : List α) : List α := l.drop (l.length - n)

/-! The hang watchdog (10 R320) -/

/-- Some capture slot holds the tile for a still copy (09 R286, R287). -/
def copyHolds (x : Tile) : Bool := x.core.dip.caps.any (fun k => k.2.holding)

/-- The hang watchdog counts. -/
def hangCounts (x : Tile) : Bool :=
  x.hang.en && x.core.cmdBusy && x.still.mask == 0 && !x.still.stepping && !copyHolds x && x.power.pwrOk && !x.hang.fired

/-- The limit of a tile's hang watchdog in ns. -/
def hangLimit (x : Tile) : Nat :=
  x.hang.limitUs * 1000 * (if x.power.thr then (if x.hang.thrMult = 0 then 16 else x.hang.thrMult) else 1)

/-- What the watchdog has counted at stub time `me`, in ns. -/
def hangCount (me : Nat) (x : Tile) : Nat := if hangCounts x then x.hang.elapsed + (me - x.hang.since) else x.hang.elapsed

/-- The count as it stands, before something that may stop it. -/
def stopHang (me : Nat) (x : Tile) : Tile := { x with hang := { x.hang with elapsed := hangCount me x, since := me } }

/-- The count returns to zero. -/
def restartHang (me : Nat) (x : Tile) : Tile := { x with hang := { x.hang with elapsed := 0, since := me } }

/-- The stub watchdog returns to zero, and increments that come let it expire again (12 R369). -/
def restartCwdt (e : Nat) (x : Tile) : Tile :=
  { x with power := { x.power with cwdtHeld := false, cwdtSince := ownTime x e } }

end Sys2Proof.Machine
end

