-- ==== Sys2Proof/Machine/Flags.lean ====
section
/-! DEFINITION. Status codes, the order in which a request's conditions are reported, Rill reasons, and the event and
class numbers. -/

namespace Sys2Proof.Machine

/-- The status of a response (00 R12). -/
inductive Status where
  | ok | empty | late | stale | busy | denied | malformed | timeout | absent | refused | broken | lost | invalid
  deriving DecidableEq, Repr, Inhabited

/-- STATUS codes (13 R413). -/
def statusCode : Status → Nat
  | .ok => 0 | .empty => 1 | .late => 2 | .stale => 3 | .busy => 4 | .denied => 5 | .malformed => 6 | .timeout => 7
  | .absent => 8 | .refused => 9 | .broken => 10 | .lost => 11 | .invalid => 12

/-- The place of a status in the order of 00 R13; the outcomes that are no checks come last. -/
def statusRank : Status → Nat
  | .invalid => 0 | .malformed => 1 | .absent => 2 | .denied => 3 | .stale => 4 | .busy => 5 | .late => 6
  | .refused => 7 | .empty => 8 | .ok => 9 | .timeout => 10 | .broken => 11 | .lost => 12

/-- A condition that a request is checked for: if `bad`, it completes with this status and detail (13 R413). -/
structure Check where
  st : Status := .malformed
  bad : Bool := false
  reason : Nat := 0
  index : Nat := 0
  place : Nat := 4294967295
  port : Nat := 255
  deriving DecidableEq, Repr, Inhabited

/-- The better of two failed checks: the earlier status of R13, and the earlier one among equals. -/
def pickStep (a : Option Check) (c : Check) : Option Check :=
  if c.bad then
    match a with
    | none => some c
    | some b => if statusRank c.st < statusRank b.st then some c else some b
  else a

/-- The first condition that applies, in the order of 00 R13. -/
def pick (cs : List Check) : Option Check := cs.foldl pickStep none

/-- The detail body: REASON (2), INDEX at 4 (4), COORD at 8 (4), PORT at 12 (1) (13 R413). -/
def detail (c : Check) : List Byte := le 2 c.reason ++ zeros 2 ++ le 4 c.index ++ le 4 c.place ++ le 1 c.port ++ zeros 3

/-- The body a failed check answers with: OK and EMPTY carry no detail (13 R413). -/
def failBody (c : Check) : List Byte := if c.st = .ok || c.st = .empty then [] else detail c

/-- A field of a request outside its range (13 R413, reason 0x0010); `i` is its offset in the body. -/
def badField (bad : Bool) (i : Nat) : Check := { st := .malformed, bad := bad, reason := 0x10, index := i }
/-- A refusal whose outcome the opcode's chapter defines (reason 0x0012). -/
def refuse (bad : Bool) (i : Nat := 0) : Check := { st := .refused, bad := bad, reason := 0x12, index := i }
def busy (bad : Bool) : Check := { st := .busy, bad := bad }
def denied (bad : Bool) : Check := { st := .denied, bad := bad }
def absent (bad : Bool) (i : Nat := 0) : Check := { st := .absent, bad := bad, index := i }
def emptyIf (bad : Bool) : Check := { st := .empty, bad := bad }
def lateIf (bad : Bool) : Check := { st := .late, bad := bad }
def staleIf (bad : Bool) : Check := { st := .stale, bad := bad }
/-- A plan entry that breaks a rule (reason 0x000F); INDEX names the entry. -/
def badEntry (st : Status) (bad : Bool) (i : Nat) : Check := { st := st, bad := bad, reason := 0xF, index := i }

/-- The status the centre reports for a Rill reason (02 R59). -/
def reasonStatus (r : Nat) : Status :=
  match r with
  | 0 => .ok
  | 1 => .timeout
  | 2 => .refused
  | 3 => .stale
  | 4 => .stale
  | 5 => .refused
  | 6 => .timeout
  | 7 => .malformed
  | 8 => .refused
  | _ => .timeout

/-- A per-target Rill reason as a check: REASON is 0x0100 plus the code (13 R413). -/
def rillReason (bad : Bool) (r t : Nat) : Check :=
  { st := reasonStatus r, bad := bad, reason := 0x100 + r, place := coord t }

/-- The state lets a stub's core answer: not dark and not retired (16 R490). -/
def coreDark (t : Tile) : Bool := !coreUp t

/-! Event bits of SK_EVENTS (13 R424) -/
def evStill : Nat := 0
def evReleased : Nat := 1
def evStragglers : Nat := 2
def evFold : Nat := 3
def evTxn : Nat := 4
def evSnapCommit : Nat := 5
def evSnapBroken : Nat := 6
def evRecovery : Nat := 7
def evDiscarded : Nat := 8
def evWarm : Nat := 9
def evRelCancel : Nat := 10
def evAbandoned : Nat := 11
def evStepRecord : Nat := 12
def evFpRecord : Nat := 13
def evLinkReset : Nat := 14
def evPlan : Nat := 15

end Sys2Proof.Machine
end

