-- ==== Sys2Proof/Machine/Serve.lean ====
section
/-! DEFINITION. How a request is admitted and how it is answered (13): sessions, tags, the class C cache, the conditions
common to all requests, and the queues that carry responses. -/

namespace Sys2Proof.Machine

/-- The session a request needs (13 R425). -/
inductive Need where
  | zero       -- SESSION 0 or any
  | any        -- any session
  | intrusive  -- the intrusive session
  | spring     -- the intrusive session with the right SPRING
  deriving DecidableEq, Repr, Inhabited

/-- A row of the message catalogue (13 R426 to R433): code, class, session, and whether ROM minimal mode and the mode
of WIPE_PENDING serve it. -/
structure ReqKind where
  op : Nat
  classC : Bool
  need : Need := .any
  rom : Bool := false
  wipe : Bool := false
  deriving DecidableEq, Repr, Inhabited

/-- An open session; 0xFFFF is the mailbox's (13 R419, R440). -/
def findSession (s : State) (id : Nat) : Option Session :=
  if id = 65535 then (if s.tap.alive then some s.tap.session else none) else s.sess.sessions.find? (fun x => x.id == id)

/-- Changes an open session. -/
def onSession (id : Nat) (f : Session → Session) (s : State) : State :=
  if id = 65535 then onTap (fun t => { t with session := f t.session }) s
  else onSess (fun q => { q with sessions := q.sessions.map (fun x => if x.id == id then f x else x) }) s

/-- An intrusive session other than `id` is open (13 R419). -/
def otherIntrusive (s : State) (id : Nat) : Bool :=
  s.sess.sessions.any (fun x => x.intrusive && x.id != id) || (s.tap.alive && s.tap.session.intrusive && id != 65535)

/-- An intrusive session is open. -/
def anyIntrusive (s : State) : Bool := otherIntrusive s 0

def isIntrusive (s : State) (id : Nat) : Bool :=
  match findSession s id with
  | some x => x.intrusive
  | none => false

/-- The session holds the right in bit n of RIGHTS (13 R422). -/
def hasRight (s : State) (id n : Nat) : Bool :=
  match findSession s id with
  | some x => bit n x.rights
  | none => false

/-! Sending -/

/-- The 16-byte response header (13 R412). -/
def respHeader (r : Response) (frag : Nat) (last : Bool) (len : Nat) : List Byte :=
  le 1 r.opcode ++ le 1 r.status ++ le 2 (r.tag % 1024 + if last then 32768 else 0) ++ le 2 len ++ le 2 frag ++
    le 2 r.session ++ le 6 r.reqId

/-- Moves frames that wait into the window of 64 and numbers them at hub time `t` (13 R407). -/
def pumpStep (t : Nat) (p : PortState) : PortState :=
  match p.txWait with
  | [] => p
  | f :: r =>
    if p.unacked.length < 64 then
      { p with txWait := r, unacked := p.unacked ++ [{ f with seq := p.txSeq, sentAt := t }], txSeq := (p.txSeq + 1) % 4096 }
    else p

def pump (t : Nat) (p : PortState) : PortState :=
  let q := (List.range (min 64 p.txWait.length)).foldl (fun p _ => pumpStep t p) p
  if p.unacked = [] then { q with ackedAt := t } else q

/-- Sends a response on the port, in fragments of at most 2,032 body bytes (13 R411, R414). -/
def portSend (r : Response) (s : State) : State :=
  let ps := pieces 2032 r.body
  let fs : List TxFrame := ps.mapIdx (fun i b =>
    { seq := 0, frag := i, last := i + 1 == ps.length, response := { r with body := b } })
  onPort (fun p => pump (now s) { p with txWait := p.txWait ++ fs }) s

/-- Puts a response into the mailbox's response buffer, one fragment at a time (13 R439). -/
def mboxSend (r : Response) (s : State) : State :=
  let ps := pieces 2032 r.body
  let fs := ps.mapIdx (fun i b => bytesWords (respHeader r i (i + 1 == ps.length) b.length ++ b))
  onTap (fun t =>
    if t.discard then { t with busy := false, discard := false }
    else { t with busy := false, respBuf := fs.headD [], respWait := fs.tail }) s

def send (r : Response) (s : State) : State := if r.session = 65535 then mboxSend r s else portSend r s

/-! Answering -/

/-- The outstanding request that a response answers: that of the same tag, else the latest repeat (13 R416). -/
def outTag (s : State) (h : ReqHdr) : Option ReqHdr :=
  match s.sess.outstanding.find? (fun o => o.session == h.session && o.reqId == h.reqId && o.tag == h.tag) with
  | some o => some o
  | none => s.sess.outstanding.find? (fun o => o.session == h.session && o.reqId == h.reqId)

/-- Keeps a response in the class C cache (13 R416; log 127). -/
def cacheFill (h : ReqHdr) (r : Response) (c : List CacheEntry) : List CacheEntry :=
  c.map (fun e => if e.session == h.session && e.reqId == h.reqId && e.response == none then { e with response := some r } else e)

/-- A response to a request's header. -/
def mkResponse (h : ReqHdr) (st : Status) (body : List Byte) : Response :=
  { opcode := h.opcode, status := statusCode st, tag := h.tag, session := h.session, reqId := h.reqId, body := body }

/-- Completes a request: frees its tag, caches a class C response, and sends it unless a link reset freed its tag
(13 R414, R416, R417). -/
def respond (h : ReqHdr) (st : Status) (body : List Byte) (s : State) : State :=
  let r := mkResponse h st body
  let s1 := onSess (fun q => { q with cache := cacheFill h r q.cache }) s
  match outTag s h with
  | none => s1
  | some o =>
    send { r with tag := o.tag } (onSess (fun q => { q with outstanding := q.outstanding.erase o }) s1)

/-- Completes a request with a failed check. -/
def fail (h : ReqHdr) (c : Check) (s : State) : State := respond h c.st (failBody c) s

/-- Completes a deferred request, if one waits. -/
def respondOpt (h : Option ReqHdr) (st : Status) (body : List Byte) (s : State) : State :=
  match h with
  | none => s
  | some h => respond h st body s

/-! Admission -/

/-- The hub runs in the boot ROM (15 R468). -/
def inRom (s : State) : Bool := s.boot.romReason != 0

/-- The request can reach the hub: the port is open (13 R402), or the mailbox session exists (13 R440). -/
def reachable (s : State) (h : ReqHdr) : Bool := if h.session = 65535 then s.tap.alive else s.port.opened

/-- The cached entry of a class C request. -/
def cached (s : State) (h : ReqHdr) : Option CacheEntry :=
  s.sess.cache.find? (fun e => e.session == h.session && e.reqId == h.reqId)

/-- One more than the highest REQ_ID of the session (13 R416). -/
def highReq (s : State) (id : Nat) : Nat :=
  if id = 0 then s.sess.maxReqId0 else
    match findSession s id with
    | some x => x.maxReqId
    | none => 0

/-- A session takes a request: SESSION 0 is enough for some, any open session for the rest. -/
def known (s : State) (k : ReqKind) (h : ReqHdr) : Bool :=
  if h.session = 0 then k.need = .zero || (k.op == 0xA0 && s.lc.code == 0xFF) else (findSession s h.session).isSome

def tagInUse (s : State) (h : ReqHdr) : Bool :=
  s.sess.outstanding.any (fun o => o.session == h.session && o.tag == h.tag)

/-- The conditions common to all requests (13 R414, R416, R419, R421, R425, R433; 14 R449, R451). -/
def commonChecks (s : State) (k : ReqKind) (h : ReqHdr) : List Check :=
  let sc := s.lc.code == 4
  [ { st := .invalid, bad := s.lc.code == 0xFF && k.op != 0xA0 },
    { st := .malformed, bad := h.defect != 0, reason := h.defect },
    { st := .malformed, bad := tagInUse s h, reason := 5 },
    { st := .denied, bad := sc && k.op != 4 && k.op != 0xA0 },
    { st := .denied, bad := !sc && !known s k h, reason := 8 },
    { st := .denied, bad := (k.need == .intrusive || k.need == .spring) && !isIntrusive s h.session, reason := 9 },
    { st := .denied, bad := k.need == .spring && !hasRight s h.session 1, reason := 10 },
    { st := .busy, bad := decide (256 ≤ s.sess.outstanding.length), reason := 6 },
    { st := .busy, bad := s.lc.phase != 0 && !(k.op == 4 || k.op == 5 || k.op == 6 || k.op == 0xA0) },
    { st := .refused, bad := inRom s && s.lc.code != 0xFF && !sc && !(if s.boot.romReason = 9 then k.wipe else k.rom),
      reason := 0x11 },
    { st := .refused, bad := k.classC && known s k h && (cached s h).isNone && decide (h.reqId < highReq s h.session),
      reason := 11 } ]

/-- The request counts as taken: its tag is free, there is room, and its session exists (13 R414). -/
def registers (s : State) (k : ReqKind) (h : ReqHdr) : Bool :=
  !tagInUse s h && decide (s.sess.outstanding.length < 256) && known s k h

/-- Takes a request: its tag is outstanding, its session's time and REQ_ID move on, and a class C request enters the
cache of the most recent 2,048 (13 R414, R416, R420). -/
def register (k : ReqKind) (h : ReqHdr) (s : State) : State :=
  let s1 := onSess (fun q => { q with
    outstanding := q.outstanding ++ [h]
    cache := if k.classC && (cached s h).isNone && decide (highReq s h.session ≤ h.reqId)
      then (q.cache ++ [({ session := h.session, reqId := h.reqId, response := none } : CacheEntry)]).drop (q.cache.length + 1 - 2048)
      else q.cache
    maxReqId0 := if h.session = 0 then max q.maxReqId0 (h.reqId + 1) else q.maxReqId0 }) s
  onSession h.session (fun x => { x with lastSeen := now s, maxReqId := max x.maxReqId (h.reqId + 1) }) s1

/-- Answers a request that is not taken: nothing of an outstanding request is touched (13 R414). -/
def turnAway (h : ReqHdr) (c : Check) (s : State) : State := send (mkResponse h c.st (failBody c)) s

/-- A request other than HUB_INFO, STATUS_READ, NOP and TIME_EXCHANGE ends QUIET (15 R474); the return's time is left
out, so the request goes on at once (log 11). -/
def wake (k : ReqKind) (s : State) : State :=
  if s.boot.quiet && !(k.op == 4 || k.op == 5 || k.op == 6 || k.op == 0x20) then
    onBoot (fun b => { b with quiet := false, waking := true }) s
  else s

/-- Answers a repeat of a class C request from the cache, or moves an unfinished one to the new tag (13 R416). -/
def repeatReply (h : ReqHdr) (e : CacheEntry) (s : State) : State :=
  match e.response with
  | some r => send { r with tag := h.tag } s
  | none => onSess (fun q => { q with
      outstanding := q.outstanding.filter (fun o => !(o.session == h.session && o.reqId == h.reqId)) ++ [h] }) s

/-- A request that fragments brought leaves the request buffer when the hub acts on it (13 R415). -/
def takeUp (h : ReqHdr) (s : State) : State :=
  onSess (fun q => { q with
    assembling := q.assembling.filter (fun a => !(a.complete && a.session == h.session && a.reqId == h.reqId)) }) s

/-- Admits a request and carries it out: a request that no interface takes changes nothing; a repeated class C request
is answered from the cache; otherwise the first condition in the order of 00 R13 answers, or `act` acts. -/
def serve (k : ReqKind) (h0 : ReqHdr) (checks : ReqHdr → State → List Check) (act : ReqHdr → State → State)
    (s : State) : State :=
  let h := { h0 with opcode := k.op }
  if !reachable s h then s
  else
    let s := takeUp h (wake k s)
    match (if k.classC && registers s k h && h.defect == 0 && s.lc.code != 0xFF then cached s h else none) with
    | some e => repeatReply h e (onSession h.session (fun x => { x with lastSeen := now s }) s)
    | none =>
      match pick (commonChecks s k h ++ checks h s) with
      | some c => if registers s k h then fail h c (register k h s) else turnAway h c s
      | none => act h (register k h s)

/-- `serve` as the meaning of a request. -/
def request (k : ReqKind) (h : ReqHdr) (checks : ReqHdr → State → List Check) (act : ReqHdr → State → State)
    (s : State) : Host.Outcome State Fault Refusal := .next (serve k h checks act s)

/-- Completes a request OK with a body. -/
def okWith (body : State → List Byte) (h : ReqHdr) (s : State) : State := respond h .ok (body s) s

end Sys2Proof.Machine
end

