-- ==== Sys2Proof/Machine/Crypto.lean ====
section
/-! DEFINITION. CRC-32 (13 R405, 15 R463), SHA-384 (FIPS 180-4) and ECDSA P-384 verification
(FIPS 186-4) as the spec names them (13 R422, 14 R450, R456). The standards' constants are PRESUMED (log 12). -/

namespace Sys2Proof.Machine

/-! CRC-32 -/

/-- Eight steps of the reflected CRC with polynomial 0x04C1_1DB7. -/
def crc32Bits : Nat → Nat → Nat
  | 0, c => c
  | n + 1, c => crc32Bits n (if c % 2 = 1 then (c / 2) ^^^ 0xEDB88320 else c / 2)

/-- CRC-32 of IEEE 802.3: reflected, initial value and final exclusive or 0xFFFF_FFFF (13 R405). -/
def crc32 (bs : List Byte) : Nat := (bs.foldl (fun c b => crc32Bits 8 (c ^^^ b.toNat)) 0xFFFFFFFF) ^^^ 0xFFFFFFFF

/-! SHA-384 -/

/-- The primes below 410: the first eighty. -/
def smallPrimes : List Nat := (List.range 410).filter (fun n => decide (1 < n) && (List.range 21).all (fun d => decide (d < 2) || d == n || n % d != 0))

/-- The greatest r below 2^67 whose k-th power is at most n, found bit by bit from the top. -/
def rootFloor (k n : Nat) : Nat :=
  ((List.range 67).reverse).foldl (fun r i => if (r + 2 ^ i) ^ k ≤ n then r + 2 ^ i else r) 0

/-- The first 64 bits of the fraction of the k-th root of p. -/
def rootFraction (k p : Nat) : Word := BitVec.ofNat 64 (rootFloor k (p * 2 ^ (64 * k)))

/-- The round constants: the fractions of the cube roots of the first eighty primes. -/
def shaK : List Word := smallPrimes.map (rootFraction 3)

/-- The initial hash value of SHA-384: the fractions of the square roots of the ninth to the sixteenth prime. -/
def shaIv : List Word := ((smallPrimes.drop 8).take 8).map (rootFraction 2)

def rotr (w : Word) (n : Nat) : Word := w.rotateRight n
def shaS0 (x : Word) : Word := rotr x 28 ^^^ rotr x 34 ^^^ rotr x 39
def shaS1 (x : Word) : Word := rotr x 14 ^^^ rotr x 18 ^^^ rotr x 41
def shaG0 (x : Word) : Word := rotr x 1 ^^^ rotr x 8 ^^^ (x >>> 7)
def shaG1 (x : Word) : Word := rotr x 19 ^^^ rotr x 61 ^^^ (x >>> 6)

/-- Extends a message schedule, newest word first, by one word. -/
def shaExt (w : List Word) : List Word :=
  (shaG1 (w.getD 1 0) + w.getD 6 0 + shaG0 (w.getD 14 0) + w.getD 15 0) :: w

/-- The message schedule of a 16-word block. -/
def shaSched (blk : List Word) : List Word := ((List.range 64).foldl (fun w _ => shaExt w) blk.reverse).reverse

/-- One round: the working variables a to h, as a list. -/
def shaRound (v : List Word) (kw : Word × Word) : List Word :=
  match v with
  | [a, b, c, d, e, f, g, h] =>
    let t1 := h + shaS1 e + ((e &&& f) ^^^ (~~~e &&& g)) + kw.1 + kw.2
    let t2 := shaS0 a + ((a &&& b) ^^^ (a &&& c) ^^^ (b &&& c))
    [t1 + t2, a, b, c, d + t1, e, f, g]
  | w => w

def shaBlock (hv : List Word) (blk : List Word) : List Word :=
  List.zipWith (· + ·) hv ((shaK.zip (shaSched blk)).foldl shaRound hv)

/-- The padded message: 0x80, zeros, and the length in bits in 16 bytes, most significant first. -/
def shaPad (m : List Byte) : List Byte :=
  m ++ [0x80] ++ zeros ((239 - m.length % 128) % 128) ++ (le 16 (8 * m.length)).reverse

/-- The SHA-384 digest of a message, 48 bytes. -/
def sha384 (m : List Byte) : List Byte :=
  let blocks := (pieces 128 (shaPad m)).map (fun b => (pieces 8 b).map (fun w => BitVec.ofNat 64 (unle w.reverse)))
  ((blocks.foldl shaBlock shaIv).take 6).flatMap (fun w => (le 8 w.toNat).reverse)

/-! ECDSA P-384 -/

def p384P : Nat := 0xfffffffffffffffffffffffffffffffffffffffffffffffffffffffffffffffeffffffff0000000000000000ffffffff
def p384N : Nat := 0xffffffffffffffffffffffffffffffffffffffffffffffffc7634d81f4372ddf581a0db248b0a77aecec196accc52973
def p384B : Nat := 0xb3312fa7e23ee7e4988e056be3f82d19181d9c6efe8141120314088f5013875ac656398d8a2ed19d2a85c8edd3ec2aef
def p384Gx : Nat := 0xaa87ca22be8b05378eb1c71ef320ad746e1d3b628ba79b9859f741e082542a385502f25dbf55296c3a545e3872760ab7
def p384Gy : Nat := 0x3617de4a96262c6f5d9e98bf9292dc29f8f41dbd289a147ce9da3113b5f0b8c00a60b1ce1d7e819d7a431d7c90ea0e5f

/-- x ^ e mod m, by the bits of e; `n` bounds them. -/
def powMod (m : Nat) : Nat → Nat → Nat → Nat
  | 0, _, _ => 1 % m
  | n + 1, x, e => (if e % 2 = 1 then x else 1) * powMod m n (x * x % m) (e / 2) % m

/-- The inverse modulo a prime of at most 384 bits. -/
def invMod (m x : Nat) : Nat := powMod m 384 (x % m) (m - 2)

/-- A point of the curve, or the point at infinity. -/
abbrev Point := Option (Nat × Nat)

/-- The sum of two points (affine). -/
def ecAdd (a b : Point) : Point :=
  match a, b with
  | none, b => b
  | a, none => a
  | some (x1, y1), some (x2, y2) =>
    if x1 = x2 ∧ (y1 + y2) % p384P = 0 then none
    else
      let l := if x1 = x2 then (3 * x1 * x1 + p384P - 3) * invMod p384P (2 * y1) % p384P
        else (y2 + p384P - y1) * invMod p384P (x2 + p384P - x1) % p384P
      let x3 := (l * l + 2 * p384P - x1 - x2) % p384P
      some (x3, (l * (x1 + p384P - x3) + p384P - y1) % p384P)

/-- k times a point, by the bits of k; `n` bounds them. -/
def ecMul : Nat → Nat → Point → Point
  | 0, _, _ => none
  | n + 1, k, a => ecAdd (if k % 2 = 1 then a else none) (ecMul n (k / 2) (ecAdd a a))

/-- The point lies on the curve y² = x³ − 3x + b. -/
def onCurve (x y : Nat) : Bool :=
  decide (x < p384P) && decide (y < p384P) && (y * y % p384P == (x * x * x + (p384P - 3) * x + p384B) % p384P)

/-- A P-384 signature (r, s) verifies over a 48-byte digest under the public key (x, y). -/
def ecdsaOk (digest : List Byte) (x y r s : Nat) : Bool :=
  let e := unle digest.reverse
  let w := invMod p384N s
  onCurve x y && decide (0 < r) && decide (r < p384N) && decide (0 < s) && decide (s < p384N) &&
    (match ecAdd (ecMul 384 (e * w % p384N) (some (p384Gx, p384Gy))) (ecMul 384 (r * w % p384N) (some (x, y))) with
     | none => false
     | some (x1, _) => x1 % p384N == r)

/-- A key's digest: SHA-384 over X then Y, each a 48-byte little-endian integer (13 R422). -/
def keyDigest (x y : Nat) : List Byte := sha384 (le 48 x ++ le 48 y)

/-- The public key of a private key, as made for the identity (14 R447). -/
def publicKey (k : Nat) : Nat × Nat := (ecMul 384 k (some (p384Gx, p384Gy))).getD (0, 0)

end Sys2Proof.Machine
end

