-- ==== Sys2Proof/Machine/Operands.lean ====
section
/-! DEFINITION. The operand forms of the commands: tile sets (02 R54, R55), hub addresses (00 R6 to R8) and scopes
(04 R108, R109). -/

namespace Sys2Proof.Machine

/-! Tile sets -/

/-- A descriptor the centre refuses to send (02 R55), or one whose word 3 is set with LFILT 0 (13 R425). -/
def setBad (d : TileSet) : Bool :=
  decide (d.x1 < d.x0) || decide (d.y1 < d.y0) || decide (767 < d.x1) || decide (479 < d.y1) || decide (719 < d.lx1) ||
  decide (479 < d.ly1) || d.xstep == 0 || decide (16 < d.xstep) || d.ystep == 0 || decide (16 < d.ystep) ||
  (!d.lfilt && (d.lx0 != 0 || d.lx1 != 0 || d.ly0 != 0 || d.ly1 != 0))

/-- The rule of SPARES and the logical filter for a tile that holds LTN `l`, or none (02 R55). -/
def admits (d : TileSet) (l : Option Nat) : Bool :=
  match l with
  | none => d.spares
  | some n => !d.lfilt || (decide (d.lx0 ≤ n % 720) && decide (n % 720 ≤ d.lx1) && decide (d.ly0 ≤ n / 720) &&
      decide (n / 720 ≤ d.ly1))

/-- Tile `t` lies in a set's physical rectangle and on its step grid (02 R55). -/
def inArea (d : TileSet) (t : Nat) : Bool :=
  decide (t < numTiles) && decide (d.x0 ≤ tileX t) && decide (tileX t ≤ d.x1) && decide (d.y0 ≤ tileY t) &&
  decide (tileY t ≤ d.y1) && (tileX t - d.x0) % d.xstep == 0 && (tileY t - d.y0) % d.ystep == 0

/-- Tile `t` is a member of a set under the current map (02 R55). A retired tile is in no set of logical positions (12 R382;
log 133). -/
def inSet (s : State) (d : TileSet) (t : Nat) : Bool :=
  inArea d t && admits d (ltnOf s t) && (d.spares || !(tileOf s t).power.retired)

/-- The members of a set, on y then x. Without SPARES every member holds an LTN, so it is listed. -/
def members (s : State) (d : TileSet) : List Nat :=
  if d.spares then
    ((List.range (d.y1 + 1 - d.y0)).flatMap (fun i => (List.range (d.x1 + 1 - d.x0)).map (fun j =>
      tileAt (d.x0 + j) (d.y0 + i)))).filter (inSet s d)
  else (s.tiles.map (·.1)).filter (inSet s d)

/-- Every physical tile (04 R129). -/
def wholeWafer : TileSet := { x0 := 0, x1 := 767, y0 := 0, y1 := 479, spares := true }
/-- Every tile that holds an LTN. -/
def allLogical : TileSet := { x0 := 0, x1 := 767, y0 := 0, y1 := 479 }
/-- The members that hold an LTN, in ascending LTN order (13 R434), which is the order on y then x: a mend keeps the order
of a row's columns (12 R383). -/
def ltnMembers (s : State) (d : TileSet) : List Nat := (members s d).filter (fun t => (ltnOf s t).isSome)

/-! Addresses -/

def addrSpace (a : Nat) : Nat := bits 63 56 a
def addrOffset (a : Nat) : Nat := a % 2 ^ 32
def addrPhys (a : Nat) : Bool := bit 51 a
def addrLtn (a : Nat) : Nat := bits 50 32 a

/-- The space addresses a tile (00 R7). -/
def tileSpace (sp : Nat) : Bool := sp == 2 || sp == 3 || sp == 4

/-- An address that breaks 00 R8. In space 0x08, bits [36:32] are the edge die (16 R494). -/
def addrBad (a : Nat) : Bool :=
  let sp := addrSpace a
  decide (8 < sp) || bits 55 52 a != 0 ||
  (if tileSpace sp then
    if addrPhys a then decide (767 < bits 50 41 a) || decide (479 < bits 40 32 a) else decide (345599 < addrLtn a)
   else if sp == 8 then bits 51 37 a != 0
   else bits 51 32 a != 0)

/-- The tile an address names, if some tile holds its LTN (00 R6, R514). -/
def addrTile (s : State) (a : Nat) : Option Nat :=
  if addrPhys a then some (tileAt (bits 50 41 a) (bits 40 32 a)) else holderOf s (addrLtn a)

/-- The address of a tile by its coordinate, in space 0x02 (00 R6). -/
def tileAddr (t : Nat) : Nat := pack [(56, 8, 2), (51, 1, 1), (41, 10, tileX t), (32, 9, tileY t)]

/-- The checks of an address: 00 R8 at offset `i` of the body, and R514. -/
def addrChecks (s : State) (a i : Nat) : List Check :=
  [badField (addrBad a) i, refuse (!addrBad a && tileSpace (addrSpace a) && (addrTile s a).isNone) i]

/-! Scopes -/

/-- The life-cycle state permits region scopes: MK and IN (04 R112). -/
def regionState (s : State) : Bool := s.lc.code == 0 || s.lc.code == 1

def regionOf (s : State) (n : Nat) : Region := mget {} s.root.regions n

/-- A tile is a member of a scope: any tile of scope 0, else one whose ST_REGION bit is set (02 R80, 04 R109). -/
def inScope (t : Tile) (scope : Nat) : Bool := scope == 0 || t.still.region.getLsbD scope

/-- A logical position lies in a region's rectangle. -/
def inRect (r : Region) (n : Nat) : Bool :=
  decide (r.lx0 ≤ n % 720) && decide (n % 720 ≤ r.lx1) && decide (r.ly0 ≤ n / 720) && decide (n / 720 ≤ r.ly1)

/-- The members of a scope for a still census: every physical tile, the tiles whose LTN lies in the region, or the
tiles of region 15 (04 R109, R129). -/
def scopeTiles (s : State) (scope : Nat) : List Nat :=
  if scope = 0 then allTiles
  else if scope = 15 then (s.tiles.filter (fun p => p.2.still.region.getLsbD 15)).map (·.1)
  else (s.tiles.filter (fun p => p.2.txn.ltnValid && inRect (regionOf s scope) p.2.txn.ltn)).map (·.1)

/-- Members a region's rectangle should hold (04 R110). -/
def rectCount (r : Region) : Nat := (r.lx1 + 1 - r.lx0) * (r.ly1 + 1 - r.ly0)

/-- Two scopes can share a tile: either is the wafer, they are equal, or their rectangles overlap (04 R121). -/
def scopesMeet (s : State) (a b : Nat) : Bool :=
  a == 0 || b == 0 || a == b ||
  (let p := regionOf s a; let q := regionOf s b
   decide (p.lx0 ≤ q.lx1) && decide (q.lx0 ≤ p.lx1) && decide (p.ly0 ≤ q.ly1) && decide (q.ly0 ≤ p.ly1))

/-- Some tile's mask holds the scope, or a STILL of it has been launched and its outcome is not yet known. -/
def inForce (s : State) (scope : Nat) : Bool :=
  s.tiles.any (fun p => p.2.still.mask.getLsbD scope) ||
  s.root.launched.any (fun a => a.kind == 1 && a.scope == scope)

end Sys2Proof.Machine
end

