-- ==== Sys2Proof/Machine/Clock.lean ====
section
/-! DEFINITION. How hub time moves (03 R84) and what the centre itself changes when hub time reaches the tick of a
press (05 R177, 06 R207). A command that stands for an event at a stated time moves hub time forward to that time
(log 2). -/

namespace Sys2Proof.Machine

/-- The binding of a user class in a watch plan's entries; RECORD with nothing else where none binds it (05 R175). -/
def planBinding (es : List WatchEntry) (c : Nat) : ClassBinding :=
  es.foldl (fun b e =>
    match e with
    | .binding k a r hold lim =>
      if k = c then { hold := hold, limit := lim, used := 0, fromPlan := true, region := r, action := a } else b
    | _ => b) {}

/-- The centre conditions of a watch plan (05 R173). -/
def planConditions (es : List WatchEntry) : List Condition :=
  es.filterMap (fun e =>
    match e with
    | .condition f el t once c th =>
      some { foldId := f, element := el, test := t, thresh := th, cls := c, once := once, fired := false }
    | _ => none)

/-- A plan is loaded: its masks are computed from the map of now. -/
def markLoaded (plan : Nat) (s : State) : State := onPlans (fun p => { p with moved := p.moved.filter (fun m => m.plan != plan) }) s

/-- Replaces SK_CLASS[8] to SK_CLASS[15] and the condition table by those of the plan being activated (05 R177), or
clears them when a plan is removed (R176). -/
def switchWatch (s : State) : State :=
  let es := match s.plans.watchNext with
    | some w => w.entries
    | none => []
  let s := onAlarm (fun a => { a with
    classes := (List.range 8).foldl (fun m i => mput {} m (8 + i) (planBinding es (8 + i))) a.classes
    disarmed := a.disarmed &&& 0xFF }) s
  markLoaded 1 (onPlans (fun p => { p with
    watch := p.watchNext
    watchNext := none
    watchRemoving := false
    conditions := planConditions es }) s)

/-- The new map epoch that a transaction's EPOCH item carries, if it holds one (06 R207). -/
def epochOf (t : Txn) : Option Nat :=
  (t.entries.flatMap (fun e => e.items)).findSome? (fun i =>
    if i.kind = 6 then some ((i.data.headD 0).toNat % 65536) else none)

/-- A counter plan becomes active: no step is folded, and the first step begins, marked FIRST and, for the press within
it, PARTIAL (07 R219, R235, R236). -/
def startLedger (t : Nat) (s : State) : State :=
  onFolds (fun f => { f with stepFolded := [], stepShown := none }) (onCensus (fun c => { c with
    curStep := s.plans.cnt.map (fun _ => (0, t, true))
    curPartial := true }) s)

/-- What the centre changes in the HCLK cycle of a press tick, by the transaction's purpose; a plan that becomes active is
an event of the status frame (13 R424). -/
def pressCentre (s : State) : State :=
  match s.txn.active with
  | none => s
  | some t =>
    let s := onTxn (fun x => { x with centreDone := true }) s
    let s := match epochOf t with
      | some e => { s with mapEpoch := e }
      | none => s
    match t.purpose with
    | 1 => event 15 (switchWatch s)
    | 2 => event 15 (startLedger s.txn.t (markLoaded 2 (onPlans (fun p => { p with cnt := p.cntNext, cntNext := none }) s)))
    | 3 => event 15 (onPlans (fun p => { p with trace := p.traceNext, traceNext := none, traceRemoving := false }) s)
    | _ => s

/-- Carries out the centre's part of a press once hub time has reached its tick. -/
def reachTick (s : State) : State :=
  if s.txn.pressed && !s.txn.centreDone && decide (s.txn.t ≤ now s) then pressCentre s else s

/-- Moves hub time forward to `t`, if the time base runs and has not passed it. -/
def elapse (t : Nat) (s : State) : State :=
  if s.time.running && decide (now s < t) then reachTick (onTime (fun x => { x with hub := t % 2 ^ 64 }) s) else s

/-- One HCLK cycle: hub time adds 1, modulo 2^64 (03 R84). -/
def tick (s : State) : State :=
  if s.time.running then reachTick (onTime (fun x => { x with hub := (x.hub + 1) % 2 ^ 64 }) s) else s

/-! The action queue of the still tree (04 R118) -/

/-- Inserts an action in order of target tick. -/
def insertAction (a : StillAction) : List StillAction → List StillAction
  | [] => [a]
  | b :: r => if a.tick < b.tick then a :: b :: r else b :: insertAction a r

/-- Queues an action; its launch time is fixed by the L_still of the moment (03 R93). -/
def enqueue (kind scope tick origin txn : Nat) (s : State) : State :=
  let a : StillAction := { kind := kind, scope := scope, tick := tick, launchAt := tick - s.time.lstill, origin := origin, txn := txn }
  onRoot (fun r => { r with
    queue := insertAction a r.queue
    wstate := if kind = 1 && scope == 0 && r.wstate == 0 then 1 else r.wstate }) s

/-- Two ticks lie within 8 ns of each other. -/
def near (a b : Nat) : Bool := decide (a < b + 8) && decide (b < a + 8)

/-- A tick lies within 8 ns of a queued action's, or its launch within 8 ns of the mark in preparation (R94, R118). -/
def crowded (s : State) (tick : Nat) : Bool :=
  s.root.queue.any (fun a => near a.tick tick) ||
  (match s.time.markTick with
   | none => false
   | some m => near m (tick - s.time.lstill))

/-- The first tick at or after `lo` for which `bad` fails: each failing tick moves to the next; `n` bounds the search
(64 queued actions and a mark bar at most 15 ticks each). -/
def firstFree (bad : Nat → Bool) : Nat → Nat → Nat
  | 0, lo => lo
  | n + 1, lo => if bad lo then firstFree bad n (lo + 1) else lo

/-- The earliest tick at or after `lo` that meets the spacing of R118. -/
def firstTick (s : State) (lo : Nat) : Nat := firstFree (crowded s) 1100 lo

/-- The queue has no room for `n` actions (04 R118). -/
def queueFull (s : State) (n : Nat) : Bool := decide (64 < s.root.queue.length + n)

/-- Queues an action of the centre's own at the first tick from `lo` on that meets the spacing; while the queue holds its 64
actions it waits for room (04 R118, log 110). -/
def enqueueOwn (kind scope lo origin : Nat) (s : State) : State :=
  if s.root.queue.length < 64 then enqueue kind scope (firstTick s lo) origin 0 s
  else onRoot (fun r => { r with waiting := r.waiting ++ [{ kind := kind, scope := scope, tick := lo, origin := origin }] }) s

/-- The oldest action of the centre's own that waits takes the room there is. -/
def pumpOwn (s : State) : State :=
  match s.root.waiting with
  | [] => s
  | a :: r =>
    if s.root.queue.length < 64 then
      enqueueOwn a.kind a.scope (max a.tick (now s + s.time.lstill)) a.origin (onRoot (fun q => { q with waiting := r }) s)
    else s

/-- Removes the queued actions for which `p` holds. -/
def unqueue (p : StillAction → Bool) (s : State) : State :=
  onRoot (fun r => { r with queue := r.queue.filter (fun a => !p a) }) s

/-- A step that is queued is given up: both its actions leave the queue, and a command step's STEP_K is cleared on every
tile that answers (04 R117; log 80). -/
def dropStep (s : State) : State :=
  let s := unqueue (fun a => a.origin == 2) s
  let s := if s.root.stepKind = 2 then
    onListedTiles (fun _ x => if x.power.answers then { x with still := { x.still with stepK := 0 } } else x) s else s
  onRoot (fun r => { r with stepKind := 0, stepReleased := false }) s

end Sys2Proof.Machine
end

