-- ==== Sys2Proof/Machine/Eddies.lean ====
section
/-! DEFINITION. The eddy ring of a stub: how a record is written (10 R301 to R306), and what stream mode keeps of it
(R313). -/

namespace Sys2Proof.Machine

/-- Ring slots: 64, or 32 on SK-S (10 R301). -/
def ringDepth (s : State) : Nat := if s.cfg.skS then 32 else 64

/-- The class bit of an event code in ST_EDDY_CTL.MASK; none for NONE and GAP (10 R304, R305). -/
def eddyClass (code : Nat) : Option Nat :=
  match code with
  | 0x01 => some 2 | 0x02 => some 3 | 0x03 => some 1 | 0x04 => some 1 | 0x05 => some 1
  | 0x06 => some 0 | 0x07 => some 0 | 0x08 => some 0 | 0x09 => some 0 | 0x0A => some 0 | 0x0B => some 0
  | 0x0C => some 0 | 0x0D => some 0 | 0x0E => some 0 | 0x0F => some 7 | 0x10 => some 4 | 0x11 => some 5
  | 0x12 => some 5 | 0x13 => some 5 | 0x14 => some 6 | 0x15 => some 6 | 0x17 => some 0
  | _ => none

/-- Bits 0, 1 and 6 of MASK read 1 (10 R325). -/
def forcedMask (m : BitVec 8) : BitVec 8 := m ||| 0x43

/-- TS40S of a stub: stub time [40:1] (03 R106). -/
def ts40 (t : Nat) : Nat := t / 2 % 2 ^ 40

/-- The FLAGS of a record written now (10 R303). -/
def eddyFlags (t : Tile) : Nat :=
  b2n t.time.marking + 2 * b2n t.time.unset + 4 * b2n (!t.power.pwrOk) + 8 * b2n (t.still.mask != 0)

/-- The limited kind of a record (10 R305): 0 ERROR of index 36, 1 RILL_DROP, 2 WEIR_SLIP, 3 FOLD_LATE. -/
def limitedKind (r : Eddy) : Option Nat :=
  match r.code with
  | 0x10 => if bits 63 61 r.data.toNat = 0 then some 0 else none
  | 0x11 => some 1
  | 0x12 => some 2
  | 0x13 => some 3
  | _ => none

/-- Puts a record behind the last of a list, but among its last `k`, which are of the same RCLK cycle, in ascending CODE order;
those take their SEQ by place, the last of them `seq` (10 R306). -/
def inOrder (k seq : Nat) (r : Eddy) (l : List Eddy) : List Eddy :=
  let n := l.length - k
  let t := l.drop n
  let m := t.takeWhile (fun q => decide (q.code ≤ r.code)) ++ [r] ++ t.dropWhile (fun q => decide (q.code ≤ r.code))
  l.take n ++ m.zipWith (fun q v => { q with seq := v }) (t.map (·.seq) ++ [seq])

/-- In stream mode a record is unsent; an unsent record that it overwrites is lost to the stream (10 R313). -/
def streamPush (depth k seq : Nat) (r : Eddy) (e : StubEddy) : StubEddy :=
  if !e.stream then e
  else
    let lose := decide (depth ≤ e.streamQ.length)
    let q := inOrder k seq r e.streamQ
    { e with
      streamQ := if lose then q.drop 1 else q
      unsent := min depth (e.streamQ.length + 1)
      lostStream := if lose then satAdd 32 e.lostStream 1 else e.lostStream
      streamGap := if lose then satAdd 32 e.streamGap 1 else e.streamGap }

/-- Writes a record into the ring at stub time `me`, over the oldest once it is full (10 R301, R305, R306). -/
def ringWrite (depth me : Nat) (r : Eddy) (e : StubEddy) : StubEddy :=
  let k := e.burst
  let slot := fun i => (e.head + depth - k + i) % depth
  let l := inOrder k e.seq r ((List.range k).map (fun i => mget {} e.ring (slot i)))
  let f := streamPush depth k e.seq r e
  { f with
    ring := (List.range (k + 1)).foldl (fun m i => mput {} m (slot i) (l.getD i {})) e.ring
    head := (e.head + 1) % depth
    wrapped := e.wrapped || e.head + 1 == depth
    seq := (e.seq + 1) % 256
    burst := k + 1
    lastKind := match limitedKind r with
                | none => e.lastKind
                | some j => mput 0 e.lastKind j (me + 1) }

/-- A record leaves the write queue: while FREEZE is set it is counted, and a stream keeps it, with its SEQ, for later (10 R302,
R308; log 78). -/
def ringEnter (depth me : Nat) (r : Eddy) (e : StubEddy) : StubEddy :=
  if !e.freeze then ringWrite depth me r e
  else if !e.stream then { e with held := satAdd 32 e.held 1 }
  else { e with
    held := satAdd 32 e.held 1
    heldQ := inOrder e.burst e.seq r e.heldQ
    seq := (e.seq + 1) % 256
    burst := e.burst + 1 }

/-- Records in the write queue in RCLK cycle `c`: it drains one per cycle (10 R306). -/
def wqNow (e : StubEddy) (c : Nat) : Nat := e.wq - (c - e.wqCycle)

/-- The GAP that reports lost records (10 R306, R308, R313). -/
def gapOf (time flags n : Nat) : Eddy := { time := time, code := 0x16, flags := flags, data := BitVec.ofNat 64 n }

/-- The GAP for the events lost to a full write queue enters it in the first RCLK cycle in which it has room, if cycle `c`, at
stub time `me`, is not before that one (10 R306). -/
def enterGap (depth c me flags : Nat) (e : StubEddy) : StubEddy :=
  let g := e.wqCycle + (e.wq - 7)
  if e.lostQ = 0 || decide (c < g) then e
  else
    let r := gapOf (ts40 (me - 2 * (c - g))) flags e.lostQ
    { ringEnter depth me r { e with wq := wqNow e g + 1, wqCycle := g, lostQ := 0, burst := 0 } with burst := 0 }

/-- Passes an event at stub time `me` through the 8-entry write queue in cycle `c`: it is lost when the queue is full; the GAP of
an earlier loss has gone ahead of it (10 R306). -/
def wqPass (depth c me : Nat) (r : Eddy) (e : StubEddy) : StubEddy :=
  let e := enterGap depth c me r.flags { e with burst := if e.wqCycle = c then e.burst else 0 }
  let n := wqNow e c
  if 8 ≤ n then { e with wq := n, wqCycle := c, lostQ := satAdd 32 e.lostQ 1 }
  else ringEnter depth me r { e with wq := n + 1, wqCycle := c }

/-- The window of the limited kinds: a second record of one kind needs 1,000,000 ns of stub time since the last one written (10
R305). -/
def kindDue (e : StubEddy) (k t : Nat) : Bool :=
  let l := mget 0 e.lastKind k
  l == 0 || decide (l - 1 + 1000000 ≤ t)

/-- Records an event at a stub with a given TIME, if its class is enabled and the stub is in service. -/
def recordAt (t time code data : Nat) (s : State) : State :=
  if !inService s then s
  else
    onTile t (fun x =>
      let en := match eddyClass code with
        | none => true
        | some c => (forcedMask x.eddy.mask).getLsbD c
      if en then
        let r : Eddy := ⟨time, code, eddyFlags x, 0, BitVec.ofNat 64 data⟩
        { x with eddy := wqPass (ringDepth s) (now s / 2) (stubNow s t) r x.eddy }
      else x) s

/-- Records an event at a stub now (10 R301 to R306). -/
def record (t code data : Nat) (s : State) : State := recordAt t (ts40 (stubNow s t)) code data s

/-- LATE_ACTION: an action whose tick has passed when it arrives, or when its core has rebuilt core time (02 R80, 03 R98). -/
def recordLate (t action scope tick : Nat) (s : State) : State :=
  record t 0x0B (action * 2 ^ 61 + scope * 2 ^ 57 + tick % 2 ^ 32) s

/-- Records an event of a limited kind, if its window has passed; otherwise it is only counted by its own counter (10 R305). -/
def recordKind (t code k data : Nat) (s : State) : State :=
  if kindDue (tileOf s t).eddy k (stubNow s t) then record t code data s else s

/-- FREEZE is cleared: a stream then sends what was held back, and the stub writes one GAP with its number into the ring (10
R308). -/
def thaw (t : Nat) (s : State) : State :=
  let d := ringDepth s
  let me := stubNow s t
  onTile t (fun x =>
    let e := x.eddy.heldQ.foldl (fun e r => streamPush d 0 r.seq r e)
      { x.eddy with freeze := false, held := 0, heldQ := [], burst := 0 }
    let g := ringWrite d me (gapOf (ts40 me) (eddyFlags x) x.eddy.held) { e with stream := false }
    { x with eddy := { g with stream := e.stream, burst := 0 } }) s

/-- Sixteen bytes of a record (10 R302). -/
def eddyBytes (e : Eddy) : List Byte := le 5 e.time ++ le 1 e.code ++ le 1 e.flags ++ le 1 e.seq ++ le 8 e.data.toNat

/-- The ring's records, oldest first (10 R307). -/
def ringList (depth : Nat) (e : StubEddy) : List Eddy :=
  if e.wrapped then (List.range depth).map (fun i => mget {} e.ring ((e.head + i) % depth))
  else (List.range e.head).map (fun i => mget {} e.ring i)

/-- An LTN word: bit 31 set when the tile holds one (12 R516). -/
def ltnWord (x : Tile) : Nat := if x.txn.ltnValid then x.txn.ltn + 2 ^ 31 else 0

end Sys2Proof.Machine
end

