-- ==== Sys2Proof/Machine/Trees.lean ====
section
/-! DEFINITION. What the centre knows of stills: the still census and its counts (04 R129 to R134), and the scopes in
force. -/

namespace Sys2Proof.Machine

/-! Codes of ST_STILL.STATE (04 R155) -/
def stRunning : Nat := 0
def stArmed : Nat := 1
def stFreezing : Nat := 2
def stStill : Nat := 3
def stStepping : Nat := 4
def stDark : Nat := 5
def stDarkStill : Nat := 6
def stNoack : Nat := 7

/-- A member counts as still (04 R129). A stub whose counter holds no mark is named with STALE_MAP (03 R94). -/
def stillOk (t : Tile) : Bool := (t.still.state == stStill || t.still.state == stDarkStill) && !t.time.unset

/-- A member that a confirming census can count: its stub answers and holds a mark (03 R94, log 70). -/
def counts (t : Tile) : Bool := t.power.answers && !t.time.unset

/-- The flag word a member returns (04 R129). -/
def stillFlags (t : Tile) : Nat :=
  b2n (t.still.state == stDarkStill) + 2 * b2n (t.still.state == stNoack) + 4 * b2n t.still.lateFrz +
  8 * b2n t.still.vpend + 16 * b2n t.still.missed + 32 * b2n t.time.unset

/-- The outcome of a still census: members counted OK, those not still, FLAGS_OR, and those whose reply was lost. -/
structure StillCount where
  ok : Nat := 0
  naks : List Nat := []
  flags : Nat := 0
  lost : List Nat := []
  deriving DecidableEq, Repr, Inhabited

/-- The still census over a scope (04 R129). -/
def stillCount (s : State) (scope : Nat) : StillCount :=
  let ms := scopeTiles s scope
  let ans := ms.filter (fun t => (tileOf s t).power.answers)
  { ok := (ans.filter (fun t => stillOk (tileOf s t))).length
    naks := ans.filter (fun t => !stillOk (tileOf s t))
    flags := ans.foldl (fun f t => f ||| stillFlags (tileOf s t)) 0
    lost := ms.filter (fun t => !(tileOf s t).power.answers) }

/-- The quadrant of a tile within its field (02, Topology). -/
def quadOf (t : Nat) : Nat := b2n (decide (48 ≤ tileX t % 96)) + 2 * b2n (decide (40 ≤ tileY t % 80))

/-- Names stragglers by the method of 04 R131: the ten lowest, then the ten lowest of each field, then the ten lowest
of each quadrant of a field that holds more than ten; at most 256. -/
def nameStragglers (ts : List Nat) : List Nat :=
  if ts.length ≤ 10 then ts
  else
    let byField := (List.range numFields).flatMap (fun f => (ts.filter (fun t => fieldOf t == f)).take 10)
    let byQuad := (List.range numFields).flatMap (fun f =>
      let q := ts.filter (fun t => fieldOf t == f)
      if q.length ≤ 10 then [] else (List.range 4).flatMap (fun i => (q.filter (fun t => quadOf t == i)).take 10))
    (ts.take 10 ++ byField ++ byQuad).eraseDups.take 256

/-- The scope's still is declared with no stragglers (04 R145). -/
def declared (s : State) (scope : Nat) : Bool :=
  if scope = 0 then s.root.wstate == 3 else s.root.regionsStill.getLsbD scope

/-- A region still stands: some region's still is declared or its mask bit is in force (04 R143). -/
def regionStands (s : State) : Bool :=
  (List.range 14).any (fun i => s.root.regionsStill.getLsbD (i + 1) || inForce s (i + 1))

/-- A recovery bars host requests that change a tile's course (12 R391). -/
def recBusy (s : State) : Bool := decide (1 ≤ s.recov.phase) && decide (s.recov.phase ≤ 4)

/-- A step is in progress (04 R145). -/
def stepRuns (s : State) : Bool := s.root.stepKind != 0

/-- The scope holding a tile is declared still: the wafer's, or that of a region with the tile (06 R190). -/
def tileDeclared (s : State) (t : Nat) : Bool :=
  s.root.wstate == 3 || (List.range 14).any (fun i =>
    s.root.regionsStill.getLsbD (i + 1) && (tileOf s t).still.region.getLsbD (i + 1))

/-! Still-tree words (02 R79) -/

/-- The 48 bits of a word, from its bits [47:32] and [31:0] (02 R79). -/
def wireWord (head tickLo : Nat) : Nat := head % 2 ^ 16 * 2 ^ 32 + tickLo % 2 ^ 32
/-- The fields of a still-tree word's 48 bits (02 R79). -/
def wordAction (w : Nat) : Nat := bits 47 45 w
def wordScope (w : Nat) : Nat := bits 44 41 w
def wordTick (w : Nat) : Nat := bits 31 0 w

/-- An odd number of the low `n` bits are set. -/
def oddBits (n v : Nat) : Bool := (List.range n).foldl (fun b i => b != bit i v) false

/-- Parity wire 0 gives even parity with bits [23:0] of a word, and wire 1 with bits [47:24] (02 R79, R81). -/
def parityOk (w : Nat) (p0 p1 : Bool) : Bool := oddBits 24 w == p0 && oddBits 24 (w / 2 ^ 24) == p1

/-! Time marks (03 R94) -/

/-- Mark ticks that R94 bars: odd ones, those whose lower half leaves no room, and those whose launch would lie within
8 ns of a queued action's. -/
def markBarred (s : State) (m : Nat) : Bool :=
  m % 2 == 1 || decide (2 ^ 32 - 2 ^ 20 < m % 2 ^ 32) || s.root.queue.any (fun a => near a.launchAt m)

/-- Where the search for a mark tick begins: 100 µs ahead (log 16), past the ticks at the end of a 2^32 ns period. -/
def markFrom (s : State) : Nat :=
  let t := now s + 100000
  if 2 ^ 32 - 2 ^ 20 < t % 2 ^ 32 + 4096 then (t / 2 ^ 32 + 1) * 2 ^ 32 else t

/-- A stub that answers takes ST_TIME_COMP and ST_TIME_HI for a mark at tick `m`, which arms it. -/
def armStub (m d : Nat) (x : Tile) : Tile :=
  if x.power.answers then
    { x with time := { x.time with
      comp := d
      hi := m / 2 ^ 32 % 2 ^ 32
      armedComp := true
      armedHi := true
      marking := true } }
  else x

/-- The centre prepares a mark of the whole wafer: it chooses M, writes both registers to every stub, and treats M as a
queued launch (steps 1 and 2 of R94; log 8). -/
def beginMark (s : State) : State :=
  let m := firstFree (markBarred s) 1100 (markFrom s)
  onEveryTile (fun t x => armStub m (mget 0 s.time.fieldDelay (fieldOf t)) x)
    (onTime (fun t => { t with markTick := some m }) s)

/-- The light census counts its periods from now: P0 goes to every stub's ST_LC_BASE (07 R229). -/
def startPeriods (s : State) : State :=
  let p := now s
  onEveryTile (fun _ x => if x.power.answers then { x with plan := { x.plan with lcBase := p } } else x)
    (onCensus (fun c => { c with p0 := p, nextK := 1 }) s)

end Sys2Proof.Machine
end

