-- ==== Sys2Proof/Machine/Bank.lean ====
section
/-! DEFINITION. Plan banks: the image of 57 words that the centre builds for an agent (05 R515), its digest (06 R196),
and the fields that the agent reads from it (05 R180, R181; 08 R273; 09 R300). -/

namespace Sys2Proof.Machine

/-- The tiles a capture entry captures on, with their slices: the map records of its tensor (09 R281). -/
def capSlice (s : State) (c : CapEntry) (t : Nat) : Option Slice :=
  match ltnOf s t with
  | none => none
  | some n => (s.plans.pmap.find? (fun r => r.tensor == c.tensor && r.ltn == n)).map (·.slice)

/-- The capture entries of a plan, in entry order; ENTRY is the place among them, which has six bits (log 13). -/
def capEntries (es : List WatchEntry) : List CapEntry :=
  es.filterMap (fun e =>
    match e with
    | .capture c => some c
    | _ => none)

/-- The slice of a dip entry on member `t`: one image per member in ascending LTN order (13 R434). -/
def dipSlice (s : State) (d : DipEntry) (t : Nat) : Slice := d.slices.getD ((ltnMembers s d.set).idxOf t) {}

/-- The four words of comparator n on tile t (05 R180, R181). -/
def cmpWords (s : State) (es : List WatchEntry) (t n : Nat) : List Word :=
  (es.findSome? (fun e =>
    match e with
    | .comparator d k ctl a b c => if k = n && inSet s d t then some [ctl, a, b, c] else none
    | _ => none)).getD [0, 0, 0, 0]

/-- The six words of dip slot n on tile t (08 R273). -/
def dipWords (s : State) (es : List WatchEntry) (t n : Nat) : List Word :=
  (es.findSome? (fun e =>
    match e with
    | .dip d =>
      if d.slot = n && inSet s d.set t then
        let l := dipSlice s d t
        some ([pack [(0, 1, 1), (3, 1, b2n d.replica), (4, 6, d.foldSel), (10, 9, ofSigned 9 d.sumExp),
                 (19, 9, ofSigned 9 d.histBase), (28, 4, d.fmt), (32, 32, d.tensor)],
               pack [(0, 32, d.step1), (32, 32, d.step0)],
               pack [(0, 8, d.foldBase), (8, 24, l.rowlen), (32, 16, l.len), (48, 16, l.off)],
               l.base, l.stride, l.tokstride].map (BitVec.ofNat 64))
      else none
    | _ => none)).getD (List.replicate 6 0)

/-- The four words of capture slot n on tile t (09 R300). -/
def capWords (s : State) (es : List WatchEntry) (t n : Nat) : List Word :=
  let cs := capEntries es
  ((List.range cs.length).findSome? (fun i =>
    let c := cs.getD i {}
    if c.slot = n then
      match capSlice s c t with
      | none => none
      | some l =>
        some ([pack [(0, 1, 1), (8, 1, b2n c.still), (9, 1, b2n c.tokEn), (10, 1, b2n c.keepLast), (11, 7, c.holdMax),
                 (18, 6, i), (24, 8, c.frames), (32, 32, c.tensor)],
               pack [(0, 32, c.step1), (32, 32, c.step0)],
               pack [(16, 24, c.tok1), (40, 24, c.tok0)],
               pack [(32, 16, l.len), (48, 16, l.off)]].map (BitVec.ofNat 64))
    else none)).getD [0, 0, 0, 0]

/-- The bank image of tile t under a watch plan; none is the all-zero bank of no plan (05 R515). -/
def bankWords (s : State) (p : Option WatchPlan) (t : Nat) : List Word :=
  match p with
  | none => List.replicate 57 0
  | some p =>
    [BitVec.ofNat 64 (p.id % 256)] ++ (List.range 4).flatMap (cmpWords s p.entries t) ++
    (if s.cfg.skS then List.replicate 24 0 else (List.range 4).flatMap (dipWords s p.entries t)) ++
    (List.range 4).flatMap (capWords s p.entries t)

/-- The mix of 06 R196. -/
def mix (i b : Word) : Word :=
  let x0 := b ^^^ (i * 0xA5C31E9742D86B0F)
  let x1 := x0 ^^^ (x0 >>> 29)
  let x2 := x1 * 0xD1B54A329C6F08E7
  x2 ^^^ (x2 >>> 32)

/-- The digest of a plan bank: the non-zero words mixed with their index (06 R196). -/
def bankDigest (ws : List Word) : Word :=
  (ws.mapIdx (fun j v => if v = 0 then 0 else mix (BitVec.ofNat 64 j) v)).foldl (· + ·) 0

/-- A bank image as a collection of words by index. -/
def bankMap (ws : List Word) : Map Word := (List.range ws.length).foldl (fun m i => mput 0 m i (ws.getD i 0)) []

/-- The words of a bank that an agent holds. -/
def bankList (m : Map Word) : List Word := (List.range 57).map (fun i => mget 0 m i)

/-- The digest of a staged set of `words`, word j mixed with the target's coordinate and the identifier (06 R196). -/
def stagedDigest (txn t : Nat) (words : List Word) : Word :=
  let k := txn * 2 ^ 40 + tileX t * 2 ^ 20 + tileY t * 2 ^ 10
  (words.mapIdx (fun j w => mix (BitVec.ofNat 64 (k + j)) w)).foldl (· + ·) 0

/-! The agent's view of its active bank -/

/-- The active bank of a core (05 R171). -/
def activeBank (c : Core) : Map Word := if c.active then c.bank1 else c.bank0
def inactiveBank (c : Core) : Map Word := if c.active then c.bank0 else c.bank1
def bankWord (c : Core) (i : Nat) : Nat := (mget 0 (activeBank c) i).toNat
/-- Word w (0 CTL, 1 A, 2 B, 3 C) of comparator n in the active bank. -/
def cmpReg (c : Core) (n w : Nat) : Nat := bankWord c (1 + 4 * n + w)
/-- Word w of dip slot n: CTL, STEPS, SLICE, BASE, STRIDE, TOKSTRIDE. -/
def dipReg (c : Core) (n w : Nat) : Nat := bankWord c (17 + 6 * n + w)
/-- Word w of capture slot n: CTL, STEPS, TOK, SLICE. -/
def capReg (c : Core) (n w : Nat) : Nat := bankWord c (41 + 4 * n + w)

end Sys2Proof.Machine
end

