-- ==== Sys2Proof/Machine/RecEnd.lean ====
section
/-! DEFINITION. How a recovery ends, and how the hub falls back to its boot ROM (12 R371, R380, R397; 15 R468). -/

namespace Sys2Proof.Machine

/-- What a byte of the Well reads as that nothing has written (log 5). -/
def wellBlank : Byte := 0xFF
def wellRead (s : State) (a n : Nat) : List Byte := bytesAt wellBlank s.xspi.well a n
def wellPut (a : Nat) (bs : List Byte) (s : State) : State :=
  onXspi (fun x => { x with well := storeBytes wellBlank x.well a bs }) s

/-- The record that is being written to the Well: the last gasp's (0), then those of earlier recoveries (1), then the last
recovery's (2). One whose write has failed stays in hub SRAM (12 R376, R392, R395). -/
def wellNext (s : State) : Option (Nat × CrashWrite) :=
  let open_ := fun (w : CrashWrite) => !w.written && !w.failed
  match s.recov.lastGasp.filter open_, s.recov.older.find? open_, s.recov.crash.filter open_ with
  | some w, _, _ => some (0, w)
  | none, some w, _ => some (1, w)
  | none, none, some w => some (2, w)
  | none, none, none => none

/-- A record is being written to the Well, or waits for that (16 R488). -/
def wellBusy (s : State) : Bool := (wellNext s).isSome && !s.boot.wellAbsent

/-- OUTCOME and SNAP_ID of a crash record as the recovery leaves them (12 R378, R380). -/
def patchCrash (s : State) (w : CrashWrite) : CrashWrite :=
  { w with bytes := w.bytes.take 38 ++ le 1 s.recov.outcome ++ (w.bytes.drop 39).take 1 ++ le 4 s.recov.snapId ++ w.bytes.drop 44 }

/-- A 32-bit field of the Well. -/
def wellWord (s : State) (a : Nat) : Nat := unle (wellRead s a 4)

/-- Where the record after one at place `a` goes: the next 4 KiB boundary (12 R377). -/
def afterRecord (a len : Nat) : Nat := (a + len + 4095) / 4096 * 4096

/-- The Well header once a record is whole: CRASH_HEAD, CRASH_SEQ and OVERWRITTEN (12 R377, R380). -/
def putWellHead (w : CrashWrite) (s : State) : State :=
  wellPut 8 (le 4 (afterRecord w.offset w.bytes.length) ++ le 4 (wellWord s 12 + 1) ++ le 4 (wellWord s 16) ++ le 4 (wellWord s 20 + w.lost)) s

/-- The recovery ends: OUTCOME and SNAP_ID are written in place where the record is in the Well already, and the Well header
last; else they go into the record that is still to be written (12 R380). -/
def closeCrash (s : State) : State :=
  match s.recov.crash with
  | none => s
  | some w =>
    if w.written then
      let s := wellPut (w.offset + 40) (le 4 s.recov.snapId) (wellPut (w.offset + 38) (le 1 s.recov.outcome) s)
      if w.ended then s else onRec (fun r => { r with crash := some { w with ended := true } }) (putWellHead w s)
    else onRec (fun r => { r with crash := some { patchCrash s w with ended := true } }) s

/-- The recovery reaches its outcome, or READY: SK_REC_STATUS holds it, and the next status frame reports it; a recovery that has
passed 50 ms shows REC_OVERRUN (12 R371, R389, R397). -/
def setOutcome (outcome : Nat) (s : State) : State :=
  let s := onRec (fun r => { r with
    outcome := outcome
    elapsedUs := min ((now s - r.start) / 1000) (2 ^ 24 - 1) }) s
  let s := if s.recov.start + 50000000 < now s then setW1c 0xA00 (2 ^ 19) (onRec (fun r => { r with overrun := true }) s) else s
  event evRecovery (closeCrash s)

/-- The recovery ends with an outcome, and the dump's action is over (12 R371, R397). -/
def endRecovery (outcome : Nat) (s : State) : State :=
  setOutcome outcome (onAlarm (fun a => { a with running := a.running.filter (fun r => r.action != 4) })
    (onRec (fun r => { r with phase := 6, dieLoss := false }) s))

/-- The hub runs in the boot ROM from now on, for a reason; the rest stays as it is (15 R468). -/
def enterRom (reason : Nat) (s : State) : State := onBoot (fun b => { b with romReason := reason, phase := 10 }) s

/-- A second rinse of a mend ends its recovery with NEEDS_CHECKPOINT, or the MEND_NOW that it serves (12 R385). -/
def mendMapFailed (s : State) : State :=
  if s.recov.mendRequest.isSome then onRec (fun r => { r with mendRequest := none }) s else endRecovery 5 s

end Sys2Proof.Machine
end

