-- ==== Sys2Proof/Machine/Press.lean ====
section
/-! DEFINITION. Debug transactions as the centre runs them: targets, items and digests, staging, rinse and fence, and
the press (06). -/

namespace Sys2Proof.Machine

/-! Items -/

/-- The kinds that need the still: SRAM, ROUTE and CTXSEL (06 R185). -/
def needsStill (kind : Nat) : Bool := kind == 2 || kind == 3 || kind == 4

/-- A window offset of the stub block (16 R489). -/
def stubOffset (o : Nat) : Bool := decide (o < 0x1000)

/-- Every register of an AREG item is a stub register. -/
def aregStub (i : Item) : Bool := stubOffset i.addr && stubOffset (i.addr + 8 * i.data.length - 8)

/-- A target with a dark core accepts the item (06 R185). -/
def darkAccepts (i : Item) : Bool :=
  match i.kind with
  | 1 => aregStub i
  | 5 => true
  | 6 => true
  | 7 => true
  | _ => false

/-- The item is bound for the core (06 R205). -/
def coreBound (i : Item) : Bool := (i.kind == 1 && !aregStub i) || needsStill i.kind || i.kind == 7

/-- An item's header word: KIND, NWORDS, ADDR (06 R184). -/
def itemHeader (i : Item) : Word :=
  BitVec.ofNat 64 (pack [(0, 32, i.addr), (51, 9, i.data.length), (60, 4, i.kind)])

def itemWords (i : Item) : List Word := itemHeader i :: i.data

/-- The most data words of an item kind (06 R185). -/
def kindWords (k : Nat) : Nat :=
  match k with
  | 1 => 255
  | 2 => 511
  | 3 => 64
  | 4 => 1
  | 5 => 1
  | 6 => 1
  | 7 => 1
  | _ => 0

/-- Reads items from staged words; with `whole` the last must have all its words. None: a header is no item's (06 R184, R194).
`n` bounds the items. -/
def decodeItems (whole : Bool) : Nat → List Word → Option (List Item)
  | 0, ws => if ws = [] then some [] else none
  | n + 1, ws =>
    match ws with
    | [] => some []
    | h :: r =>
      let k := bits 63 60 h.toNat
      let len := bits 59 51 h.toNat
      if len = 0 || kindWords k < len || bits 50 32 h.toNat != 0 || (whole && r.length < len) then none
      else (decodeItems whole n (r.drop len)).map (fun l => ⟨k, bits 31 0 h.toNat, r.take len⟩ :: l)

/-- The staged words with `d` in place of the data words of the BANK items among them (06 R196). -/
def withBank (d : Word) : Nat → List Word → List Word
  | 0, ws => ws
  | n + 1, ws =>
    match ws with
    | [] => []
    | h :: r =>
      let len := bits 59 51 h.toNat
      h :: ((r.take len).map (fun w => if bits 63 60 h.toNat = 7 then d else w) ++ withBank d n (r.drop len))

/-! Targets -/

/-- The tile an entry that names one tile reaches: by coordinate, or the holder of the LTN now (06 R191). -/
def entryTile (s : State) (e : TxnEntry) : Option Nat := addrTile s e.addr

/-- Entry `e` reaches tile `t`. -/
def entryHas (s : State) (e : TxnEntry) (t : Nat) : Bool :=
  if e.isSet then inSet s e.set t else entryTile s e == some t

def entryTiles (s : State) (e : TxnEntry) : List Nat :=
  if e.isSet then members s e.set else (entryTile s e).toList

/-- The targets of a transaction, each once. -/
def targetsOf (s : State) : List TxnEntry → List TxnEntry → List Nat
  | _, [] => []
  | seen, e :: r => (entryTiles s e).filter (fun t => !seen.any (fun d => entryHas s d t)) ++ targetsOf s (e :: seen) r

def txnTargets (s : State) (t : Txn) : List Nat := targetsOf s [] t.entries

/-- ST_EDDY_CTL in ring mode, at its cold values (10 R311, R325). -/
def ringCtl : Nat := pack [(16, 16, 100), (32, 8, 0xFF)]

/-- The items the centre itself builds for a tile: 1, the bank of the watch plan being activated (05 R177); 2, the
counter plan (07 R219); 5, the trace plan (10 R310); else what the entry carries, for every tile. -/
def builtItems (s : State) (e : TxnEntry) (t : Nat) : List Item :=
  match e.perTile with
  | 1 =>
    let id := match s.plans.watchNext with
      | some p => p.id
      | none => 0
    [⟨7, (if (tileOf s t).core.active then 0 else 256) + id % 256, [bankDigest (bankWords s s.plans.watchNext t)]⟩]
  | 2 =>
    let id := match s.plans.cntNext with
      | some p => if inSet s p.set t then p.id else 0
      | none => 0
    [⟨1, 0x1010, [BitVec.ofNat 64 (id + if (tileOf s t).core.count.sel then 0 else 256)]⟩]
  | 5 =>
    let v := match s.plans.traceNext with
      | some p => if inSet s p.cfg.set t then
          pack [(8, 1, 1), (10, 2, p.cfg.policy), (12, 4, p.cfg.fullClass), (16, 16, p.cfg.flushUs), (32, 8, p.cfg.mask.toNat)]
        else ringCtl
      | none => ringCtl
    [⟨1, 0x80, [BitVec.ofNat 64 v]⟩]
  | _ => e.items

/-- A target's share: the items of every entry that reaches it, in order (06 R188). -/
def itemsFor (s : State) (x : Txn) (t : Nat) : List Item :=
  (x.entries.filter (fun e => entryHas s e t)).flatMap (fun e => builtItems s e t)

/-- The words of a target's staged set as the centre knows it. -/
def shareWords (s : State) (x : Txn) (t : Nat) : List Word := (itemsFor s x t).flatMap itemWords

/-- The digest the centre expects of a target (06 R197). -/
def expectDigest (s : State) (x : Txn) (t : Nat) : Word := stagedDigest x.id t (shareWords s x t)

/-- Some item of the transaction that needs the still has a target in the scope (06 R206). -/
def holdsStill (s : State) (scope : Nat) : Bool :=
  match s.txn.active with
  | none => false
  | some x =>
    !s.txn.pressed && x.entries.any (fun e => e.items.any (fun i => needsStill i.kind) &&
      (scope == 0 || (entryTiles s e).any (fun t => inScope (tileOf s t) scope)))

/-- The transaction in progress carries IDENT items (06 R206). -/
def holdsIdent (s : State) : Bool :=
  match s.txn.active with
  | none => false
  | some x => x.entries.any (fun e => e.items.any (fun i => i.kind == 5))

/-! Stub content -/

/-- A stub discards its staged content: TSTATE EMPTY, HOLD_AWAKE drops, and a RINSE eddy with the cause (06 R204). -/
def discardStaged (t cause : Nat) (s : State) : State :=
  let x := tileOf s t
  let id := x.txn.id
  record t 0x09 (id * 2 ^ 48 + cause * 2 ^ 46) (onTile t (fun x =>
    { x with txn := { x.txn with tstate := 0, words := 0, staged := [], written := [], hold := false, void := false } }) s)

/-- A stub holds staged content that a RINSE discards: STAGING or STAGED (06 R204: an ARMED stub never discards). -/
def holdsStaged (x : Tile) : Bool := x.txn.tstate == 1 || x.txn.tstate == 2

/-- A RINSE for an identifier reaches a stub (06 R204). -/
def rinseStub (id t : Nat) (s : State) : State :=
  let x := tileOf s t
  if holdsStaged x && x.txn.id == id && x.power.answers then discardStaged t 0 s else s

/-! Closing -/

/-- The next identifier: increasing modulo 2^16, never 0 (06 R189). -/
def nextTxnId (n : Nat) : Nat := if (n + 1) % 65536 = 0 then 1 else (n + 1) % 65536

/-- What the owner of a transaction gives up when it ends without a press: the plan being activated is dropped and the
old plan stays (05 R177, 07 R219). -/
def dropPurpose (p : Nat) (s : State) : State :=
  match p with
  | 1 => onPlans (fun x => { x with watchNext := none, watchRemoving := false }) s
  | 2 => onPlans (fun x => { x with cntNext := none }) s
  | 3 => onPlans (fun x => { x with traceNext := none, traceRemoving := false }) s
  | _ => s

/-- Begins to stage a transaction: TSTATE STAGING, D is the launch plus its timeout (06 R195, R210). -/
def beginStaging (x : Txn) (s : State) : State :=
  let n := (txnTargets s x).length
  onTxn (fun q => { q with
    active := some x
    host := if x.centre then q.host else some x
    id := x.id
    targets := n
    cause := 0
    centre := x.centre
    tstate := 2
    d := now s + x.tmo * 1000
    okCount := 0
    nakCount := 0
    digestXor := 0
    firstNak := none
    firstReason := 0
    lost := []
    answered := []
    recount := false
    pressed := false
    centreDone := false }) s

/-- Takes up the next centre transaction that waits, unless one stages or presses or a fence stands (06 R192, R203). -/
def nextCentre (s : State) : State :=
  match s.txn.active, s.txn.waiting with
  | none, x :: r =>
    if s.txn.tstate = 6 then s
    else
      let id := nextTxnId s.txn.lastId
      beginStaging { x with id := id } (onTxn (fun q => { q with waiting := r, lastId := id }) s)
  | _, _ => s

/-- Starts a transaction of the centre's own to be pressed at `tick`, or as soon as possible for 0; it waits behind the
one in progress (06 R192). -/
def startCentreAt (tick purpose tmo : Nat) (es : List TxnEntry) (reply : Option ReqHdr) (s : State) : State :=
  let x : Txn :=
    { mapEpoch := s.mapEpoch, tmo := tmo, entries := es, committed := true, tick := tick, centre := true, purpose := purpose,
      reply := reply }
  nextCentre (onTxn (fun q => { q with waiting := q.waiting ++ [x] }) s)

def startCentre (purpose tmo : Nat) (es : List TxnEntry) (reply : Option ReqHdr) (s : State) : State :=
  startCentreAt 0 purpose tmo es reply s

/-- Ends the transaction in progress: it frees the stage, and the request that owns it completes. -/
def closeTxn (st : Status) (body : List Byte) (s : State) : State :=
  match s.txn.active with
  | none => s
  | some x =>
    let s := onTxn (fun q => { q with
      active := none
      host := if x.centre then q.host else none
      tstate := if q.tstate = 6 then 6 else b2n (x.centre && q.host.isSome) }) s
    event evTxn (respondOpt x.reply st body s)

/-- The status TXN_COMMIT completes with for a rinse cause (06 R201). -/
def causeStatus (s : State) (cause : Nat) : Status :=
  match cause with
  | 1 => reasonStatus s.txn.firstReason
  | 2 => .timeout
  | 3 => .malformed
  | 4 => .timeout
  | 5 => .refused
  | 7 => .refused
  | 8 => .timeout
  | 9 => .late
  | _ => .refused

/-- The detail of a rinse: for a NAK, the Rill reason and FIRST_NAK; otherwise the outcome's cause (06 R201, 13 R413). -/
def causeBody (s : State) (cause : Nat) : List Byte :=
  if cause = 1 then
    detail { reason := 0x100 + s.txn.firstReason, place := (s.txn.firstNak.map coord).getD 4294967295 }
  else detail { reason := 0x12, index := cause }

/-- The multicast RINSE to the targets, then the census of holders: none left completes the rinse; any left, or any that
does not answer or holds no mark, fences until D (06 R203, 03 R94). The whole exchange is one step (log 8). -/
def rinseTargets (id : Nat) (ts : List Nat) (s : State) : State :=
  let s := ts.foldl (fun s t => rinseStub id t s) s
  let left := ts.any (fun t => ((tileOf s t).txn.id == id && (tileOf s t).txn.tstate != 0 && (tileOf s t).txn.tstate != 5)
    || !counts (tileOf s t))
  onTxn (fun q => { q with tstate := if left && decide (now s < q.d) then 6 else 0 }) s

/-- A mend is staged once more after a first rinse; a second one is final (12 R385). After a
warm reset the centre decides anew (12 R391). -/
def closeRinsed (cause : Nat) (x : Txn) (s : State) : State :=
  if x.purpose = 4 && cause != 8 then
    if s.txn.mapTries = 0 then
      onTxn (fun q => { q with mapTries := 1, waiting := x :: q.waiting })
        (closeTxn .ok [] (onTxn (fun q => { q with active := some { x with reply := none } }) s))
    else mendMapFailed (closeTxn (causeStatus s cause) (causeBody s cause) (onTxn (fun q => { q with mapTries := 0 }) s))
  else closeTxn (causeStatus s cause) (causeBody s cause) s

/-- Rinses the transaction in progress for a cause (06 R201). The PRESS, if it is queued, is removed. -/
def rinseWith (cause : Nat) (answered : Bool) (s : State) : State :=
  match s.txn.active with
  | none => s
  | some x =>
    if s.txn.pressed then s
    else
      let ts := txnTargets s x
      let s := unqueue (fun a => a.kind == 3 && a.origin == 5) s
      let s := rinseTargets x.id ts (onTxn (fun q => { q with cause := cause, tstate := 5 }) s)
      let s := dropPurpose x.purpose s
      let y := if answered then x else { x with reply := none }
      nextCentre (closeRinsed cause y (onTxn (fun q => { q with active := some y }) s))

def rinseTxn (cause : Nat) (s : State) : State := rinseWith cause true s

/-- Places the PRESS of a checked transaction, once the action queue has room, at the tick of 06 R198, or rinses it. -/
def placePress (s : State) : State :=
  match s.txn.active with
  | none => s
  | some x =>
    if s.txn.tstate != 3 || s.root.queue.any (fun a => a.kind == 3) || decide (64 ≤ s.root.queue.length) then s
    else
      let lo := now s + s.time.lstill
      let late := x.tick != 0 && decide (x.tick < lo)
      let near := x.tick != 0 && !late && crowded s x.tick
      let t := if x.tick = 0 || late then firstTick s lo else firstTick s x.tick
      if late && !x.atEarliest then rinseTxn 9 s
      else if near && !x.atEarliest then rinseTxn 10 s
      else if s.txn.d < t + 1000 then rinseTxn 4 s
      else enqueue 3 0 t 5 x.id s

/-- An alarm action of STILL_SNAP, STILL_DUMP or a recovery meets a committed host transaction before its press: it
rinses with cause ALARM; a centre transaction goes on (06 R206). -/
def rinseForAlarm (s : State) : State :=
  match s.txn.active with
  | none => s
  | some x => if x.centre then s else rinseTxn 7 s

/-- The alarm action FIXED: the PRESS leaves the queue without a rinse multicast, the stubs discard at D, and CAUSE
records ALARM; its request is answered once the last-gasp record is written (06 R206). -/
def fixedTxn (s : State) : State :=
  match s.txn.active with
  | none => s
  | some x =>
    if s.txn.pressed then s
    else
      let s := unqueue (fun a => a.kind == 3 && a.origin == 5) s
      closeTxn .refused []
        (dropPurpose x.purpose (onTxn (fun q => { q with
          cause := 7
          tstate := 6
          active := some { x with reply := none }
          owed := x.reply }) s))

/-- The last-gasp record is written: the TXN_COMMIT that FIXED ended is answered (06 R206). -/
def answerOwed (s : State) : State :=
  respondOpt s.txn.owed .refused (causeBody s 7) (onTxn (fun q => { q with owed := none }) s)

/-- The owner's session closes: an uncommitted transaction ends; one that stages, or waits to be staged once more, ends with
cause SESSION and is not answered (06 R189, R201). -/
def sessionTxn (id : Nat) (s : State) : State :=
  match s.txn.host with
  | none => s
  | some x =>
    if x.owner != id then s
    else if x.committed then
      if s.txn.active.any (fun a => !a.centre) then rinseWith 6 false s
      else onTxn (fun q => { q with waiting := q.waiting.filter (fun w => w.centre), host := none, cause := 6 }) s
    else onTxn (fun q => { q with host := none, tstate := if q.active.isNone && q.tstate = 1 then 0 else q.tstate }) s

end Sys2Proof.Machine
end

