-- ==== Sys2Proof/Machine/TraceOps.lean ====
section
/-! DEFINITION. Trace partitions: how a shim stores the records of a streaming stub (10 R312 to R316), and how a stub
sends them (R313). -/

namespace Sys2Proof.Machine

/-- A record's widened TIME exceeds the tick `t` (03 R107, 10 R316). -/
def timeAfter (time t : Nat) : Bool :=
  let d := (time + 2 ^ 40 - t / 2 % 2 ^ 40) % 2 ^ 40
  decide (0 < d) && decide (d < 2 ^ 39)

/-- Appends a record in the slot written next. -/
def partAppend (r : Eddy) (p : Partition) : Partition :=
  { p with held := p.held ++ [r], wr := if p.cap = 0 then 0 else (p.wr + 1) % p.cap }

/-- Overwrites the oldest held record (10 R315). -/
def partOverwrite (r : Eddy) (p : Partition) : Partition :=
  partAppend r { p with held := p.held.drop 1, headGap := satAdd 32 p.headGap 1 }

/-- Discards the arriving record (10 R315, R316). -/
def partDiscard (p : Partition) : Partition := { p with tailGap := satAdd 32 p.tailGap 1 }

def partFull (p : Partition) : Bool := decide (p.cap ≤ p.held.length)

/-- KEEP_LAST (10 R315). -/
def storeLast (r : Eddy) (p : Partition) : Partition := if partFull p then partOverwrite r p else partAppend r p

/-- KEEP_FIRST (10 R315). -/
def storeFirst (r : Eddy) (p : Partition) : Partition :=
  if partFull p then partDiscard { p with state := 3 } else partAppend r p

/-- After the trigger of HOLD_ON_TRIGGER (10 R316). -/
def storeTriggered (w : Nat) (r : Eddy) (p : Partition) : Partition :=
  let post := timeAfter r.time p.trigTick
  let pre := p.held.length - p.post
  if p.state = 2 then partDiscard p
  else if partFull p && decide (pre ≤ p.cap - w) then partDiscard p
  else if post then
    let q := { p with post := p.post + 1, split := match p.split with
                                                   | none => some p.wr
                                                   | some k => some k }
    let q := if partFull p then partOverwrite r q else partAppend r q
    if w ≤ q.post then { q with state := 2 } else q
  else storeLast r p

/-- What the shim does with one arriving record; NONE records are not stored (10 R314, R315). `bound` says whether the
watch plan still binds FULL_CLASS as STILL_ON_FULL needs it, where a partition is never full, since its shim has withheld credit;
otherwise it acts as KEEP_FIRST (R317). -/
def storeRec (policy w : Nat) (bound : Bool) (p : Partition) (r : Eddy) : Partition :=
  if r.code = 0 then p
  else
    match policy with
    | 0 => storeLast r p
    | 1 => storeFirst r p
    | 2 => if p.state = 0 then storeLast r p else storeTriggered w r p
    | _ => if bound then partAppend r p else storeFirst r p

/-- The write of t_a reaches a partition (10 R316). -/
def triggerPart (w t : Nat) (p : Partition) : Partition :=
  if p.state != 0 then p
  else
    let post := (p.held.filter (fun r => timeAfter r.time t)).length
    let first := p.held.findIdx? (fun r => timeAfter r.time t)
    let late := decide (w < post)
    { p with
      trigTick := t
      state := if late || decide (w ≤ post) then 2 else 1
      trigLate := late
      post := post
      split := first.map (fun i => if p.cap = 0 then 0 else (p.wr + p.cap - p.held.length + i) % p.cap) }

def onPartitions (f : Partition → Partition) (s : State) : State :=
  onListedShims (fun _ q => { q with partitions := q.partitions.map f }) s

/-- Every partition of the plan, in ascending physical order (10 R318). -/
def allPartitions (s : State) : List Partition :=
  let ps := s.shims.flatMap (fun q => q.2.partitions)
  ps.foldl (fun l p => l.takeWhile (fun q => decide (q.tile ≤ p.tile)) ++ [p] ++ l.dropWhile (fun q => decide (q.tile ≤ p.tile))) []

/-- The centre's part of HOLD_ON_TRIGGER: the first acceptance of a class in TRIG_MASK triggers every partition
(10 R316); the write's latency is left out (log 14). -/
def traceTrigger (cs : BitVec 16) (s : State) : State :=
  match s.plans.trace with
  | none => s
  | some p =>
    if p.cfg.policy = 2 && p.triggered.isNone && (p.cfg.trigMask &&& cs) != 0 then
      onPartitions (triggerPart p.cfg.w (now s))
        (onPlans (fun q => { q with trace := some { p with triggered := some (now s) } }) s)
    else s

/-- The records of the next chunk: a GAP for records lost since the last one, then the oldest unsent records, sixteen in
all (10 R313). That GAP carries the SEQ before the oldest unsent record's: the record count of the last record lost, which keeps
the stream in SEQ order (R302; log 129). -/
def nextChunk (time flags : Nat) (e : StubEddy) : List Eddy :=
  if e.streamGap = 0 then e.streamQ.take 16
  else { gapOf time flags e.streamGap with seq := ((e.streamQ.map (·.seq)).headD e.seq + 255) % 256 } :: e.streamQ.take 15

/-- What a stub keeps once that chunk has left (10 R313, R317). -/
def afterChunk (e : StubEddy) : StubEddy :=
  let n := if e.streamGap = 0 then 16 else 15
  let q := e.streamQ.drop n
  { e with streamQ := q, unsent := q.length, streamGap := 0, fullDriven := e.fullDriven && decide (16 ≤ q.length), flushAsked := e.flushAsked && !q.isEmpty }

/-- A chunk as an EDDY packet's 32 words, padded with NONE records (10 R313). -/
def chunkBytes (l : List Eddy) : List Byte := padTo 256 (l.flatMap eddyBytes)

/-- A stub sends one chunk, if it holds anything unsent (10 R313). -/
def sendChunk (t : Nat) (s : State) : State :=
  let x := tileOf s t
  if x.eddy.streamQ = [] && x.eddy.streamGap == 0 then s
  else
    let l := nextChunk (ts40 (stubNow s t)) (eddyFlags x) x.eddy
    onRill (fun r => { r with bulk := r.bulk ++ [(t, chunkBytes l)] })
      (onTile t (fun x => { x with eddy := afterChunk x.eddy }) s)

/-- The streaming tiles. -/
def streamTiles (s : State) : List Nat := (s.tiles.filter (fun p => p.2.eddy.stream)).map (·.1)

/-- The active watch plan binds FULL_CLASS to STILL_WAFER with HOLD 0 and LIMIT 0 (10 R317). -/
def fullBound (s : State) (c : Nat) : Bool :=
  let b := mget {} s.alarm.classes c
  b.fromPlan && b.action == 1 && b.hold == 0 && b.limit == 0

/-- Under STILL_ON_FULL, and while the watch plan binds its class, the partitions are queues that never fill (10 R317). -/
def drainsAlways (s : State) : Bool :=
  match s.plans.trace with
  | none => false
  | some p => p.cfg.policy == 3 && fullBound s p.cfg.fullClass

/-- A shim withholds VC3 credit while a partition's free space is below 32 records (10 R317). -/
def creditOf (policy : Nat) (ps : List Partition) : Bool :=
  policy == 3 && ps.any (fun p => decide (p.cap < p.held.length + 32))

/-- Every shim gives or withholds credit as its partitions stand. -/
def setCredit (s : State) : State :=
  match s.plans.trace with
  | none => s
  | some p => onListedShims (fun _ q => { q with creditHeld := creditOf p.cfg.policy q.partitions }) s

/-- A field's shim withholds VC3 credit: not once the watch plan binds the class otherwise (10 R317). -/
def withholds (s : State) (f : Nat) : Bool := (shimOf s f).creditHeld && drainsAlways s

/-- A stub sends all it holds: a flush; without credit it does so once credit returns (10 R313, R317). -/
def flushStub (t : Nat) (s : State) : State :=
  if withholds s (fieldOf t) then onTile t (fun x => { x with eddy := { x.eddy with flushAsked := true } }) s
  else (List.range 5).foldl (fun s _ => sendChunk t s) s

/-- An empty partition of the eddy pool for one of `n` streaming tiles of its field (10 R312). -/
def newPartition (n t : Nat) : Partition :=
  let size := min (16 * 2 ^ 20) (256 * 2 ^ 20 / n / 4096 * 4096)
  { tile := t, size := size, cap := (size - 256) / 16 }

/-- A partition emptied, as TRACE_REARM and a load leave it (10 R310, R316). -/
def emptied (p : Partition) : Partition := { tile := p.tile, size := p.size, cap := p.cap }

/-- Drains partitions to a destination, in ascending physical order (10 R318). -/
def drainParts (d : Dest) (ps : List Partition) (s : State) : State :=
  let bs := ps.flatMap (fun p => p.held.flatMap eddyBytes)
  onSnap (fun q => { q with drains := q.drains ++ [⟨d, 0, bs⟩] }) s

/-! The observation cap (07 R237, R238; 10 R317) -/

/-- The first `n` bytes of the data that wait for the edge I/O leave; a drain whose last byte has left is gone. -/
def sendDrains : Nat → List Drain → List Drain
  | _, [] => []
  | n, d :: r =>
    if d.bytes.length ≤ n then sendDrains (n - d.bytes.length) r
    else { d with offset := d.offset + n, bytes := d.bytes.drop n } :: r

/-- The first `n` held records of a list of partitions leave. -/
def sendHeld : Nat → List Partition → List Partition
  | _, [] => []
  | n, p :: r => { p with held := p.held.drop n } :: sendHeld (n - p.held.length) r

/-- Records held in the partitions of the fields before `f`. -/
def heldBefore (s : State) (f : Nat) : Nat :=
  (s.shims.map (fun q => if q.1 < f then (q.2.partitions.map (·.held.length)).sum else 0)).sum

/-- Under STILL_ON_FULL every shim's partitions are queues that it drains continuously: `n` records leave (10 R317). -/
def sendParts (n : Nat) (s : State) : State :=
  onListedShims (fun f q => { q with partitions := sendHeld (n - heldBefore s f) q.partitions }) s

/-- A die sends the observation traffic that its bucket allows, first what drains have handed over, then records of a
STILL_ON_FULL plan. Which die carries which shim's data is not stated: any die carries any (log 32). The link-layer
framing counts towards the cap, and what the bucket has no room for waits; its size is a free value (log 7). -/
def paceSend (die : Nat) (s : State) : State :=
  let frame := Config.freeNat s.boot.freeCount die
  let room := (edgeOf s die).bucket / 1000 - frame
  let waiting := (s.snap.drains.map (·.bytes.length)).sum
  let recs := if drainsAlways s then min ((room - waiting) / 16) ((s.shims.flatMap (fun q => q.2.partitions)).map (·.held.length)).sum
    else 0
  let sent := min room waiting + 16 * recs
  if sent = 0 then s
  else
    let s := drawFree (onSnap (fun q => { q with drains := sendDrains room q.drains }) s)
    let s := if recs = 0 then s else setCredit (sendParts recs s)
    onEdge die (fun e => { e with bucket := e.bucket - (sent + frame) * 1000, bytes := (e.bytes + (sent + frame)) % 2 ^ 48 }) s

end Sys2Proof.Machine
end

