-- ==== Sys2Proof/Machine/SnapOps.lean ====
section
/-! DEFINITION. Snapshots as the centre, the shims and the edge agents keep them: ponds, copy-on-write slots, images,
channel state, and how a snapshot breaks, commits and retires (11). -/

namespace Sys2Proof.Machine

/-! Ponds -/

def pondOf (s : State) (p : Nat) : Pond := mget {} s.snap.ponds p
def onPond (p : Nat) (f : Pond → Pond) (s : State) : State := onSnap (fun q => { q with ponds := mmod {} q.ponds p f }) s

/-- A snapshot is TAKING or SEALING (11 R338). -/
def takeBusy (s : State) : Bool := s.snap.take.isSome

/-- A snapshot is TAKING (11 R338). -/
def snapRuns (s : State) : Bool :=
  match s.snap.take with
  | none => false
  | some k => !k.sealing

/-- Slots in a die's reserve: RESERVE_MIB × 16; none on SK-S (11 R327, R366). -/
def slotTotal (s : State) : Nat := if s.cfg.skS then 0 else min 131072 (s.cfg.reserveMib * 16)

def slotFree (s : State) (f : Nat) : Nat := slotTotal s - (shimOf s f).slots.length

/-- Copy-on-write epochs of the snapshots that need slots: TAKING, SEALING or VALID (11 R340). -/
def liveEpochs (s : State) : List Nat :=
  ([0, 1].filter (fun p => decide (1 ≤ (pondOf s p).state) && decide ((pondOf s p).state ≤ 3))).filterMap (fun p =>
    if (pondOf s p).epoch = 0 then none else some (pondOf s p).epoch)

/-- Slot `x` is the one that a snapshot of epoch `k` needs for its granule: the earliest at or after `k` (11 R340). -/
def neededBy (slots : List CowSlot) (k : Nat) (x : CowSlot) : Bool :=
  decide (k ≤ x.epoch) && !slots.any (fun y => y.granule == x.granule && decide (k ≤ y.epoch) && decide (y.epoch < x.epoch))

/-- A shim frees the slots that no snapshot needs (11 R340). -/
def freeShimSlots (ks : List Nat) (q : Shim) : Shim :=
  { q with slots := q.slots.filter (fun x => ks.any (fun k => neededBy q.slots k x)) }

/-- RES_LOW follows the free slots of every die (11 R342). -/
def setResLow (s : State) : State :=
  onSnap (fun q => { q with
    resLow := !s.cfg.skS && (List.range numFields).any (fun f => decide (slotFree s f < (shimOf s f).lowSlots)) }) s

def freeSlots (s : State) : State := setResLow (onListedShims (fun _ q => freeShimSlots (liveEpochs s) q) s)

/-- CURRENT is the newest valid snapshot: when it is gone, PREVIOUS takes its place (11 R333, R351). -/
def recomputeCurrent (s : State) : State :=
  if s.snap.curValid && (pondOf s s.snap.curPond).state == 3 then s
  else
    let o := 1 - s.snap.curPond
    if s.snap.curValid && (pondOf s o).state == 3 then
      onPond o (fun p => { p with previous := false })
        (onSnap (fun q => { q with curPond := o, curId := (pondOf s o).snapId }) s)
    else onSnap (fun q => { q with curValid := false, curId := 0 }) s

/-- A running drain ends: its pond stops DRAINING and the request completes (11 R359). What a drain that did not finish
still holds for the edge I/O is not sent. -/
def endDrain (st : Status) (body : List Byte) (s : State) : State :=
  if !s.snap.draining then s
  else
    let r := s.snap.drainReply
    let s := onPond s.snap.drainPond (fun p => { p with draining := false }) s
    respondOpt r st body (freeSlots (onSnap (fun q => { q with
      draining := false
      drainReply := none
      drains := if st = .ok then q.drains else q.drains.filter (fun d => d.dest != q.drainDest) }) s))

/-- Retires what a pond holds: it becomes EMPTY, and its slots are freed (11 R351). The bytes stay in memory. -/
def retirePond (p : Nat) (s : State) : State :=
  freeSlots (recomputeCurrent (onPond p (fun q => { images := q.images, logs := q.logs }) s))

/-- The pond a new snapshot goes into (11 R333). -/
def targetPond (s : State) : Nat :=
  if s.snap.curValid then 1 - s.snap.curPond
  else if (pondOf s 0).state = 0 then 0
  else if (pondOf s 1).state = 0 then 1
  else if (pondOf s 1).t < (pondOf s 0).t then 1 else 0

/-! Images -/

/-- The header of a tile image (11 R330). -/
def imageHeader (t : Nat) (i : Image) : List Byte :=
  padTo 64 (le 4 i.snapId ++ le 4 (i.ltn + if i.ltnValid then 2 ^ 31 else 0) ++ le 4 (coord t) ++ le 2 i.mapEpoch ++
    le 1 i.ctxEpoch ++ le 1 (b2n i.dark + 2 * b2n i.vpendWaited + 4 * b2n i.lateFrz) ++ le 8 i.frzTs)

/-- The 256 bytes of an image's tile-register part, which hold the route table and the selected context as the engine lays them
out (11 R329; log 130). -/
def tileRegisters (e : Engine) : List Byte :=
  let route := (List.range 64).map (mget 0 e.route)
  (List.range 256).map (Config.tileRegister route e.ctxSel (bytesAt 0 e.opaqueState 0xC440 256))

/-- The first 51,136 bytes of a tile image, which DIGEST covers (11 R329). -/
def imageBody (t : Nat) (i : Image) : List Byte :=
  bytesAt 0 i.state.sram 0 49152 ++ imageHeader t i ++ bytesAt 0 i.state.opaqueState 0xC040 1024 ++ tileRegisters i.state ++
    bytesAt 0 i.state.opaqueState 0xC540 640

/-- DIGEST of a tile image (11 R330). -/
def imageDigest (t : Nat) (i : Image) : Word :=
  let k := i.snapId * 2 ^ 32 + tileX t * 2 ^ 22 + tileY t * 2 ^ 13
  ((bytesWords (imageBody t i)).mapIdx (fun j w => mix (BitVec.ofNat 64 (k + j)) w)).foldl (· + ·) 0

/-- A tile image as it lies in the pond (11 R329). -/
def imageBytes (t : Nat) (i : Image) : List Byte := padTo 51200 (imageBody t i ++ le 8 i.digest.toNat)

/-- The first step that begins after now: that from which the slots of a bank switched in now take part (08 R270, 09 R299). -/
def nextStep (c : Core) : Nat := if c.cmdSeq = 0 then 0 else c.dip.maxStep + 1

/-- The image a shim makes of a tile; a dark or retired tile gets no state (11 R330, R336, 12 R382). -/
def makeImage (s : State) (t id : Nat) (waited : Bool) : Image :=
  let x := tileOf s t
  let dark := x.still.state == stDarkStill || x.power.retired
  let i : Image :=
    { snapId := id
      ltnValid := x.txn.ltnValid
      ltn := x.txn.ltn
      mapEpoch := x.txn.mapEpoch
      ctxEpoch := x.txn.ctxEpoch
      dark := dark
      vpendWaited := waited
      lateFrz := x.still.lateFrz
      frzTs := x.still.frzTs
      nextStep := nextStep x.core
      state := if dark then {} else x.engine }
  { i with digest := imageDigest t i }

/-- Copies a tile's image into the pond being written, `bad` where the pond cannot give it back; the stub drops HOLD_AWAKE (11 R336,
R352). -/
def copyImage (k : SnapTake) (bad : Bool) (t : Nat) (s : State) : State :=
  let i := { makeImage s t k.id (k.deferred.contains t) with bad := bad }
  onTile t (fun x => { x with power := { x.power with holdSnap := false } })
    (onPond k.pond (fun p => { p with images := mins t i (merase p.images t) }) s)

/-- The image of a tile in a pond; of a tile never copied, an empty one. -/
def imageOf (s : State) (p t : Nat) : Image := mget {} (pondOf s p).images t

/-- The edge die on a field's edge port A or B, if it has one (02 R41, 11 R331). -/
def dieAt (s : State) (f : Nat) (b : Bool) : Option Nat :=
  (List.range numDies).find? (fun d => (edgeOf s d).field == f && (edgeOf s d).port == b)

/-- A die's log in a pond: none where there is no die, or the die was ISOLATED at T (11 R331). -/
def pondLog (s : State) (p : Nat) (d : Option Nat) : List Byte :=
  match d with
  | none => []
  | some k => if (pondOf s p).cutDies.contains k then mget [] (pondOf s p).logs k else []

/-- The bytes of a die's log that belong to the snapshot: none before it is written (11 R331, R346). -/
def logBytes (s : State) (p : Nat) (d : Option Nat) : Nat :=
  match d with
  | none => 0
  | some k => if (pondOf s p).logged.contains k then (pondLog s p d).length else 0

/-- The die was CUT at T. -/
def dieCut (s : State) (p : Nat) (d : Option Nat) : Bool :=
  match d with
  | none => false
  | some k => (pondOf s p).cutDies.contains k

/-- The images of a field that belong to the pond's snapshot; an image of an older one lies there until it is overwritten. -/
def fieldImages (q : Pond) (f : Nat) : List (Nat × Image) :=
  q.images.filter (fun i => fieldOf i.1 == f && i.2.snapId == q.snapId)

/-- The first 56 bytes of a field area (11 R331). -/
def fieldHeader (s : State) (p f : Nat) : List Byte :=
  let q := pondOf s p
  let im := fieldImages q f
  le 4 q.snapId ++ le 1 q.state ++ le 1 q.cause ++ le 2 q.mapEpoch ++ le 8 q.t ++ le 8 q.releaseTs ++ le 8 q.commitTs ++
    le 2 s.cfg.engine ++ le 1 f ++
    le 1 (b2n q.noCow + 2 * b2n (dieCut s p (dieAt s f false)) + 4 * b2n (dieCut s p (dieAt s f true)) + 8 * b2n q.forced) ++
    le 2 (im.filter (fun i => !i.2.dark)).length ++ le 2 (im.filter (fun i => i.2.dark)).length ++
    le 8 (xorAll (im.map (fun i => i.2.digest))).toNat ++ le 4 (logBytes s p (dieAt s f false)) ++
    le 4 (logBytes s p (dieAt s f true))

/-- Field area bytes from offset `o` (11 R331). -/
def fieldArea (s : State) (p f o n : Nat) : List Byte :=
  let a := pondLog s p (dieAt s f false)
  let b := pondLog s p (dieAt s f true)
  let h := fieldHeader s p f
  (List.range n).map (fun i =>
    let k := o + i
    if k < 4096 then h.getD k 0
    else if k < 266240 then a.getD (k - 4096) 0
    else if k < 528384 then b.getD (k - 266240) 0
    else 0)

/-! Partner faults -/

/-- Counts a controller fault and has the field's recording stub write SHIM_FAULT (11 R343, 10 R304). -/
def shimFault (f message fault number : Nat) (s : State) : State :=
  record (tileAt (96 * (f % 8) + 47) (80 * (f / 8) + 39)) 0x17 (message * 2 ^ 61 + fault * 2 ^ 59 + number % 2 ^ 32)
    (onShim f (fun q => { q with faults := satAdd 14 q.faults 1 }) s)

/-! Channel state -/

/-- The valid entries of a die's peer table, which are its flows (11 R344). -/
def flowsOf (e : Edge) : List Nat := e.peers.map (·.1)

/-- Puts a marker at the tail of every egress flow of a CUT die (11 R345, R349). Kinds: 0 TAKE, 1 RESTORE. -/
def putMarkers (id kind : Nat) (e : Edge) : Edge :=
  { e with snapId := id, openFlows := flowsOf e, markersPut := e.markersPut ++ (flowsOf e).map (fun f => (f, id, kind)) }

/-- At T a CUT die marks its flows and begins its log (11 R345). -/
def beginLog (id : Nat) (e : Edge) : Edge :=
  if e.cut then { putMarkers id 0 e with state := 1, log := [], logWritten := false } else e

/-- The units of a log, in log order (11 R346); `n` bounds their number. -/
def logUnits : Nat → List Byte → List (List Byte)
  | 0, _ => []
  | n + 1, l =>
    if l = [] then []
    else
      let k := bits 31 16 (unle (l.take 8))
      (l.drop 8).take k :: logUnits n (l.drop (8 + (k + 7) / 8 * 8))

/-- At release a CUT die replays its log, unit by unit, marks its flows and drops arrivals until each peer's marker (11 R349,
R355). -/
def beginDiscard (id : Nat) (e : Edge) : Edge :=
  if e.cut then
    { putMarkers id 1 e with
      state := 5
      replayed := e.replayed ++ logUnits e.log.length e.log
      ingDiscard := flowsOf e }
  else e

def cutDies (s : State) : List Nat := (s.edges.filter (fun p => p.2.cut)).map (·.1)

/-! Release -/

/-- The first tick that the limits of 04 R114 and R118 allow now. -/
def soonest (s : State) : Nat := firstTick s (now s + s.time.lstill)

/-- The centre queues a wafer RELEASE of its own at the first possible tick. -/
def queueRelease (origin : Nat) (s : State) : State := enqueueOwn 2 0 (now s + s.time.lstill) origin s

/-- The snapshot of a STILL_SNAP action has completed or broken: the action's HOLD runs from now, and with HOLD 0 the
action is over (05 R160, 11 R337). -/
def snapActionDone (s : State) : State :=
  onAlarm (fun a => { a with
    running := match a.running with
      | some r => if r.action = 3 then (if r.hold = 0 then none else some { r with declaredAt := some (now s), snapWait := false }) else some r
      | none => none }) s

/-- Releases the wafer as a snapshot of this kind does at the end of its copy (11 R334, R337). -/
def releaseAfter (k : SnapTake) (s : State) : State :=
  match k.kind with
  | 0 => if k.autoRel then queueRelease 3 s else s
  | 1 => queueRelease 3 s
  | _ => snapActionDone s

/-! Taking, breaking and committing -/

/-- Starts a snapshot: it retires what its pond holds and is TAKING (11 R333, R334). `own` says that its own still is
queued; on a still that stands already, the edge agents mark their flows now. -/
def startTake (id kind : Nat) (autoRel own forced : Bool) (t : Nat) (reply : Option ReqHdr) (s : State) : State :=
  let p := targetPond s
  let s := retirePond p s
  let s := onPond p (fun q => { q with
    snapId := id
    state := 1
    t := t
    cut := !(cutDies s).isEmpty
    cutDies := cutDies s
    logged := []
    noCow := s.cfg.skS
    forced := forced
    mapEpoch := s.mapEpoch
    releaseTs := 0
    commitTs := 0 }) s
  let s := onSnap (fun q => { q with
    take := some { id := id, pond := p, kind := kind, autoRel := autoRel, ownStill := own, t := t, forced := forced, reply := reply }
    forced := q.forced || forced }) (if forced then setW1c 0x800 (2 ^ 26) s else s)
  if own then s else onListedEdges (fun _ e => beginLog id e) s

/-- Stops the logging of a snapshot that is gone. -/
def endLogs (id : Nat) (s : State) : State :=
  onListedEdges (fun _ e => if e.snapId = id && (e.state == 1 || e.state == 2) then
    { e with state := 0, openFlows := [], ingDiscard := [] } else e) s

/-- Reports a break in SK_SNAP_STATUS and the next status frame (11 R338, R364). -/
def reportBreak (cause : Nat) (s : State) : State :=
  event evSnapBroken (setW1c 0x800 (2 ^ 25) (onSnap (fun q => { q with cause := cause, broke := true }) s))

/-- Every shim has reported DONE (11 R335). -/
def shimsDone (s : State) : Bool := (List.range numFields).all (fun f => (shimOf s f).done)

/-- Breaks the snapshot being taken (11 R337, R338, R352): its pond is BROKEN, the stubs drop HOLD_AWAKE, and one that
was TAKING releases the wafer as at the end of its copy, if its still has been launched and its copy has not ended, but not after ALARM (6) or WARM (7). -/
def breakSnap (cause : Nat) (s : State) : State :=
  match s.snap.take with
  | none => s
  | some k =>
    let unlaunched := s.root.queue.any (fun a => a.kind == 1 && a.origin == 3)
    let ended := k.sealing || unlaunched || (k.goAt.isSome && shimsDone s)
    let s := onPond k.pond (fun p => { p with state := 4, cause := cause }) s
    let s := onSnap (fun q => { q with take := none }) s
    let s := unqueue (fun a => a.kind == 1 && a.origin == 3) s
    let s := onListedTiles (fun _ x => { x with power := { x.power with holdSnap := false } }) s
    let s := reportBreak cause (freeSlots (endLogs k.id s))
    let s := if ended || cause = 6 || cause = 7 then s else releaseAfter k s
    respondOpt k.reply .broken (detail { reason := 0x12, index := cause }) s

/-- A held snapshot is no longer VALID; a drain of it ends BROKEN (11 R352, R359). -/
def breakHeld (p cause : Nat) (s : State) : State :=
  let s := reportBreak cause (freeSlots (recomputeCurrent (onPond p (fun q => { q with state := 4, cause := cause }) s)))
  if s.snap.draining && s.snap.drainPond = p then endDrain .broken (detail { reason := 0x12, index := cause }) s else s

/-- Breaks a pond's snapshot, whether it is being taken or is held (11 R352). -/
def breakPond (p cause : Nat) (s : State) : State :=
  if s.snap.take.any (fun k => k.pond == p) then breakSnap cause s
  else if (pondOf s p).state = 3 then breakHeld p cause s
  else s

/-- The answer of SNAP_TAKE (13 R432). -/
def takeBody (id cause t commit : Nat) : List Byte := le 4 id ++ le 1 cause ++ zeros 3 ++ le 8 t ++ le 8 commit

/-- A snapshot commits: it is VALID and CURRENT, and the former CURRENT is PREVIOUS (11 R338). -/
def commitSnap (s : State) : State :=
  match s.snap.take with
  | none => s
  | some k =>
    let s := onPond k.pond (fun p => { p with state := 3, cause := 0, commitTs := now s, previous := false }) s
    let s := if s.snap.curValid then onPond s.snap.curPond (fun p => { p with previous := true }) s else s
    let s := onSnap (fun q => { q with take := none, curValid := true, curPond := k.pond, curId := k.id }) s
    let s := onListedEdges (fun _ e => if e.snapId = k.id && e.state == 2 then { e with state := 0 } else e) s
    respondOpt k.reply .ok (takeBody k.id 0 k.t (now s)) (event evSnapCommit (freeSlots s))

/-- Every log of a pond's snapshot is in its field area (11 R338). -/
def logsDone (q : Pond) : Bool := q.cutDies.all (fun d => q.logged.contains d)

/-- The wafer RELEASE that ends a copy has been launched: the snapshot is SEALING, and commits now if every die is
ISOLATED (11 R338). -/
def sealSnap (tick : Nat) (s : State) : State :=
  match s.snap.take with
  | none => s
  | some k =>
    if k.sealing || k.goAt.isNone || !shimsDone s then s
    else
      let s := onPond k.pond (fun p => { p with state := 2, releaseTs := tick }) s
      let s := onSnap (fun q => { q with take := some { k with sealing := true } }) s
      if (pondOf s k.pond).cutDies.isEmpty then commitSnap s else s

/-- The identifier of the next alarm snapshot, and its counter after it (11 R333). -/
def autoId (s : State) : Nat := 0x80000000 + s.snap.auto
def nextAuto (n : Nat) : Nat := if (n + 1) % 2 ^ 31 = 0 then 1 else (n + 1) % 2 ^ 31

/-- A take would be BUSY (11 R351): the target pond is DRAINING, a snapshot is TAKING or SEALING, or a restore runs. -/
def takeBarred (s : State) : Bool := takeBusy s || (pondOf s (targetPond s)).draining || s.snap.restoring

/-- The snapshot of a STILL_SNAP action starts on its declared still; one that meets stragglers, a standing region or a busy
pond is skipped, which leaves the wafer still, and the action is over (05 R162, 11 R333). -/
def alarmSnap (skip : Bool) (s : State) : State :=
  if skip || regionStands s || takeBarred s || inRom s then setW1c 0x400 (2 ^ 33) (onAlarm (fun a => { a with snapSkipped := true, running := none }) s)
  else
    let id := autoId s
    startTake id 2 false false false s.root.stillT none (onSnap (fun q => { q with auto := nextAuto q.auto }) s)

end Sys2Proof.Machine
end

