-- ==== Sys2Proof/Machine/RestoreOps.lean ====
section
/-! DEFINITION. Restoring a snapshot, and ending a drain (11 R353 to R359, 12 R387). -/

namespace Sys2Proof.Machine

/-! Undefined contents -/

/-- A memory whose content is undefined: the k-th free content of a place, in canonical form. -/
def freeMemory (k i size : Nat) : List Host.Cell :=
  ((Config.freeCells k i).filter (fun p => decide (p.1 < size))).foldl (fun m p => mput 0 m p.1 p.2) []

/-- An undefined tile state: the k-th free content of tile `t`. -/
def freeEngine (k t : Nat) : Engine :=
  { (Config.freeTile k t).engine with
    sram := freeMemory k (numFields + 2 * t) 49152
    opaqueState := freeMemory k (numFields + 2 * t + 1) 51200 }

/-- The state of every tile and of the memory tier is undefined (11 R356): free values. -/
def undefineWafer (s : State) : State :=
  let k := s.boot.freeCount
  drawFree (onEveryShim (fun f q => { q with tier := freeMemory k f (2 ^ 48) })
    (onEveryTile (fun t x => { x with engine := freeEngine k t }) s))

/-! Restore -/

/-- The segment of a tile: its row and its group of sixteen columns (12 R383). -/
def segRow (t : Nat) : Nat := tileY t
def segGroup (t : Nat) : Nat := tileX t / 16

/-- The segment of tile `t` has been mended since map epoch `e` (12 R387). -/
def mendedSince (s : State) (e t : Nat) : Bool :=
  s.recov.lastMendEpoch.any (fun m => m.1 == segRow t && m.2.1 == segGroup t &&
    (let d := (m.2.2 + 65536 - e) % 65536; decide (0 < d) && decide (d < 32768)))

/-- Where an image is written back: to the tile that holds its LTN now; without one, to its own coordinate if that tile
holds no LTN; never to a retired tile (11 R354, 12 R387). -/
def imageTarget (s : State) (t : Nat) (i : Image) : Option Nat :=
  match (if i.ltnValid then holderOf s i.ltn else if (ltnOf s t).isSome then none else some t) with
  | none => none
  | some u => if (tileOf s u).power.retired then none else some u

/-- The dips discard their open accumulations and accept steps from `n` on, which is how far the commands have come now (08 R250,
R270; log 140). -/
def restartDips (n : Nat) (c : Core) : Core :=
  let f : Nat → DipSlot → DipSlot := fun _ d => { d with cur := none, older := none, minStep := n }
  { c with dip := { c.dip with slots := mapBelow {} 4 f c.dip.slots, maxStep := n - 1 } }

/-- The first step that no tile had begun at the snapshot's tick, as the images have it. -/
def imagesNext (q : Pond) : Nat := q.images.foldl (fun m i => max m i.2.nextStep) 0

/-- Writes an image back: a DARK image writes nothing, and a mended segment keeps its route table (11 R354, 12 R387).
The dips discard their open accumulations and begin with the first step after the one now running (08 R270). -/
def writeImage (epoch : Nat) (p : Nat × Image) (s : State) : State :=
  match imageTarget s p.1 p.2 with
  | none => s
  | some u =>
    if p.2.dark then s
    else onTile u (fun x => { x with
      engine := { p.2.state with route := if mendedSince s epoch u then x.engine.route else p.2.state.route }
      core := restartDips p.2.nextStep x.core }) s

/-- The images of a pond can be read, their digests intact (11 R352, R354, R356). -/
def imagesOk (s : State) (p : Nat) : Bool := (pondOf s p).images.all (fun i => !i.2.bad && i.2.digest == imageDigest i.1 i.2)

/-- The granules of a shim to copy back for a snapshot of epoch `k` (11 R340, R354). -/
def copybackOf (k : Nat) (q : Shim) : List Nat := (q.slots.filter (neededBy q.slots k)).map (·.granule)

/-- The content of a granule's slot as a snapshot of epoch `k` needs it, or live memory (11 R340). -/
def asOf (q : Shim) (k g : Nat) : List Byte :=
  match q.slots.find? (fun x => x.granule == g && neededBy q.slots k x) with
  | some x => bytesAt 0 x.content 0 65536
  | none => bytesAt 0 q.tier (g * 65536) 65536

/-- A step was open at the snapshot's tick: some tile had begun it, and some tile had begun none after it, as the images have it
(08 R270). -/
def openThen (q : Pond) (step : Nat) : Bool :=
  q.images.any (fun i => decide (step < i.2.nextStep)) &&
  q.images.any (fun i => i.2.nextStep != 0 && decide (i.2.nextStep ≤ step + 1))

/-- BROKEN is set in the fingerprint records of every step open at the snapshot's tick (08 R270). -/
def breakFps (q : Pond) (s : State) : State :=
  onCensus (fun c => { c with fpRing := c.fpRing.map (fun r => if openThen q r.step then { r with broken := true } else r) }) s

/-- The restore's answer (13 R432). -/
def restoreBody (tick : Nat) (unpaired : Bool) (cause : Nat) : List Byte :=
  padTo 16 (le 8 tick ++ le 1 (b2n unpaired) ++ le 1 cause)

/-- Some CUT die still awaits a RESTORE marker (11 R355). -/
def replaying (s : State) : Bool :=
  (cutDies s).any (fun d => (edgeOf s d).state == 4 || (edgeOf s d).state == 5)

def anyUnpaired (s : State) : Bool := (cutDies s).any (fun d => (edgeOf s d).unpaired)

/-- A restore whose marks have all come, or were given up, answers (11 R355). -/
def answerRestore (s : State) : State :=
  if replaying s then s
  else
    respondOpt s.snap.restoreReply .ok (restoreBody s.snap.restoreTr (anyUnpaired s) 0)
      (onSnap (fun q => { q with restoreReply := none }) s)

/-- Steps 4 and 5 of a restore: every slot is freed and a fresh epoch opens for the snapshot, which is CURRENT with no
PREVIOUS; then the RELEASE is queued, or the restore is LATE (11 R354). A recovery's restore queues none (12 R375). -/
def finishRestore (s : State) : State :=
  let p := s.snap.restorePond
  let e := s.snap.nextEpoch
  let s := if s.cfg.skS then s else onEveryShim (fun _ q => { q with slots := [], epoch := some e, written := [] }) s
  let s := retirePond (1 - p) s
  let s := onPond p (fun q => { q with epoch := e, previous := false }) s
  let s := breakFps (pondOf s p) s
  let s := setResLow (onSnap (fun q => { q with
    nextEpoch := e + 1
    curValid := true
    curPond := p
    curId := (pondOf s p).snapId
    restoring := false }) s)
  if s.snap.restoreRec then s
  else
    let lo := now s + s.time.lstill
    let tr := s.snap.restoreTr
    let close := decide (tr < lo) || crowded s tr
    if tr != 0 && close && !s.snap.restoreEarliest then
      respondOpt s.snap.restoreReply .late (detail {}) (onSnap (fun q => { q with restoreReply := none }) s)
    else answerRestore (enqueueOwn 2 0 (max tr lo) 6 (onSnap (fun q => { q with restoreTr := firstTick s (max tr lo) }) s))

/-- A restore that no granule holds back is finished. -/
def tryFinish (s : State) : State :=
  if s.snap.restoring && s.shims.all (fun q => q.2.copyback.isEmpty) then finishRestore s else s

/-- A restore fails: it completes with BROKEN, the snapshot breaks, and the tiles' and the memory's state is undefined
(11 R356). A recovery whose restore fails needs an off-wafer checkpoint. -/
def failRestore (cause : Nat) (s : State) : State :=
  let r := s.snap.restoreReply
  let s := onSnap (fun q => { q with restoring := false, restoreReply := none }) s
  let s := onListedShims (fun _ q => { q with copyback := [] }) s
  let s := respondOpt r .broken (detail { reason := 0x12, index := cause }) (undefineWafer (breakPond s.snap.restorePond cause s))
  if s.snap.restoreRec && s.recov.phase = 4 then endRecovery 5 s else s

/-- Starts a restore of pond `p`: steps 1 to 3 of R354. It cancels a running drain, which is REFUSED (R353). -/
def beginRestore (p tr : Nat) (earliest recovery memKept : Bool) (reply : Option ReqHdr) (s : State) : State :=
  let s := endDrain .refused (detail { reason := 0x12 }) s
  let q := pondOf s p
  let s := onSnap (fun x => { x with
    restoring := true
    restorePond := p
    restoreTr := tr
    restoreEarliest := earliest
    restoreRec := recovery
    restoreReply := reply }) s
  let s := onListedEdges (fun d e => if e.cut then
    { e with log := if q.logged.contains d then mget [] q.logs d else [], state := 4, snapId := q.snapId, unpaired := false, logWritten := false } else e) s
  if !imagesOk s p then failRestore 8 s
  else
    let s := onEveryTile (fun _ x => { x with core := restartDips (imagesNext q) x.core }) s
    let s := q.images.foldl (fun s i => writeImage q.mapEpoch i s) s
    let s := if s.cfg.skS || memKept then s else onListedShims (fun _ x => { x with copyback := copybackOf q.epoch x }) s
    tryFinish s

end Sys2Proof.Machine
end

