-- ==== Sys2Proof/Machine/RecOps.lean ====
section
/-! DEFINITION. Recoveries as the centre keeps them: suspects and onsets, crash records, repeats, and how a recovery ends
or restarts (10 R309; 12 R368 to R380, R391). -/

namespace Sys2Proof.Machine

/-- The recovery policy of a class; class 6 has no register and follows the default (12 R398; log 134). -/
def policyOf (s : State) (c : Nat) : Policy := mget {} s.recov.policies c

/-- The tick nearest `t` whose TS40S is `ts` (03 R107). -/
def widen (t ts : Nat) : Nat :=
  let b := t / 2 ^ 41 * 2 ^ 41 + ts * 2
  if t + 2 ^ 40 < b then b - 2 ^ 41 else if b + 2 ^ 40 ≤ t then b + 2 ^ 41 else b

/-! Suspects -/

/-- The class that a TRIGGER, ALARM or HANG record names (10 R304). -/
def recordClass (e : Eddy) : Option Nat :=
  match e.code with
  | 3 => some (bits 61 58 e.data.toNat)
  | 4 => some (bits 63 60 e.data.toNat)
  | 5 => some 3
  | _ => none

/-- The onset the centre takes for a record of class `c` at tick `t` (12 R368). -/
def onsetOf (x : Tile) (c t : Nat) : Nat :=
  match c with
  | 2 => t - 100000
  | 3 => t - hangLimit x
  | 4 => t - 1000000
  | _ => t

/-- The records of a stub that name it as a suspect for a dump's still at tick `t`: those in [t − 10 µs, t]
(10 R309). -/
def qualifying (s : State) (t : Nat) (x : Tile) : List (Nat × Nat) :=
  (ringList (ringDepth s) x.eddy).filterMap (fun e =>
    match recordClass e with
    | none => none
    | some c =>
      let w := widen t e.time
      if t ≤ w + 10000 && w ≤ t then some (c, w) else none)

/-- The records that name a stub's tile when a recovery names its suspects: those of the still's window, and those of a
class that joined the recovery at the time it was accepted (10 R309; 12 R391; log 38). -/
def naming (s : State) (t : Nat) (x : Tile) : List (Nat × Nat) :=
  qualifying s t x ++ s.recov.joined.flatMap (fun j => (qualifying s j.2 x).filter (fun q => q.1 == j.1))

/-- The suspect a stub's records make of its tile: its earliest qualifying record. -/
def suspectOf (s : State) (t u : Nat) : Option Suspect :=
  match naming s t (tileOf s u) with
  | [] => none
  | q :: r =>
    let b := r.foldl (fun (b : Nat × Nat) p => if p.2 < b.2 then p else b) q
    some ⟨u, b.1, onsetOf (tileOf s u) b.1 b.2⟩

/-- The suspects of a dump: every NOACK straggler as class 2, then the tiles whose stubs answer the census and whose rings qualify, lowest
coordinates first, sixteen in all (10 R309). -/
def nameSuspects (s : State) (t : Nat) : List Suspect :=
  let noack := (s.root.stragglers.filter (fun u => (tileOf s u).still.state == stNoack)).map (fun u => ⟨u, 2, t - 100000⟩)
  let census := (s.tiles.filter (fun p => p.2.power.answers)).map (·.1)
  let rings := census.filterMap (fun u => if noack.any (fun n => n.tile == u) then none else suspectOf s t u)
  (noack ++ rings).take 16

/-- The margin of an onset that no suspect gives: acceptance, less 1 µs for the alarm path, less the source's margin
(12 R373). -/
def bareOnset (s : State) (c accepted : Nat) : Nat :=
  accepted - 1000 - (match c with
    | 2 => 100000
    | 3 => s.recov.maxHang * 1000
    | 4 => 1000000
    | _ => 0)

/-- A class that a stub raises (05 R157). -/
def stubClass (c : Nat) : Bool := decide (1 ≤ c) && decide (c ≤ 4)

/-- The onset of class `c`, accepted at a tick: that of its suspects, that of the SDC key's step, or the bare one (12
R368, R373). -/
def classOnset (s : State) (sus : List Suspect) (c accepted : Nat) : Option Nat :=
  if c = 5 then
    match s.recov.sdcKey with
    | none => none
    | some k => (s.census.ledger.find? (fun r => r.step == k.2.2)).map (·.start)
  else
    match ((sus.filter (fun x => x.cls == c)).map (·.onset)).min? with
    | some o => some o
    | none => some (bareOnset s c accepted)

/-- The recovery's onset: the earliest among its system classes and suspects; none where no onset is known. A class 7 has no
onset (12 R368, R373). -/
def recOnset (s : State) (sus : List Suspect) (cs : List (Nat × Nat)) : Option Nat :=
  let os := (cs.filter (fun c => decide (c.1 < 7))).map (fun c => classOnset s sus c.1 c.2)
  if os.any Option.isNone then none else (os.filterMap id ++ sus.map (·.onset)).min?

/-- The classes of a recovery with the ticks of their acceptance: the one that started it and those that joined it
(12 R391). -/
def recClasses (s : State) : List (Nat × Nat) := (s.recov.cls, s.recov.start) :: s.recov.joined

/-! Repeats -/

/-- When class `c` was accepted in this recovery. -/
def raisedAt (s : State) (c : Nat) : Nat := (((recClasses s).find? (fun j => j.1 == c)).map (·.2)).getD s.recov.start

/-- Class `c` was raised again at tile `u` within REPEAT_MS of the resume of a recovery that rolled back for both; for
SDC, with any key (12 R374). -/
def repeatAt (s : State) (c u : Nat) : Bool :=
  s.recov.past.any (fun p => (if c = 5 then p.classes.contains 5 else p.tiles.contains (c, u)) &&
    decide (raisedAt s c ≤ p.resumed + (policyOf s c).repeatMs * 1000000))

/-- A repeat for any suspect of the class (12 R372, R374). -/
def isRepeat (s : State) (c : Nat) (sus : List Suspect) : Bool :=
  if c = 5 then repeatAt s 5 0 else (sus.filter (fun x => x.cls == c)).any (fun x => repeatAt s c x.tile)

/-- What a recovery that rolled back leaves to judge repeats by (12 R374). -/
def pastEntry (resumed : Nat) (s : State) : PastRecovery :=
  { classes := (recClasses s).map (·.1), tiles := s.recov.suspects.map (fun u => (u.cls, u.tile)), resumed := resumed }

/-- A READY recovery is over once its release is launched; the last 64 are kept (12 R374, R375). -/
def leaveReady (resumed : Nat) (s : State) : State :=
  if s.recov.phase != 5 then s
  else
    onAlarm (fun a => { a with running := a.running.filter (fun r => r.action != 4) })
      (onRec (fun r => { r with phase := 6, past := lastN 64 (r.past ++ [pastEntry resumed s]) }) s)

/-! Joining and restarting (12 R391) -/

/-- A STILL_DUMP action begins a recovery: it captures from the class's acceptance on (12 R371, R389). The record of the
recovery before it may still be on its way to the Well. -/
def beginRecovery (c : Nat) (s : State) : State :=
  onRec (fun r => { r with
    cls := c
    outcome := 0
    phase := 1
    restarts := 0
    elapsedUs := 0
    start := now s
    raised := s.alarm.raised
    suspects := []
    onset := none
    joined := []
    dead := []
    mending := []
    snapId := 0
    warmSeen := 0
    older := r.older ++ (r.crash.filter (fun w => !w.written)).toList
    crash := none }) s

/-- A recovery runs and has not released the wafer. -/
def recRuns (s : State) : Bool := decide (1 ≤ s.recov.phase) && decide (s.recov.phase ≤ 5)

/-- A class accepted after the naming restarts the recovery: it comes from a tile that is no suspect, or from a suspect
whose onset is earlier than the recovery's. A class the centre raises comes from no tile and is recorded only. -/
def restarts (s : State) (cs : BitVec 16) : Bool :=
  s.tiles.any (fun p => p.2.power.answers &&
    (qualifying s (now s) p.2).any (fun q => stubClass q.1 && cs.getLsbD q.1 &&
      (!s.recov.suspects.any (fun x => x.tile == p.1) ||
       (match s.recov.onset with
        | none => false
        | some o => decide (onsetOf p.2 q.1 q.2 < o)))))

end Sys2Proof.Machine
end

