-- ==== Sys2Proof/Machine/AlarmOps.lean ====
section
/-! DEFINITION. The alarm root: how a class is accepted and which action it starts (05 R157 to R164, 04 R119, R120),
and the launch of an alarm STILL. -/

namespace Sys2Proof.Machine

/-! Action codes (05 R159) -/
def acRecord : Nat := 0
def acWafer : Nat := 1
def acRegion : Nat := 2
def acSnap : Nat := 3
def acDump : Nat := 4
def acFixed : Nat := 5

def classOf (s : State) (c : Nat) : ClassBinding := mget {} s.alarm.classes c

/-- The order of strength of 05 R162: FIXED, STILL_DUMP, STILL_SNAP, STILL_WAFER, STILL_REGION, RECORD. -/
def strength (a : Nat) : Nat :=
  match a with
  | 5 => 5
  | 4 => 4
  | 3 => 3
  | 1 => 2
  | 2 => 1
  | _ => 0

/-- The class has reached a non-zero LIMIT (05 R161). -/
def atLimit (b : ClassBinding) : Bool := b.limit != 0 && decide (b.limit ≤ b.used)

/-- The action a class has at this moment: its binding, unless its LIMIT is reached (R161), a step's RELEASE
has been launched (04 R145), a region still makes HANG record-only (R144), or a region action cannot name its region (R164). Class 7 for a die loss
acts as STILL_DUMP whatever its binding (12 R371). -/
def actionNow (s : State) (c : Nat) : Nat :=
  let b := classOf s c
  let a := if c = 7 && s.recov.dieLoss then acDump else b.action
  if c = 3 && regionStands s then acRecord
  else if a = acFixed then acFixed
  else if atLimit b || (stepRuns s && s.root.stepReleased) then acRecord
  else if a = acRegion && (!regionState s || !(regionOf s b.region).valid) then acWafer
  else a

/-- The classes set in a mask, lowest first. -/
def classList (cs : BitVec 16) : List Nat := (List.range 16).filter (fun c => cs.getLsbD c)

/-- The class an accepted set acts for: the lowest-numbered of those with the strongest action (05 R162). -/
def strongest (s : State) (cs : BitVec 16) : Nat × Nat :=
  (classList cs).foldl (fun (b : Nat × Nat) c =>
    if strength b.2 < strength (actionNow s c) then (c, actionNow s c) else b) (0, acRecord)

/-- A wafer still stands with stragglers: WSTATE STILL_STRAG for scope 0 (04 R133). -/
def waferStrag (s : State) : Bool := s.root.wstate == 4 && s.root.stragScope == 0

/-- A wafer still is in force, or its STILL has been launched (01 R30): WSTATE CONFIRMING, STILL or STILL_STRAG. -/
def waferHeld (s : State) : Bool := s.root.wstate == 2 || s.root.wstate == 3 || waferStrag s

/-- The tick of a launched RELEASE that has not acted yet, if there is one (04 R120). -/
def launchedRelease (s : State) : Option Nat :=
  ((s.root.launched.filter (fun a => a.kind == 2 && decide (now s ≤ a.tick))).map (·.tick)).max?

/-- An alarm that stills the wafer removes every queued RELEASE and sets REL_CANCEL; a step's goes with its closing STILL
(04 R120). -/
def dropReleases (s : State) : State :=
  if !s.root.queue.any (fun a => a.kind == 2) then s
  else
    let s := if s.root.queue.any (fun a => a.kind == 2 && a.origin == 2) then dropStep s else s
    event evRelCancel (setW1c 0x600 (2 ^ 22) (onRoot (fun r => { r with relCancel := true }) (unqueue (fun a => a.kind == 2) s)))

/-- The root launches an alarm STILL in the RCLK cycle at hub time `l`. A queued wafer STILL due in that cycle or the next
has the same effect and is not launched; other words due there go in the next free slot. A mark in preparation gives way
and is prepared again (02 R79, 03 R94, 04 R119). -/
def launchStillAt (scope l : Nat) (s : State) : State :=
  let s := unqueue (fun a => scope == 0 && a.kind == 1 && a.scope == 0 &&
    (edgeUp a.launchAt == l || edgeUp a.launchAt == l + 2)) s
  let a : StillAction := { kind := 1, scope := scope, tick := l + s.time.lstill, launchAt := l, origin := 1 }
  let s := onRoot (fun r => { r with
    launched := r.launched ++ [a]
    lastLaunch := l
    confirm := r.confirm ++ [{ act := a }]
    retried := false
    wstate := if scope = 0 then 2 else r.wstate }) s
  match s.time.markTick with
  | none => s
  | some m => if near m l then beginMark s else s

/-- Issues the alarm STILL of a scope: at the next RCLK edge (04 R119) or, for the wafer after a launched RELEASE with tick
T2, queued for the first tick that is at least now + L_still and T2 + 8 ns (04 R120). The tick it gets stands first. -/
def launchAlarmStill (scope : Nat) (s : State) : Nat × State :=
  match (if scope = 0 then launchedRelease s else none) with
  | some t2 =>
    let t := max (now s + s.time.lstill) (t2 + 8)
    (t, enqueue 1 0 t 1 0 s)
  | none => (nextEdge s + s.time.lstill, launchStillAt scope (nextEdge s) s)

/-- The tick a wafer still stands under, when no second STILL is issued (01 R30). -/
def standingTick (s : State) : Nat :=
  match s.root.launched.find? (fun a => a.kind == 1 && a.scope == 0) with
  | some a => a.tick
  | none => s.root.stillT

/-- The still that an action of this scope asks for is already in force or launched, and no RELEASE is to end it (01 R30,
04 R120). -/
def heldFor (s : State) (scope : Nat) : Bool :=
  if scope = 0 then waferHeld s && (launchedRelease s).isNone else inForce s scope || waferHeld s

/-- The still of a scope is declared, with or without stragglers, or the wafer's is. -/
def stands (s : State) (scope : Nat) : Bool := declared s scope || declared s 0 || (scope == 0 && waferStrag s)

/-- What an alarm action does once its still is declared (05 R159, R160): a wafer or region still with HOLD 0, or one that
another origin issued, leaves nothing more to do; a snapshot starts, unless stragglers remain (04 R133). -/
def actOnStill (r : AlarmAction) (strag : Bool) (s : State) : State :=
  let s := onAlarm (fun a => { a with running := some { r with declaredAt := some (now s), snapWait := r.action == acSnap } }) s
  if r.action = acSnap then alarmSnap strag s
  else if (r.action = acWafer || r.action = acRegion) && (r.hold = 0 || !r.issued) then onAlarm (fun a => { a with running := none }) s
  else s

/-- Starts an alarm action for class c: USED counts it, the class is disarmed at its LIMIT, and its STILL is issued
unless a wafer still holds already; on a still that stands declared the action goes on at once (05 R159 to R161, 01 R30). -/
def startAction (c act : Nat) (s : State) : State :=
  let b := classOf s c
  let used := min 255 (b.used + 1)
  let s := onAlarm (fun a => { a with
    classes := mput {} a.classes c { b with used := used }
    disarmed := if b.limit != 0 && decide (b.limit ≤ used) then a.disarmed ||| (1 <<< c) else a.disarmed }) s
  let scope := if act = acRegion then b.region else 0
  let s := if scope = 0 then dropReleases s else s
  let held := heldFor s scope
  let at0 := now s
  let l := if held then (standingTick s, s) else launchAlarmStill scope s
  let r : AlarmAction := { action := act, cls := c, scope := scope, tick := l.1, accepted := at0, hold := b.hold, issued := !held }
  let s := if act = acDump && !inRom l.2 then beginRecovery c l.2 else l.2
  let s := onAlarm (fun a => { a with running := some r }) s
  if held && stands s scope then actOnStill r (scope == 0 && waferStrag s) s else s

/-- The action in progress is abandoned (05 R162). -/
def abandonAction (s : State) : State :=
  match s.alarm.running with
  | none => s
  | some _ =>
    event evAbandoned (setW1c 0x400 (2 ^ 32) (onAlarm (fun a => { a with abandoned := true, running := none, next := none }) s))

/-- The last-gasp sequence takes over: the running action is abandoned, a queued PRESS and a step's closing STILL are
removed, and the wafer is stilled (05 R162, 06 R206, 04 R145, 12 R392). -/
def startFixed (s : State) : State :=
  let s := abandonAction s
  let s := if snapRuns s then breakSnap 6 s else s
  let s := fixedTxn s
  let s := unqueue (fun a => a.origin == 2) s
  let s := onRoot (fun r => { r with
    stepKind := 0
    stepReleased := false
    wstate := if r.wstate = 5 then (if r.stepScope = 0 then 0 else r.stepPrior) else r.wstate }) s
  startAction 0 acFixed s

/-- An action that writes evidence first ends a host transaction that has not pressed (06 R206), and a dump breaks a
snapshot that is TAKING (11 R362). -/
def clearWay (act : Nat) (s : State) : State :=
  let s := if act = acSnap || act = acDump then rinseForAlarm s else s
  if act = acDump && snapRuns s then breakSnap 6 s else s

/-- What a decoded action does when another one is in progress (05 R162); with none, it starts. -/
def decodeAction (c act : Nat) (s : State) : State :=
  if act = acRecord then s
  else if act = acFixed then startFixed s
  else
    match s.alarm.running with
    | none => startAction c act (clearWay act s)
    | some r =>
      if r.action = acSnap && act = acDump && snapRuns s then
        startAction c act (onAlarm (fun a => { a with running := none, abandoned := true }) (event evAbandoned (setW1c 0x400 (2 ^ 32) (clearWay act s))))
      else if r.action = acRegion && strength acRegion < strength act then
        let s1 := startAction c act (clearWay act s)
        if stands s1 0 || waferStrag s1 then s1
        else onAlarm (fun a => { a with running := some r, next := a.running }) s1
      else s

/-- A system class from 1 to 6 that acts as RECORD runs no recovery: its outcome is RECORDED (12 R371). A recovery in
progress keeps its own CLASS. -/
def recordOutcome (cs : BitVec 16) (s : State) : State :=
  match (List.range 7).find? (fun c => c != 0 && cs.getLsbD c && actionNow s c == acRecord) with
  | none => s
  | some c => if recRuns s then s else event evRecovery (onRec (fun r => { r with cls := c, outcome := 1, elapsedUs := 0 }) s)

/-- A recovery goes back to the naming of suspects: its restore ends, and a RELEASE that has not been launched is removed
(12 R391; 04 R120). -/
def restartRecovery (s : State) : State :=
  dropReleases (onSnap (fun q => { q with restoring := q.restoring && !q.restoreRec })
    (onRec (fun r => { r with restarts := 1, phase := 1, outcome := 0 }) s))

/-- System classes accepted while a recovery runs: before the naming they join it; after it they may restart it once,
and a second restart ends it ABANDONED (12 R391). -/
def joinRecovery (cs : BitVec 16) (s : State) : State :=
  let sys := (List.range 8).filter (fun c => cs.getLsbD c && c != 0 && !(c == s.recov.cls && s.recov.start == now s))
  if !recRuns s || sys.isEmpty then s
  else
    let s1 := onRec (fun r => { r with joined := r.joined ++ sys.map (fun c => (c, now s)) }) s
    if s.recov.phase = 1 then s1
    else if restarts s cs then
      if s.recov.restarts = 0 then restartRecovery s1
      else endRecovery 7 (onSnap (fun q => { q with restoring := q.restoring && !q.restoreRec }) (dropReleases s1))
    else s1

/-- The root accepts classes in one HCLK cycle: it sets their bits in SK_ALARM, triggers a trace that waits for one of
them, tells a recovery in progress, and starts the strongest action among them (02 R78, 05 R158 to R162). -/
def acceptClasses (cs : BitVec 16) (s : State) : State :=
  if !s.alarm.enabled || cs == 0 then s
  else
    let d := strongest s cs
    let s := setW1c 0x400 cs.toNat (onAlarm (fun a => { a with raised := a.raised ||| cs }) s)
    let s := recordOutcome cs (traceTrigger cs s)
    let s := if d.2 ≠ acRecord && s.boot.quiet then
      onBoot (fun b => { b with quiet := false, waking := true }) s else s
    joinRecovery cs (decodeAction d.1 d.2 s)

/-- A class driven on the alarm tree or raised by the centre reaches the root (05 R158). -/
def raiseClass (c : Nat) (s : State) : State := acceptClasses (1 <<< c) s

/-- A die is lost: class 7, which acts as STILL_DUMP; the recovery in progress remembers what it is for (12 R368, R371). -/
def loseDie (s : State) : State :=
  let s := raiseClass 7 (onRec (fun r => { r with dieLoss := true }) s)
  if recRuns s then s else onRec (fun r => { r with dieLoss := false }) s

/-- STEP of the running command, as ALARM and TRIGGER records carry it (10 R304). -/
def cmdStep (t : Tile) : Nat := t.core.cmd.step % 2 ^ 32

/-- A source drives a class wire for 4 RCLK cycles; a pulse that overlaps the last one merges into it (02 R78). -/
def driveClass (c : Nat) (s : State) : State :=
  onAlarm (fun a => { a with wires := mmod {} a.wires c (fun w =>
    if w.until_ != 0 && decide (now s ≤ w.until_) then { w with until_ := now s + 8 }
    else { since := now s, until_ := now s + 8, taken := false }) }) s

/-- The classes whose wire carries a pulse that the root has not accepted yet (02 R78). -/
def drivenClasses (s : State) : BitVec 16 :=
  s.alarm.wires.foldl (fun m p => if p.2.until_ != 0 && !p.2.taken && decide (p.1 < 16) then m ||| (1 <<< p.1) else m) 0

/-- A stub raises class c: it records ALARM and drives the class. -/
def stubAlarm (t c : Nat) (s : State) : State := driveClass c (record t 0x04 (c * 2 ^ 60 + cmdStep (tileOf s t)) s)

end Sys2Proof.Machine
end

