-- ==== Sys2Proof/Machine/LcOps.lean ====
section
/-! DEFINITION. The life-cycle state as the OTP holds it, and the identification registers (14 R445, R448, R458;
15 R477; 13 R438). -/

namespace Sys2Proof.Machine

def otpByte (s : State) (o : Nat) : Nat := (mget 0 s.xspi.otp o).toNat
def otpField (s : State) (o n : Nat) : List Byte := bytesAt 0 s.xspi.otp o n
/-- A field whose bytes are all zero is blank (14 R445). -/
def otpBlank (s : State) (o n : Nat) : Bool := (otpField s o n).all (fun b => b == 0)

/-- The field at offset `o` can be used: no read-back of it has failed (14 R446). -/
def otpUsable (s : State) (o : Nat) : Bool := !s.xspi.otpBad.contains o

/-- Byte k of the bitwise majority of the three copies (14 R448). -/
def majByte (s : State) (k : Nat) : Nat :=
  let a := otpByte s k
  let b := otpByte s (4 + k)
  let c := otpByte s (8 + k)
  (a &&& b) ||| (a &&& c) ||| (b &&& c)

def reachedByte (s : State) (k : Nat) : Bool := majByte s k == 0xFF
def undecByte (s : State) (k : Nat) : Bool := majByte s k != 0xFF && majByte s k != 0

/-- An intent byte is set when at least five of its bits are (14 R448). -/
def intentSet (s : State) (k : Nat) : Bool :=
  decide (5 ≤ ((List.range 8).filter (fun i => bit i (otpByte s (12 + k)))).length)

/-- Decodes the life-cycle state (14 R448). -/
def decodeLc (s : State) : Nat :=
  if reachedByte s 3 then 4
  else if (List.range 4).any (undecByte s) then 0xFF
  else
    match reachedByte s 0, reachedByte s 1, reachedByte s 2 with
    | false, false, false => 0
    | true, false, false => 1
    | true, true, false => 2
    | true, true, true => 3
    | _, _, _ => 0xFF

/-- An RT intent is set and the state is still FD (14 R453, R458). -/
def wipePending (s : State) : Bool := intentSet s 2 && s.lc.code == 2

/-- The transition sequencer is at work: its request is accepted, and the copies are not all programmed (14 R452). -/
def sequencing (s : State) : Bool := s.lc.phase != 0 && s.lc.phase != 5

/-- PHASE while the sequencer is at work, by the time since acceptance: INTENT for 80 µs; then WIPE on the way to RT, else one
copy in every 80 µs (14 R452, R458). -/
def lcPhase (s : State) : Nat :=
  let e := now s - s.lc.since
  if !sequencing s then s.lc.phase
  else if e < 80000 then 1
  else if s.lc.target = 3 then 2
  else min 5 (2 + e / 80000)

/-- LC_STATE (14 R458). -/
def lcReg (s : State) : Nat :=
  pack [(0, 8, s.lc.code), (10, 1, b2n s.lc.idFault), (11, 3, lcPhase s), (14, 1, b2n (wipePending s)),
    (15, 1, b2n s.lc.bootDone),
    (16, 3, maskOf 3 (fun i => (List.range 4).any (fun k => otpByte s (4 * i + k) != majByte s k))),
    (20, 4, maskOf 4 (undecByte s)), (24, 4, maskOf 4 (intentSet s))]

/-- IDCODE: that of stepping B0, or the invalid one where the state cannot be decoded (13 R438, 14 R449). -/
def idcode (s : State) : Nat :=
  if s.lc.code = 0xFF then 0xFF else pack [(0, 1, 1), (1, 11, 0x2A7), (12, 16, 0x5C0F), (28, 4, 1)]

/-- SK_ID (15 R477). -/
def skId (s : State) : Nat := idcode s + 0xB0 * 2 ^ 32

/-- SK_CAP (15 R477). -/
def skCap (s : State) : Nat :=
  let f := b2n (!s.cfg.skS)
  pack [(0, 2, b2n s.cfg.skS), (4, 1, f), (5, 1, f), (6, 3, 4 * f), (9, 7, ringDepth s),
    (16, 48, maskOf 48 (fun i => s.rill.overLat.contains i))]

def hubUid (s : State) : List Byte := otpField s 0x10 16

end Sys2Proof.Machine
end

