-- ==== Sys2Proof/Machine/Regs.lean ====
section
/-! DEFINITION. What each register reads (16 R486 to R495): the centre CSR space, the agent window, the edge agents and
the shim block. A function answers none at an offset that the map does not assign. -/

namespace Sys2Proof.Machine

/-- Registers i of an array of `n`, 8 bytes apart from `base`: the index that offset `o` has, if it lies in the array. -/
def arrayIdx (base n o : Nat) : Option Nat := if base ≤ o && o < base + 8 * n then some ((o - base) / 8) else none

/-! The centre (16 R486, R487) -/

def bootReg (s : State) : Nat :=
  let b := s.boot
  pack [(0, 4, b.phase), (10, 1, b2n b.reloadStuck), (11, 1, b2n b.wellAbsent), (12, 1, b2n b.rillFault),
    (13, 1, b2n b.sfdpFallback), (14, 1, b2n b.wellFmt), (15, 1, b2n b.narrowed), (20, 4, b.cfgRejected),
    (24, 4, b.romReason), (28, 4, b.lastWarm), (32, 8, b.warmCount), (40, 24, b.startUs)]

/-- Millionths of a nanosecond by which a steer has moved hub time so far (03 R101). -/
def steeredPpm (s : State) : Nat := s.time.steerAcc + (now s - s.time.steerFrom) * s.time.steerPpm

/-- Nanoseconds by which a steer has moved hub time so far (03 R101). -/
def steered (s : State) : Nat := steeredPpm s / 1000000

/-- The correction still to go; 0 while no steer runs (03 R101). -/
def steerLeft (s : State) : Int :=
  if !s.time.steering then 0
  else if 0 ≤ s.time.steerRemain then s.time.steerRemain - min s.time.steerRemain (steered s)
  else s.time.steerRemain + min (-s.time.steerRemain) (steered s)

def timeStatusReg (s : State) : Nat :=
  let t := s.time
  pack [(4, 2, t.align), (6, 1, b2n t.drift), (7, 1, b2n t.stepped), (8, 1, b2n t.steering), (9, 2, t.flock),
    (11, 1, b2n t.holdover)]

def alarmReg (s : State) : Nat :=
  pack [(0, 16, s.alarm.raised.toNat), (16, 16, s.alarm.disarmed.toNat), (32, 1, b2n s.alarm.abandoned),
    (33, 1, b2n s.alarm.snapSkipped)]

def classReg (b : ClassBinding) : Nat :=
  pack [(0, 3, b.action), (4, 4, b.region), (8, 1, b2n b.fromPlan), (32, 8, b.used), (40, 8, b.limit), (48, 16, b.hold)]

def stillReg (s : State) : Nat :=
  let r := s.root
  pack [(0, 4, r.wstate), (16, 3, r.stepKind), (21, 1, b2n r.retried), (22, 1, b2n r.relCancel), (23, 1, b2n r.censusFail),
    (29, 15, r.regionsStill.toNat / 2), (44, 20, r.stragCount)]

def regionReg (r : Region) : Nat := pack [(0, 9, r.ly1), (9, 9, r.ly0), (18, 10, r.lx1), (28, 10, r.lx0), (63, 1, b2n r.valid)]

def txnReg (s : State) : Nat :=
  let x := s.txn
  pack [(0, 4, x.tstate), (8, 1, b2n x.centre), (9, 1, b2n x.lostSeen), (24, 4, x.cause), (28, 20, x.targets), (48, 16, x.id)]

def snapReg (s : State) : Nat :=
  let q := s.snap
  pack [(0, 1, b2n q.curValid), (1, 1, q.curPond), (8, 1, b2n q.draining), (9, 1, b2n q.restoring),
    (10, 1, b2n (takeBusy s && !snapRuns s)), (11, 1, b2n (snapRuns s)), (16, 8, q.skipped),
    (24, 1, b2n s.plans.snap.isSome), (25, 1, b2n q.broke), (26, 1, b2n q.forced), (27, 1, b2n q.resLow),
    (28, 4, q.cause), (32, 32, q.curId)]

def pondReg (p : Pond) : Nat :=
  pack [(0, 16, p.mapEpoch), (20, 1, b2n p.previous), (21, 1, b2n p.cut), (22, 1, b2n p.noCow), (23, 1, b2n p.draining),
    (24, 4, p.cause), (28, 4, p.state), (32, 32, p.snapId)]

def recReg (s : State) : Nat :=
  let r := s.recov
  pack [(0, 4, r.phase), (4, 4, r.pfGlitch), (8, 4, r.outcome), (12, 4, r.cls), (16, 1, b2n r.wellFail), (17, 2, r.restarts),
    (19, 1, b2n r.overrun), (20, 1, b2n r.defectPending), (21, 24, r.elapsedUs), (45, 9, r.deadY), (54, 10, r.deadX)]

def policyReg (p : Policy) : Nat :=
  pack [(0, 1, b2n p.rollback), (1, 1, b2n p.mend), (2, 2, p.resume), (4, 1, b2n p.memOk), (16, 16, p.repeatMs)]

def pmStatusReg (s : State) : Nat :=
  pack [(0, 1, b2n s.census.gap), (16, 16, s.census.pecCount), (32, 16, s.census.tmoCount), (48, 16, s.census.statusWord)]

def portStatusReg (s : State) : Nat :=
  let p := s.port
  let g := s.sess.sessions.any (fun x => x.intrusive && x.granted) ||
    (s.tap.alive && s.tap.session.intrusive && s.tap.session.granted)
  pack [(0, 1, b2n p.blockLock), (1, 1, b2n p.linkUp), (2, 1, b2n p.fecActive), (3, 1, b2n (anyIntrusive s)), (4, 1, b2n g),
    (5, 1, b2n (s.tap.alive && s.tap.session.intrusive)), (23, 9, s.sess.outstanding.length),
    (32, 16, s.sess.sessions.length), (48, 16, p.gen)]

/-- OWNER: Spring while an operation is in progress, else the Well while a record is being written (16 R488). -/
def xspiOwner (s : State) : Nat :=
  if s.xspi.owner = 1 then 1 else if wellBusy s then 2 else 0

def xspiReg (s : State) : Nat :=
  let x := s.xspi
  pack [(0, 1, b2n x.addr4), (1, 1, b2n x.quad), (2, 2, xspiOwner s), (24, 8, x.sckMhz), (32, 16, x.springTmo), (48, 16, x.wellTmo)]

/-- Value of the centre register at offset `o` (16 R486). -/
def centreReg (s : State) (o : Nat) : Option Nat :=
  match o with
  | 0x000 => some (skId s)
  | 0x008 => some (skCap s)
  | 0x010 => some (bootReg s)
  | 0x018 => some (lcReg s)
  | 0x020 => some s.port.events.toNat
  | 0x028 => some (b2n s.boot.quiet + 2 * b2n s.boot.waking)
  | 0x100 => some (now s)
  | 0x108 => some (pack [(0, 1, b2n s.time.flockEn), (8, 8, s.time.steerPpm)])
  | 0x110 => some (timeStatusReg s)
  | 0x118 => some (ofSigned 64 (steerLeft s))
  | 0x120 => some s.time.lstill
  | 0x128 => some s.time.rillTmo
  | 0x400 => some (alarmReg s)
  | 0x600 => some (stillReg s)
  | 0x608 => some s.root.stillT
  | 0x610 => some s.mapEpoch
  | 0x700 => some (txnReg s)
  | 0x708 => some s.txn.stageTmo
  | 0x710 => some s.txn.t
  | 0x718 => some s.txn.d
  | 0x800 => some (snapReg s)
  | 0x808 => some s.snap.auto
  | 0x810 => some (pondReg (pondOf s 0))
  | 0x818 => some (pondReg (pondOf s 1))
  | 0x820 => some (pondOf s 0).t
  | 0x828 => some (pondOf s 1).t
  | 0x900 => some (b2n s.census.lcEn)
  | 0x908 => some (pack [(0, 7, s.census.pmAddr), (8, 1, b2n s.census.pecEn), (16, 10, s.census.gapMax)])
  | 0x910 => some (pmStatusReg s)
  | 0x918 => some s.census.einTotal
  | 0xA00 => some (recReg s)
  | 0xB00 => some (pack [(0, 1, b2n s.port.fecEn), (16, 10, s.port.sessTmo)])
  | 0xB08 => some (portStatusReg s)
  | 0xB10 => some (pack [(0, 16, s.port.fecUncorr), (16, 16, s.port.linkResets), (32, 16, s.port.resends), (48, 16, s.port.crcErr)])
  | 0xC00 => some (xspiReg s)
  | 0xC08 => some s.xspi.springReg.toNat
  | 0xC10 => some s.xspi.wellReg.toNat
  | 0xC18 => some (pack [(0, 32, s.xspi.progMaxUs), (32, 32, s.xspi.eraseMaxUs)])
  | _ =>
    match arrayIdx 0x180 48 o, arrayIdx 0x480 16 o, arrayIdx 0x688 15 o, arrayIdx 0xA48 5 o with
    | some f, _, _, _ => some (mget 0 s.time.fieldDelay f)
    | _, some c, _, _ => some (classReg (classOf s c))
    | _, _, some n, _ => some (regionReg (regionOf s (n + 1)))
    | _, _, _, some c => some (policyReg (policyOf s (c + 1)))
    | _, _, _, _ => none

/-! The agent window (16 R489, R492) -/

def stStatusReg (x : Tile) : Nat :=
  pack [(0, 1, b2n x.power.ready), (1, 1, b2n x.power.pwrOk), (2, 1, b2n x.power.darkPending), (3, 1, b2n x.time.unset),
    (4, 1, b2n x.power.thr)]

def stStillReg (x : Tile) : Nat :=
  pack [(0, 16, x.still.mask.toNat), (19, 1, b2n x.still.missed), (20, 1, b2n x.still.lateFrz), (21, 3, x.still.state),
    (24, 40, x.still.frzTs)]

def stIdentReg (x : Tile) : Nat :=
  pack [(0, 19, x.txn.ltn), (19, 1, b2n x.txn.ltnValid), (40, 8, x.txn.ctxEpoch), (48, 16, x.txn.mapEpoch)]

def stTxnReg (x : Tile) : Nat :=
  pack [(0, 32, x.txn.deadline), (33, 1, b2n x.txn.hold), (34, 1, b2n x.txn.void), (35, 3, x.txn.tstate),
    (38, 10, x.txn.words), (48, 16, x.txn.id)]

def stPlanReg (x : Tile) : Nat :=
  pack [(0, 1, b2n x.plan.reload), (4, 2, x.plan.fails), (48, 8, x.plan.cntId), (56, 8, x.plan.watchId)]

def stCntReg (x : Tile) : Nat :=
  pack [(0, 1, b2n x.plan.saved), (1, 1, b2n x.plan.saveLost), (2, 1, b2n x.plan.overrun), (32, 32, x.plan.closedStep)]

/-- ST_EDDY_CTL; bits 0, 1 and 6 of MASK read 1 (10 R325). -/
def eddyCtlReg (x : Tile) : Nat :=
  let e := x.eddy
  pack [(8, 1, b2n e.stream), (9, 1, b2n e.freeze), (10, 2, e.policy), (12, 4, e.fullClass), (16, 16, e.flushUs),
    (32, 8, (forcedMask e.mask).toNat)]

def eddyPtrReg (x : Tile) : Nat :=
  let e := x.eddy
  pack [(0, 6, e.head), (7, 1, b2n e.wrapped), (8, 7, e.unsent), (16, 8, e.seq), (32, 32, e.lostStream)]

def hangCtlReg (x : Tile) : Nat := pack [(0, 20, x.hang.limitUs), (20, 4, x.hang.thrMult), (24, 1, b2n x.hang.en)]
def hangStatReg (me : Nat) (x : Tile) : Nat := pack [(0, 20, min (hangCount me x / 1000) (2 ^ 20 - 1)), (20, 1, b2n x.hang.fired), (48, 16, x.hang.episodes)]

/-- Value of the stub register of tile `t` at offset `o` (16 R489). -/
def stubReg (s : State) (t o : Nat) : Option Nat :=
  let x := tileOf s t
  match o with
  | 0x00 => some (stStatusReg x)
  | 0x08 => some (stubNow s t % 2 ^ 64)
  | 0x10 => some x.time.hi
  | 0x18 => some x.time.comp
  | 0x20 => some (stIdentReg x)
  | 0x28 => some (stStillReg x)
  | 0x30 => some (pack [(0, 8, x.still.stepRun), (8, 1, b2n x.still.idle), (16, 16, x.still.stepCyc)])
  | 0x38 => some x.still.stepK
  | 0x40 => some x.still.region.toNat
  | 0x48 => some (b2n x.power.cwdtFired + 2 * b2n x.power.retired)
  | 0x50 => some (stTxnReg x)
  | 0x58 => some x.txn.digest.toNat
  | 0x60 => some (stPlanReg x)
  | 0x68 => some x.plan.digest.toNat
  | 0x70 => some (stCntReg x)
  | 0x78 => some x.plan.lcBase
  | 0x80 => some (eddyCtlReg x)
  | 0x88 => some (eddyPtrReg x)
  | 0x90 => some (hangCtlReg x)
  | 0x98 => some (hangStatReg (stubNow s t) x)
  | _ =>
    match arrayIdx 0xA0 4 o, arrayIdx 0xC0 10 o, arrayIdx 0x200 128 o with
    | some e, _, _ => some (mget 0 x.hang.wait e).toNat
    | _, some i, _ => some (mget 0 x.plan.lc i)
    | _, _, some k => some (unle ((eddyBytes (mget {} x.eddy.ring (k / 2))).drop (8 * (k % 2)) |>.take 8))
    | _, _, _ => none

/-- The eight words of a per-command bank (07 R217, R241). -/
def cmdBankWords (b : CmdBank) : List Nat :=
  [pack [(0, 16, b.layer), (16, 16, b.oper), (32, 32, b.step)], pack [(0, 32, b.cyc), (32, 32, b.stillCyc)],
   pack [(0, 32, b.tail), (32, 32, b.abusy)], pack [(0, 32, b.vbusy), (32, 32, b.mbusy)],
   pack [(0, 32, b.rbusy), (32, 32, b.astall)], pack [(0, 1, b2n b.thrSeen), (1, 1, b2n b.waitSeen)], 0, 0]

/-- The four words of a delta table entry (07 R241). -/
def deltaWords (d : DeltaEntry) : List Nat :=
  [pack [(0, 16, d.devUnx), (16, 16, d.devThr), (32, 32, d.cmds)], d.cyc, d.abusy, d.astall]

/-- The 64 words of an accumulation window; zero while it holds none (08 R274). -/
def accWords (a : Acc) : List Nat :=
  if !a.valid then List.replicate 64 0
  else
    [pack [(0, 1, 1), (1, 1, b2n a.closed), (2, 1, b2n a.disturbed), (3, 1, b2n a.ovf), (32, 32, a.step)],
     a.elements, a.nan, a.pinf, a.ninf, a.zero, a.subnormal, a.saturated, a.inexact, a.skipped, a.blocks, a.satBlocks,
     a.fingerprint, a.unmatched, bits 63 0 a.sumFix,
     bits 95 64 a.sumFix + (if bit 95 a.sumFix then 0xFFFFFFFF * 2 ^ 32 else 0), a.sumF64, a.sumSq,
     a.min + a.max * 2 ^ 32, a.absmax] ++
    (List.range 32).map (fun k => mget 0 a.expBins (2 * k) + mget 0 a.expBins (2 * k + 1) * 2 ^ 32) ++
    (List.range 8).map (fun k => mget 0 a.headBins (2 * k) + mget 0 a.headBins (2 * k + 1) * 2 ^ 32) ++
    List.replicate 4 0

/-- AG_CMPn_HIT: a comparator that is always armed reads ARMED whenever its SRC is not OFF (05 R169, R182). -/
def cmpHit (c : Core) (n : Nat) : Nat :=
  let ctl := cmpReg c n 0
  let k := mget {} c.cmps n
  let armed := if bits 19 17 ctl = 0 then bits 3 0 ctl != 0 else k.armed
  pack [(0, 20, k.hits), (22, 1, b2n armed), (23, 1, b2n k.fired), (24, 40, k.firstTs)]

def capStat (c : Core) (n : Nat) : Nat :=
  let k := mget {} c.dip.caps n
  pack [(0, 1, b2n (k.open_.isSome || k.older.isSome)), (1, 1, b2n k.holding), (8, 8, k.next), (16, 16, k.fullSkips), (32, 16, k.lostLines),
    (48, 16, k.framesDone)]

/-- A register of a group of slots `step` bytes apart, five or six registers each: slot and register. -/
def slotIdx (base step n regs o : Nat) : Option (Nat × Nat) :=
  if base ≤ o && o < base + step * n && (o - base) % step < 8 * regs then some ((o - base) / step, (o - base) % step / 8) else none

/-- Value of the core register at offset `o` (16 R489). -/
def coreReg (s : State) (t o : Nat) : Option Nat :=
  let c := (tileOf s t).core
  let k := c.count
  match o with
  | 0x1000 => some (pack [(0, 1, b2n c.active), (48, 8, c.planId0), (56, 8, c.planId1)])
  | 0x1008 => some (pack [(0, 1, b2n k.run), (2, 1, b2n k.cleared)])
  | 0x1010 => some (pack [(0, 8, k.planId), (8, 1, b2n k.sel), (32, 32, k.foldStep)])
  | 0x1018 => some (pack [(8, 5, c.dip.descPeak), (16, 5, c.dip.queuePeak), (32, 16, c.dip.dropped), (48, 16, c.dip.replaced)])
  | _ =>
    match slotIdx 0x1100 0x40 4 5 o with
    | some (n, w) => some (if w = 4 then cmpHit c n else cmpReg c n w)
    | none =>
    match slotIdx 0x2000 0x40 4 5 o with
    | some (n, w) => some (if w = 4 then capStat c n else capReg c n w)
    | none =>
    match slotIdx 0x3000 0x800 4 6 o with
    | some (n, w) => some (dipReg c n w)
    | none =>
    match slotIdx 0x3200 0x800 4 64 o with
    | some (n, w) => some ((accWords (mget {} c.dip.slots n).last).getD w 0)
    | none =>
    match slotIdx 0x3400 0x800 4 64 o with
    | some (n, w) => some (((mget {} c.dip.slots n).cur.map accWords).getD [] |>.getD w 0)
    | none =>
    match arrayIdx 0x1200 41 o, arrayIdx 0x1400 41 o with
    | some i, _ => some (mget 0 k.cnt i)
    | _, some i => some (mget 0 k.latched i)
    | none, none =>
    match arrayIdx 0x1600 8 o, arrayIdx 0x1640 8 o with
    | some w, _ => some ((cmdBankWords k.cmdo).getD w 0)
    | _, some w => some ((cmdBankWords k.cmdl).getD w 0)
    | none, none =>
    match arrayIdx 0x1700 15 o, arrayIdx 0x1780 15 o, arrayIdx 0x1800 30 o with
    | some e, _, _ => some (mget 0 k.dkey e).toNat
    | _, some e, _ => some (mget 0 k.dplan e).toNat
    | _, _, some j => some (mget 0 k.dnext j).toNat
    | none, none, none =>
    match arrayIdx 0x1900 64 o, arrayIdx 0x1B00 64 o with
    | some j, _ => some ((deltaWords (mget {} k.dtab (j / 4))).getD (j % 4) 0)
    | _, some j => some ((deltaWords (mget {} k.dcls (j / 4))).getD (j % 4) 0)
    | none, none => none

/-- Value of the agent-window register at offset `o`. -/
def agentReg (s : State) (t o : Nat) : Option Nat := if stubOffset o then stubReg s t o else coreReg s t o

/-- The register is absent on SK-S (15 R478). -/
def agentAbsent (s : State) (o : Nat) : Bool :=
  s.cfg.skS && ((0x400 ≤ o && o < 0x600) || (0x3000 ≤ o && o < 0x5000) || o == 0x1018)

/-! Edge agents (16 R494) and shims (R495) -/

def edgeReg (s : State) (d o : Nat) : Option Nat :=
  let e := edgeOf s d
  match o with
  | 0x00 => some (pack [(0, 5, d), (6, 1, b2n e.svc), (7, 1, b2n e.port), (8, 6, e.field)])
  | 0x08 => some e.permille
  | 0x10 => some (pack [(0, 48, e.bytes), (48, 16, e.liveLanes)])
  | 0x18 => some (pack [(0, 1, b2n e.cut), (2, 17, e.markerTmo)])
  | 0x20 => some (pack [(0, 3, e.state), (3, 1, b2n e.unpaired), (6, 7, e.openFlows.length), (13, 19, e.log.length), (32, 32, e.snapId)])
  | _ =>
    match arrayIdx 0x100 64 o with
    | some n =>
      let p := mget (0, 0) e.peers n
      some (if p.1 = 0 then 0 else pack [(0, 5, p.2), (5, 16, p.1 - 1), (63, 1, 1)])
    | none => none

def shimReg (s : State) (f o : Nat) : Option Nat :=
  match o with
  | 0x70000000 => some (pack [(0, 6, f), (16, 16, s.cfg.watchMib), (32, 32, if s.cfg.skS then 0 else s.cfg.reserveMib)])
  | 0x70000008 => some (shimOf s f).lowSlots
  | 0x70000010 => some (pack [(0, 18, slotFree s f), (18, 18, slotTotal s), (50, 14, (shimOf s f).faults)])
  | _ => none

/-! Reads of registers (16 R480, R482) -/

/-- The shape of a register read: 4 or 8 bytes at a 4-byte-aligned address, or several whole registers. -/
def readShape (o n : Nat) : Bool := o % 4 == 0 && (n == 4 || n == 8 || (o % 8 == 0 && n % 8 == 0))

/-- The register offsets that bytes o to o + n − 1 touch. -/
def touched (o n : Nat) : List Nat := (List.range ((o + n + 7) / 8 - o / 8)).map (fun i => 8 * (o / 8 + i))

/-- The bytes of registers from offset `o`; none where the read covers an unassigned offset. -/
def regBytes (f : Nat → Option Nat) (o n : Nat) : Option (List Byte) :=
  let vs := (touched o n).map f
  if vs.any Option.isNone then none
  else some (((vs.flatMap (fun v => le 8 (v.getD 0))).drop (o % 8)).take n)

/-- Reads centre registers; a 4-byte read of SK_TIME's lower half latches its upper half, which a 4-byte read of the
upper half returns (03 R87). -/
def centreBytes (s : State) (o n : Nat) : Option (List Byte) :=
  if n = 4 && o = 0x104 then some (le 4 s.time.latch) else regBytes (centreReg s) o n

def latchTime (o n : Nat) (s : State) : State :=
  if n = 4 && o = 0x100 then onTime (fun t => { t with latch := t.hub / 2 ^ 32 }) s else s

end Sys2Proof.Machine
end

