-- ==== Sys2Proof/Machine/RegWrite.lean ====
section
/-! DEFINITION. What a write to a register is checked for and what it changes (16 R480, R481, R484 to R495). -/

namespace Sys2Proof.Machine

/-- The mask of bit fields given as (lowest bit, width). -/
def fieldMask (fs : List (Nat × Nat)) : Nat := fs.foldl (fun a f => a ||| ((2 ^ f.2 - 1) * 2 ^ f.1)) 0

/-- Bits of a register that are in no field of a layout. -/
def unnamed (fs : List (Nat × Nat)) : Nat := (2 ^ 64 - 1) ^^^ fieldMask fs

/-- A field that has a range: lowest bit, width, least and greatest value. -/
structure Ranged where
  lo : Nat
  width : Nat
  least : Nat
  most : Nat
  deriving DecidableEq, Repr, Inhabited

/-- Reserved bits of the centre register at an assigned offset (16 R486, R487 and the rules they name). -/
def centreResv (o : Nat) : Nat :=
  match o with
  | 0x000 => unnamed [(0, 40)]
  | 0x008 => unnamed [(0, 2), (4, 60)]
  | 0x010 => unnamed [(0, 4), (10, 6), (20, 44)]
  | 0x018 => unnamed [(0, 8), (10, 9), (20, 8)]
  | 0x020 => unnamed [(0, 16)]
  | 0x028 => unnamed [(0, 2)]
  | 0x108 => unnamed [(0, 1), (8, 8)]
  | 0x110 => unnamed [(4, 8)]
  | 0x120 => unnamed [(0, 16)]
  | 0x128 => unnamed [(0, 16)]
  | 0x400 => unnamed [(0, 34)]
  | 0x600 => unnamed [(0, 4), (16, 3), (21, 3), (29, 35)]
  | 0x610 => unnamed [(0, 16)]
  | 0x700 => unnamed [(0, 4), (8, 2), (24, 40)]
  | 0x708 => unnamed [(0, 14)]
  | 0x800 => unnamed [(0, 2), (8, 4), (16, 48)]
  | 0x808 => unnamed [(0, 31)]
  | 0x810 => unnamed [(0, 16), (20, 44)]
  | 0x818 => unnamed [(0, 16), (20, 44)]
  | 0x900 => unnamed [(0, 1)]
  | 0x908 => unnamed [(0, 7), (8, 1), (16, 10)]
  | 0x910 => unnamed [(0, 1), (16, 48)]
  | 0xB00 => unnamed [(0, 1), (16, 10)]
  | 0xB08 => unnamed [(0, 6), (23, 41)]
  | 0xC00 => unnamed [(0, 4), (24, 40)]
  | 0xC08 => unnamed [(0, 32), (36, 12)]
  | 0xC10 => unnamed [(0, 32), (36, 12)]
  | _ =>
    if 0x180 ≤ o && o < 0x300 then unnamed [(0, 16)]
    else if 0x480 ≤ o && o < 0x500 then unnamed [(0, 3), (4, 5), (32, 32)]
    else if 0x688 ≤ o && o < 0x700 then unnamed [(0, 38), (63, 1)]
    else if 0xA48 ≤ o && o < 0xA70 then unnamed [(0, 5), (16, 16)]
    else 0

/-- Fields of centre registers whose range a write must respect. -/
def centreRanges (o : Nat) : List Ranged :=
  match o with
  | 0x108 => [⟨8, 8, 10, 100⟩]
  | 0x128 => [⟨0, 16, 30, 10000⟩]
  | 0x708 => [⟨0, 14, 20, 10000⟩]
  | 0x908 => [⟨16, 10, 1, 1000⟩]
  | 0xB00 => [⟨16, 10, 1, 600⟩]
  | _ => []

def agentResv (o : Nat) : Nat :=
  match o with
  | 0x00 => unnamed [(0, 5)]
  | 0x10 => unnamed [(0, 32)]
  | 0x18 => unnamed [(0, 16)]
  | 0x20 => unnamed [(0, 20), (40, 24)]
  | 0x28 => unnamed [(0, 16), (19, 45)]
  | 0x30 => unnamed [(0, 9), (16, 16)]
  | 0x38 => unnamed [(0, 8)]
  | 0x40 => unnamed [(1, 15)]
  | 0x48 => unnamed [(0, 2)]
  | 0x50 => unnamed [(0, 32), (33, 31)]
  | 0x60 => unnamed [(0, 1), (4, 2), (48, 16)]
  | 0x70 => unnamed [(0, 3), (32, 32)]
  | 0x80 => unnamed [(8, 32)]
  | 0x88 => unnamed [(0, 6), (7, 8), (16, 8), (32, 32)]
  | 0x90 => unnamed [(0, 25)]
  | 0x98 => unnamed [(0, 21), (48, 16)]
  | 0x1000 => unnamed [(0, 1), (48, 16)]
  | 0x1008 => unnamed [(0, 3)]
  | 0x1010 => unnamed [(0, 9), (32, 32)]
  | 0x1018 => unnamed [(8, 5), (16, 5), (32, 32)]
  | _ =>
    if 0xA0 ≤ o && o < 0xC0 then unnamed [(1, 63)]
    else if 0xC0 ≤ o && o < 0x110 then unnamed [(0, 48)]
    else if 0x1200 ≤ o && o < 0x1548 then unnamed [(0, 48)]
    else if 0x1700 ≤ o && o < 0x1778 then unnamed [(0, 48), (63, 1)]
    else if 0x1780 ≤ o && o < 0x17F8 then unnamed [(0, 32)]
    else if 0x1800 ≤ o && o < 0x1878 then unnamed [(0, 48), (63, 1)]
    else if 0x1878 ≤ o && o < 0x18F0 then unnamed [(0, 32)]
    else if 0x1100 ≤ o && o < 0x1200 && o % 0x40 = 0 then unnamed [(0, 4), (8, 1), (12, 8), (48, 16)]
    else if 0x1100 ≤ o && o < 0x1200 && o % 0x40 = 0x20 then unnamed [(0, 20), (22, 42)]
    else if 0x2000 ≤ o && o < 0x2100 && o % 0x40 = 0 then unnamed [(0, 1), (8, 56)]
    else if 0x2000 ≤ o && o < 0x2100 && o % 0x40 = 0x10 then unnamed [(16, 48)]
    else if 0x2000 ≤ o && o < 0x2100 && o % 0x40 = 0x18 then unnamed [(32, 32)]
    else if 0x2000 ≤ o && o < 0x2100 && o % 0x40 = 0x20 then unnamed [(0, 2), (8, 56)]
    else if 0x3000 ≤ o && o % 0x800 = 0 then unnamed [(0, 1), (3, 61)]
    else if 0x3000 ≤ o && 0x18 ≤ o % 0x800 && o % 0x800 ≤ 0x28 then unnamed [(0, 48)]
    else 0

def agentRanges (o : Nat) : List Ranged :=
  match o with
  | 0x80 => [⟨16, 16, 1, 10000⟩]
  | 0x90 => [⟨0, 20, 10, 1000000⟩]
  | _ => []

def edgeResv (o : Nat) : Nat :=
  match o with
  | 0x00 => unnamed [(0, 5), (6, 8)]
  | 0x08 => unnamed [(0, 5)]
  | 0x18 => unnamed [(0, 1), (2, 17)]
  | 0x20 => unnamed [(0, 4), (6, 58)]
  | _ => if 0x100 ≤ o then unnamed [(0, 21), (63, 1)] else 0

def edgeRanges (o : Nat) : List Ranged :=
  match o with
  | 0x08 => [⟨0, 5, 1, 30⟩]
  | 0x18 => [⟨2, 17, 10, 100000⟩]
  | _ => []

def shimResv (o : Nat) : Nat :=
  match o with
  | 0x70000000 => unnamed [(0, 6), (16, 48)]
  | 0x70000008 => unnamed [(0, 18)]
  | 0x70000010 => unnamed [(0, 36), (50, 14)]
  | _ => 0

def shimRanges (o : Nat) : List Ranged := if o = 0x70000008 then [⟨0, 18, 0, 131072⟩] else []

/-- The registers a write covers, with the values it carries. -/
def writePairs (o : Nat) (data : List Byte) : List (Nat × Nat) :=
  (List.range (data.length / 8)).map (fun i => (o + 8 * i, unle ((data.drop (8 * i)).take 8)))

/-- The first byte of a register's value that sets a reserved bit or holds a field outside its range. -/
def badByte (resv : Nat) (rs : List Ranged) (v : Nat) : Option Nat :=
  (List.range 8).find? (fun k => bits (8 * k + 7) (8 * k) (v &&& resv) != 0 ||
    rs.any (fun r => r.lo / 8 == k && (let f := v / 2 ^ r.lo % 2 ^ r.width; decide (f < r.least) || decide (r.most < f))))

/-- The first offending byte of a write: an unassigned offset, a reserved bit, or a value outside its range (16 R481). -/
def badWrite (known : Nat → Option Nat) (resv : Nat → Nat) (rs : Nat → List Ranged) (o : Nat) (data : List Byte) :
    Option Nat :=
  (writePairs o data).findSome? (fun p =>
    if (known p.1).isNone then some (p.1 - o) else (badByte (resv p.1) (rs p.1) p.2).map (fun k => p.1 - o + k))

/-- The write's shape and content as a check; `base` is where the data begin in the request body (16 R480, R481). -/
def writeCheck (known : Nat → Option Nat) (resv : Nat → Nat) (rs : Nat → List Ranged) (base o : Nat) (data : List Byte) :
    List Check :=
  [ badField (o % 8 != 0 || data.length % 8 != 0) base,
    match badWrite known resv rs o data with
    | none => badField false base
    | some k => badField (o % 8 == 0 && data.length % 8 == 0) (base + k) ]

/-! Effects -/

/-- ALIGN becomes DEGRADED when it was SYSTEM, which raises class 7 (03 R89, R90; 05 R157). -/
def degrade (s : State) : State :=
  if s.time.align = 2 then raiseClass 7 (onTime (fun t => { t with align := 3 }) s) else s

/-- A locked frequency loop enters hold (03 R89). -/
def holdLock (s : State) : State :=
  if s.time.flock = 2 then onTime (fun t => { t with flock := 3, holdSince := some t.hub }) s else s

/-- The port loses block lock (03 R89, 13 R409). -/
def loseLock (s : State) : State :=
  if s.port.blockLock then holdLock (onPort (fun p => { p with blockLock := false, lockLostAt := now s }) s) else s

/-- Block lock returns: a loop in hold acquires again by frequency alone, and a hold of more than 1 ms has degraded ALIGN (03
R89). -/
def regainLock (s : State) : State :=
  let s := onPort (fun p => { p with blockLock := true }) s
  if s.time.flock != 3 then s
  else
    let long := s.time.holdSince.any (fun t => decide (t + 1000000 < now s))
    let s := onTime (fun t => { t with flock := 1, holdSince := none }) s
    if long then degrade s else s

/-- A write to SK_PORT_CTL: FEC_EN takes effect after the response, and the lane loses block lock until the partner
matches (13 R402). -/
def writePortCtl (v : Nat) (s : State) : State :=
  let fec := bit 0 v
  let s := if fec == s.port.fecActive then s else loseLock s
  onPort (fun p => { p with
    sessTmo := bits 25 16 v
    fecEn := fec
    fecActive := fec }) s

/-- A write to a centre register; one that no host write reaches is ignored (16 R486). -/
def centreWrite (o v : Nat) (s : State) : State :=
  let w := v - (v &&& keptW1c s o)
  match o with
  | 0x010 => onBoot (fun b => { b with reloadStuck := b.reloadStuck && !bit 10 w }) s
  | 0x020 => onPort (fun p => { p with events := p.events &&& ~~~(BitVec.ofNat 16 w) }) s
  | 0x108 => onTime (fun t => { t with
      flockEn := bit 0 v
      steerAcc := if t.steering then steeredPpm s else 0
      steerFrom := t.hub
      steerPpm := bits 15 8 v
      flock := if bit 0 v then (if t.flockEn then t.flock else 1) else 0
      holdSince := if bit 0 v && t.flockEn then t.holdSince else none }) s
  | 0x110 => onTime (fun t => { t with drift := t.drift && !bit 6 w, stepped := t.stepped && !bit 7 w }) s
  | 0x128 => onTime (fun t => { t with rillTmo := bits 15 0 v }) s
  | 0x400 => onAlarm (fun a => { a with
      raised := a.raised &&& ~~~(BitVec.ofNat 16 w)
      abandoned := a.abandoned && !bit 32 w
      snapSkipped := a.snapSkipped && !bit 33 w }) s
  | 0x600 => onRoot (fun r => { r with relCancel := r.relCancel && !bit 22 w, censusFail := r.censusFail && !bit 23 w }) s
  | 0x700 => onTxn (fun x => { x with lostSeen := x.lostSeen && !bit 9 w }) s
  | 0x708 => onTxn (fun x => { x with stageTmo := bits 13 0 v }) s
  | 0x800 => onSnap (fun q => { q with broke := q.broke && !bit 25 w, forced := q.forced && !bit 26 w }) s
  | 0x808 => onSnap (fun q => { q with auto := bits 30 0 v }) s
  | 0x900 => onCensus (fun c => { c with lcEn := bit 0 v }) (if bit 0 v && !s.census.lcEn then startPeriods (markLoaded 3 s) else s)
  | 0x908 => onCensus (fun c => { c with pmAddr := bits 6 0 v, pecEn := bit 8 v, gapMax := bits 25 16 v }) s
  | 0x910 => onCensus (fun c => { c with gap := c.gap && !bit 0 w }) s
  | 0x918 => onCensus (fun c => { c with einTotal := v }) s
  | 0xA00 => onRec (fun r => { r with wellFail := r.wellFail && !bit 16 w, overrun := r.overrun && !bit 19 w }) s
  | 0xB00 => writePortCtl v s
  | _ => s

/-- A host write to the register of tile t's agent window (16 R491). FREEZE that the stub clears in the same cycle stays clear
(R484). -/
def agentWrite (t o v : Nat) (s : State) : State :=
  let w := v - (v &&& keptW1c s (agentKey t o))
  match o with
  | 0x48 => onTile t (fun x => { x with power := { x.power with cwdtFired := x.power.cwdtFired && !bit 0 w } }) s
  | 0x80 =>
    let x := tileOf s t
    let frz := bit 9 v && !bit 9 (keptW1c s (agentKey t o))
    let fall := x.eddy.freeze && !frz
    let s := onTile t (fun x => { x with eddy := { x.eddy with
      mask := forcedMask (BitVec.ofNat 8 (bits 39 32 v))
      freeze := frz
      freezeAt := if frz && !x.eddy.freeze then now s else x.eddy.freezeAt } }) s
    if fall then thaw t s else s
  | 0x90 =>
    let m := bits 23 20 v
    let s := onRec (fun r => { r with maxHang := max r.maxHang (bits 19 0 v * if m = 0 then 16 else m) }) s
    let me := stubNow s t
    onTile t (fun x =>
      let y := stopHang me x
      { y with hang := { y.hang with limitUs := bits 19 0 v, thrMult := m, en := bit 24 v } }) s
  | 0x1008 => onTile t (fun x => { x with core := { x.core with count := { x.core.count with
      latched := if bit 1 v then x.core.count.cnt else x.core.count.latched
      cleared := x.core.count.cleared && !bit 2 w } } }) s
  | 0x1018 => onTile t (fun x => { x with core := { x.core with dip := { x.core.dip with
      queuePeak := if bits 20 16 v = 0 then x.core.dip.queuePeak else 0
      descPeak := if bits 12 8 v = 0 then x.core.dip.descPeak else 0 } } }) s
  | _ => s

/-- A host write that only the centre or a press may make, or that the tile's state bars (16 R491). -/
def agentRefused (x : Tile) (o v : Nat) : Bool :=
  match o with
  | 0x10 => true
  | 0x18 => true
  | 0x38 => true
  | 0x40 => true
  | 0x48 => bit 1 v != x.power.retired
  | 0x80 => x.eddy.stream || bit 8 v != x.eddy.stream || bits 11 10 v != x.eddy.policy || bits 31 16 v != x.eddy.flushUs ||
      bits 15 12 v != x.eddy.fullClass
  | 0x1000 => true
  | 0x1010 => true
  | _ => (0x1100 ≤ o && o < 0x1200 && o % 0x40 < 0x20) || (0x2000 ≤ o && o < 0x2100 && o % 0x40 < 0x20) ||
      (0x3000 ≤ o && o % 0x800 < 0x30)

/-- Registers of a region, whose writes FD withholds (16 R485). -/
def regionOffset (o : Nat) : Bool := o == 0x40

def edgeWrite (d o v : Nat) (s : State) : State :=
  match o with
  | 0x08 => onEdge d (fun e => { e with permille := bits 4 0 v }) s
  | 0x18 => onEdge d (fun e => { e with cut := bit 0 v, markerTmo := bits 18 2 v }) s
  | 0x20 => onEdge d (fun e => { e with unpaired := e.unpaired && !bit 3 (v - (v &&& keptW1c s (edgeKey d o))) }) s
  | _ => s

def shimWrite (f o v : Nat) (s : State) : State :=
  if o = 0x70000008 then setResLow (onShim f (fun q => { q with lowSlots := bits 17 0 v }) s) else s

/-- Carries out a checked write, register by register in ascending order. -/
def writeRegs (w : Nat → Nat → State → State) (o : Nat) (data : List Byte) (s : State) : State :=
  (writePairs o data).foldl (fun s p => w p.1 p.2 s) s

end Sys2Proof.Machine
end

