-- ==== Sys2Proof/Machine/StillOps.lean ====
section
/-! DEFINITION. What the centre does about stills and releases: the checks of R114 to R121, the outcome of a still
census, the retry of stragglers, and the end of a step (04). -/

namespace Sys2Proof.Machine

/-! Checks -/

/-- The scope of a request: 15 and more are MALFORMED (offset 8), and a region needs MK or IN and to be valid (04 R109,
R112, R152). -/
def scopeChecks (s : State) (scope : Nat) : List Check :=
  [ badField (decide (15 ≤ scope)) 8, denied (scope != 0 && !regionState s),
    refuse (scope != 0 && !(regionOf s scope).valid) ]

/-- The tick a request asks for: moved forward from `lo` to the first tick that `bad` allows if AT_EARLIEST is set (04
R115). -/
def effTick (h : ReqHdr) (lo tick : Nat) (bad : Nat → Bool) : Nat :=
  if h.atEarliest then firstFree bad 2200 (max tick lo) else tick

/-- One tile would get a STILL and a RELEASE with the same tick (04 R121). -/
def conflicts (s : State) (kind scope tick : Nat) : Bool :=
  (s.root.queue ++ s.root.launched).any (fun a =>
    a.kind != 3 && a.kind != kind && a.tick == tick && scopesMeet s a.scope scope)

/-- The tick's own conditions: LATE, more than 2^40 ns ahead, or within 8 ns of a queued action's (04 R114, R116, R118). -/
def tickChecks (s : State) (h : ReqHdr) (lo tick : Nat) (bad : Nat → Bool) : List Check :=
  let t := effTick h lo tick bad
  [lateIf (decide (tick < lo) && !h.atEarliest), refuse (decide (now s + 2 ^ 40 < t)), refuse (bad t)]

def queuedStill (s : State) (scope : Nat) : Bool := s.root.queue.any (fun a => a.kind == 1 && a.scope == scope)

/-- A confirmed still is wanted while a census could not complete: the operation completes with TIMEOUT (04 R135). -/
def unconfirmed (s : State) : Bool := s.root.censusFail && s.root.wstate == 2

/-- An operation that needs the scope's declared still, without stragglers (04 R135, R145). -/
def needsDeclared (s : State) (scope : Nat) : List Check :=
  [refuse (!declared s scope && !unconfirmed s), { st := .timeout, bad := !declared s scope && unconfirmed s }]

/-! Stragglers -/

/-- The members of a scope that are not known to be still, on y then x. -/
def notStill (s : State) (scope : Nat) : List Nat :=
  (scopeTiles s scope).filter (fun t => !((tileOf s t).power.answers && stillOk (tileOf s t)))

/-- The still's word was lost on this tile (04 R132). -/
def lostWord (scope : Nat) (x : Tile) : Bool :=
  x.power.answers && !x.still.mask.getLsbD scope &&
  (x.still.missed || !x.still.pending.any (fun a => a.kind == 1 && a.scope == scope))

/-- Region 15 is given up: bit 15 is cleared wherever it was set, and SK_REGION[15] reads 0 (04 R109). -/
def clearRegion15 (s : State) : State :=
  onRoot (fun r => { r with regions := mput {} r.regions 15 {} })
    (onListedTiles (fun _ x => { x with still := { x.still with region := x.still.region &&& 0x7FFF } }) s)

/-- The one retry of a still, for the named stragglers whose word was lost, and the hub time of the repeated census (04
R132). -/
def retryLost (scope : Nat) (named : List Nat) (s : State) : Nat × State :=
  let ts := named.filter (fun t => lostWord scope (tileOf s t))
  if ts = [] then (now s, s)
  else
    let t := soonest s
    let s := ts.foldl (fun s t => onTile t (fun x =>
      { x with still := { x.still with region := x.still.region ||| 0x8000 } }) s) s
    let s := onRoot (fun r => { r with retried := true, regions := mput {} r.regions 15 { valid := true } }) s
    (t + 1000, enqueueOwn 1 15 t 4 s)

/-! Outcomes -/

/-- The counts of a still census (04 R130, R131). The stragglers of a wafer still that stands stay listed when a region's
still is counted (log 112). -/
def noteCount (scope : Nat) (c : StillCount) (named : List Nat) (s : State) : State :=
  let keep := scope != 0 && waferStrag s
  let old := s.root.stragglers.filter (fun t => !stillOk (tileOf s t))
  onRoot (fun r => { r with
    okCount := c.ok
    nakCount := c.naks.length
    flagsOr := c.flags
    stragCount := c.naks.length + c.lost.length
    stragglers := if keep then ((old ++ named).eraseDups).take 256 else named
    stragScope := if keep then 0 else scope }) s

/-- A still census cannot complete: no member answers it, nor its resend (04 R135; log 113). -/
def censusDead (s : State) (scope : Nat) : Bool :=
  let ms := scopeTiles s scope
  !ms.isEmpty && ms.all (fun t => !(tileOf s t).power.answers)

/-- CENSUS_FAIL is set, which class 7 reports, and the still stays to be confirmed (04 R135, 05 R157). -/
def failCensus (a : StillAction) (s : State) : State :=
  raiseClass 7 (setW1c 0x600 (2 ^ 23) (onRoot (fun r => { r with
    censusFail := true
    confirm := r.confirm.map (fun e => if e.act == a then { e with failed := true } else e) }) s))

/-- The tiles that a command step left blocked: the census of R150 counts STEP_RUN below STEP_K and not IDLE. -/
def stepBlocked (x : Tile) : Bool := decide (x.still.stepRun < x.still.stepK) && !x.still.idle

/-- The step ends once its closing still is confirmed; of a command step the centre counts the tiles, keeps the ten lowest of
those that were blocked, and clears STEP_K everywhere (04 R145, R150). Of a step of a region, WSTATE is again what it was
before the step (log 111). -/
def closeStep (s : State) : State :=
  let ms := (scopeTiles s s.root.stepScope).filter (fun t => (tileOf s t).power.answers)
  let k := s.root.stepK
  let bs := ms.filter (fun t => stepBlocked (tileOf s t))
  let s := if s.root.stepKind != 2 then s
    else onRoot (fun r => { r with
      selfStilled := (ms.filter (fun t => decide (k ≤ (tileOf s t).still.stepRun))).length
      blocked := bs.length
      blockedList := bs.take 10
      idle := (ms.filter (fun t => (tileOf s t).still.idle)).length }) s
  let s := onListedTiles (fun _ x => { x with still := { x.still with stepK := 0, stepping := false } }) s
  onRoot (fun r => { r with
    stepKind := 0
    stepReleased := false
    wstate := if r.wstate = 5 then (if r.stepScope = 0 then 0 else r.stepPrior) else r.wstate }) s

/-- A still that FULL_CLASS caused is declared: every streaming stub is flushed and the partitions drain (10 R317). -/
def startFullDrain (s : State) : State :=
  match s.plans.trace, s.alarm.running with
  | some p, some r =>
    if p.cfg.policy = 3 && r.action = acWafer && r.cls = p.cfg.fullClass && fullBound s r.cls then
      let s := (streamTiles s).foldl (fun s t => flushStub t s) s
      onPartitions (fun q => { q with state := 4 })
        (onPlans (fun x => { x with trace := some { p with drainFrom := some (now s) } }) s)
    else s
  | _, _ => s

/-- The alarm action waiting on this scope goes on; a stronger one that waits on the wafer takes over (05 R162). -/
def alarmOnStill (scope : Nat) (strag : Bool) (s : State) : State :=
  match s.alarm.next, s.alarm.running with
  | some n, _ =>
    if scope = 0 then actOnStill n strag (onAlarm (fun a => { a with next := none }) s) else s
  | none, some r => if r.scope = scope && r.declaredAt.isNone then actOnStill r strag s else s
  | none, none => s

/-- WSTATE once the still of a scope is declared: a region's stragglers show only while the wafer runs (04 R130, R133;
log 112). -/
def declaredState (s : State) (scope : Nat) (strag : Bool) : Nat :=
  if scope = 0 then (if strag then 4 else 3)
  else if strag && s.root.wstate = 0 then 4
  else if !strag && s.root.wstate = 4 && s.root.stragScope = scope then 0
  else s.root.wstate

/-- The still of a scope is declared (04 R130, R133): WSTATE, or the region's bit while no straggler remains. -/
def declareStill (a : StillAction) (strag : Bool) (s : State) : State :=
  let s := if a.origin = 2 || (s.root.stepKind != 0 && a.scope == s.root.stepScope) then closeStep s else s
  let w := declaredState s a.scope strag
  let s := onRoot (fun r => { r with
    stillT := a.tick
    wstate := w
    regionsStill := if a.scope = 0 || strag then r.regionsStill else r.regionsStill ||| (1 <<< a.scope) }) s
  let s := event evStill s
  let s := if strag then event evStragglers s else s
  alarmOnStill a.scope strag (startFullDrain s)

/-- The outcome of a still is final (04 R132, R133): region 15 is cleared, the still is declared, and each NOACK
straggler is reported as class 2. -/
def finishStill (a : StillAction) (s : State) : State :=
  let c := stillCount s a.scope
  let bad := notStill s a.scope
  let named := nameStragglers bad
  let s := clearRegion15 (noteCount a.scope c named s)
  let s := onRoot (fun r => { r with
    confirm := r.confirm.filter (fun e => e.act != a)
    launched := r.launched.filter (fun b => !(b.kind == 1 && (b.scope == a.scope || b.scope == 15))) }) s
  let s := declareStill a (!bad.isEmpty) s
  if named.any (fun t => (tileOf s t).still.state == stNoack) then raiseClass 2 s else s

/-- The first still census (04 R129 to R132, R135): without stragglers its outcome is final; else they are named, those
whose word was lost are retried, and the census is to be repeated. -/
def firstCensus (a : StillAction) (s : State) : State :=
  let bad := notStill s a.scope
  if censusDead s a.scope then failCensus a s
  else if bad = [] then finishStill a s
  else
    let named := nameStragglers bad
    let s := event evStragglers (noteCount a.scope (stillCount s a.scope) named s)
    let r := retryLost a.scope named s
    onRoot (fun q => { q with
      confirm := q.confirm.map (fun e => if e.act == a then { e with repeatAt := some r.1, failed := false } else e) }) r.2

/-- The repeated census: its outcome is final unless it cannot complete (04 R132, R135). -/
def repeatCensus (a : StillAction) (s : State) : State :=
  if censusDead s a.scope then failCensus a s else finishStill a s

/-- A tile reached STILL late: it leaves the straggler list, and when the list is empty the still is declared in full (04
R134). -/
def leaveStragglers (t : Nat) (s : State) : State :=
  if !s.root.stragglers.contains t then s
  else
    let l := s.root.stragglers.erase t
    onRoot (fun r => { r with
      stragglers := l
      wstate := if l = [] && r.wstate = 4 then (if r.stragScope = 0 then 3 else 0) else r.wstate
      regionsStill := if l = [] && r.stragScope != 0 && inForce s r.stragScope && r.confirm.all (fun e => e.act.scope != r.stragScope)
        then r.regionsStill ||| (1 <<< r.stragScope) else r.regionsStill }) s

/-! Releases -/

/-- An alarm's still has been released: a wafer or region action is over (05 R162). -/
def endStillAction (scope : Nat) (s : State) : State :=
  onAlarm (fun a =>
    match a.running with
    | some r =>
      if (r.action == acWafer || r.action == acRegion || (r.action == acSnap && r.declaredAt.isSome && !r.snapWait)) && (scope == 0 || r.scope == scope) then { a with running := a.next, next := none }
      else a
    | none => a) s

/-- WSTATE once a RELEASE is launched: STEPPING for a step's, RUNNING for the wafer's, and RUNNING again where a region's
stragglers alone showed (04 R138, R145; log 112). -/
def releasedState (s : State) (step : Bool) (scope : Nat) : Nat :=
  if step then 5
  else if scope = 0 then 0
  else if s.root.wstate = 4 && s.root.stragScope = scope then 0
  else s.root.wstate

/-- What the centre changes when a RELEASE is launched (04 R138; log 17): the scope no longer holds, a step runs, a
snapshot whose copy is done is SEALING, and a READY recovery is over. -/
def centreRelease (a : StillAction) (s : State) : State :=
  let step := a.origin == 2
  let w := releasedState s step a.scope
  let s := onRoot (fun r => { r with
    wstate := w
    stepPrior := if step then r.wstate else r.stepPrior
    stepReleased := r.stepReleased || step
    regionsStill := if a.scope = 0 then 0 else r.regionsStill &&& ~~~((1 : BitVec 16) <<< a.scope)
    stragglers := if a.scope = 0 || r.stragScope = a.scope then [] else r.stragglers
    confirm := if a.scope = 0 then [] else r.confirm.filter (fun e => e.act.scope != a.scope)
    launched := r.launched.filter (fun b => !(b.kind == 1 && (a.scope == 0 || b.scope == a.scope) && decide (b.tick ≤ a.tick))) }) s
  let s := endStillAction a.scope (event evReleased s)
  let s := if a.scope = 0 then sealSnap a.tick s else s
  if a.scope = 0 then leaveReady a.tick s else s

/-- Words whose tick has passed leave the record of launched ones; a STILL stays until its outcome is final. -/
def pruneLaunched (s : State) : State :=
  onRoot (fun r => { r with launched := r.launched.filter (fun a => a.kind == 1 || decide (now s ≤ a.tick)) }) s

end Sys2Proof.Machine
end

