-- ==== Sys2Proof/Machine/Alarms.lean ====
section
/-! DEFINITION. The alarm root's acceptance and ALARM_REARM (02 R78; 05 R157 to R162). -/

namespace Sys2Proof.Machine

/-- The hub time at which the wires of the classes have been high for 2 RCLK cycles (02 R78). -/
def acceptTime (s : State) (cs : BitVec 16) : Nat :=
  s.alarm.wires.foldl (fun m p => if cs.getLsbD p.1 then max m (p.2.since + 4) else m) 0

/-- ALARM_ACCEPT: the root accepts, in one HCLK cycle, those of the classes that are driven on the alarm tree, once their
wires have been high for 2 RCLK cycles (02 R78, 05 R162). When a pulse reaches the root is the tree's latency (log 14). -/
def execAlarmAccept (classes : BitVec 16) (s : State) : Host.Outcome State Fault Refusal :=
  .next (
    let cs := classes &&& drivenClasses s
    when (inService s && cs != 0) (fun s =>
      let s := elapse (acceptTime s cs) s
      acceptClasses cs (onAlarm (fun a => { a with
        wires := mapAll {} (fun c w => if cs.getLsbD c then { w with taken := true } else w) a.wires }) s)) s)

/-- USED of each named class returns to zero (05 R161). -/
def rearmClasses (classes : BitVec 16) (m : Map ClassBinding) : Map ClassBinding :=
  mapAll {} (fun c b => if classes.getLsbD c then { b with used := 0 } else b) m

/-- ALARM_REARM: USED and the DISARMED bit of each named class are cleared (05 R161). -/
def execAlarmRearm (h : ReqHdr) (classes : BitVec 16) (s : State) : Host.Outcome State Fault Refusal :=
  request { op := 0x41, classC := true, need := .intrusive } h (fun _ _ => [emptyIf (classes == 0)])
    (fun h s => respond h .ok [] (onAlarm (fun a => { a with
      classes := rearmClasses classes a.classes
      disarmed := a.disarmed &&& ~~~classes }) s)) s

end Sys2Proof.Machine
end

