-- ==== Sys2Proof/Machine/CmpOps.lean ====
section
/-! DEFINITION. Comparators: how an event matches, counts, arms and fires (05 R165 to R169), and how an agent core's
error events are counted (07 R213). -/

namespace Sys2Proof.Machine

/-- Changes the agent core of tile `t`. -/
def onCore (t : Nat) (f : Core → Core) (s : State) : State := onTile t (fun x => { x with core := f x.core }) s

/-- Comparator n is armed: always with ARM_BY 0 (05 R169). -/
def cmpArmed (c : Core) (n : Nat) : Bool :=
  bits 19 17 (cmpReg c n 0) == 0 || (mget {} c.cmps n).armed

/-- Sources that cannot match while the still mask is not zero (05 R168). -/
def stillBars (src : Nat) : Bool := decide (1 ≤ src) && decide (src ≤ 4)

/-- The comparators that an event of source `src` matches; `p` is the source's own test. -/
def cmpMatched (x : Tile) (src : Nat) (p : Nat → Bool) : List Nat :=
  if !coreUp x || (stillBars src && x.still.mask != 0) then []
  else (List.range 4).filter (fun n => bits 3 0 (cmpReg x.core n 0) == src && cmpArmed x.core n && p n)

/-- Comparator n after it fires: its count restarts, and with ONCE it is no longer armed (05 R169). -/
def firedCmp (ctl ts : Nat) (k : Cmp) : Cmp :=
  { nmatch := 0
    fired := true
    armed := k.armed && !bit 16 ctl
    firstTs := if k.fired then k.firstTs else ts
    hits := satAdd 20 k.hits 1 }

/-- Arms the comparators whose ARM_BY names comparator n (05 R169). -/
def armBy (n : Nat) (c : Core) : Core :=
  { c with cmps := (List.range 4).foldl (fun m j =>
      if bits 19 17 (cmpReg c j 0) = n + 1 then mmod {} m j (fun k => { k with armed := true }) else m) c.cmps }

/-- One match of comparator n: it counts, and fires at COUNT, which drives its class, unless ONCE has been used up (05
R169). -/
def cmpCount (t src n : Nat) (s : State) : State :=
  let c := (tileOf s t).core
  let ctl := cmpReg c n 0
  let k := mget {} c.cmps n
  if k.nmatch + 1 < bits 63 48 ctl then
    onCore t (fun c => { c with cmps := mput {} c.cmps n { k with nmatch := k.nmatch + 1 } }) s
  else if bit 16 ctl && k.fired then s
  else
    let cls := bits 15 12 ctl
    let s := onCore t (fun c => armBy n { c with cmps := mput {} c.cmps n (firedCmp ctl (ts40 (stubNow s t)) k) }) s
    driveClass cls (record t 0x03 (n * 2 ^ 62 + cls * 2 ^ 58 + src * 2 ^ 54 + cmdStep (tileOf s t)) s)

/-- An event of source `src` on tile `t`: the comparators it matches are those armed before it (05 R165, R169). -/
def cmpEvent (t src : Nat) (p : Nat → Bool) (s : State) : State :=
  (cmpMatched (tileOf s t) src p).foldl (fun s n => cmpCount t src n s) s

/-- Two half-open token ranges overlap (05 R166, 09 R281). -/
def tokMeets (tok : Option (Nat × Nat)) (a b : Nat) : Bool :=
  match tok with
  | none => false
  | some (x, y) => decide (x < b) && decide (a < y)

/-- COMMAND (05 R166), at the first (`last` false) or last cycle. -/
def cmdTest (c : Core) (cmd : Command) (last : Bool) (n : Nat) : Bool :=
  let a := cmpReg c n 1
  let b := cmpReg c n 2
  let k := cmpReg c n 3
  bit 8 (cmpReg c n 0) == last &&
  (cmd.layer ^^^ bits 63 48 a) &&& bits 47 32 a == 0 && (cmd.oper ^^^ bits 31 16 a) &&& bits 15 0 a == 0 &&
  decide (bits 63 32 b ≤ cmd.step) && decide (cmd.step ≤ bits 31 0 b) && (!bit 0 k || tokMeets cmd.tok (bits 63 40 k) (bits 39 16 k))

/-- CONTEXT (05 R165, R181). -/
def ctxTest (c : Core) (old new n : Nat) : Bool :=
  let a := cmpReg c n 1
  (bit 1 a || bits 7 6 a == old) && (bit 0 a || bits 5 4 a == new)

/-- SRAM: the write enables a byte in [A0, A1] (05 R165). -/
def sramTest (c : Core) (w : SnoopLine) (n : Nat) : Bool :=
  let a := cmpReg c n 1
  (List.range 64).any (fun i =>
    w.be.getLsbD i && decide (bits 47 32 a ≤ 64 * w.line + i) && decide (64 * w.line + i ≤ bits 15 0 a))

/-- ERROR: the event's bit of EVENTS (05 R181). -/
def errTest (c : Core) (index n : Nat) : Bool := bit (index - 36) (cmpReg c n 1)

/-- An error event of R213: the free-running counter if it runs, the stub's light census counter, and the ERROR record,
which for index 36 is limited (07 R213, R228; 10 R304, R305); then the ERROR comparators (05 R165). -/
def countError (t index place : Nat) (s : State) : State :=
  let s := onTile t (fun x => { x with
    core := { x.core with count := { x.core.count with
      cnt := if x.core.count.run then mmod 0 x.core.count.cnt index (fun v => (v + 1) % 2 ^ 48) else x.core.count.cnt } }
    plan := { x.plan with lc := mmod 0 x.plan.lc (5 + (index - 36)) (fun v => (v + 1) % 2 ^ 48) } }) s
  let d := (index - 36) * 2 ^ 61 + place % 65536
  let s := if index = 36 then recordKind t 0x10 0 d s else record t 0x10 d s
  cmpEvent t 5 (errTest (tileOf s t).core index) s

end Sys2Proof.Machine
end

