-- ==== Sys2Proof/Machine/Floats.lean ====
section
/-! DEFINITION. Binary floating-point numbers as bit patterns: conversion with round-to-nearest-even, comparison and
addition (02 R63 to R65; 08 R254 to R256). -/

namespace Sys2Proof.Machine

/-- The encoding nearest to (−1)^neg × m × 2^e, ties to even, with `eb` exponent bits and `mb` mantissa bits: a magnitude
above the range becomes infinity, one below it zero. -/
def encodeFloat (eb mb : Nat) (neg : Bool) (m : Nat) (e : Int) : Nat :=
  let sign := b2n neg * 2 ^ (eb + mb)
  let inf := (2 ^ eb - 1) * 2 ^ mb
  if m = 0 then sign
  else
    let qmin : Int := 2 - 2 ^ (eb - 1) - mb
    let q := max ((Nat.log2 m : Int) + e - mb) qmin
    let k :=
      if q ≤ e then m * 2 ^ (e - q).toNat
      else
        let d := (q - e).toNat
        let a := m / 2 ^ d
        let r := m % 2 ^ d
        if 2 ^ d < 2 * r || (2 ^ d == 2 * r && a % 2 == 1) then a + 1 else a
    sign + min inf ((q - qmin).toNat * 2 ^ mb + k)

/-- A float's sign, mantissa and exponent, whatever its class. -/
def floatParts (eb mb v : Nat) : Bool × Nat × Int :=
  let ex := v / 2 ^ mb % 2 ^ eb
  let man := v % 2 ^ mb
  (bit (eb + mb) v, if ex = 0 then man else 2 ^ mb + man, (max ex 1 : Nat) + (1 - 2 ^ (eb - 1) : Int) - mb)

def floatMag (eb mb v : Nat) : Nat := v % 2 ^ (eb + mb)
def floatNan (eb mb v : Nat) : Bool := decide ((2 ^ eb - 1) * 2 ^ mb < floatMag eb mb v)
def floatInf (eb mb v : Nat) : Bool := floatMag eb mb v == (2 ^ eb - 1) * 2 ^ mb

/-- A number that orders float encodings that are no NaN; the zeros are equal. -/
def floatKey (eb mb v : Nat) : Int := if bit (eb + mb) v then -(floatMag eb mb v : Int) else floatMag eb mb v

def f32Less (a b : Nat) : Bool := decide (floatKey 8 23 a < floatKey 8 23 b)
def nan64 : Nat := 0x7FF8000000000000
def nan32 : Nat := 0x7FC00000

/-- The exact sum of two finite numbers, as a sign, a magnitude and an exponent. -/
def exactSum (a b : Bool × Nat × Int) : Int × Int :=
  let e := min a.2.2 b.2.2
  let x : Int := (a.2.1 * 2 ^ (a.2.2 - e).toNat : Nat)
  let y : Int := (b.2.1 * 2 ^ (b.2.2 - e).toNat : Nat)
  ((if a.1 then -x else x) + (if b.1 then -y else y), e)

/-- Adds (neg, m, e) to a finite binary64 number, rounding to nearest even. -/
def addExact64 (a : Nat) (b : Bool × Nat × Int) : Nat :=
  let r := exactSum (floatParts 11 52 a) b
  if r.1 = 0 then (if bit 63 a && b.1 then 2 ^ 63 else 0) else encodeFloat 11 52 (decide (r.1 < 0)) r.1.natAbs r.2

/-- The binary64 sum of two encodings, rounded to nearest even (02 R63). -/
def add64 (a b : Nat) : Nat :=
  if floatNan 11 52 a || floatNan 11 52 b then nan64
  else if floatInf 11 52 a then (if floatInf 11 52 b && a != b then nan64 else a)
  else if floatInf 11 52 b then b
  else addExact64 a (floatParts 11 52 b)

/-- A binary32 encoding as the binary64 of the same value. -/
def to64 (v : Nat) : Nat :=
  if floatNan 8 23 v then nan64
  else if floatInf 8 23 v then b2n (bit 31 v) * 2 ^ 63 + 0x7FF0000000000000
  else let p := floatParts 8 23 v; encodeFloat 11 52 p.1 p.2.1 p.2.2

/-- A ratio of two numbers as the nearest binary64; the denominator is not zero. -/
def ratio64 (n d : Nat) : Nat :=
  let k := 120 + Nat.log2 (d + 1)
  encodeFloat 11 52 false (2 * (n * 2 ^ k / d) + b2n (n * 2 ^ k % d != 0)) (-(k : Int) - 1)

end Sys2Proof.Machine
end

