-- ==== Sys2Proof/Machine/RillRoute.lean ====
section
/-! DEFINITION. The Rill's nodes, links and routes, with the detours (02 R41 to R44, R46). Ports of a router: 0 its agent, 1
north, 2 east, 3 south, 4 west, 5 the quadrant port of a corner router. Ports of a junction: 0 to 3 quadrants Q0 to Q3, 4 the
express link north, 5 and 6 edge ports A and B, 7 the shim, 8 the express link south or, in row 0, the centre link, 9 and 10 the
express links east and west. Ports of an injection port: 0 its centre link, 1 the centre. -/

namespace Sys2Proof.Machine

/-! Places -/

/-- The corner router of a quadrant, in coordinates within the field. -/
def cornerX (x : Nat) : Nat := if x < 48 then 47 else 48
def cornerY (y : Nat) : Nat := if y < 40 then 39 else 40

/-- The column and the row of the corner router of a tile's quadrant. -/
def quadX (t : Nat) : Nat := 96 * (tileX t / 96) + cornerX (tileX t % 96)
def quadY (t : Nat) : Nat := 80 * (tileY t / 80) + cornerY (tileY t % 80)

/-- The corner router of quadrant `q` of a field. -/
def cornerTile (f q : Nat) : Nat := tileAt (96 * (f % 8) + 47 + q % 2) (80 * (f / 8) + 39 + q / 2)

/-- The coordinate by which MISS_AT names a node: a router's own, a junction's corner router of Q0 (02 R66). -/
def nodeTile (n : Node) : Nat :=
  match n with
  | .router t => t
  | .junction f => cornerTile f 0
  | _ => 524287

/-- The number under which the state keeps a node's buffers: routers, then junctions, injection ports and the centre. -/
def nodeKey (n : Node) : Nat :=
  match n with
  | .router t => t
  | .junction f => numTiles + f
  | .port k => numTiles + numFields + k
  | .centre => numTiles + numFields + 8

/-- The node is one of the engine's. -/
def nodeExists (n : Node) : Bool :=
  match n with
  | .router t => decide (t < numTiles)
  | .junction f => decide (f < numFields)
  | .port k => decide (k < 8)
  | .centre => true

/-! Links (02 R41) -/

/-- Where a port leads: the node at the link's other end and the port there; none for a port that leaves the Rill. -/
def linkTo (n : Node) (o : Nat) : Option (Node × Nat) :=
  match n with
  | .router t =>
    match o with
    | 1 => if tileY t < 479 then some (.router (t + 768), 3) else none
    | 2 => if tileX t < 767 then some (.router (t + 1), 4) else none
    | 3 => if 0 < tileY t then some (.router (t - 768), 1) else none
    | 4 => if 0 < tileX t then some (.router (t - 1), 2) else none
    | 5 => if t = cornerTile (fieldOf t) (quadOf t) then some (.junction (fieldOf t), quadOf t) else none
    | _ => none
  | .junction f =>
    if o < 4 then some (.router (cornerTile f o), 5)
    else
      match o with
      | 4 => if f / 8 < 5 then some (.junction (f + 8), 8) else none
      | 8 => if f < 8 then some (.port f, 0) else some (.junction (f - 8), 4)
      | 9 => if f % 8 < 7 then some (.junction (f + 1), 10) else none
      | 10 => if 0 < f % 8 then some (.junction (f - 1), 9) else none
      | _ => none
  | .port k => if o = 0 then some (.junction k, 8) else none
  | .centre => none

/-- The ports of a node. -/
def hasPort (n : Node) (o : Nat) : Bool :=
  match n with
  | .router _ => o == 0 || (linkTo n o).isSome
  | .junction _ => o == 5 || o == 6 || o == 7 || (linkTo n o).isSome
  | .port _ => decide (o < 2)
  | .centre => false

/-- Flits of 16 bits that a port moves in one RCLK cycle: four on a 64-bit link (02 R41). -/
def linkRate (n : Node) (o : Nat) : Nat :=
  match n with
  | .router _ => 1
  | .junction _ => if o = 4 || 7 ≤ o then 4 else 1
  | _ => 4

/-- The number of an express link or a centre link: 80 + 5 × fx + fy for the one north of junction (fx, fy), 120 + 7 × fy + fx
for the one east of it, 162 + fx for a centre link; 0 to 47 are the shim ports and 48 to 79 the edge ports (15 R474). -/
def linkNo (n : Node) (o : Nat) : Option Nat :=
  match n with
  | .junction f =>
    match o with
    | 4 => some (80 + 5 * (f % 8) + f / 8)
    | 7 => some f
    | 8 => some (if f < 8 then 162 + f else 80 + 5 * (f % 8) + f / 8 - 1)
    | 9 => some (120 + 7 * (f / 8) + f % 8)
    | 10 => some (120 + 7 * (f / 8) + f % 8 - 1)
    | _ => none
  | .port k => if o = 0 then some (162 + k) else none
  | _ => none

/-! Detours (02 R43) -/

/-- Column `c` is intact from the centre up to row `y`: its centre link, its express links and its junctions. -/
def columnIntact (s : State) (c y : Nat) : Bool :=
  !s.rill.badLinks.contains (162 + c) && (List.range y).all (fun j => !s.rill.badLinks.contains (80 + 5 * c + j)) &&
  (List.range (y + 1)).all (fun j => !s.rill.badJunctions.contains (8 * j + c))

/-- The east-west express links of row `y` between columns `a` and `b` are usable. -/
def rowUsable (s : State) (a b y : Nat) : Bool :=
  (List.range (max a b - min a b)).all (fun i => !s.rill.badLinks.contains (120 + 7 * y + min a b + i))

/-- The column by which the traffic of column `x` goes at row `y`: its own, else the nearest intact one that the row's express
links reach, the western one of two (02 R43; log 117). -/
def columnFor (s : State) (x y : Nat) : Nat :=
  let near := (List.range 8).flatMap (fun d => (if d ≤ x then [x - d] else []) ++ (if x + d < 8 then [x + d] else []))
  (near.find? (fun c => columnIntact s c y && rowUsable s c x y)).getD x

/-- The field whose junction serves a field: its own, else the west neighbour's, or the east one's for fx 0 (02 R43). -/
def servedBy (s : State) (f : Nat) : Nat :=
  if s.rill.badJunctions.contains f then (if f % 8 = 0 then f + 1 else f - 1) else f

/-- The column at which the centre reaches a field. -/
def entryColumn (s : State) (f : Nat) : Nat := columnFor s (servedBy s f % 8) (f / 8)

/-- The fields served over a detour, which each status frame names (02 R43, 13 R424). -/
def detoured (s : State) : List Nat :=
  if s.rill.badLinks = [] && s.rill.badJunctions = [] then []
  else (List.range numFields).filter (fun f => s.rill.badJunctions.contains f || entryColumn s f != servedBy s f % 8)

/-! Packets that are dropped -/

/-- The largest payload of a kind, none where the kind is reserved (02 R45). -/
def largestLen (kind : Nat) : Option Nat :=
  match kind with
  | 0 => some 8 | 1 => some 8 | 2 => some 8 | 3 => some 8 | 4 => some 64 | 5 => some 32 | 6 => some 0 | 7 => some 32
  | 8 => some 32 | _ => none

/-- The virtual channel of a kind (02 R45). -/
def kindVc (kind : Nat) : Nat :=
  match kind with
  | 4 => 1 | 5 => 2 | 6 => 2 | 7 => 2 | 8 => 3 | _ => 0

/-- The router's stub counts a dropped packet and records it (02 R45, R49; 10 R304). No channel is stated for a packet of a
reserved kind: a free value (log 7). -/
def dropPacket (r port reason : Nat) (p : Packet) (s : State) : State :=
  let vc := if reason = 0 then Config.freeNat s.boot.freeCount r % 4 else kindVc p.kind
  let s := if reason = 0 then drawFree s else s
  recordKind r 0x11 1 (reason * 2 ^ 62 + port % 8 * 2 ^ 59 + vc * 2 ^ 57) (onTile r (fun x =>
    { x with hang := { x.hang with
      malformed := if reason = 2 then x.hang.malformed else x.hang.malformed + 1
      crcBad := if reason = 2 then x.hang.crcBad + 1 else x.hang.crcBad } }) s)

/-- A whole packet with a bad CRC is dropped at the node that holds it: the stub of a router, or of a junction's corner router,
or the centre counts it (02 R49; log 119). -/
def badWhole (n : Node) (port kind : Nat) (s : State) : State :=
  match n with
  | .router r => dropPacket r port 2 { kind := kind } s
  | .junction f => dropPacket (cornerTile f 0) port 2 { kind := kind } s
  | _ => onRill (fun q => { q with crcBad := q.crcBad + 1 }) s

/-! Header words (02 R44 to R46) -/

/-- Header word 1 (02 R46), and of a FOLD (02 R66). -/
def pktMapEpoch (p : Packet) : Nat := bits 63 48 p.word1.toNat
def pktCtxEpoch (p : Packet) : Nat := bits 47 40 p.word1.toNat
def pktLtn (p : Packet) : Nat := bits 39 21 p.word1.toNat
def pktLchk (p : Packet) : Bool := bit 20 p.word1.toNat
def pktCchk (p : Packet) : Bool := bit 19 p.word1.toNat
def pktOp (p : Packet) : Nat := bits 18 11 p.word1.toNat
def pktReason (p : Packet) : Nat := bits 10 7 p.word1.toNat
def pktFoldId (p : Packet) : Nat := bits 63 56 p.word1.toNat
def pktFoldEpoch (p : Packet) : Nat := bits 55 40 p.word1.toNat

/-- SRC of the centre: x 1,023, y 511 (02 R44). -/
def centreSrc : Nat := 524287

/-- The coordinate of a junction port, as DEST of an upward packet names it: x is 1,008 + fx and y is 16 × fy + port (log
105). -/
def portCoord (f port : Nat) : Nat := (1008 + f % 8) * 512 + 16 * (f / 8) + port

/-- A packet goes upward: by its KIND, and BULK by where it is sent (02 R44, R45). -/
def pktUp (p : Packet) : Bool :=
  p.kind == 1 || p.kind == 3 || p.kind == 4 || p.kind == 6 || p.kind == 8 || (p.kind == 5 && decide (1008 ≤ p.dest / 512))

/-- The junction and the port at which an upward packet leaves; one whose DEST is no junction port goes to the centre. -/
def upExit (s : State) (f : Nat) (p : Packet) : Nat × Nat :=
  if 1008 ≤ p.dest / 512 && p.dest / 512 < 1016 then (8 * (p.dest % 512 / 16) + (p.dest / 512 - 1008), p.dest % 16)
  else (entryColumn s f, 8)

/-- The tile that a downward packet is for. -/
def pktTile (p : Packet) : Nat := tileAt (p.dest / 512) (p.dest % 512)

/-! Routes (02 R42) -/

/-- The column of the corner router by which a tile's upward packets leave its quadrant's rows: its own quadrant's, or the
facing one of the neighbour that serves the field (02 R43). -/
def exitX (s : State) (t : Nat) : Nat :=
  let f := fieldOf t
  if s.rill.badJunctions.contains f then (if f % 8 = 0 then 96 * (f % 8) + 143 else 96 * (f % 8) - 48) else quadX t

/-- The port by which a router sends a packet on: along x and then y away from the corner, or along y and then x towards it. -/
def routerOut (s : State) (r : Nat) (p : Packet) : Nat :=
  let x := if pktUp p then exitX s r else p.dest / 512
  let y := if pktUp p then quadY r else p.dest % 512
  let alongX := if tileX r < x then 2 else 4
  let alongY := if tileY r < y then 1 else 3
  if pktUp p then
    if tileY r != y then alongY else if tileX r != x then alongX else 5
  else
    if tileX r != x then alongX else if tileY r != y then alongY else 0

/-- The port by which a junction sends a packet on. -/
def junctionOut (s : State) (f : Nat) (p : Packet) : Nat :=
  if pktUp p then
    let e := upExit s f p
    if f = e.1 then e.2
    else if f % 8 != e.1 % 8 then (if f % 8 < e.1 % 8 then 9 else 10)
    else if e.1 < f then 8 else 4
  else
    let t := pktTile p
    let g := fieldOf t
    let h := servedBy s g
    if h = f then (if g = f then quadOf t else b2n (decide (f < g)) + 2 * (quadOf t / 2))
    else if f / 8 < h / 8 then 4
    else if h / 8 < f / 8 then 8
    else if f < h then 9 else 10

/-- The port by which a node sends a packet on. -/
def outPort (s : State) (n : Node) (p : Packet) : Nat :=
  match n with
  | .router r => routerOut s r p
  | .junction f => junctionOut s f p
  | .port _ => b2n (pktUp p)
  | .centre => 0

/-- The nodes and ports a packet passes from a node on; `k` bounds them. -/
def pathFrom (s : State) (p : Packet) : Nat → Node → List (Node × Nat)
  | 0, _ => []
  | k + 1, n =>
    let o := outPort s n p
    (n, o) :: match linkTo n o with
      | some (m, _) => pathFrom s p k m
      | none => []

/-- The downward route from the centre to a tile: at most an injection port, 13 junctions and 184 routers. -/
def pathTo (s : State) (t : Nat) : List (Node × Nat) :=
  pathFrom s { dest := rillCoord t } 200 (.port (entryColumn s (fieldOf t)))

/-- The branch by which a node sends a multicast's copy on to a tile, if it lies on the way (02 R56). -/
def branchTo (s : State) (n : Node) (t : Nat) : Option Nat := ((pathTo s t).find? (fun q => q.1 == n)).map (·.2)

/-- What stands in a list before the first element that `p` holds of. -/
def lastBefore {α : Type} (p : α → Bool) : List α → Option α
  | [] => none
  | [_] => none
  | a :: b :: r => if p b then some a else lastBefore p (b :: r)

/-- The node and port from which a node receives what goes down to a tile; none where the centre itself hands it over. -/
def upstreamOf (s : State) (n : Node) (t : Nat) : Option (Node × Nat) := lastBefore (fun q => q.1 == n) (pathTo s t)

/-- Node `n` lies on the way to tile `t`. -/
def onRoute (s : State) (n : Node) (t : Nat) : Bool := (branchTo s n t).isSome

end Sys2Proof.Machine
end

