-- ==== Sys2Proof/Machine/FoldOps.lean ====
section
/-! DEFINITION. Folds: which folds are active and who contributes, how contributions combine, and how fold slots and the
centre's results work (02 R63 to R73; 05 R174; 07 R222; 08 R260). -/

namespace Sys2Proof.Machine

/-! Active folds -/

/-- A fold as its slots know it. `op` and `ty` are coded as 13 R434 codes them; `all` admits tiles without an LTN; `plan` says which
plan it is of: 0 fold, 1 watch, 2 counter, 3 the light census. -/
structure FoldInfo where
  id : Nat := 0
  op : Nat := 0
  ty : Nat := 0
  vlen : Nat := 1
  loc : Bool := false
  interval : Nat := 1
  epochTmo : Nat := 50
  set : TileSet := {}
  all : Bool := false
  plan : Nat := 0
  deriving DecidableEq, Repr, Inhabited

def ofEntry (e : FoldEntry) : FoldInfo := ⟨e.foldId, e.op, e.ty, e.vlen, e.loc, e.interval, e.epochTmo, e.set, false, 0⟩

/-- The formats that sum in binary64 (08 R256). -/
def f64Sum (fmt : Nat) : Bool := fmt == 0 || fmt == 2
/-- MX formats (08 R251). -/
def isMx (fmt : Nat) : Bool := decide (5 ≤ fmt) && decide (fmt ≤ 10)

/-- The groups of a dip entry: operation, type and elements of group g (08 R260). -/
def dipGroup (fmt g : Nat) : Nat × Nat × Nat :=
  match g with
  | 0 => (0, 0, 15)
  | 1 => (0, if f64Sum fmt then 2 else 1, 1)
  | 2 => (0, 2, 1)
  | 3 => (1, 3, 3)
  | 4 => (4, 4, 64)
  | _ => (4, 4, 16)

/-- The folds a dip entry emits (08 R260, R261). -/
def dipFolds (d : DipEntry) : List FoldInfo :=
  ((List.range 6).filter (fun g => bit g d.foldSel)).map (fun g =>
    let k := dipGroup d.fmt g
    ⟨d.foldBase + g, k.1, k.2.1, k.2.2, false, d.minInt * 1000, d.epochTmo, d.set, false, 1⟩)

def dipEntries (es : List WatchEntry) : List DipEntry :=
  es.filterMap (fun e =>
    match e with
    | .dip d => some d
    | _ => none)

/-- The three folds of the light census (07 R222). -/
def lcFolds : List FoldInfo :=
  [⟨0xFF, 0, 0, 10, false, 1000, 50, wholeWafer, true, 3⟩, ⟨0xFE, 4, 4, 16, false, 1000, 50, wholeWafer, true, 3⟩,
   ⟨0xFD, 2, 0, 1, false, 1000, 50, wholeWafer, true, 3⟩]

/-- The step folds of a counter plan (07 R222). -/
def cntFolds (p : CntPlan) : List FoldInfo :=
  [⟨0xFC, 0, 0, 64, false, p.minInt * 1000, p.epochTmo, p.set, false, 2⟩,
   ⟨0xFB, 0, 0, 34, false, p.minInt * 1000, p.epochTmo, p.set, false, 2⟩,
   ⟨0xFA, 1, 0, 16, false, p.minInt * 1000, p.epochTmo, p.set, false, 2⟩]

def optList {α β : Type} (o : Option α) (f : α → List β) : List β :=
  match o with
  | some a => f a
  | none => []

def centreFolds (s : State) (c : Option CntPlan) : List FoldInfo :=
  (if s.census.lcEn then lcFolds else []) ++ optList c cntFolds

/-- Every fold in force: the fold plan's, the dips' and the centre's (02 R72, 08 R261). -/
def activeFolds (s : State) : List FoldInfo :=
  optList s.plans.fold (fun p => p.entries.map ofEntry) ++
  optList s.plans.watch (fun p => (dipEntries p.entries).flatMap dipFolds) ++ centreFolds s s.plans.cnt

def foldInfo (s : State) (id : Nat) : Option FoldInfo := (activeFolds s).find? (fun i => i.id == id)

/-- Tile `t` contributes to a fold; plan entries reach no tile without an LTN (02 R55). -/
def foldMember (s : State) (i : FoldInfo) (t : Nat) : Bool := inSet s i.set t && (i.all || (ltnOf s t).isSome)

/-- The LTN a tile held when the fold's plan was loaded: what the tile holds, unless it has been re-identified since (02 R67). -/
def loadedLtn (s : State) (plan t : Nat) : Option Nat :=
  match s.plans.moved.find? (fun m => m.plan == plan && m.tile == t) with
  | some m => m.ltn
  | none => ltnOf s t

/-- Tile `t` was a member of a fold when its plan was loaded; the expected masks are computed then and do not change until the
plan is replaced (02 R67). -/
def loadedMember (s : State) (i : FoldInfo) (t : Nat) : Bool :=
  let l := loadedLtn s i.plan t
  inArea i.set t && admits i.set l && (i.all || l.isSome)

/-- A tile is about to be re-identified: the plans in force keep what they were computed from. -/
def keepLoaded (t : Nat) (s : State) : State :=
  onPlans (fun p => { p with moved := p.moved ++ ((List.range 4).filter (fun k =>
    !p.moved.any (fun m => m.plan == k && m.tile == t))).map (fun k => { plan := k, tile := t, ltn := ltnOf s t }) }) s

/-- Members in a rectangle of physical coordinates. -/
def anyMember (s : State) (i : FoldInfo) (x0 x1 y0 y1 : Nat) : Bool :=
  let a := max x0 i.set.x0
  let c := max y0 i.set.y0
  (List.range (min y1 i.set.y1 + 1 - c)).any (fun j => (List.range (min x1 i.set.x1 + 1 - a)).any (fun k =>
    loadedMember s i (tileAt (a + k) (c + j))))

/-- The members that the plan gives (02 R71). -/
def memberCount (s : State) (i : FoldInfo) : Nat :=
  ((List.range (min i.set.y1 479 + 1 - i.set.y0)).map (fun j => ((List.range (min i.set.x1 767 + 1 - i.set.x0)).filter (fun k =>
    loadedMember s i (tileAt (i.set.x0 + k) (i.set.y0 + j)))).length)).sum

/-! The tree of upward routes (02 R42, R65). Routers number their children own agent, north, east, south, west;
junctions Q0 to Q3, express link north, edge ports A and B; the centre its columns. -/

/-- The rectangle, in coordinates within the field, whose tiles lie behind child `c` of a router; none if no tile does. -/
def routerRect (x y c : Nat) : Option (Nat × Nat × Nat × Nat) :=
  let y0 := if y < 40 then 0 else 40
  match c with
  | 0 => some (x, x, y, y)
  | 1 => if 40 ≤ y && y < 79 then some (x, x, y + 1, 79) else none
  | 2 => if y = cornerY y && 48 ≤ x && x < 95 then some (x + 1, 95, y0, y0 + 39) else none
  | 3 => if 0 < y && y < 40 then some (x, x, 0, y - 1) else none
  | 4 => if y = cornerY y && 0 < x && x < 48 then some (0, x - 1, y0, y0 + 39) else none
  | _ => none

/-- The physical rectangle whose tiles lie behind child `c` of a node. -/
def childRect (n : Node) (c : Nat) : Option (Nat × Nat × Nat × Nat) :=
  match n with
  | .router t =>
    let bx := 96 * (tileX t / 96)
    let by_ := 80 * (tileY t / 80)
    (routerRect (tileX t % 96) (tileY t % 80) c).map (fun r => (bx + r.1, bx + r.2.1, by_ + r.2.2.1, by_ + r.2.2.2))
  | .junction f =>
    let bx := 96 * (f % 8)
    let by_ := 80 * (f / 8)
    if c < 4 then
      let qx := bx + 48 * (c % 2)
      let qy := by_ + 40 * (c / 2)
      some (qx, qx + 47, qy, qy + 39)
    else if c = 4 && f / 8 < 5 then some (bx, bx + 95, by_ + 80, 479)
    else none
  | .centre => if c < 8 then some (96 * c, 96 * c + 95, 0, 479) else none
  | .port _ => none

/-- The node that child `c` of a node is, if it is one. -/
def childNode (n : Node) (c : Nat) : Option Node :=
  match n with
  | .router t =>
    match c with
    | 1 => some (.router (t + 768))
    | 2 => some (.router (t + 1))
    | 3 => some (.router (t - 768))
    | 4 => some (.router (t - 1))
    | _ => none
  | .junction f =>
    if c < 4 then some (.router (cornerTile f c))
    else if c = 4 then some (.junction (f + 8)) else none
  | .centre => some (.junction c)
  | .port _ => none

/-- The node above a node, and the place it has there. -/
def parentOf (n : Node) : Option (Node × Nat) :=
  match n with
  | .router t =>
    let x := tileX t % 96
    let y := tileY t % 80
    if y < cornerY y then some (.router (t + 768), 3)
    else if cornerY y < y then some (.router (t - 768), 1)
    else if x < cornerX x then some (.router (t + 1), 4)
    else if cornerX x < x then some (.router (t - 1), 2)
    else some (.junction (fieldOf t), quadOf t)
  | .junction f => if f < 8 then some (.centre, f) else some (.junction (f - 8), 4)
  | .centre => none
  | .port _ => none

/-- The children of a node that contribute to a fold (02 R67). -/
def expectedOf (s : State) (i : FoldInfo) (n : Node) : List Nat :=
  (List.range 8).filter (fun c =>
    match childRect n c with
    | some r => anyMember s i r.1 r.2.1 r.2.2.1 r.2.2.2
    | none => false)

/-- Slot levels at and below a node; `k` bounds the depth of the tree. -/
def slotLevels (s : State) (i : FoldInfo) : Nat → Node → Nat
  | 0, _ => 0
  | k + 1, n =>
    let cs := expectedOf s i n
    let below := (cs.filterMap (childNode n)).foldl (fun m c => max m (slotLevels s i k c)) 0
    below + b2n (decide (2 ≤ cs.length))

/-- The height of a slot: the slot levels below it (02 R69). -/
def slotHeight (s : State) (i : FoldInfo) (n : Node) : Nat :=
  ((expectedOf s i n).filterMap (childNode n)).foldl (fun m c => max m (slotLevels s i 110 c)) 0

/-! Combining -/

/-- The identity of an operation on a type (02 R76). -/
def identityOf (op ty : Nat) : Nat :=
  match op, ty with
  | 1, 1 => 2 ^ 95
  | 1, 2 => 0xFFF0000000000000
  | 1, 3 => 0xFF800000
  | 2, 0 => 2 ^ 64 - 1
  | 2, 1 => 2 ^ 95 - 1
  | 2, 2 => 0x7FF0000000000000
  | 2, 3 => 0x7F800000
  | _, _ => 0

/-- An element is a NaN of its type. -/
def isNan (ty v : Nat) : Bool := if ty = 2 then floatNan 11 52 v else ty == 3 && floatNan 8 23 v

/-- An element as a number that orders its type. -/
def orderKey (ty v : Nat) : Int :=
  match ty with
  | 1 => toSigned 96 v
  | 2 => floatKey 11 52 v
  | 3 => floatKey 8 23 v
  | _ => v

/-- Combines two elements, the earlier one first; the flag is the sticky overflow (02 R63, R64). -/
def combineElem (op ty a b : Nat) : Nat × Bool :=
  match op with
  | 0 =>
    match ty with
    | 1 =>
      let v := toSigned 96 a + toSigned 96 b
      (ofSigned 96 v, decide (v < -(2 ^ 95)) || decide (2 ^ 95 ≤ v))
    | 2 => (add64 a b, false)
    | _ => ((a + b) % 2 ^ 64, false)
  | 3 => (a ||| b, false)
  | 4 => (min (a + b) (2 ^ 48 - 1), decide (2 ^ 48 ≤ a + b))
  | _ =>
    if isNan ty a || isNan ty b then (if ty = 2 then nan64 else nan32, false)
    else if op = 1 then (if orderKey ty a < orderKey ty b then b else a, false)
    else (if orderKey ty b < orderKey ty a then b else a, false)

/-- The lower of two optional coordinates. -/
def lowerLoc (a b : Option Nat) : Option Nat :=
  match a, b with
  | some x, some y => some (min x y)
  | some x, none => some x
  | none, y => y

/-- Whose coordinate a MAX or MIN of one element carries: that of the extreme, the lower one on a tie (02 R64). -/
def combineLoc (op ty : Nat) (p q : FoldPartial) : Option Nat :=
  let a := p.data.headD 0
  let b := q.data.headD 0
  if isNan ty a != isNan ty b then (if isNan ty a then p.loc else q.loc)
  else if isNan ty a || orderKey ty a == orderKey ty b then lowerLoc p.loc q.loc
  else if (combineElem op ty a b).1 = a then p.loc else q.loc

/-- Combines two partials, the earlier one first (02 R65, R66). -/
def combine (i : FoldInfo) (p q : FoldPartial) : FoldPartial :=
  let ds := (p.data.zip q.data).map (fun d => combineElem i.op i.ty d.1 d.2)
  let first := decide (p.missAt ≤ q.missAt)
  { count := (p.count + q.count) % 2 ^ 20
    missCount := min 255 (p.missCount + q.missCount)
    ovf := p.ovf || q.ovf || ds.any (·.2)
    darkSeen := p.darkSeen || q.darkSeen
    missAt := if first then p.missAt else q.missAt
    missMask := if first then p.missMask else q.missMask
    loc := if i.loc then combineLoc i.op i.ty p q else none
    data := ds.map (·.1) }

/-- The identity contribution (02 R76). -/
def identityPartial (i : FoldInfo) (dark : Bool) : FoldPartial :=
  { darkSeen := dark, data := List.replicate i.vlen (identityOf i.op i.ty) }

/-- A result's element with a NaN of MAX or MIN made the canonical quiet one (02 R64). -/
def quietElem (op ty v : Nat) : Nat := if (op == 1 || op == 2) && isNan ty v then (if ty = 2 then nan64 else nan32) else v

/-- Combines contributions in the fixed order of the children (02 R65). -/
def combineAll (i : FoldInfo) (got : List (Nat × FoldPartial)) : FoldPartial :=
  let ps := (List.range 8).filterMap (fun c => (got.find? (fun g => g.1 == c)).map (·.2))
  match ps with
  | [] => identityPartial i false
  | p :: r =>
    let q := r.foldl (combine i) p
    { q with data := q.data.map (quietElem i.op i.ty) }

/-! Slots -/

/-- A slot's partial; missing children are recorded (02 R66, R69). The centre's own incomplete closing counts one more slot, with
MISS_AT all ones and the missing columns in MISS_MASK, where no lower coordinate is named (DESIGN CHOICE, log 121). -/
def slotPartial (i : FoldInfo) (x : FoldSlot) : FoldPartial :=
  let p := combineAll i x.got
  let miss := x.expected.filter (fun c => !x.got.any (fun g => g.1 == c))
  if miss = [] then p
  else
    let here := nodeTile x.node
    let first := decide (here ≤ p.missAt)
    { p with
      missCount := min 255 (p.missCount + 1)
      missAt := if first then here else p.missAt
      missMask := if first then maskOf 8 (fun c => miss.contains c) else p.missMask }

def addUpward (u : Upward) (s : State) : State := onFolds (fun f => { f with upward := f.upward ++ [u] }) s

/-- A partial leaves a node for the one above it. -/
def sendUp (n : Node) (id epoch : Nat) (p : FoldPartial) (s : State) : State :=
  match parentOf n with
  | some (m, c) => addUpward ⟨m, c, id, epoch, p⟩ s
  | none => s

/-- A tile's contribution leaves its agent for its router (02 R65). -/
def contribute (t id epoch : Nat) (p : FoldPartial) (s : State) : State := addUpward ⟨.router t, 0, id, epoch, p⟩ s

def findSlot (s : State) (n : Node) (id : Nat) : Option FoldSlot :=
  s.folds.slots.find? (fun x => x.node == n && x.foldId == id)

def setSlot (x : FoldSlot) (s : State) : State :=
  onFolds (fun f => { f with
    slots := f.slots.filter (fun y => !(y.node == x.node && y.foldId == x.foldId)) ++ [x] }) s

/-- A slot moves to the next epoch: what it held for it is combined (02 R68). The moment it moves on counts as the first arrival of
the contributions it held (DESIGN CHOICE, log 122). -/
def nextEpochSlot (t : Nat) (x : FoldSlot) : FoldSlot :=
  { x with
    epoch := (x.epoch + 1) % 65536
    got := x.held
    held := []
    firstAt := if x.held = [] then none else some t }

def slotFull (x : FoldSlot) : Bool := x.expected.all (fun c => x.got.any (fun g => g.1 == c))

/-- Sends the partial of a complete slot and moves on; `k` bounds the epochs that the held contributions complete. The
centre's slot waits for its result to be stored. -/
def settleSlot (i : FoldInfo) : Nat → FoldSlot → State → State
  | 0, x, s => setSlot x s
  | k + 1, x, s =>
    if slotFull x && x.node != .centre then
      settleSlot i k (nextEpochSlot (now s) x) (sendUp x.node x.foldId x.epoch (slotPartial i x) s)
    else setSlot x s

/-- The slot of a node for a fold, or a fresh one that takes the epoch of its first arrival (log 18). -/
def slotFor (s : State) (i : FoldInfo) (n : Node) (e : Nat) : FoldSlot :=
  (findSlot s n i.id).getD
    { node := n, foldId := i.id, expected := expectedOf s i n, epoch := e, height := slotHeight s i n }

/-- The stub that counts and records what happens at a node: a router's own, else the recording stub of the field. -/
def nodeStub (n : Node) : Nat := if nodeTile n < numTiles then nodeTile n else nodeTile (.junction 0)

/-- A contribution that comes too late is dropped and counted (02 R68, 10 R304). -/
def lateFold (n : Node) (id e : Nat) (s : State) : State :=
  let t := nodeStub n
  recordKind t 0x13 3 (id * 2 ^ 56 + e * 2 ^ 40) (onTile t (fun x =>
    { x with hang := { x.hang with foldLate := x.hang.foldLate + 1 } }) s)

/-- A contribution reaches a slot (02 R68). A second one of a child for the open epoch, or for the next one, is dropped and counted
as late (DESIGN CHOICE, log 123). -/
def slotArrive (i : FoldInfo) (c e : Nat) (p : FoldPartial) (x : FoldSlot) (s : State) : State :=
  if e = x.epoch && !x.got.any (fun g => g.1 == c) then
    settleSlot i 2 { x with
      got := x.got ++ [(c, p)]
      firstAt := match x.firstAt with
        | none => some (now s)
        | some t => some t } s
  else if e = (x.epoch + 1) % 65536 && !x.held.any (fun g => g.1 == c) then setSlot { x with held := x.held ++ [(c, p)] } s
  else lateFold x.node i.id e s

/-- A slot's deadline (02 R69). -/
def slotDeadline (i : FoldInfo) (x : FoldSlot) : Option Nat :=
  x.firstAt.map (fun t => t + i.epochTmo * 1000 + x.height * 200)

/-- A slot closes its epoch with what it has (02 R69). -/
def closeSlot (i : FoldInfo) (x : FoldSlot) (s : State) : State :=
  settleSlot i 2 (nextEpochSlot (now s) x) (sendUp x.node x.foldId x.epoch (slotPartial i x) s)

/-- Forgets the slots and the partials under way of some folds, as a new plan replaces them. -/
def dropFolds (ids : List Nat) (s : State) : State :=
  onFolds (fun f => { f with
    slots := f.slots.filter (fun x => !ids.contains x.foldId)
    upward := f.upward.filter (fun u => !ids.contains u.foldId) }) s

/-- A slot of the node holds the child's contribution for the next epoch: the child's VC1 link is held (02 R68). -/
def linkHeld (s : State) (n : Node) (c : Nat) : Bool :=
  s.folds.slots.any (fun x => x.node == n && x.held.any (fun g => g.1 == c))

/-! Results and conditions -/

/-- A condition's test on a result element (05 R174). -/
def testHolds (ty test v th : Nat) : Bool :=
  if test = 6 then false
  else
    let nan := isNan ty v || (decide (2 ≤ ty) && decide (ty ≤ 3) && floatNan 11 52 th)
    let a : Int := match ty with
      | 1 => toSigned 96 v
      | 2 => floatKey 11 52 v
      | 3 => floatKey 11 52 (to64 v)
      | _ => v
    let b : Int := match ty with
      | 1 => toSigned 64 th
      | 2 => floatKey 11 52 th
      | 3 => floatKey 11 52 th
      | _ => th
    if nan then test == 5
    else
      match test with
      | 0 => decide (b < a)
      | 1 => decide (b ≤ a)
      | 2 => decide (a < b)
      | 3 => decide (a ≤ b)
      | 4 => a == b
      | _ => a != b

/-- A condition holds on a stored result of its fold (05 R174). -/
def condHolds (i : FoldInfo) (r : FoldResult) (c : Condition) : Bool :=
  c.foldId == i.id && !(c.once && c.fired) &&
  (if c.test = 6 then r.incomplete else testHolds i.ty c.test (r.data.getD c.element 0) c.thresh.toNat)

/-- Evaluates every condition on a stored result and raises, in one HCLK cycle, the classes whose tests hold (05 R158, R162,
R173, R174). -/
def runConditions (i : FoldInfo) (r : FoldResult) (s : State) : State :=
  let hit := s.plans.conditions.filter (condHolds i r)
  let s := onPlans (fun p => { p with
    conditions := p.conditions.map (fun c => if condHolds i r c then { c with fired := true } else c) }) s
  acceptClasses (hit.foldl (fun m c => m ||| (1 <<< c.cls)) 0) s

/-- The result of a fold epoch (02 R71). -/
def resultOf (s : State) (i : FoldInfo) (e : Nat) (p : FoldPartial) : FoldResult :=
  { foldId := i.id
    ty := i.ty
    epoch := e
    count := p.count
    ovf := p.ovf
    darkSeen := p.darkSeen
    incomplete := p.missCount != 0 || decide (p.count < memberCount s i)
    missCount := p.missCount
    missAt := p.missAt
    missMask := p.missMask
    stored := now s
    loc := p.loc
    data := p.data }

/-- Keeps the last sixteen results of each fold (13 R428). -/
def keepResult (r : FoldResult) (rs : List FoldResult) : List FoldResult :=
  let mine := rs.filter (fun x => x.foldId == r.foldId)
  rs.filter (fun x => x.foldId != r.foldId) ++ (mine ++ [r]).drop (mine.length + 1 - 16)

/-- Stores a result and flags it in the next status frame (02 R71). -/
def storeResult (r : FoldResult) (s : State) : State :=
  event evFold (onFolds (fun f => { f with results := keepResult r f.results, latest := r.foldId }) s)

/-! Limits of a plan (02 R72, R73) -/

/-- Bytes of one element in its container (02 R63). -/
def elemBytes (ty : Nat) : Nat :=
  match ty with
  | 1 => 16
  | 3 => 4
  | 4 => 6
  | _ => 8

/-- A fold packet's bytes on a link of `flit` bytes: two header words, whole payload words, the coordinate of LOC, and
the CRC, in whole flits (02 R73). -/
def packetBytes (flit : Nat) (i : FoldInfo) : Nat :=
  let n := 18 + 8 * ((elemBytes i.ty * i.vlen + 7) / 8) + 8 * b2n i.loc
  (n + flit - 1) / flit * flit

/-- The sum of fractions n / d. -/
def addFrac (a b : Nat × Nat) : Nat × Nat := (a.1 * b.2 + b.1 * a.2, a.2 * b.2)

/-- The folds' VC1 demand on a link of `flit` bytes, in bytes per µs, exceeds `num / 2` bytes per µs. -/
def overDemand (flit num : Nat) (is : List FoldInfo) : Bool :=
  let d := is.foldl (fun a i => addFrac a (packetBytes flit i, max 1 i.interval)) (0, 1)
  decide (num * d.2 < 2 * d.1)

/-- The limits that a set of folds breaks at a node: more than 8 slots, or the budget of the link upward: 62.5 MB/s of a
16-bit link, 250 MB/s of a 64-bit link. The port is that of the link upward, or all ones for the slots. -/
def nodeOver (s : State) (is : List FoldInfo) (n : Node) : Option Nat :=
  let slots := is.filter (fun i => decide (2 ≤ (expectedOf s i n).length))
  let thru := is.filter (fun i => !(expectedOf s i n).isEmpty)
  if n != .centre && decide (8 < slots.length) then some 255
  else
    match n with
    | .router _ => if overDemand 2 125 thru then some ((parentOf n).map (·.2) |>.getD 255) else none
    | .junction _ => if overDemand 8 500 thru then some ((parentOf n).map (·.2) |>.getD 255) else none
    | _ => none

/-- What `f` finds first at one of `k` places, from place `t` on. -/
def firstFrom {α : Type} (f : Nat → Option α) : Nat → Nat → Option α
  | _, 0 => none
  | t, k + 1 =>
    match f t with
    | some a => some a
    | none => firstFrom f (t + 1) k

/-- The first router or junction that a set of folds overloads, with its coordinate and port: routers in the order of tiles, then
junctions, and at each its slots before its link upward (DESIGN CHOICE, log 124). -/
def firstOver (s : State) (is : List FoldInfo) : Option (Nat × Nat) :=
  match firstFrom (fun t => (nodeOver s is (.router t)).map (fun p => (t, p))) 0 numTiles with
  | some r => some r
  | none => firstFrom (fun f => (nodeOver s is (.junction f)).map (fun p => (nodeTile (.junction f), p))) 0 numFields

/-- Adds the folds of each entry in turn and names the first that overloads something: entry, tile, port (02 R72). -/
def overEntry (s : State) : List FoldInfo → Nat → List (List FoldInfo) → Option (Nat × Nat × Nat)
  | _, _, [] => none
  | base, k, e :: r =>
    if e = [] then overEntry s base (k + 1) r
    else
      match firstOver s (base ++ e) with
      | some o => some (k, o)
      | none => overEntry s (base ++ e) (k + 1) r

/-- The check of the limits: REFUSED, naming the entry and the place. -/
def limitCheck (s : State) (base : List FoldInfo) (es : List (List FoldInfo)) : Check :=
  match overEntry s base 0 es with
  | none => { st := .refused }
  | some (k, t, p) => { st := .refused, bad := true, reason := 0xF, index := k, place := coord t, port := p }

end Sys2Proof.Machine
end

