-- ==== Sys2Proof/Machine/DipOps.lean ====
section
/-! DEFINITION. Dips: element formats, classification, accumulations and what they contribute (08 R246 to R262). -/

namespace Sys2Proof.Machine

/-! Formats (08 R251) -/

/-- How a float format codes infinities and NaN. -/
inductive FmtKind where
  | ieee  -- as binary32
  | e4m3  -- no infinity, NaN S.1111.111
  | plain -- neither
  | int   -- two's complement
  deriving DecidableEq, Repr, Inhabited

/-- An element format: width, exponent and mantissa bits, bias, and for an integer its value LSB exponent. `emax` is that
of R258. -/
structure Fmt where
  w : Nat := 32
  eb : Nat := 8
  mb : Nat := 23
  bias : Nat := 127
  kind : FmtKind := .ieee
  intLsb : Int := 0
  emax : Int := 0
  slot : Nat := 64
  deriving DecidableEq, Repr, Inhabited

def fmtOf (n : Nat) : Fmt :=
  match n with
  | 0x0 => {}
  | 0x1 => { w := 16, eb := 5, mb := 10, bias := 15 }
  | 0x2 => { w := 16, eb := 8, mb := 7, bias := 127 }
  | 0x3 => { w := 8, eb := 4, mb := 3, bias := 7, kind := .e4m3 }
  | 0x4 => { w := 8, eb := 5, mb := 2, bias := 15 }
  | 0x5 => { w := 8, eb := 4, mb := 3, bias := 7, kind := .e4m3, emax := 8, slot := 32 }
  | 0x6 => { w := 8, eb := 5, mb := 2, bias := 15, emax := 15, slot := 32 }
  | 0x7 => { w := 6, eb := 3, mb := 2, bias := 3, kind := .plain, emax := 4, slot := 32 }
  | 0x8 => { w := 6, eb := 2, mb := 3, bias := 1, kind := .plain, emax := 2, slot := 32 }
  | 0x9 => { w := 4, eb := 2, mb := 1, bias := 1, kind := .plain, emax := 2, slot := 16 }
  | 0xA => { w := 8, kind := .int, intLsb := -6, emax := 0, slot := 32 }
  | 0xB => { w := 8, kind := .int }
  | _ => { w := 4, kind := .int }

/-- The weight of an accumulator LSB for a format that is not MX (08 R255). -/
def fmtLsb (f : Fmt) : Int := if f.kind = .int then f.intLsb else 1 - f.bias - f.mb

/-- A decoded element: its value is (−1)^neg × m × 2^e where it is neither NaN nor infinite. -/
structure Elem where
  nan : Bool := false
  inf : Bool := false
  neg : Bool := false
  m : Nat := 0
  e : Int := 0
  sub : Bool := false
  sat : Bool := false
  deriving DecidableEq, Repr, Inhabited

/-- The greatest finite magnitude's code (08 R251). -/
def satCode (f : Fmt) : Nat :=
  match f.kind with
  | .ieee => (2 ^ f.eb - 1) * 2 ^ f.mb - 1
  | .e4m3 => 2 ^ (f.eb + f.mb) - 2
  | _ => 2 ^ (f.eb + f.mb) - 1

/-- Decodes an element before any MX scaling (08 R251 to R253). -/
def decodeElem (f : Fmt) (code : Nat) : Elem :=
  if f.kind = .int then
    let v := toSigned f.w code
    { neg := decide (v < 0), m := v.natAbs, e := f.intLsb, sat := code == 2 ^ (f.w - 1) - 1 || code == 2 ^ (f.w - 1) }
  else
    let mag := code % 2 ^ (f.eb + f.mb)
    let ex := mag / 2 ^ f.mb
    let man := mag % 2 ^ f.mb
    let top := ex == 2 ^ f.eb - 1
    { nan := (f.kind == .ieee && top && man != 0) || (f.kind == .e4m3 && mag == 2 ^ (f.eb + f.mb) - 1)
      inf := f.kind == .ieee && top && man == 0
      neg := bit (f.w - 1) code
      m := if ex = 0 then man else 2 ^ f.mb + man
      e := (max ex 1 : Nat) - (f.bias : Int) - f.mb
      sub := ex == 0 && man != 0
      sat := mag == satCode f }

/-- An MX element's value takes its block's scale; a scale of 0xFF makes it NaN (08 R252). -/
def scaleElem (scale : Nat) (x : Elem) : Elem :=
  if scale = 0xFF then { nan := true } else { x with e := x.e + scale - 127 }

/-! Accumulating -/

def inc48 (b : Bool) (n : Nat) : Nat := if b then satAdd 48 n 1 else n

/-- The element as a binary32 encoding (08 R254). -/
def elem32 (x : Elem) : Nat :=
  if x.inf then b2n x.neg * 2 ^ 31 + 0x7F800000 else encodeFloat 8 23 x.neg x.m x.e

/-- The bin of the exponent histogram (08 R257). -/
def expBin (histBase : Int) (x : Elem) : Nat :=
  if x.nan || x.inf then 63
  else if x.m = 0 then 0
  else (max 1 (min 62 ((Nat.log2 x.m : Int) + x.e - histBase + 1))).toNat

/-- Adds 1 to a 32-bit bin that saturates. -/
def bump (m : Map Nat) (i : Nat) : Map Nat := mmod 0 m i (fun v => satAdd 32 v 1)

/-- What is added to the 96-bit accumulator: the value truncated towards zero to a multiple of 2^lsb, and whether that
changed it (08 R255). -/
def fixedAdd (lsb : Int) (x : Elem) : Int × Bool :=
  let d := x.e - lsb
  let v := if 0 ≤ d then x.m * 2 ^ d.toNat else x.m / 2 ^ (-d).toNat
  ((if x.neg then -(v : Int) else v), decide (d < 0) && x.m % 2 ^ (-d).toNat != 0)

/-- Sums of an element (08 R255, R256). -/
def addSums (fmt : Nat) (lsb : Int) (x : Elem) (a : Acc) : Acc :=
  if x.nan || x.inf then a
  else
    let a := { a with sumSq := addExact64 a.sumSq (false, x.m * x.m, 2 * x.e) }
    if f64Sum fmt then { a with sumF64 := addExact64 a.sumF64 (x.neg, x.m, x.e) }
    else
      let r := fixedAdd lsb x
      let v := toSigned 96 a.sumFix + r.1
      { a with
        sumFix := ofSigned 96 v
        ovf := a.ovf || decide (v < -(2 ^ 95)) || decide (2 ^ 95 ≤ v)
        inexact := inc48 r.2 a.inexact }

/-- Extremes of an element; of equal values the first stays (08 R254). -/
def addExtremes (x : Elem) (a : Acc) : Acc :=
  if x.nan then a
  else
    let v := elem32 x
    let m := v % 2 ^ 31
    { a with
      max := if f32Less a.max v then v else a.max
      min := if f32Less v a.min then v else a.min
      absmax := if f32Less a.absmax m then m else a.absmax }

/-- One classified element: its classes, extremes, sums, histogram and fingerprint (08 R253 to R259). `g` is its global
index and `b` its encoding. -/
def addElem (fmt : Nat) (histBase lsb : Int) (g b : Nat) (x : Elem) (a : Acc) : Acc :=
  let fin := !x.nan && !x.inf
  addSums fmt lsb x (addExtremes x { a with
    elements := inc48 true a.elements
    nan := inc48 x.nan a.nan
    pinf := inc48 (!x.nan && x.inf && !x.neg) a.pinf
    ninf := inc48 (!x.nan && x.inf && x.neg) a.ninf
    zero := inc48 (fin && x.m == 0) a.zero
    subnormal := inc48 (fin && x.sub && !x.sat) a.subnormal
    saturated := inc48 (fin && x.sat) a.saturated
    expBins := bump a.expBins (expBin histBase x)
    fingerprint := (a.fingerprint + (mix (BitVec.ofNat 64 g) (BitVec.ofNat 64 b)).toNat) % 2 ^ 64 })

/-- A dip slot's settings, read from the active bank (08 R273). -/
structure DipCfg where
  en : Bool := false
  fmt : Nat := 0
  histBase : Int := 0
  sumExp : Int := 0
  foldSel : Nat := 0
  tensor : Nat := 0
  step0 : Nat := 0
  step1 : Nat := 0
  off : Nat := 0
  len : Nat := 0
  rowlen : Nat := 1
  foldBase : Nat := 0
  base : Nat := 0
  stride : Nat := 0
  tokstride : Nat := 0
  deriving DecidableEq, Repr, Inhabited

def dipCfg (c : Core) (n : Nat) : DipCfg :=
  let r := dipReg c n
  { en := bit 0 (r 0)
    fmt := bits 31 28 (r 0)
    histBase := toSigned 9 (bits 27 19 (r 0))
    sumExp := toSigned 9 (bits 18 10 (r 0))
    foldSel := bits 9 4 (r 0)
    tensor := bits 63 32 (r 0)
    step0 := bits 63 32 (r 1)
    step1 := bits 31 0 (r 1)
    off := bits 63 48 (r 2)
    len := bits 47 32 (r 2)
    rowlen := bits 31 8 (r 2)
    foldBase := bits 7 0 (r 2)
    base := r 3
    stride := r 4
    tokstride := r 5 }

/-- The global index of local element n (08 R247). -/
def globalIndex (d : DipCfg) (tok : Option (Nat × Nat)) (n : Nat) : Nat :=
  (d.base + (tok.map (·.1)).getD 0 * d.tokstride + n / d.rowlen * d.stride + n % d.rowlen) % 2 ^ 48

/-- The line enables `n` bytes from byte `i`. -/
def enabled (l : SnoopLine) (i n : Nat) : Bool := (List.range n).all (fun k => l.be.getLsbD (i + k))

/-- `w` bits of the line from bit `i`. -/
def lineBits (l : SnoopLine) (i w : Nat) : Nat := l.data.toNat / 2 ^ i % 2 ^ w

def dipLsb (d : DipCfg) : Int := if isMx d.fmt then d.sumExp else fmtLsb (fmtOf d.fmt)

/-- The elements of a line in a format that is not MX, in ascending order (08 R247, R249). -/
def plainLine (d : DipCfg) (tok : Option (Nat × Nat)) (l : SnoopLine) (a : Acc) : Acc :=
  let f := fmtOf d.fmt
  let n0 := (64 * l.line - d.off) * 8 / f.w
  (List.range (512 / f.w)).foldl (fun a k =>
    let b0 := k * f.w / 8
    let b1 := (k * f.w + f.w - 1) / 8
    if d.off + d.len ≤ 64 * l.line + b1 then a
    else if !enabled l b0 (b1 + 1 - b0) then { a with skipped := inc48 true a.skipped }
    else
      let code := lineBits l (k * f.w) f.w
      addElem d.fmt d.histBase (dipLsb d) (globalIndex d tok (n0 + k)) code (decodeElem f code) a) a

/-- The headroom bin of a block (08 R258). -/
def headBin (f : Fmt) (xs : List Elem) : Nat :=
  match (xs.filter (fun x => !x.nan && !x.inf && x.m != 0)).map (fun x => (Nat.log2 x.m : Int) + x.e) |>.max? with
  | none => 15
  | some e => (max 0 (min 14 (f.emax - e))).toNat

/-- One MX block: 32 elements of a block slot, with its scale (08 R248, R249, R258). An element of a block that is not
whole or has no scale is skipped (log 19). -/
def mxBlock (d : DipCfg) (q : Desc) (l : SnoopLine) (k : Nat) (a : Acc) : Acc :=
  let f := fmtOf d.fmt
  let at0 := 64 * l.line + k * f.slot
  if d.off + d.len < at0 + f.slot then a
  else if !bit k q.svalid || !enabled l (k * f.slot) (32 * f.w / 8) then
    { a with skipped := satAdd 48 a.skipped 32 }
  else
    let scale := q.scales.getD k 0
    let codes := (List.range 32).map (fun j => lineBits l (8 * k * f.slot + j * f.w) f.w)
    let xs := codes.map (decodeElem f)
    let n0 := ((at0 - d.off) / f.slot) * 32
    let a := (List.range 32).foldl (fun a j =>
      addElem d.fmt d.histBase (dipLsb d) (globalIndex d q.tok (n0 + j)) (codes.getD j 0 + scale * 256)
        (scaleElem scale (xs.getD j {})) a) a
    { a with
      blocks := inc48 true a.blocks
      satBlocks := inc48 (scale != 0xFF && xs.any (fun x => x.sat && !x.nan)) a.satBlocks
      headBins := if scale = 0xFF then a.headBins else bump a.headBins (headBin f xs) }

/-- Classifies a line that matched descriptor `q` (08 R249). -/
def classifyLine (d : DipCfg) (q : Desc) (l : SnoopLine) (a : Acc) : Acc :=
  if isMx d.fmt then (List.range (64 / (fmtOf d.fmt).slot)).foldl (fun a k => mxBlock d q l k a) a
  else plainLine d q.tok l a

/-- The line lies in a slice, in part at least (08 R247; 09 R283). -/
def lineInSlice (off len : Nat) (l : SnoopLine) : Bool := decide (off ≤ 64 * l.line) && decide (64 * l.line < off + len)

/-- Bytes that hold a whole unit of classification: a block slot of an MX format, else one element, or the byte of two (08 R247,
R248). -/
def unitBytes (fmt : Nat) : Nat := if isMx fmt then (fmtOf fmt).slot else max 1 ((fmtOf fmt).w / 8)

/-- Some element of the line lies inside the slice (08 R249, R250). -/
def lineHasElem (d : DipCfg) (l : SnoopLine) : Bool :=
  decide (d.off ≤ 64 * l.line) && decide (64 * l.line + unitBytes d.fmt ≤ d.off + d.len)

/-- The slot watches the descriptor's writes (08 R249, R270). -/
def dipWants (d : DipCfg) (x : DipSlot) (q : Desc) (l : SnoopLine) : Bool :=
  d.en && d.tensor == q.tensor && decide (d.step0 ≤ q.step) && decide (q.step ≤ d.step1) && decide (x.minStep ≤ q.step) &&
  lineHasElem d l

/-! Contributions -/

/-- The elements of group g of a closed accumulation (08 R260). -/
def accGroup (fmt g : Nat) (a : Acc) : List Nat :=
  match g with
  | 0 => [a.elements, a.nan, a.pinf, a.ninf, a.zero, a.subnormal, a.saturated, a.inexact, a.skipped, a.blocks, a.satBlocks,
          a.fingerprint, a.unmatched, b2n a.disturbed, b2n a.ovf]
  | 1 => [if f64Sum fmt then a.sumF64 else a.sumFix]
  | 2 => [a.sumSq]
  | 3 => [a.max, a.min ^^^ 0x80000000, a.absmax]
  | 4 => (List.range 64).map (mget 0 a.expBins)
  | _ => (List.range 16).map (mget 0 a.headBins)

/-- A slot sends an accumulation's contributions for its step (08 R250). -/
def sendAcc (t : Nat) (d : DipCfg) (a : Acc) (s : State) : State :=
  ((List.range 6).filter (fun g => bit g d.foldSel)).foldl (fun s g =>
    contribute t (d.foldBase + g) (a.step % 65536) { count := 1, data := accGroup d.fmt g a } s) s

def onDipSlot (t n : Nat) (f : DipSlot → DipSlot) (s : State) : State :=
  onCore t (fun c => { c with dip := { c.dip with slots := mmod {} c.dip.slots n f } }) s

def dipSlotOf (s : State) (t n : Nat) : DipSlot := mget {} (tileOf s t).core.dip.slots n

/-- An accumulation closes: it goes into LAST and contributes (08 R250, R270). -/
def closeAcc (t n : Nat) (disturbed : Bool) (a : Acc) (s : State) : State :=
  let a := { a with closed := true, disturbed := a.disturbed || disturbed }
  sendAcc t (dipCfg (tileOf s t).core n) a (onDipSlot t n (fun x => { x with last := a }) s)

/-- One of a slot's two open accumulations. -/
def accOf (older : Bool) (x : DipSlot) : Option Acc := if older then x.older else x.cur

/-- Closes one of a slot's open accumulations; the other stays (08 R250). -/
def closeOne (t n : Nat) (older disturbed : Bool) (s : State) : State :=
  match accOf older (dipSlotOf s t n) with
  | none => s
  | some a => closeAcc t n disturbed a (onDipSlot t n (fun x =>
      if older then { x with older := none } else { x with cur := none }) s)

/-- Closes every open accumulation of a tile, the older ones first (08 R270). -/
def closeAllAccs (t : Nat) (s : State) : State :=
  (List.range 4).foldl (fun s n => closeOne t n false true (closeOne t n true true s)) s

/-- Opens a step's accumulation, unless it is open; a third one closes the oldest at once (08 R250). -/
def openAcc (t n step : Nat) (s : State) : State :=
  let x := dipSlotOf s t n
  let has := fun (a : Option Acc) => a.any (fun a => a.step == step)
  if has x.cur || has x.older then s
  else
    let s := if x.cur.isSome then closeOne t n true false s else s
    onDipSlot t n (fun x => { x with
      older := if x.cur.isSome then x.cur else x.older
      cur := some { valid := true, step := step } }) s

/-! DIP comparators (05 R167) -/

/-- Comparator n's condition holds in an accumulation of its slot and has not matched in it before. -/
def dipTest (c : Core) (slot n : Nat) (a : Acc) : Bool :=
  let r := cmpReg c n 1
  let th := bits 31 0 (cmpReg c n 2)
  bits 1 0 r == slot &&
  (match bits 3 2 r with
   | 0 => a.nan != 0 && !a.matchedNan
   | 1 => !floatNan 8 23 th && f32Less th a.absmax && !a.matchedAbs.getLsbD n
   | _ => decide (th < a.saturated) && !a.matchedSat.getLsbD n)

/-- Notes the conditions that have matched in an accumulation. -/
def noteMatches (c : Core) (slot : Nat) (a : Acc) : Acc :=
  (List.range 4).foldl (fun b n =>
    if bits 3 0 (cmpReg c n 0) = 4 && dipTest c slot n a then
      match bits 3 2 (cmpReg c n 1) with
      | 0 => { b with matchedNan := true }
      | 1 => { b with matchedAbs := b.matchedAbs ||| (1 <<< n) }
      | _ => { b with matchedSat := b.matchedSat ||| (1 <<< n) }
    else b) a

/-- Slot n classifies a matched line into the accumulation of the descriptor's step; then the DIP comparators see it (08
R249, R269; 05 R167). -/
def dipLine (t n : Nat) (q : Desc) (l : SnoopLine) (s : State) : State :=
  let c := (tileOf s t).core
  let d := dipCfg c n
  if !dipWants d (dipSlotOf s t n) q l then s
  else
    let s := openAcc t n q.step s
    let f := fun (a : Acc) => classifyLine d q l a
    let put := fun (a : Option Acc) => a.map (fun a => if a.step = q.step then noteMatches c n (f a) else a)
    let x := dipSlotOf s t n
    let b := (([x.cur, x.older].filterMap id).find? (fun a => a.step == q.step)).map f
    let s := onDipSlot t n (fun x => { x with cur := put x.cur, older := put x.older }) s
    match b with
    | none => s
    | some b => cmpEvent t 4 (fun k => dipTest c n k b) s

/-- Counts a discarded line in every open accumulation of a tile (08 R267). -/
def countUnmatched (c : Core) : Core :=
  let g := fun (a : Option Acc) => a.map (fun a => { a with unmatched := inc48 true a.unmatched })
  { c with dip := { c.dip with slots := mapAll {} (fun _ x => { x with cur := g x.cur, older := g x.older }) c.dip.slots } }

/-- The steps closed from `lo` to `hi` in which a slot wrote nothing: each contributes as empty (08 R250). -/
def sendEmpty (t n lo hi : Nat) (s : State) : State :=
  let c := (tileOf s t).core
  let d := dipCfg c n
  let x := dipSlotOf s t n
  let held := fun k => x.cur.any (fun a => a.step == k) || x.older.any (fun a => a.step == k) ||
    (x.last.valid && x.last.step == k) || c.dip.descs.any (fun q => q.step == k && q.tensor == d.tensor)
  let a := max lo (max d.step0 x.minStep)
  if !d.en then s
  else ((List.range (min hi d.step1 + 1 - a)).map (fun i => a + i)).foldl (fun s k =>
    if held k then s else sendAcc t d { step := k } s) s

end Sys2Proof.Machine
end

