-- ==== Sys2Proof/Machine/CapOps.lean ====
section
/-! DEFINITION. Capture slots: frames in the watch area, the capture queue, snoop-copy and still-copy (09 R280 to R299). -/

namespace Sys2Proof.Machine

/-- A capture slot's settings, read from the active bank (09 R300). -/
structure CapCfg where
  en : Bool := false
  still : Bool := false
  tokEn : Bool := false
  keepLast : Bool := false
  holdMax : Nat := 0
  entry : Nat := 0
  frames : Nat := 0
  tensor : Nat := 0
  step0 : Nat := 0
  step1 : Nat := 0
  tok0 : Nat := 0
  tok1 : Nat := 0
  off : Nat := 0
  len : Nat := 0
  deriving DecidableEq, Repr, Inhabited

def capCfg (c : Core) (n : Nat) : CapCfg :=
  let r := capReg c n
  { en := bit 0 (r 0)
    still := bit 8 (r 0)
    tokEn := bit 9 (r 0)
    keepLast := bit 10 (r 0)
    holdMax := bits 17 11 (r 0)
    entry := bits 23 18 (r 0)
    frames := bits 31 24 (r 0)
    tensor := bits 63 32 (r 0)
    step0 := bits 63 32 (r 1)
    step1 := bits 31 0 (r 1)
    tok0 := bits 63 40 (r 2)
    tok1 := bits 39 16 (r 2)
    off := bits 63 48 (r 3)
    len := bits 47 32 (r 3) }

def capOf (s : State) (t n : Nat) : CapSlot := mget {} (tileOf s t).core.dip.caps n

def onCap (t n : Nat) (f : CapSlot → CapSlot) (s : State) : State :=
  onCore t (fun c => { c with dip := { c.dip with caps := mmod {} c.dip.caps n f } }) s

/-- A slot takes writes of this tensor, step and token range (09 R281, R283). -/
def capWants (d : CapCfg) (x : CapSlot) (tensor step : Nat) (tok : Option (Nat × Nat)) : Bool :=
  d.en && d.tensor == tensor && decide (d.step0 ≤ step) && decide (step ≤ d.step1) && decide (x.minStep ≤ step) &&
  (!d.tokEn || tokMeets tok d.tok0 d.tok1)

/-- Lines of a slice (09 R291). -/
def sliceLines (d : CapCfg) : Nat := (d.len + 63) / 64

/-! Frames in the watch area -/

/-- Changes frame `i` of slot `n` of the member whose role tile `t` holds, in the shim of its field (09 R290, R295). -/
def onFrame (t n i : Nat) (f : Frame → Frame) (s : State) : State :=
  match ltnOf s t with
  | none => s
  | some l => onShim (fieldOf t) (fun q => { q with
      frames := q.frames.map (fun x => if x.slot == n && x.tile == l && x.index == i then f x else x) }) s

/-- A line's enabled bytes inside the slice, by place in it. -/
def lineCells (d : CapCfg) (l : SnoopLine) : List (Nat × Byte) :=
  (List.range 64).filterMap (fun i =>
    let a := 64 * l.line + i
    if l.be.getLsbD i && d.off ≤ a && a < d.off + d.len then some (a - d.off, l.data.extractLsb' (8 * i) 8) else none)

def storeCells (m : List Host.Cell) (cs : List (Nat × Byte)) : List Host.Cell := cs.foldl (fun m c => mput 0 m c.1 c.2) m

/-- The open frames of a slot, the older one first (09 R284). -/
def openFrames (x : CapSlot) : List OpenFrame := x.older.toList ++ x.open_.toList

/-- Changes the open frames of a slot. -/
def mapOpen (f : OpenFrame → OpenFrame) (x : CapSlot) : CapSlot := { x with open_ := x.open_.map f, older := x.older.map f }

/-- One queued line leaves the agent and lies in its frame (09 R285, R291). -/
def landLine (t : Nat) (p : CapLine) (s : State) : State :=
  let d := capCfg (tileOf s t).core p.slot
  let k := (64 * p.line.line - d.off) / 64
  onCap t p.slot (mapOpen (fun o => if o.frame = p.frame then
      { o with lines := if o.lines.contains k then o.lines else o.lines ++ [k] } else o))
    (onFrame t p.slot p.frame (fun f => { f with data := storeCells f.data (lineCells d p.line) }) s)

/-- The first `k` queued lines leave (09 R285). -/
def drainLines (t k : Nat) (s : State) : State :=
  let q := (tileOf s t).core.dip.capq
  (q.take k).foldl (fun s p => landLine t p s)
    (onCore t (fun c => { c with dip := { c.dip with capq := c.dip.capq.drop k } }) s)

/-- A free number of the queued lines has left since the last capture: the link's idle cycles are not the block's
(09 R285; logs 7 and 20). -/
def drainSome (t : Nat) (s : State) : State :=
  let n := (tileOf s t).core.dip.capq.length
  if n = 0 then s else drainLines t (Config.freeNat s.boot.freeCount t % (n + 1)) (drawFree s)

/-- FLAGS of a frame at its close (09 R292). -/
def closeFlags (d : CapCfg) (o : OpenFrame) (extra : BitVec 16) : BitVec 16 :=
  o.flags ||| extra ||| 1 ||| (if o.lines.length < sliceLines d then 2 else 0) ||| (if o.lost = 0 then 0 else 4)

/-- One of a slot's two open frames. -/
def frameOf (older : Bool) (x : CapSlot) : Option OpenFrame := if older then x.older else x.open_

/-- One of a slot's open frames closes: its last lines leave first, the shim writes the close fields with VALID, and NEXT moves
on (09 R284, R291, R293, R294). -/
def closeOneFrame (t n : Nat) (older : Bool) (extra : BitVec 16) (s : State) : State :=
  let s := drainLines t 64 s
  let d := capCfg (tileOf s t).core n
  let x := capOf s t n
  match frameOf older x with
  | none => s
  | some o =>
    let s := onFrame t n o.frame (fun f => { f with
      step := o.step
      tok := o.tok
      mapEpoch := (tileOf s t).txn.mapEpoch
      seq := (x.seq + 1) % 2 ^ 32
      closeTs := ts40 (stubNow s t)
      flags := closeFlags d o extra
      lost := o.lost
      lineMap := o.lines }) s
    onCap t n (fun x => { x with
      open_ := if older then x.open_ else x.older
      older := none
      framesDone := satAdd 16 x.framesDone 1
      taken := x.taken + 1
      seq := (x.seq + 1) % 2 ^ 32
      next := if d.frames = 0 then 0 else (x.next + 1) % d.frames }) s

/-- Every open frame of a slot closes, the older one first. -/
def closeFrame (t n : Nat) (extra : BitVec 16) (s : State) : State :=
  closeOneFrame t n false extra (closeOneFrame t n true extra s)

/-- The slot has no frame left that has not been filled since load or the last WATCH_RESET (09 R294); one that is open is
being filled (log 126). -/
def capFull (d : CapCfg) (x : CapSlot) : Bool := decide (d.frames ≤ x.taken + (openFrames x).length)

/-- What tells one frame of a slot from the next: the step, and the issuing command with TOK_EN or in a STILL slot (09
R284, R286). -/
def frameKey (d : CapCfg) (step cmdSeq : Nat) : Nat × Nat := (step, if d.tokEn || d.still then cmdSeq else 0)

/-- The slot may open a frame (09 R294). -/
def mayOpen (d : CapCfg) (x : CapSlot) : Bool := !capFull d x || d.keepLast

/-- The index of the frame that a slot opens next (09 R300): NEXT, past the frames that are open. -/
def nextFrame (d : CapCfg) (x : CapSlot) : Nat := if d.frames = 0 then 0 else (x.next + (openFrames x).length) % d.frames

/-- Makes room for one more open frame: a third one, or one that takes the place of an open one, closes the oldest at once (08
R250, 09 R284; log 126). -/
def makeFrameRoom (t n : Nat) (s : State) : State :=
  let x := capOf s t n
  let i := nextFrame (capCfg (tileOf s t).core n) x
  if x.older.isSome then closeOneFrame t n true 0 s
  else if x.open_.any (fun o => o.frame == i) then closeOneFrame t n false 0 s
  else s

/-- Opens the slot's next frame; under KEEP_FIRST a full slot takes none and counts the frame once (09 R293, R294;
logs 21 and 126). -/
def openFrame (t n step cmdSeq : Nat) (tok : Option (Nat × Nat)) (s : State) : State :=
  let d := capCfg (tileOf s t).core n
  let x := capOf s t n
  if !mayOpen d x then
    if x.skipKey = some (frameKey d step cmdSeq) then s
    else onCap t n (fun x => { x with fullSkips := satAdd 16 x.fullSkips 1, skipKey := some (frameKey d step cmdSeq) }) s
  else
    let i := nextFrame d x
    let o : OpenFrame := { frame := i, step := step, tok := tok, cmdSeq := cmdSeq, flags := if capFull d x then 32 else 0 }
    onCap t n (fun x => { x with older := x.open_, open_ := some o })
      (onFrame t n i (fun f => { f with flags := 0, data := [] }) (makeFrameRoom t n s))

/-! Snoop-copy -/

/-- A captured line enters the queue for a frame, or is lost when that is full (09 R285). -/
def queueLine (t n frame : Nat) (l : SnoopLine) (s : State) : State :=
  if (tileOf s t).core.dip.capq.length < 64 then
    onCore t (fun c => { c with dip := { c.dip with capq := c.dip.capq ++ [⟨n, frame, l⟩] } }) s
  else onCap t n (fun x =>
    { mapOpen (fun o => if o.frame = frame then { o with lost := satAdd 32 o.lost 1 } else o) x with
      lostLines := satAdd 16 x.lostLines 1 }) s

/-- The open frame that takes a slot's line of this step and command (09 R284). -/
def frameFor (d : CapCfg) (x : CapSlot) (step cmdSeq : Nat) : Option OpenFrame :=
  (openFrames x).find? (fun o => decide (frameKey d o.step o.cmdSeq = frameKey d step cmdSeq))

/-- A SNOOP slot takes a matched line into the frame of its step, or of its command with TOK_EN; a frame of an earlier step or
command stays open until it closes itself (09 R283 to R285). A frame of several commands carries the token range of its first
line's (log 21). -/
def capLine (t n : Nat) (q : Desc) (l : SnoopLine) (s : State) : State :=
  let d := capCfg (tileOf s t).core n
  if d.still || !capWants d (capOf s t n) q.tensor q.step q.tok || !lineInSlice d.off d.len l then s
  else
    let s := drainSome t s
    let s := if (frameFor d (capOf s t n) q.step q.cmdSeq).isSome then s else openFrame t n q.step q.cmdSeq q.tok s
    match frameFor d (capOf s t n) q.step q.cmdSeq with
    | none => s
    | some o => queueLine t n o.frame l s

/-- Every frame open in a tile notes that lines were discarded unmatched (09 R292). -/
def flagUnmatched (c : Core) : Core :=
  { c with dip := { c.dip with caps := mapAll {} (fun _ => mapOpen (fun o => { o with flags := o.flags ||| 64 })) c.dip.caps } }

/-! Still-copy, and the release of a tile -/

/-- The tile once a RELEASE of `scope` has taken effect: with no bit left it drops FRZ, whose acknowledges fall with it, and
runs, stepping if a step released it, and its hang watchdog counts from zero (04 R108, R122, R138, R149; 10 R320). -/
def unfreeze (me scope : Nat) (idle step : Bool) (x : Tile) : Tile :=
  let m : BitVec 16 := if scope = 0 then 0 else x.still.mask &&& ~~~((1 : BitVec 16) <<< scope)
  if m != 0 then { x with still := { x.still with mask := m } }
  else restartHang me { x with
    still := { x.still with
      mask := 0
      frz := false
      frzAck := false
      rfrzAck := false
      idle := idle
      stepRun := if step && x.still.stepK != 0 then 0 else x.still.stepRun
      stepping := step
      state := if !x.power.pwrOk then 5 else if step then 4 else 0 } }

/-- A RELEASE takes effect on a tile, which records it (04 R138, 10 R304). -/
def releaseTile (t : Nat) (r : HeldRelease) (s : State) : State :=
  let s := onTile t (unfreeze (stubNow s t) r.scope r.idle r.step) s
  record t 0x07 ((tileOf s t).still.mask.toNat * 2 ^ 48 + r.scope * 2 ^ 44) s

/-- Once no slot holds the tile, FRZ drops if the still mask is zero, and the RELEASEs that acted during the hold take effect
(09 R287). -/
def settleHold (t : Nat) (s : State) : State :=
  let x := tileOf s t
  if copyHolds x then s
  else
    let s := onTile t (fun x => { x with still := { x.still with
      frz := x.still.frz && x.still.mask != 0
      heldRel := [] } }) s
    x.still.heldRel.foldl (fun s r => releaseTile t r s) s

/-- The line of the tile's SRAM with every byte enabled. -/
def sramLine (x : Tile) (line : Nat) : SnoopLine :=
  { line := line, data := BitVec.ofNat 512 (unle (bytesAt 0 x.engine.sram (64 * line) 64)), be := BitVec.allOnes 64 }

/-- The first `k` lines of a slot's slice are copied into its open frame (09 R286). -/
def copyLines (t n k : Nat) (s : State) : State :=
  let d := capCfg (tileOf s t).core n
  match (capOf s t n).open_ with
  | none => s
  | some o => ((List.range (min k (sliceLines d))).map (fun i => sramLine (tileOf s t) (d.off / 64 + i))).foldl
      (fun s l => landLine t ⟨n, o.frame, l⟩ s) s

/-- A STILL slot acts at the end of this command (09 R286): the symbol record names the command that writes the tensor. -/
def stillCopies (s : State) (t n : Nat) (cmd : Command) : Bool :=
  let d := capCfg (tileOf s t).core n
  d.still && capWants d (capOf s t n) d.tensor cmd.step cmd.tok &&
  s.plans.symbols.any (fun r => r.tensor == d.tensor && r.wlayer == cmd.layer && r.woper == cmd.oper)

/-- At the last cycle of its command a STILL slot opens a frame and holds the tile, unless it is full under KEEP_FIRST (09
R286, R294). -/
def holdSlot (t n : Nat) (cmd : Command) (s : State) : State :=
  if !stillCopies s t n cmd then s
  else
    let room := mayOpen (capCfg (tileOf s t).core n) (capOf s t n)
    let s := openFrame t n cmd.step (tileOf s t).core.cmdSeq cmd.tok s
    if !room then s
    else onTile t (fun x => { x with still := { x.still with frz := true } })
      (onCap t n (fun x => { x with holding := true, holdFrom := now s }) s)

/-- A hold ends (09 R287). -/
def endHold (t n : Nat) (s : State) : State := settleHold t (onCap t n (fun x => { x with holding := false }) s)

/-- A hold's frame closes complete, or BROKEN after a free number of its lines (09 R287, R288; log 7). -/
def finishHold (t n : Nat) (acked : Bool) (extra : BitVec 16) (s : State) : State :=
  if !(capOf s t n).holding then s
  else
    let m := sliceLines (capCfg (tileOf s t).core n)
    let k := if acked then m else Config.freeNat s.boot.freeCount n % (m + 1)
    let s := if acked then s else drawFree s
    endHold t n (closeFrame t n (if acked then extra else extra ||| 4) (copyLines t n k s))

/-- Ends every hold on the tile; what it has not copied is missing, and the frame is BROKEN (09 R288, R293). -/
def breakHolds (t : Nat) (extra : BitVec 16) (s : State) : State := (List.range 4).foldl (fun s n => finishHold t n false extra s) s

/-- A press with SRAM or ROUTE items ends every hold on the tile (09 R288). -/
def pressHolds (t : Nat) (s : State) : State := breakHolds t 128 s

/-- A copy that needs the tile's copy port waits for every hold to end; whether the shim's acknowledgement or HOLD_MAX ends one
is not the block's to say (09 R287, R288; log 7). -/
def awaitHolds (t : Nat) (s : State) : State :=
  (List.range 4).foldl (fun s n =>
    if (capOf s t n).holding then finishHold t n (Config.freeNat s.boot.freeCount n % 2 == 0) 0 (drawFree s) else s) s

/-- Closes every open frame of a tile with a flag; a hold's is BROKEN (09 R293, R299). -/
def closeFrames (t : Nat) (extra : BitVec 16) (s : State) : State :=
  (List.range 4).foldl (fun s n => closeFrame t n extra s) (breakHolds t extra s)

end Sys2Proof.Machine
end

