-- ==== Sys2Proof/Machine/CountOps.lean ====
section
/-! DEFINITION. Cycle counters, per-command banks, deviations, delta tables and step closes of an agent core (07 R212 to
R223). -/

namespace Sys2Proof.Machine

def onCount (f : CoreCount → CoreCount) (x : Tile) : Tile := { x with core := { x.core with count := f x.core.count } }

/-- The class of an engine's cycle: 0 busy, 1 idle, 2 stalled (07 R212). In every FRZ cycle it is stalled. -/
def cycleClass (r : CycleRun) (e : EngineCycle) : Nat :=
  if r.frz then 2 else if !e.holds then 1 else if e.works then 0 else 2

/-- The reason of a stalled cycle: the first of the table that applies: 0 still, 1 throttled, 2 context switch, 3 SRAM bank
conflict, 4 output blocked, 5 input starved (07 R212). -/
def stallReason (r : CycleRun) (e : EngineCycle) : Nat :=
  if r.frz then 0 else if r.gate then 1 else if r.ctx then 2 else if e.conflict then 3 else if e.blocked then 4 else 5

/-- An engine's cycle counts under counter `k` of its nine: busy, idle, stalled, then the six reasons (07 R214). -/
def countsUnder (r : CycleRun) (e : EngineCycle) (k : Nat) : Bool :=
  if k < 3 then cycleClass r e == k else cycleClass r e == 2 && stallReason r e + 3 == k

/-- Cycles of a report under index i of AG_CNT (07 R214). -/
def cyc (c : Cycles) (i : Nat) : Nat :=
  (c.runs.map (fun r => if countsUnder r (r.engines.getD (i / 9) {}) (i % 9) then r.n else 0)).sum

/-- TCLK cycles of a report, and those with FRZ high. -/
def cycTotal (c : Cycles) : Nat := (c.runs.map (·.n)).sum
def cycStill (c : Cycles) : Nat := ((c.runs.filter (·.frz)).map (·.n)).sum

/-- Some engine counted a cycle of the run under one of some reasons. -/
def runCounted (r : CycleRun) (ks : List Nat) : Bool :=
  r.n != 0 && (List.range 4).any (fun e => ks.any (countsUnder r (r.engines.getD e {})))

/-- The tile counted a throttled cycle (07 R217). -/
def sawThrottle (c : Cycles) : Bool := c.runs.any (fun r => runCounted r [4])

/-- An engine counted output blocked or input starved while THR_ANY was high: `any` says that it has been since the last report
(07 R217; log 137). -/
def sawWait (any : Bool) (c : Cycles) : Bool := any && c.runs.any (fun r => r.thrAny && runCounted r [7, 8])

/-- Adds a report to the cycle counters, if they run (07 R214). -/
def addCounters (c : Cycles) (k : CoreCount) : CoreCount :=
  if k.run then
    { k with cnt := (List.range 36).foldl (fun m i => mmod 0 m i (fun v => (v + cyc c i) % 2 ^ 48)) k.cnt }
  else k

/-- Adds a report to the open bank: within the span from a command's first to its last cycle, or as its tail (07 R217). -/
def addBank (c : Cycles) (thr any : Bool) (k : CoreCount) : CoreCount :=
  let b := k.cmdo
  if k.cmdOpen then
    { k with cmdo := { b with
      cyc := satAdd 32 b.cyc (cycTotal c - cycStill c)
      stillCyc := satAdd 32 b.stillCyc (cycStill c)
      abusy := satAdd 32 b.abusy (cyc c 0)
      vbusy := satAdd 32 b.vbusy (cyc c 9)
      mbusy := satAdd 32 b.mbusy (cyc c 18)
      rbusy := satAdd 32 b.rbusy (cyc c 27)
      astall := satAdd 32 b.astall (cyc c 2 - cyc c 3)
      thrSeen := b.thrSeen || sawThrottle c || thr
      waitSeen := b.waitSeen || sawWait any c } }
  else if k.anyCmd then { k with cmdo := { b with tail := satAdd 32 b.tail (cycTotal c) } }
  else k

/-- A report of cycles reaches the counters, the open bank and the stub's light census counters, whose increments the stub
watchdog waits for (07 R214, R217, R228; 12 R369). -/
def addCycles (t : Nat) (c : Cycles) (s : State) : State :=
  onTile t (fun x =>
    let any := s.boot.thrAny || decide (x.core.count.reportAt < s.boot.thrAnyAt)
    let y := restartCwdt (now s) (onCount (fun k => { addBank c x.power.thr any (addCounters c k) with reportAt := now s }) x)
    { y with plan := { y.plan with
      lc := (List.range 3).foldl (fun m i => mmod 0 m (2 + i) (fun v => (v + cyc c i) % 2 ^ 48)) y.plan.lc } }) s

/-- The delta-table entry of a command: the valid key it equals, else entry 15 (07 R220). -/
def deltaIndex (k : CoreCount) (b : CmdBank) : Nat :=
  ((List.range 15).find? (fun e =>
    let w := (mget 0 k.dkey e).toNat
    bit 63 w && bits 47 32 w == b.layer && bits 31 16 w == b.oper)).getD 15

/-- The deviation of a closed bank from its key's plan, if it is one (07 R218). -/
def deviation (k : CoreCount) (b : CmdBank) : Option Int :=
  let e := deltaIndex k b
  let planned := (mget 0 k.dplan e).toNat
  let d : Int := b.cyc - (planned : Int)
  if e < 15 && planned != 0 && decide (bits 15 0 (mget 0 k.dkey e).toNat < d.natAbs) then some d else none

/-- The deviation counts as THROTTLED (07 R218). -/
def devThrottled (b : CmdBank) : Bool := b.thrSeen || b.waitSeen

/-- Adds a closed bank to a delta-table entry (07 R220). -/
def addDelta (b : CmdBank) (dev thr : Bool) (d : DeltaEntry) : DeltaEntry :=
  { cmds := satAdd 32 d.cmds 1
    cyc := satAdd 48 d.cyc b.cyc
    abusy := satAdd 48 d.abusy b.abusy
    astall := satAdd 48 d.astall b.astall
    devThr := satAdd 16 d.devThr (b2n (dev && thr))
    devUnx := satAdd 16 d.devUnx (b2n (dev && !thr)) }

/-- A number held within 32 bits signed (10 R304). -/
def sat32 (d : Int) : Int := max (-(2 ^ 31)) (min (2 ^ 31 - 1) d)

/-- The open bank closes: its deviation is recorded once per key and step, and the delta table takes it (07 R218, R220). -/
def closeBank (t : Nat) (s : State) : State :=
  let k := (tileOf s t).core.count
  let b := k.cmdo
  let e := deltaIndex k b
  let d := deviation k b
  let s := match d with
    | some v => if k.devSeen.contains e then s
        else record t 0x0F (e * 2 ^ 60 + b2n (!devThrottled b) * 2 ^ 59 + ofSigned 32 (sat32 v)) s
    | none => s
  onTile t (onCount (fun k => { k with
    cmdl := b
    dtab := mmod {} k.dtab e (addDelta b d.isSome (devThrottled b))
    devSeen := if d.isSome && !k.devSeen.contains e then k.devSeen ++ [e] else k.devSeen })) s

/-- The sum of two delta-table entries. -/
def mergeDelta (a b : DeltaEntry) : DeltaEntry :=
  { cmds := satAdd 32 a.cmds b.cmds
    cyc := satAdd 48 a.cyc b.cyc
    abusy := satAdd 48 a.abusy b.abusy
    astall := satAdd 48 a.astall b.astall
    devThr := satAdd 16 a.devThr b.devThr
    devUnx := satAdd 16 a.devUnx b.devUnx }

/-- The current table becomes the closed one, or joins one that has not been folded (07 R221). -/
def closeTable (k : CoreCount) : CoreCount :=
  { k with
    dcls := if k.folded then k.dtab else mapBelow {} 16 (fun i d => mergeDelta (mget {} k.dcls i) d) k.dtab
    dtab := []
    tabStep := k.cmdo.step
    folded := false
    partialStep := false
    devSeen := [] }

/-- A command with a larger step number starts: the tile closes its step (07 R221). Every dip slot contributes for the
steps in which it wrote nothing (08 R250). -/
def closeTileStep (t step : Nat) (s : State) : State :=
  let old := (tileOf s t).core.count.curStep
  let s := onTile t (fun x =>
    let y := onCount closeTable x
    { y with plan := { y.plan with
      closedStep := step - 1
      overrun := y.plan.overrun || !x.core.count.folded } }) s
  (List.range 4).foldl (fun s n => sendEmpty t n old (step - 1) s) s

/-- The elements a closed table contributes to a step fold (07 R222). -/
def stepGroup (x : Tile) (id : Nat) : List Nat :=
  let d := fun e => mget {} x.core.count.dcls e
  match id with
  | 0xFC => (List.range 64).map (fun j =>
      let r := d (j / 4)
      match j % 4 with
      | 0 => r.cmds
      | 1 => r.cyc
      | 2 => r.abusy
      | _ => r.astall)
  | 0xFB => (List.range 32).map (fun j => if j % 2 = 0 then (d (j / 2)).devThr else (d (j / 2)).devUnx) ++ [1, b2n x.plan.overrun]
  | _ => (List.range 16).map (fun j => (d j).cyc)

/-- A core takes a write of AG_DCTL.FOLD_STEP: it contributes its closed table if that is of the step, else the identity,
and marks its table folded; a dark core's stub contributes for it (07 R223, 02 R76). -/
def foldStepTile (step t : Nat) (s : State) : State :=
  let x := tileOf s t
  let up := coreUp x
  let k := x.core.count
  let p := fun (i : FoldInfo) =>
    if up && k.tabStep == step && k.anyCmd && x.plan.closedStep != 4294967295 then { count := 1, data := stepGroup x i.id }
    else { identityPartial i (!up) with count := b2n up }
  let s := (optList s.plans.cnt cntFolds).foldl (fun s i => contribute t i.id (step % 65536) (p i) s) s
  if up then onTile t (onCount (fun k => { k with foldStep := step, folded := true })) s else s

/-- The centre folds a step over the counter plan's tile set (07 R223). -/
def foldStepAll (step : Nat) (s : State) : State :=
  match s.plans.cnt with
  | none => s
  | some p =>
    let ts := (ltnMembers s p.set).filter (fun t => (tileOf s t).power.answers)
    ts.foldl (fun s t => foldStepTile step t s) (onFolds (fun f => { f with stepFolded := f.stepFolded ++ [step] }) s)

end Sys2Proof.Machine
end

