-- ==== Sys2Proof/Machine/Folds.lean ====
section
/-! DEFINITION. Fold plans, and how contributions travel to the centre and become stored results (02 R63 to R73; 07 R222,
R223, R230, R235; 08 R261, R263). -/

namespace Sys2Proof.Machine

/-! Plan ownership -/

/-- Only the intrusive session replaces a plan that an intrusive session owns (05 R179). -/
def ownedByOther (h : ReqHdr) (owner : Option Nat) (intrusive : Bool) : Bool :=
  match owner with
  | none => false
  | some o => intrusive && o != h.session

/-- A plan entry's tile set breaks 02 R55 or holds no tile that a plan reaches (00 R16, 01 R19). -/
def planSetBad (s : State) (d : TileSet) : Bool := setBad d || (ltnMembers s d).isEmpty

/-! Loading a fold plan -/

/-- The pairs of operation and element type, and the largest vector of each (02 R63). -/
def foldVlen (op ty : Nat) : Nat :=
  match op, ty with
  | 0, 0 => 64
  | 0, 1 => 32
  | 0, 2 => 4
  | 1, 0 => 64
  | 1, 1 => 32
  | 1, 2 => 64
  | 1, 3 => 128
  | 2, 0 => 64
  | 2, 1 => 32
  | 2, 2 => 64
  | 2, 3 => 128
  | 3, 0 => 64
  | 4, 4 => 64
  | _, _ => 0

/-- Bytes that an element takes among the contributed registers: an H48 bin is a 32-bit count (02 R64; log 22). -/
def srcBytes (ty : Nat) : Nat :=
  match ty with
  | 1 => 16
  | 3 => 4
  | 4 => 4
  | _ => 8

/-- The contributed registers exist from SRC on (13 R434). -/
def srcBad (s : State) (e : FoldEntry) : Bool :=
  e.src % 8 != 0 || (regBytes (agentReg s 0) e.src (srcBytes e.ty * e.vlen)).isNone

/-- SRC names registers of a unit that SK-S has not (00 R2). -/
def srcAbsent (s : State) (e : FoldEntry) : Bool := (touched e.src (srcBytes e.ty * e.vlen)).any (agentAbsent s)

def foldEntryBad (s : State) (e : FoldEntry) : Bool :=
  planSetBad s e.set || decide (0xF8 ≤ e.foldId) || e.vlen == 0 || decide (foldVlen e.op e.ty < e.vlen) ||
  (e.loc && (e.vlen != 1 || !(e.op == 1 || e.op == 2))) || e.interval == 0 || decide (1000000 < e.interval) ||
  decide (e.epochTmo < 10) || decide (10000 < e.epochTmo) || srcBad s e

/-- The identifier is used by an earlier entry (log 22), or by a dip entry of the watch plan (08 R271). -/
def foldIdTaken (s : State) (es : List FoldEntry) (i : Nat) : Bool :=
  let id := (es.getD i {}).foldId
  ((es.take i).any (fun e => e.foldId == id)) ||
  (optList s.plans.watch (fun p => (dipEntries p.entries).flatMap dipFolds)).any (fun f => f.id == id)

/-- The checks of a fold plan (02 R72; 05 R179; 07 R222; 08 R271; 00 R14). -/
def foldChecks (es : List FoldEntry) (h : ReqHdr) (s : State) : List Check :=
  let base := optList s.plans.watch (fun p => (dipEntries p.entries).flatMap dipFolds) ++ centreFolds s s.plans.cnt
  let bad := (List.range es.length).map (fun i => badEntry .malformed (foldEntryBad s (es.getD i {})) i)
  let shape := (pick bad).isSome
  bad ++
  (List.range es.length).map (fun i => badEntry .absent (srcAbsent s (es.getD i {})) i) ++
  [denied (match s.plans.fold with
    | none => false
    | some p => ownedByOther h p.owner (p.intrusiveOwner && !isIntrusive s h.session))] ++
  (List.range es.length).map (fun i => badEntry .refused (foldIdTaken s es i) i) ++
  (if shape then [] else [limitCheck s base (es.map (fun e => [ofEntry e]))]) ++
  [emptyIf es.isEmpty]

/-- Installs a fold plan in place of the old one. -/
def installFolds (id : Nat) (es : List FoldEntry) (h : ReqHdr) (s : State) : State :=
  let old := optList s.plans.fold (fun p => p.entries.map (·.foldId))
  let s := dropFolds (old ++ es.map (·.foldId)) s
  respond h .ok [] (markLoaded 0 <| onPlans (fun p => { p with
    fold := some { id := id, entries := es, owner := some h.session, intrusiveOwner := isIntrusive s h.session } }) s)

/-- FOLD_LOAD. -/
def execFoldLoad (h : ReqHdr) (id : Nat) (entries : List FoldEntry) (s : State) : Host.Outcome State Fault Refusal :=
  request { op := 0x42, classC := true } h (foldChecks entries) (installFolds id entries) s

/-! Reading results -/

/-- An element in its container (02 R63). -/
def elemCell (ty v : Nat) : List Byte := le (elemBytes ty) v

/-- A stored result as FOLD_READ returns it (13 R428). -/
def resultBytes (r : FoldResult) : List Byte :=
  let d := r.data.flatMap (elemCell r.ty)
  le 1 r.foldId ++ le 1 (b2n r.ovf + 2 * b2n r.darkSeen + 4 * b2n r.incomplete) ++ le 2 r.epoch ++ le 4 r.count ++
    le 1 r.missCount ++ le 1 r.missMask ++ zeros 2 ++
    le 4 (if r.missAt < numTiles then coord r.missAt else r.missAt) ++ le 8 r.stored ++
    le 4 (match r.loc with
      | some t => coord t
      | none => 4294967295) ++ le 4 d.length ++ d

/-- FOLD_READ. -/
def execFoldRead (h : ReqHdr) (foldId count : Nat) (s : State) : Host.Outcome State Fault Refusal :=
  request { op := 0x43, classC := false } h (fun _ _ => [badField (count == 0 || decide (16 < count)) 1])
    (okWith (fun s => (lastN count (s.folds.results.filter (fun r => r.foldId == foldId))).flatMap resultBytes)) s

/-! Contributions -/

/-- What a tile contributes to a fold of the plan: the registers from SRC on (13 R434). -/
def srcData (s : State) (t : Nat) (e : FoldEntry) : List Nat :=
  let w := srcBytes e.ty
  let bs := (regBytes (agentReg s t) e.src (w * e.vlen)).getD []
  (List.range e.vlen).map (fun i => unle ((bs.drop (w * i)).take w) % 2 ^ (if e.ty = 1 then 96 else 64))

def planContribution (s : State) (t : Nat) (i : FoldInfo) (e : FoldEntry) : FoldPartial :=
  { count := 1, loc := if i.loc then some t else none, data := srcData s t e }

/-- FOLD_CONTRIB: a member's contribution for an epoch; a dark stub sends the identity instead, but for the folds of the
light census (02 R72, R76; 07 R222; log 107). -/
def execFoldContrib (tile foldId epoch : Nat) (s : State) : Host.Outcome State Fault Refusal :=
  .next (match foldInfo s foldId with
    | none => s
    | some i =>
      if !inService s || !foldMember s i tile || i.all then s
      else if coreDark (tileOf s tile) then contribute tile foldId (epoch % 65536) (identityPartial i true) s
      else
        match (optList s.plans.fold (fun p => p.entries)).find? (fun e => e.foldId == foldId) with
        | none => s
        | some e => contribute tile foldId (epoch % 65536) (planContribution s tile i e) s)

/-- The first entry that equals `u` leaves the list. -/
def takeUpward (u : Upward) (s : State) : State := onFolds (fun f => { f with upward := f.upward.erase u }) s

/-- A contribution from child `c` reaches a node: with one contributing child the node forwards it unchanged, else a slot
takes it (02 R67, R68). One from a child that the slot does not expect has no effect and is not counted (DESIGN CHOICE, log
123). -/
def nodeArrive (i : FoldInfo) (n : Node) (c e : Nat) (p : FoldPartial) (s : State) : State :=
  let ex := expectedOf s i n
  if !ex.contains c then s
  else if ex.length == 1 && n != .centre then sendUp n i.id e p s
  else slotArrive i c e p (slotFor s i n e) s

/-- FOLD_ARRIVAL: while a slot of the node holds the child's contribution for the next epoch, the child's VC1 link is held and the
packet waits (02 R68). One with a bad CRC is dropped and counted (R49). -/
def execFoldArrival (node : Node) (child foldId epoch : Nat) (p : FoldPartial × Bool) (s : State) :
    Host.Outcome State Fault Refusal :=
  .next (when (inService s && !linkHeld s node child) (fun s =>
    let s := takeUpward ⟨node, child, foldId, epoch, p.1⟩ s
    if !p.2 then badWhole node child 4 s
    else
      match foldInfo s foldId with
      | none => s
      | some i => nodeArrive i node child (epoch % 65536) p.1 s) s)

/-- FOLD_EPOCH_CLOSE: a slot's deadline passes (02 R69). -/
def execFoldEpochClose (node : Node) (foldId : Nat) (s : State) : Host.Outcome State Fault Refusal :=
  .next (match foldInfo s foldId, findSlot s node foldId with
    | some i, some x =>
      match slotDeadline i x with
      | some t => if node == .centre then s else closeSlot i x (elapse t s)
      | none => s
    | _, _ => s)

/-- CLOSE_EPOCH: a router closes a fold's epoch on the centre's request (02 R47). -/
def execCloseEpoch (router foldId : Nat) (s : State) : Host.Outcome State Fault Refusal :=
  .next (match foldInfo s foldId, findSlot s (.router router) foldId with
    | some i, some x => closeSlot i x s
    | _, _ => s)

/-! Results -/

/-- Puts a result of a light census fold into the ring's result of its period (07 R230). -/
def fillLc (r : FoldResult) (x : LcResult) : LcResult :=
  let y := { x with incomplete := x.incomplete || r.incomplete, ovf := x.ovf || r.ovf }
  match r.foldId with
  | 0xFF => { y with sum := r.data }
  | 0xFE => { y with hist := r.data }
  | _ => { y with step := r.data.headD (2 ^ 64 - 1) }

/-- The place in the ring of the newest period whose number is `e` modulo 2^16. -/
def lcPlace (s : State) (e : Nat) : Option Nat :=
  (List.range s.census.ring.length).reverse.find? (fun i => (s.census.ring.getD i {}).period % 65536 == e)

/-- A ledger record of the step whose interval ends at `e`: energies of the boundaries after its start (07 R235, R236). -/
def ledgerRec (s : State) (step e : Nat) (forced : Bool) (cur : Nat × Nat × Bool) : LedgerRec :=
  let rs := s.census.ring.filter (fun r => decide (cur.2.1 < r.boundary) && decide (r.boundary ≤ e))
  let tok := (s.census.tokens.find? (fun p => p.1 == step)).map (·.2)
  { step := step
    noTokens := tok.isNone
    partialRec := s.census.curPartial || rs.any (·.gap)
    first := cur.2.2
    forced := forced
    start := cur.2.1
    end_ := e
    energy := (rs.foldl (fun a r => a + r.energy) 0) % 2 ^ 64
    tokens := tok.getD 0 }

/-- The two quotients of a record (07 R236). An interval without length has no average power: a free value (log 23). -/
def ledgerRates (s : State) (r : LedgerRec) : LedgerRec :=
  { r with
    jPerToken := if r.noTokens || r.tokens = 0 then 0 else ratio64 r.energy (1000000 * r.tokens)
    avgPower := if r.end_ ≤ r.start then Config.freeNat s.boot.freeCount 0 % 2 ^ 64
                else ratio64 (1000 * r.energy) (r.end_ - r.start) }

/-- Closes step `step` at boundary `e`; the next one begins there (07 R235). -/
def closeLedger (step e : Nat) (forced : Bool) (s : State) : State :=
  match s.census.curStep with
  | none => s
  | some cur =>
    let r := ledgerRates s (ledgerRec s step e forced cur)
    event evStepRecord (drawFree (onCensus (fun c => { c with
      ledger := lastN 4096 (c.ledger ++ [r])
      closed := c.closed ++ [step]
      curStep := some (step + 1, e, false)
      curPartial := false }) s))

/-- Folds and closes one step that every member has closed (07 R223, R235). -/
def closeStepAll (e step : Nat) (s : State) : State := closeLedger step e false (foldStepAll step s)

/-- The steps that LC_STEP newly shows closed by every member and that no CNT_FOLD has folded; the first it shows since the
plan's activation stands alone (07 R223; log 24). -/
def newSteps (s : State) (v : Nat) : List Nat :=
  if s.plans.cnt.isNone || v = 0 || decide (2 ^ 32 ≤ v) then []
  else
    let lo := match s.folds.stepShown with
      | some m => m + 1
      | none => v - 1
    ((List.range (v - lo)).map (fun i => lo + i)).filter (fun n => !s.folds.stepFolded.contains n)

/-- LC_STEP has shown the steps below `v` closed. -/
def showSteps (v : Nat) (s : State) : State :=
  if s.plans.cnt.isNone || v = 0 || 2 ^ 32 ≤ v then s
  else onFolds (fun f => { f with stepShown := some (max (v - 1) (f.stepShown.getD 0)) }) s

/-- A stored result of a light census fold: the ring takes it, and LC_STEP may close steps. -/
def storeLc (r : FoldResult) (s : State) : State :=
  match lcPlace s r.epoch with
  | none => s
  | some k =>
    let s := onCensus (fun c => { c with ring := c.ring.mapIdx (fun i x => if i = k then fillLc r x else x) }) s
    if r.foldId = 0xFD then
      let v := r.data.headD (2 ^ 64 - 1)
      (newSteps s v).foldl (fun s n => closeStepAll (s.census.ring.getD k {}).boundary n s) (showSteps v s)
    else s

/-- The dip entry whose CNT group a fold is, if it is a replica's (08 R263). -/
def replicaOf (s : State) (id : Nat) : Option DipEntry :=
  (optList s.plans.watch (fun p => dipEntries p.entries)).find? (fun d => d.replica && bit 0 d.foldSel && d.foldBase == id)

/-- The step that a fold epoch stands for: the greatest step of the entry with that number modulo 2^16 that some member
has reached (log 24). -/
def stepOfEpoch (s : State) (d : DipEntry) (e : Nat) : Nat :=
  let top := (s.tiles.map (fun p => p.2.core.cmd.step)).foldl max 0
  let k := if top % 65536 < e then (if top < 65536 then 0 else top / 65536 - 1) else top / 65536
  let n := k * 65536 + e
  if n < d.step0 then n + (d.step0 - n + 65535) / 65536 * 65536 else n

/-- The fingerprint record of a stored CNT result (08 R263). -/
def fpOf (s : State) (d : DipEntry) (r : FoldResult) : FpRecord :=
  let v := fun i => r.data.getD i 0
  { engine := s.cfg.engine
    group := d.group
    tensor := d.tensor
    step := stepOfEpoch s d r.epoch
    complete := !r.incomplete && v 13 == 0 && v 14 == 0 && v 12 == 0 && v 8 == 0
    ovf := v 14 != 0
    broken := false
    disturbed := v 13 != 0
    elements := v 0
    fingerprint := BitVec.ofNat 64 (v 11) }

def storeFp (r : FoldResult) (s : State) : State :=
  match replicaOf s r.foldId with
  | none => s
  | some d => event evFpRecord (onCensus (fun c => { c with fpRing := lastN 1024 (c.fpRing ++ [fpOf s d r]) }) s)

/-- The centre stores the result of a fold epoch and evaluates its conditions (02 R71, 05 R174). -/
def finishFold (i : FoldInfo) (x : FoldSlot) (s : State) : State :=
  let r := resultOf s i x.epoch (slotPartial i x)
  let s := setSlot (nextEpochSlot (now s) x) s
  let s := storeResult r s
  let s := if i.all then storeLc r s else storeFp r s
  runConditions i r s

/-- FOLD_RESULT_STORE: every contributing column has reported, or the centre's deadline passes (02 R71). -/
def execFoldResultStore (foldId : Nat) (s : State) : Host.Outcome State Fault Refusal :=
  .next (match foldInfo s foldId, findSlot s .centre foldId with
    | some i, some x =>
      match slotDeadline i x with
      | some t => finishFold i x (if slotFull x then s else elapse t s)
      | none => s
    | _, _ => s)

end Sys2Proof.Machine
end

