-- ==== Sys2Proof/Machine/Counters.lean ====
section
/-! DEFINITION. Counter plans, step descriptors, the light census and the energy ledger (07). -/

namespace Sys2Proof.Machine

/-! Loading a counter plan -/

/-- A key image with its reserved bits set (07 R240). -/
def keyBad (k : Word) : Bool := bits 62 48 k.toNat != 0

/-- Two valid keys name the same layer and operator. -/
def keysClash (ks : List Word) : Bool :=
  (List.range ks.length).any (fun i => (List.range i).any (fun j =>
    bit 63 (ks.getD i 0).toNat && bit 63 (ks.getD j 0).toNat && bits 47 16 (ks.getD i 0).toNat == bits 47 16 (ks.getD j 0).toNat))

def cntEntryBad (s : State) (e : CntEntry) : Bool :=
  planSetBad s e.set || decide (e.epochTmo < 10) || decide (10000 < e.epochTmo) || e.minInt == 0 || decide (1000 < e.minInt) ||
  decide (15 < e.keys.length) || e.keys.any keyBad || keysClash e.keys || e.planned.length != (ltnMembers s e.set).length

/-- A host transaction is open, so that no plan load starts (05 R178, 06 R192). -/
def txnOpenNow (s : State) : Bool := s.txn.host.isSome

def cntPlanOf (id : Nat) (e : CntEntry) (h : ReqHdr) (s : State) : CntPlan :=
  { id := id
    set := e.set
    epochTmo := e.epochTmo
    minInt := e.minInt
    keys := e.keys
    planned := e.planned
    owner := some h.session
    intrusiveOwner := isIntrusive s h.session }

/-- The checks of CNT_LOAD (07 R222, R239; 00 R14; 13 R434). -/
def cntChecks (id : Nat) (es : List CntEntry) (h : ReqHdr) (s : State) : List Check :=
  let e := es.headD {}
  let bad := !es.isEmpty && (decide (1 < es.length) || cntEntryBad s e)
  let base := optList s.plans.fold (fun p => p.entries.map ofEntry) ++
    optList s.plans.watch (fun p => (dipEntries p.entries).flatMap dipFolds) ++ centreFolds s none
  [ badEntry .malformed bad 0,
    denied (match s.plans.cnt with
      | none => false
      | some p => ownedByOther h p.owner (p.intrusiveOwner && !isIntrusive s h.session)),
    busy (txnOpenNow s || s.plans.cntNext.isSome) ] ++
  (if bad || es.isEmpty then [] else [limitCheck s base [cntFolds (cntPlanOf id e h s)]]) ++
  [emptyIf es.isEmpty]

/-- The words of AG_DNEXT for a member: fifteen keys, then fifteen PLANNED values (07 R219, 16 R493). -/
def dnextWords (s : State) (p : CntPlan) (t : Nat) : List Word :=
  let pl := p.planned.getD ((ltnMembers s p.set).idxOf t) []
  (List.range 15).map (fun e => p.keys.getD e 0) ++ (List.range 15).map (fun e => BitVec.ofNat 64 (pl.getD e 0 % 2 ^ 32))

/-- A core takes a counter plan into AG_DNEXT; a tile outside its set, or no plan, gives the empty one. -/
def takeCnt (p : Option CntPlan) (s : State) (t : Nat) (x : Tile) : Tile :=
  let ws := match p with
    | some p => if inSet s p.set t then dnextWords s p t else []
    | none => []
  onCount (fun k => { k with dnext := bankMap ws }) x

def fetchCnt (p : Option CntPlan) (t : Nat) (s : State) : State := onTile t (takeCnt p s t) s

/-- A core can answer a FETCH: its stub answers and it is not dark (02 R76). -/
def canFetch (x : Tile) : Bool := x.power.answers && coreUp x
def fetches (s : State) (t : Nat) : Bool := canFetch (tileOf s t)

/-- An entry whose items the centre builds for each tile. -/
def centreEntry (kind : Nat) : TxnEntry := { set := allLogical, perTile := kind }

/-- Steps 2 to 4 of a load: the members fetch their images; the census confirms them, or the request is MALFORMED and the
old plan stays; then a centre transaction activates the plan (07 R219; log 8). -/
def loadCnt (id : Nat) (es : List CntEntry) (h : ReqHdr) (s : State) : State :=
  let p := cntPlanOf id (es.headD {}) h s
  let ms := ltnMembers s p.set
  let s := onListedTiles (fun t x => if canFetch x && x.txn.ltnValid then takeCnt (some p) s t x else x) s
  if ms.all (fetches s) then
    startCentre 2 s.txn.stageTmo [centreEntry 2] (some h) (onPlans (fun q => { q with cntNext := some p }) s)
  else fail h { st := .malformed, reason := 0x12 } s

/-- CNT_LOAD. -/
def execCntLoad (h : ReqHdr) (id : Nat) (entries : List CntEntry) (s : State) : Host.Outcome State Fault Refusal :=
  request { op := 0x44, classC := true } h (cntChecks id entries) (loadCnt id entries) s

/-! Steps -/

/-- The last light census boundary that has passed (log 25). -/
def lastBoundary (s : State) : Nat :=
  match s.census.ring.getLast? with
  | some r => r.boundary
  | none => now s

/-- The step's ledger record has closed. -/
def stepClosed (s : State) (step : Nat) : Bool := s.census.closed.contains step

/-- CNT_FOLD: the centre folds the step at once, and its ledger record closes FORCED (07 R223, R236, R239; log 25). -/
def execCntFold (h : ReqHdr) (step : Nat) (s : State) : Host.Outcome State Fault Refusal :=
  request { op := 0x45, classC := true } h
    (fun _ s => [refuse (s.plans.cnt.isNone || s.folds.stepFolded.contains step || stepClosed s step)])
    (fun h s => respond h .ok [] (closeLedger step (lastBoundary s) true (foldStepAll step s))) s

/-- Records a step's token count, or, with zero tokens, takes it back (07 R235, R239; log 26). -/
def setTokens (step tokens : Nat) (c : CensusState) : CensusState :=
  { c with tokens := c.tokens.filter (fun p => p.1 != step) ++ (if tokens = 0 then [] else [(step, tokens)]) }

/-- STEP_DESC. -/
def execStepDesc (h : ReqHdr) (step tokens : Nat) (s : State) : Host.Outcome State Fault Refusal :=
  request { op := 0x46, classC := true } h
    (fun _ s => [refuse (stepClosed s step), emptyIf (tokens == 0 && !s.census.tokens.any (fun p => p.1 == step))])
    (fun h s => respond h .ok [] (onCensus (setTokens step tokens) s)) s

/-! Reading the rings -/

/-- A light census result (07 R230). -/
def lcBytes (r : LcResult) : List Byte :=
  le 8 r.boundary ++ le 4 r.period ++ le 4 (b2n r.incomplete + 2 * b2n r.ovf + 4 * b2n r.gap) ++
    (List.range 10).flatMap (fun i => le 8 (r.sum.getD i 0)) ++ (List.range 16).flatMap (fun i => le 6 (r.hist.getD i 0)) ++
    le 8 r.step ++ le 8 r.energy

/-- A step record (07 R236). -/
def ledgerBytes (r : LedgerRec) : List Byte :=
  le 4 r.step ++ le 4 (b2n r.noTokens + 2 * b2n r.partialRec + 4 * b2n r.first + 8 * b2n r.forced) ++ le 8 r.start ++
    le 8 r.end_ ++ le 8 r.energy ++ le 8 r.tokens ++ le 8 r.jPerToken ++ le 8 r.avgPower ++ zeros 8

/-- A count of 1 to 4,096; zero is EMPTY (07 R239, 13 R428). -/
def countChecks (count : Nat) : List Check := [badField (decide (4096 < count)) 0, emptyIf (count == 0)]

/-- LC_READ. -/
def execLcRead (h : ReqHdr) (count : Nat) (s : State) : Host.Outcome State Fault Refusal :=
  request { op := 0x47, classC := false } h (fun _ _ => countChecks count)
    (okWith (fun s => (lastN count s.census.ring).flatMap lcBytes)) s

/-- LEDGER_READ. -/
def execLedgerRead (h : ReqHdr) (count : Nat) (s : State) : Host.Outcome State Fault Refusal :=
  request { op := 0x48, classC := false } h (fun _ _ => countChecks count)
    (okWith (fun s => (lastN count s.census.ledger).flatMap ledgerBytes)) s

/-! The light census -/

/-- LC_SUM of a tile (07 R228). -/
def lcSum (x : Tile) : List Nat :=
  (List.range 10).map (fun i =>
    match i with
    | 0 => b2n x.power.pwrOk
    | 1 => b2n (!x.power.pwrOk)
    | _ => mget 0 x.plan.lc i)

/-- LC_HIST of a tile (07 R228). -/
def lcHist (x : Tile) : List Nat :=
  let busy := mget 0 x.plan.lc 2
  let n := busy + mget 0 x.plan.lc 3 + mget 0 x.plan.lc 4
  (List.range 16).map (fun i => b2n (n != 0 && i == min 15 (16 * busy / n)))

/-- LC_STEP of a tile (07 R222). -/
def lcStep (s : State) (t : Nat) : Nat :=
  match s.plans.cnt with
  | none => 2 ^ 64 - 1
  | some p =>
    if inSet s p.set t && (ltnOf s t).isSome then
      (let c := (tileOf s t).plan.closedStep; if c = 4294967295 then 0 else c + 1)
    else 2 ^ 64 - 1

/-- What a stub sends at a boundary, from its own state (07 R222, R228). -/
def lcContribs (s : State) (e t : Nat) : List Upward :=
  let x := tileOf s t
  if !x.power.answers then []
  else
    [ ⟨.router t, 0, 0xFF, e, { count := 1, data := lcSum x }⟩, ⟨.router t, 0, 0xFE, e, { count := 1, data := lcHist x }⟩,
      ⟨.router t, 0, 0xFD, e, { count := 1, data := [lcStep s t] }⟩ ]

/-! PMBus (07 R231). The command codes and the layout of READ_EIN are those of PMBus 1.3 (log 27). -/

def pmEin : Nat := 0x86
/-- READ_VIN, READ_IIN, READ_PIN and STATUS_WORD, in rotation. -/
def pmRotation (k : Nat) : Nat :=
  match k with
  | 0 => 0x88
  | 1 => 0x89
  | 2 => 0x97
  | _ => 0x79

/-- Starts the next transaction, if the bus is free. -/
def pmNext (t : Nat) (c : CensusState) : CensusState :=
  match c.busy, c.queued with
  | none, (cmd, b) :: r => { c with busy := some (cmd, t, b), queued := r }
  | _, _ => c

/-- At a boundary the centre starts READ_EIN and one reading of the rotation, unless the bus is still busy (log 27). -/
def pmSchedule (b : Nat) (c : CensusState) : CensusState :=
  if c.busy.isSome then c
  else pmNext b { c with queued := [(pmEin, b), (pmRotation c.rotation, b)], rotation := (c.rotation + 1) % 4 }

/-- The RELOAD census: the tiles it names fetch their bank and counter plan, and the round is reported (15 R476). -/
def reloadTiles (s : State) : List Nat :=
  (s.tiles.filter (fun p => p.2.plan.reload && p.2.power.answers)).map (·.1)

/-- A restoring FETCH reaches a core: the active watch plan's bank goes into its inactive bank, the active counter plan
into AG_DNEXT (15 R476). -/
def fetchRestore (t : Nat) (s : State) : State :=
  if !fetches s t || !(tileOf s t).plan.reload then s
  else
    let m := bankMap (bankWords s s.plans.watch t)
    let s := onTile t (fun x => { x with
      core := if x.core.active then { x.core with bank0 := m, planId0 := (mget 0 m 0).toNat }
              else { x.core with bank1 := m, planId1 := (mget 0 m 0).toNat } }) s
    fetchCnt s.plans.cnt t s

def reloadCensus (s : State) : State :=
  let ts := reloadTiles s
  if ts = [] then s else event evPlan (ts.foldl (fun s t => fetchRestore t s) s)

/-- LC_BOUNDARY: stubs close their period and contribute; the centre opens a result and starts its readings and the
RELOAD census (07 R229 to R231, 15 R476). -/
def execLcBoundary (s : State) : Host.Outcome State Fault Refusal :=
  .next (when (s.census.lcEn && inService s && !inRom s) (fun s =>
    let k := s.census.nextK
    let b := s.census.p0 + k * 1000000
    let s := elapse b s
    let up := allTiles.flatMap (lcContribs s (k % 65536))
    let s := onFolds (fun f => { f with upward := f.upward ++ up }) s
    let s := onListedTiles (fun _ x => { x with plan := { x.plan with lc := if x.power.answers then [] else x.plan.lc } }) s
    let s := onCensus (fun c => pmSchedule b { c with
      nextK := k + 1
      ring := lastN 4096 (c.ring ++ [{ boundary := b, period := k % 2 ^ 32 }]) }) s
    reloadCensus s) s)

/-! The energy ledger -/

/-- 10^(−r) as a ratio. -/
def pow10 (r : Int) : Nat × Nat := if r < 0 then (10 ^ r.natAbs, 1) else (1, 10 ^ r.natAbs)

/-- The nearest integer to n / d, a half going up (07 R232; log 28). -/
def roundRatio (n : Int) (d : Nat) : Int := (2 * n + d) / (2 * (d : Int))

/-- The energy of the interval between two readings, in µJ (07 R232). With m = 0 it is a free value (log 28). -/
def einEnergy (s : State) (a b : EinReading) : Nat :=
  let total := fun (x : EinReading) => x.rollover * 32768 + x.accumulator
  let d := (total b + 256 * 32768 - total a % (256 * 32768)) % (256 * 32768)
  let n := (b.samples + 2 ^ 24 - a.samples % 2 ^ 24) % 2 ^ 24
  let p := pow10 s.cfg.pmR
  let num : Int := (d * p.1 : Nat) - s.cfg.pmB * (n * p.2 : Nat)
  let den := n * p.2 * s.cfg.pmM.natAbs * 1000
  if s.cfg.pmM = 0 then Config.freeNat s.boot.freeCount 0 % 2 ^ 64
  else (roundRatio ((if s.cfg.pmM < 0 then -num else num) * (b.started - a.started : Nat)) den % (2 ^ 64 : Int)).toNat

/-- The interval gives no energy (07 R234). -/
def einGap (s : State) (a b : EinReading) : Bool :=
  decide (s.census.gapMax * 1000000 < b.started - a.started) || (b.samples + 2 ^ 24 - a.samples % 2 ^ 24) % 2 ^ 24 == 0

/-- Energy joins the total, the result of its boundary and the step record that contains that boundary (07 R232, R235). -/
def addEnergy (e b : Nat) (s : State) : State :=
  onCensus (fun c => { c with
    einTotal := (c.einTotal + e) % 2 ^ 64
    ring := c.ring.map (fun r => if r.boundary = b then { r with energy := (r.energy + e) % 2 ^ 64 } else r)
    ledger := c.ledger.map (fun r => if r.start < b && b ≤ r.end_ then
      ledgerRates s { r with energy := (r.energy + e) % 2 ^ 64 } else r) }) (drawFree s)

/-- ENERGY_GAP in every result after boundary `a` up to boundary `b`, and PARTIAL in their steps' records (07 R234, R236). -/
def markGap (a b : Nat) (s : State) : State :=
  setW1c 0x910 1 (onCensus (fun c => { c with
    gap := true
    ring := c.ring.map (fun r => if a < r.boundary && r.boundary ≤ b then { r with gap := true } else r)
    ledger := c.ledger.map (fun r => if r.start < b && a < r.end_ then { r with partialRec := true } else r) }) s)

/-- A READ_EIN reading, from the six bytes after its length: accumulator, rollover count, sample count (log 27). -/
def einOf (data : List Byte) (t b : Nat) : EinReading :=
  ⟨unle ((data.drop 2).take 1), unle (data.take 2) % 32768, unle ((data.drop 3).take 3), t, b⟩

/-- A successful READ_EIN reading; after an interval that gives no energy the next successful reading is a new a (07 R232, R234;
log 28). -/
def takeEin (b : EinReading) (s : State) : State :=
  let t := onCensus (fun c => { c with lastEin := some b }) s
  match s.census.lastEin with
  | none => t
  | some a =>
    if einGap s a b then markGap a.boundary b.boundary (onCensus (fun c => { c with lastEin := none }) s)
    else addEnergy (einEnergy s a b) b.boundary t

/-- A discarded READ_EIN reading: the interval is a gap, and the next successful reading is a new a (07 R234). -/
def dropEin (b : Nat) (s : State) : State :=
  match s.census.lastEin with
  | none => s
  | some a => markGap a.boundary b (onCensus (fun c => { c with lastEin := none }) s)

/-- A word reading (07 R231, 12 R516). -/
def takeWord (cmd v : Nat) (c : CensusState) : CensusState :=
  let c := { c with readValid := true }
  if cmd = 0x88 then { c with vin := v }
  else if cmd = 0x89 then { c with iin := v }
  else if cmd = 0x97 then { c with pin := v }
  else { c with statusWord := v }

/-- PMBUS_DONE: the transaction completes and the next of the schedule starts. A mismatch of PEC discards the reading (07
R231). -/
def execPmbusDone (data : List Byte) (pecOk : Bool) (s : State) : Host.Outcome State Fault Refusal :=
  .next (match s.census.busy with
    | none => s
    | some (cmd, t, b) =>
      let bad := s.census.pecEn && !pecOk
      let s := onCensus (fun c => pmNext (now s) { c with
        busy := none
        pecCount := if bad then satAdd 16 c.pecCount 1 else c.pecCount
        readValid := c.readValid || !bad }) s
      if cmd = pmEin then (if bad then dropEin b s else takeEin (einOf data t b) s)
      else if bad then s
      else onCensus (takeWord cmd (unle (data.take 2))) s)

/-- PMBUS_TIMEOUT: a transaction is not complete within 5 ms; it is counted and not retried (07 R231). -/
def execPmbusTimeout (s : State) : Host.Outcome State Fault Refusal :=
  .next (match s.census.busy with
    | none => s
    | some (_, t, _) =>
      let s := elapse (t + 5000000) s
      onCensus (fun c => pmNext (now s) { c with busy := none, tmoCount := satAdd 16 c.tmoCount 1 }) s)

/-! The observation cap -/

/-- Bytes that a lane of 200 Gb/s carries in 1 µs. -/
def laneBytes : Nat := 25000

/-- PACE_REFILL: the bucket, in thousandths of a byte, takes the rate of 1 µs, to a depth of 64 KiB, and the die sends
what it allows (07 R237, R238). -/
def execPaceRefill (die liveLanes : Nat) (s : State) : Host.Outcome State Fault Refusal :=
  .next (when (inService s && decide (die < numDies)) (fun s => paceSend die (onEdge die (fun e => { e with
    liveLanes := liveLanes
    bucket := min (65536 * 1000) (e.bucket + liveLanes * laneBytes * e.permille) }) s)) s)

end Sys2Proof.Machine
end

