-- ==== Sys2Proof/Machine/Still.lean ====
section
/-! DEFINITION. Stilling, releasing and stepping: the requests, the launch of action words, and what stubs, agents and
edge agents do with them (04; 02 R79 to R81). -/

namespace Sys2Proof.Machine

/-! Requests -/

/-- STILL_AT (04 R113 to R121). -/
def execStillAt (h : ReqHdr) (tick scope : Nat) (s : State) : Host.Outcome State Fault Refusal :=
  request { op := 0x30, classC := true, need := .intrusive } h
    (fun h s =>
      let lo := now s + s.time.lstill
      scopeChecks s scope ++ [busy (queueFull s 1 || stepRuns s || recBusy s)] ++ tickChecks s h lo tick (crowded s) ++
      [refuse (inForce s scope || queuedStill s scope), refuse (conflicts s 1 scope (effTick h lo tick (crowded s)))])
    (fun h s =>
      let t := effTick h (now s + s.time.lstill) tick (crowded s)
      respond h .ok (le 8 t) (enqueue 1 scope t 0 0 s)) s

/-- A STILL of the scope is queued for a later tick (04 R121). -/
def laterStill (s : State) (scope tick : Nat) : Bool :=
  s.root.queue.any (fun a => a.kind == 1 && a.scope == scope && decide (tick < a.tick))

/-- RELEASE_AT (04 R113 to R121; 06 R206). -/
def execReleaseAt (h : ReqHdr) (tick scope : Nat) (s : State) : Host.Outcome State Fault Refusal :=
  request { op := 0x31, classC := true, need := .intrusive } h
    (fun h s =>
      let lo := now s + s.time.lstill
      let t := effTick h lo tick (crowded s)
      scopeChecks s scope ++ [busy (queueFull s 1 || stepRuns s || recBusy s || holdsStill s scope)] ++
      tickChecks s h lo tick (crowded s) ++
      [refuse (!inForce s scope && !queuedStill s scope), refuse (laterStill s scope t), refuse (conflicts s 2 scope t)])
    (fun h s =>
      let t := effTick h (now s + s.time.lstill) tick (crowded s)
      respond h .ok (le 8 t) (enqueue 2 scope t 0 0 s)) s

/-- Queues the two actions of a step and notes it (04 R145, R146, R148). -/
def startStep (kind scope t close k : Nat) (s : State) : State :=
  onRoot (fun r => { r with
    stepKind := kind
    stepScope := scope
    stepReleased := false
    stepClose := close
    stepK := k }) (enqueue 1 scope close 2 0 (enqueue 2 scope t 2 0 s))

/-- A step's conditions (04 R116, R121, R145, R146, R152): `gap` separates its two ticks. -/
def stepChecks (s : State) (h : ReqHdr) (lo tick scope gap : Nat) : List Check :=
  let bad := fun t => crowded s t || crowded s (t + gap)
  let t := effTick h lo tick bad
  scopeChecks s scope ++ [busy (queueFull s 2 || stepRuns s || recBusy s || holdsStill s scope)] ++ tickChecks s h lo tick bad ++
  [refuse (decide (now s + 2 ^ 40 < t + gap)), refuse (queuedStill s scope)] ++
  needsDeclared s scope ++ [refuse (conflicts s 2 scope t || conflicts s 1 scope (t + gap))]

/-- STEP_TICK (04 R146). -/
def execStepTick (h : ReqHdr) (tick scope n : Nat) (s : State) : Host.Outcome State Fault Refusal :=
  request { op := 0x32, classC := true, need := .intrusive } h
    (fun h s => badField (n % 2 == 1 || decide (n < 8) || decide (2147483646 < n)) 12 ::
      stepChecks s h (now s + s.time.lstill) tick scope n)
    (fun h s =>
      let t := effTick h (now s + s.time.lstill) tick (fun t => crowded s t || crowded s (t + n))
      respond h .ok (le 8 t ++ le 8 (t + n)) (startStep 1 scope t (t + n) 0 s)) s

/-- Writes STEP_K to every member that answers (04 R148). -/
def armStep (scope k : Nat) (s : State) : State :=
  onTiles ((scopeTiles s scope).filter (fun t => (tileOf s t).power.answers))
    (fun _ x => { x with still := { x.still with stepK := k } }) s

/-- STEP_CMD: arms every member, confirms it, and queues the step (04 R148). -/
def execStepCmd (h : ReqHdr) (tick scope k limit : Nat) (s : State) : Host.Outcome State Fault Refusal :=
  request { op := 0x33, classC := true, need := .intrusive } h
    (fun h s => badField (k == 0 || decide (255 < k)) 9 :: badField (limit == 0 || decide (1000000 < limit)) 12 ::
      stepChecks s h (now s + 20000) tick scope (limit * 1000))
    (fun h s =>
      let gap := limit * 1000
      let t := effTick h (now s + 20000) tick (fun t => crowded s t || crowded s (t + gap))
      let a := armStep scope k s
      if (scopeTiles s scope).all (fun u => counts (tileOf s u)) then
        respond h .ok (le 8 t ++ le 8 (t + gap)) (startStep 2 scope t (t + gap) k a)
      else fail h { st := .timeout } a) s

/-- The queued action an ACTION_CANCEL names. -/
def cancelTarget (s : State) (tick scope kind : Nat) : Option StillAction :=
  s.root.queue.find? (fun a => a.kind == kind && a.scope == scope && a.tick == tick)

/-- A queued action that may be cancelled: a step's, only by its RELEASE and before that is launched (04 R117). -/
def cancellable (s : State) (a : StillAction) : Bool := a.origin != 2 || (a.kind == 2 && !s.root.stepReleased)

/-- Removes an action from the queue, a step's together (04 R117; log 80). -/
def cancelAction (a : StillAction) (s : State) : State :=
  let s := if a.origin = 2 then dropStep s else unqueue (fun b => b == a) s
  pumpOwn (onRoot (fun r => { r with
    wstate := if r.wstate = 1 && !r.queue.any (fun b => b.kind == 1 && b.scope == 0) then 0 else r.wstate }) s)

/-- ACTION_CANCEL (04 R117). -/
def execActionCancel (h : ReqHdr) (tick scope kind : Nat) (s : State) : Host.Outcome State Fault Refusal :=
  request { op := 0x34, classC := true, need := .intrusive } h
    (fun _ s => badField (kind != 1 && kind != 2) 9 :: scopeChecks s scope ++
      [refuse (!((cancelTarget s tick scope kind).any (cancellable s)))])
    (fun h s =>
      match cancelTarget s tick scope kind with
      | none => fail h (refuse true) s
      | some a => respond h .ok [] (cancelAction a s)) s

/-- Sets or clears membership bit n by a rectangle, on every tile that answers (04 R110). -/
def writeRegion (n : Nat) (r : Region) (s : State) : State :=
  onListedTiles (fun _ x =>
    if !x.power.answers then x
    else
      let on := r.valid && x.txn.ltnValid && inRect r x.txn.ltn
      { x with still := { x.still with
        region := if on then x.still.region ||| (1 <<< n) else x.still.region &&& ~~~((1 : BitVec 16) <<< n) } }) s

/-- REGION_SET: the membership bits, confirmed by census (04 R110). A rectangle whose first bound is above its second is
MALFORMED (log 114). -/
def execRegionSet (h : ReqHdr) (region : Nat) (valid : Bool) (lx0 lx1 ly0 ly1 : Nat) (s : State) :
    Host.Outcome State Fault Refusal :=
  request { op := 0x35, classC := true, need := .intrusive } h
    (fun _ s =>
      [ badField (region == 0 || decide (15 ≤ region)) 0,
        badField (decide (lx1 < lx0) || decide (ly1 < ly0) || decide (719 < lx1) || decide (479 < ly1)) 8,
        denied (!regionState s),
        busy (inForce s region || queuedStill s region || stepRuns s || holdsIdent s) ])
    (fun h s =>
      let r : Region := ⟨valid, lx0, lx1, ly0, ly1⟩
      let s1 := writeRegion region r s
      let n := (s1.tiles.filter (fun p => counts p.2 && p.2.still.region.getLsbD region)).length
      if !valid then respond h .ok [] (onRoot (fun q => { q with regions := mput {} q.regions region {} }) s1)
      else if n = rectCount r then
        respond h .ok [] (onRoot (fun q => { q with regions := mput {} q.regions region r }) s1)
      else
        let s2 := writeRegion region {} s1
        fail h { st := .timeout } (onRoot (fun q => { q with
          regions := mput {} q.regions region { regionOf s region with valid := false } }) s2)) s

/-- A straggler as the answers list it: coordinate, LTN with bit 31 valid, STATE (13 R427). -/
def stragBytes (s : State) (t : Nat) : List Byte :=
  let x := tileOf s t
  padTo 16 (le 4 (coord t) ++ le 4 (ltnWord x) ++ le 1 x.still.state)

/-- The answer of STILL_QUERY (13 R427). -/
def stillBody (s : State) : List Byte :=
  let r := s.root
  le 8 (stillReg s) ++ le 8 r.stillT ++ le 4 r.selfStilled ++ le 4 r.blocked ++ le 4 r.idle ++ le 4 r.stragglers.length ++
    r.stragglers.flatMap (stragBytes s) ++ le 4 r.discarded.length ++
    r.discarded.flatMap (fun a => padTo 16 (le 8 a.tick ++ le 1 a.kind ++ le 1 a.scope))

/-- STILL_QUERY. -/
def execStillQuery (h : ReqHdr) (s : State) : Host.Outcome State Fault Refusal :=
  request { op := 0x36, classC := false } h (fun _ _ => []) (okWith stillBody) s

/-- The wafer's standing still as a confirmation: that of the tick SK_STILL_T gives. -/
def standingStill (s : State) : StillAction := { kind := 1, scope := 0, tick := s.root.stillT }

/-- A still to be confirmed whose census has failed or is due (04 R129, R135). -/
def censusDue (s : State) (e : Confirm) : Bool :=
  e.failed || (match e.repeatAt with
    | none => decide (e.act.tick + 1000 ≤ now s)
    | some t => decide (t ≤ now s))

/-- Repeats the still census: of a still that is to be confirmed and whose census is due, or, with none to be confirmed, of
the wafer still that stands (04 R135). -/
def refreshStill (s : State) : State :=
  match s.root.confirm.find? (censusDue s) with
  | some e => if e.repeatAt.isSome then repeatCensus e.act s else firstCensus e.act s
  | none =>
    if s.root.confirm.isEmpty && (s.root.wstate == 3 || waferStrag s) then
      let named := nameStragglers (notStill s 0)
      onRoot (fun r => { r with wstate := if named = [] then 3 else 4 }) (noteCount 0 (stillCount s 0) named s)
    else s

/-- Region n stands: it is valid and every member answers that it is still under the region's bit (04 R142). -/
def regionHolds (s : State) (n : Nat) : Bool :=
  let ms := scopeTiles s n
  (regionOf s n).valid && !ms.isEmpty && ms.all (fun t =>
    (tileOf s t).power.answers && stillOk (tileOf s t) && (tileOf s t).still.mask.getLsbD n)

/-- SK_STILL_STATUS is rebuilt from a still census after a warm reset: WSTATE and the stragglers, and REGIONS (04 R142). -/
def rebuildStill (s : State) : State :=
  let s := refreshStill s
  onRoot (fun r => { r with
    regionsStill := BitVec.ofNat 16 (maskOf 15 (fun n => n != 0 && r.confirm.all (fun e => e.act.scope != n) && regionHolds s n)) }) s

/-- STILL_QUERY with REFRESH (04 R135). -/
def execStillQueryRefresh (h : ReqHdr) (s : State) : Host.Outcome State Fault Refusal :=
  request { op := 0x36, classC := false } h (fun _ _ => []) (fun h s => okWith stillBody h (refreshStill s)) s

/-! The root -/

/-- A STILL that no alarm issued acts on the scope of the running alarm action, which no longer holds it alone (05 R160). -/
def shareStill (a : StillAction) (s : State) : State :=
  if a.origin = 1 || a.origin = 4 then s
  else onAlarm (fun x => { x with
    running := x.running.map (fun r => if r.scope == a.scope then { r with issued := false } else r) }) s

/-- What the root notes of the word it launches: a STILL is to be confirmed, a RELEASE takes its effect at the centre,
and a PRESS is pressed (02 R80, 04 R129, R138, 06 R198, R210). -/
def launched (a : StillAction) (s : State) : State :=
  match a.kind with
  | 1 => shareStill a (onRoot (fun r => { r with
      confirm := if a.origin = 4 then r.confirm else r.confirm ++ [{ act := a }]
      retried := r.retried && a.origin == 4
      wstate := if a.scope = 0 then 2 else r.wstate }) s)
  | 2 => centreRelease a s
  | _ => onTxn (fun x => { x with pressed := true, tstate := 4, t := a.tick }) s

/-- ACTION_LAUNCH: the word at the head of the queue is launched at its time, on the first RCLK edge that is two slots after
the last word (02 R79, R80; 04 R118, R119). -/
def execActionLaunch (s : State) : Host.Outcome State Fault Refusal :=
  .next (match s.root.queue with
    | [] => s
    | a :: q =>
      let s := elapse (edgeUp (max a.launchAt (s.root.lastLaunch + 4))) s
      let a := { a with launchAt := now s }
      pumpOwn <| placePress <| launched a (pruneLaunched (onRoot (fun r => { r with
        queue := q
        lastLaunch := now s
        launched := r.launched ++ [a] }) s)))

/-! Stubs and agents -/

/-- Widens TICK_LO to the tick within 2^31 ns of a stub's own time (02 R80). -/
def widen32 (t lo : Nat) : Nat :=
  let b := t / 2 ^ 32 * 2 ^ 32 + lo
  if t + 2 ^ 31 ≤ b then b - 2 ^ 32 else if b + 2 ^ 31 < t then b + 2 ^ 32 else b

/-- The hub time at which a launched word reaches a field, if the root remembers it. -/
def arrival (s : State) (t action scope tickLo : Nat) : Nat :=
  match s.root.launched.find? (fun a => a.kind == action && a.scope == scope && a.tick % 2 ^ 32 == tickLo % 2 ^ 32) with
  | some a => a.launchAt + (mget 0 s.time.fieldDelay (fieldOf t) + 7) / 8
  | none => now s

/-- The state of a tile that has taken an action it has not carried out yet (04 R155). -/
def armedState (action : Nat) (x : Tile) : Nat := if action = 1 && x.still.state = 0 then 1 else x.still.state

/-- STILL_WORD_CAPTURE: a stub takes a word's 48 bits and its two parity wires. A word with a parity error is ignored and
recorded; a PRESS concerns only a stub that is STAGED; another word is handed to the core with its full tick, late or not (02
R79 to R81; 06 R199). -/
def execStillWordCapture (tile head tickLo : Nat) (p0 p1 : Bool) (s : State) : Host.Outcome State Fault Refusal :=
  .next (when (inService s && decide (tile < numTiles)) (fun s =>
    let w := wireWord head tickLo
    let action := wordAction w
    let scope := wordScope w
    let s := elapse (arrival s tile action scope (wordTick w)) s
    let x := tileOf s tile
    if !parityOk w p0 p1 then
      record tile 0x0C w (onTile tile (fun x => { x with still := { x.still with missed := true } }) s)
    else if !(action == 1 || action == 2 || action == 3) || !inScope x scope || (action == 3 && x.txn.tstate != 2) then s
    else
      let me := stubNow s tile
      let t := widen32 me (wordTick w)
      let late := decide (t < me)
      let s := onTile tile (fun x => { x with
        still := { x.still with
          missed := false
          state := armedState action x
          pending := x.still.pending ++ [{ kind := action, scope := scope, tick := t, late := late }] }
        txn := { x.txn with tstate := if action = 3 then 3 else x.txn.tstate } }) s
      if late then recordLate tile action scope t s else s) s)

/-- The action a core takes next: the one with the earliest tick, and of two with one tick a PRESS first (01 R29). -/
def nextAction (x : Tile) : Option StillAction :=
  x.still.pending.foldl (fun b a =>
    match b with
    | none => some a
    | some c => if a.tick < c.tick || (a.tick == c.tick && a.kind == 3 && c.kind != 3) then some a else b) none

/-- The next action, if it is of this kind. -/
def takeAction (kind : Nat) (x : Tile) : Option StillAction := (nextAction x).filter (fun a => a.kind == kind)

/-- The earliest action of a kind: a stub whose TCLK is stopped takes no PRESS (04 R140). -/
def stubAction (kind : Nat) (x : Tile) : Option StillAction :=
  nextAction { x with still := { x.still with pending := x.still.pending.filter (fun a => a.kind == kind) } }

/-- A core can act: its TCLK runs and core time is rebuilt. For a dark core its stub acts (03 R98, 04 R140, R141). -/
def mayAct (x : Tile) : Bool := !x.power.pwrOk || (x.power.ready && !x.power.noClock)

/-- The stub time of edge E as a TS40S (04 R125). -/
def edgeTs (x : Tile) : Nat := ts40 (ownTime x x.still.edgeAt)

/-- The core asserts FRZ at edge E at hub time `e`, more than 1 µs after its tick or not, and the tile drives VPEND (04 R122,
R126, R155). -/
def assertFrz (e : Nat) (vpend : Bool) (x : Tile) : Tile :=
  { x with still := { x.still with
    edgeAt := e
    lateFrz := decide (x.still.actTick + 1000 < ownTime x e)
    frz := true
    frzAck := false
    rfrzAck := false
    vpend := vpend
    state := 2 } }

/-- STEP_CYC of a tick step that ends on this tile (04 R147). -/
def stepCycles (cycles : Nat) (x : Tile) : Nat :=
  if x.still.stepping && x.still.stepK = 0 then min cycles 65535 else x.still.stepCyc

/-- The tile once its mask has bit `scope` at edge E at hub time `e`: a running core asserts FRZ, a still one stays as it
is but for VPEND's level, and a dark one is DARK_STILL (04 R108, R122, R126, R141, R147). -/
def freeze (scope tick e cycles : Nat) (vpend : Bool) (x : Tile) : Tile :=
  let fresh := x.still.mask == 0
  let y := { x with still := { x.still with
    mask := x.still.mask ||| (1 <<< scope)
    actTick := tick } }
  if !x.power.pwrOk then { y with still := { y.still with stepping := false, state := 6 } }
  else if fresh then
    let z := assertFrz e vpend y
    { z with still := { z.still with stepCyc := stepCycles cycles x, stepping := false } }
  else { y with still := { y.still with stepping := false, vpend := vpend } }

/-- The TIME and DATA of a STILL record: TIME is FRZ_TS, or the stub's time where the core asserts no FRZ: on a dark tile
and with TCLK stopped (04 R140, 10 R304). -/
def recordStill (tile scope : Nat) (self : Bool) (fresh : Bool) (s : State) : State :=
  let x := tileOf s tile
  let time := if !x.power.pwrOk || !x.still.frz then ts40 (stubNow s tile) else if fresh then edgeTs x else x.still.frzTs
  recordAt tile time 0x06 (x.still.mask.toNat * 2 ^ 48 + scope * 2 ^ 44 + b2n self * 2 ^ 43) s

/-- The action `a` is no longer to be carried out. -/
def dropPending (a : StillAction) (x : Tile) : Tile := { x with still := { x.still with pending := x.still.pending.erase a } }

/-- STILL_ACT: at the first TCLK edge at or after T by its own time the agent, or the stub of a dark core, sets the mask bit
(01 R28, 03 R96, 04 R108, R141); a step in progress ends here with its cycle count (R147), and VPEND shows the level the
tile drives (R126). -/
def execStillAct (tile cycles : Nat) (vpend : Bool) (s : State) : Host.Outcome State Fault Refusal :=
  .next (match takeAction 1 (tileOf s tile) with
    | none => s
    | some a =>
      when (mayAct (tileOf s tile)) (fun s =>
        let s := elapse (reachAt s tile a.tick) s
        let s := onTile tile (stopHang (stubNow s tile)) s
        let fresh := (tileOf s tile).still.mask == 0 && (tileOf s tile).power.pwrOk
        recordStill tile a.scope false fresh
          (onTile tile (fun x => freeze a.scope a.tick (now s) cycles vpend (dropPending a x)) s)) s)

/-- RELEASE_ACT: at the first TCLK edge at or after T2, or by the stub of a core that is dark or whose TCLK is stopped (04
R138 to R141); `idle` says whether the tile's command queue is empty. During a still-copy hold it takes effect when the hold
ends (09 R287). -/
def execReleaseAct (tile : Nat) (idle : Bool) (s : State) : Host.Outcome State Fault Refusal :=
  .next (match (if (tileOf s tile).power.noClock then stubAction 2 (tileOf s tile) else takeAction 2 (tileOf s tile)) with
    | none => s
    | some a =>
      when (mayAct (tileOf s tile) || (tileOf s tile).power.noClock) (fun s =>
        let s := elapse (reachAt s tile a.tick) s
        let r : HeldRelease := ⟨a.scope, idle, s.root.stepKind != 0 && s.root.stepReleased && a.scope == s.root.stepScope⟩
        let s := onTile tile (dropPending a) s
        if copyHolds (tileOf s tile) then
          onTile tile (fun x => { x with still := { x.still with heldRel := x.still.heldRel ++ [r] } }) s
        else releaseTile tile r s) s)

/-- STUB_STILL_NO_CLOCK: with TCLK stopped, the stub sets the bit at T by its own time and STATE is FREEZING (04 R140); a tick
step in progress ends with its cycle count (R147). -/
def execStubStillNoClock (tile : Nat × Nat) (s : State) : Host.Outcome State Fault Refusal :=
  .next (match stubAction 1 (tileOf s tile.1) with
    | none => s
    | some a =>
      when ((tileOf s tile.1).power.pwrOk && (tileOf s tile.1).power.noClock) (fun s =>
        let s := elapse (reachAt s tile.1 a.tick) s
        let s := onTile tile.1 (stopHang (stubNow s tile.1)) s
        recordStill tile.1 a.scope false false (onTile tile.1 (fun x =>
          let y := dropPending a x
          { y with still := { y.still with
            mask := x.still.mask ||| (1 <<< a.scope)
            actTick := a.tick
            stepCyc := if x.still.mask == 0 then stepCycles tile.2 x else x.still.stepCyc
            stepping := false
            state := if x.still.frz && x.still.mask != 0 then x.still.state else 2 } }) s)) s)

/-- FREEZE_SETTLED: FRZ_ACK, RFRZ_ACK and every XQ_SETTLED are high; the stub is STILL and FRZ_TS is the time of E. A
late one leaves the straggler list (04 R125, R134). -/
def execFreezeSettled (tile : Nat) (s : State) : Host.Outcome State Fault Refusal :=
  .next (when ((tileOf s tile).still.frz && ((tileOf s tile).still.state == 2 || (tileOf s tile).still.state == 7)) (fun s =>
    leaveStragglers tile (onTile tile (fun x => { x with still := { x.still with
      state := 3
      frzAck := true
      rfrzAck := true
      frzTs := edgeTs x } }) s)) s)

/-- FREEZE_NOACK: an acknowledge has not risen 1 µs after E; FRZ stays asserted (04 R124). -/
def execFreezeNoack (tile : Nat) (frzAck rfrzAck : Bool) (s : State) : Host.Outcome State Fault Refusal :=
  .next (when ((tileOf s tile).still.frz && (tileOf s tile).still.state == 2 && !(frzAck && rfrzAck)) (fun s =>
    let s := elapse ((tileOf s tile).still.edgeAt + 1000) s
    record tile 0x0D (b2n frzAck * 2 ^ 63 + b2n rfrzAck * 2 ^ 62) (onTile tile (fun x => { x with still := { x.still with
      state := 7
      frzAck := frzAck
      rfrzAck := rfrzAck } }) s)) s)

/-! Edge agents -/

/-- A die's agent on the scope-0 STILL of a snapshot that issued it: the die belongs to the snapshot if its mode is CUT at T, and
then marks its flows and logs (11 R331, R345). -/
def edgeMark (die tick : Nat) (s : State) : State :=
  match s.snap.take with
  | none => s
  | some k =>
    if k.ownStill && !k.sealing && k.t == tick then
      let ds := (pondOf s k.pond).cutDies.filter (fun d => d != die) ++ if (edgeOf s die).cut then [die] else []
      onEdge die (beginLog k.id) (onPond k.pond (fun q => { q with cutDies := ds, cut := !ds.isEmpty }) s)
    else s

/-- EDGE_STILL_ACT: egress freezes at a STILL of scope 0 and unfreezes at a RELEASE, where a restored die replays its log
(04 R127, R138; 11 R345, R355). -/
def execEdgeStillAct (die action tick : Nat) (s : State) : Host.Outcome State Fault Refusal :=
  .next (when (inService s) (fun s =>
    let s := elapse tick s
    match action with
    | 1 => edgeMark die tick (onEdge die (fun e => { e with
        egFreeze := true
        flagged := e.flagged && e.egFreeze
        egFreezeAt := if e.egFreeze then e.egFreezeAt else now s }) s)
    | 2 => onEdge die (fun e =>
        let e := { e with egFreeze := false, egFrozen := false, releasedAt := now s }
        if e.state = 4 then beginDiscard e.snapId e else e) s
    | _ => s) s)

/-! The census and automatic release -/

/-- STILL_CENSUS: at T + 1 µs (04 R129 to R132). -/
def execStillCensus (s : State) : Host.Outcome State Fault Refusal :=
  .next (match s.root.confirm.find? (fun e => e.repeatAt.isNone && !e.failed) with
    | none => s
    | some e => firstCensus e.act (elapse (e.act.tick + 1000) s))

/-- STILL_CENSUS_REPEAT: the counts of the repeated census are final (04 R132, R133). -/
def execStillCensusRepeat (s : State) : Host.Outcome State Fault Refusal :=
  .next (match s.root.confirm.find? (fun e => e.repeatAt.isSome && !e.failed) with
    | none => s
    | some e => repeatCensus e.act (elapse (e.repeatAt.getD 0) s))

/-- No automatic release: stragglers remain, another origin holds the scope, or the host has queued its own RELEASE (05
R160). -/
def releaseBarred (r : AlarmAction) (s : State) : Bool :=
  (r.scope == s.root.stragScope && !s.root.stragglers.isEmpty) || !r.issued ||
  s.root.queue.any (fun a => a.kind == 2 && a.scope == r.scope)

/-- AUTO_RELEASE: the release that lies HOLD after the later of the still being declared and the snapshot completing can be
queued: the centre takes R114's "now" so that a release just HOLD after that moment keeps L_still, or as soon after as it can
(log 115). A transaction whose items need the still defers it (05 R160; 06 R206). -/
def execAutoRelease (s : State) : Host.Outcome State Fault Refusal :=
  .next (match s.alarm.running with
    | none => s
    | some r =>
      match r.declaredAt with
      | none => s
      | some d =>
        if r.hold = 0 || r.snapWait || !(r.action == acWafer || r.action == acRegion || r.action == acSnap) then s
        else
          let due := d + r.hold * 1000
          let s := elapse (due - s.time.lstill) s
          if holdsStill s r.scope then s
          else
            let s := onAlarm (fun a => { a with running := none }) s
            if releaseBarred r s then s else enqueueOwn 2 r.scope (max (now s + s.time.lstill) due) 1 s)

end Sys2Proof.Machine
end

