-- ==== Sys2Proof/Machine/Tap.lean ====
section
/-! DEFINITION. What the tile's tap, SRAM write port and error lines report to its agent: commands, contexts, writes,
descriptors, errors, wait descriptors, and the stub's watchdogs (05 R165; 07; 08 R266 to R270; 09 R283 to R287; 10 R320,
R321; 12 R369, R370). -/

namespace Sys2Proof.Machine

/-- A core that runs: powered, not retired, not held by FRZ. -/
def coreRuns (s : State) (t : Nat) : Bool := coreUp (tileOf s t) && !(tileOf s t).still.frz

/-! Lines and descriptors -/

/-- A line that matched a descriptor: the dips and the capture slots take it, and it counts towards LINES (08 R267 to
R269, 09 R283). -/
def takeLine (t : Nat) (q : Desc) (l : SnoopLine) (s : State) : State :=
  let s := (List.range 4).foldl (fun s n => dipLine t n q l s) s
  (List.range 4).foldl (fun s n => capLine t n q l s) s

/-- The descriptor of a tag. -/
def descOf (c : Core) (tag : Nat) : Option Desc := c.dip.descs.find? (fun q => q.tag == tag)

/-- Counts `k` matched lines of a descriptor; it closes with its last one (08 R268). -/
def countLines (tag k : Nat) (c : Core) : Core :=
  { c with dip := { c.dip with
    descs := (c.dip.descs.map (fun q => if q.tag == tag then { q with matched := q.matched + k } else q)).filter
      (fun q => decide (q.matched < q.lines)) } }

/-- Discards the oldest waiting line and counts it (08 R267; 07 R213; 05 R165; 09 R292). -/
def discardOldest (t : Nat) (s : State) : State :=
  match (tileOf s t).core.dip.waitq with
  | [] => s
  | l :: r =>
    countError t 40 l.line (onCore t (fun c =>
      flagUnmatched (countUnmatched { c with dip := { c.dip with waitq := r } })) s)

/-- A tagged line: it matches the descriptor of its tag, or waits for one (08 R267). -/
def tagLine (t : Nat) (w : SnoopLine) (s : State) : State :=
  match descOf (tileOf s t).core w.tag with
  | some q => takeLine t q w (onCore t (countLines w.tag 1) s)
  | none =>
    let s := if 16 ≤ (tileOf s t).core.dip.waitq.length then discardOldest t s else s
    onCore t (fun c => { c with dip := { c.dip with
      waitq := c.dip.waitq ++ [w]
      queuePeak := max c.dip.queuePeak (c.dip.waitq.length + 1) } }) s

/-- The tile's SRAM takes the bytes that a write enables. -/
def writeSram (w : SnoopLine) (x : Tile) : Tile :=
  { x with engine := { x.engine with sram := (List.range 64).foldl (fun m i =>
      if w.be.getLsbD i then mput 0 m (64 * w.line + i) (w.data.extractLsb' (8 * i) 8) else m) x.engine.sram } }

/-- SRAM_WRITE: the SRAM comparators, then the dips and captures of a tagged line (05 R165; 08 R245, R267). -/
def execSramWrite (tile : Nat) (w : SnoopLine) (s : State) : Host.Outcome State Fault Refusal :=
  .next (when (coreRuns s tile) (fun s =>
    let s := onTile tile (writeSram w) s
    let s := cmpEvent tile 3 (sramTest (tileOf s tile).core w) s
    if w.tag = 0 then s else tagLine tile w s) s)

/-- A descriptor enters the table: an older one of its tag is replaced, and a full table loses its oldest entry (08 R266,
R282). -/
def enterDesc (d : DescIn) (c : Core) : Core :=
  let q : Desc := ⟨d.tag, d.tensor, d.step, d.lines, 0, d.scales, d.svalid, c.cmd.tok, c.cmdSeq⟩
  let same := c.dip.descs.any (fun e => e.tag == d.tag)
  let rest := c.dip.descs.filter (fun e => e.tag != d.tag)
  let drop := decide (16 ≤ rest.length)
  let l := (if drop then rest.drop 1 else rest) ++ [q]
  { c with dip := { c.dip with
    descs := l
    replaced := satAdd 16 c.dip.replaced (b2n same)
    dropped := satAdd 16 c.dip.dropped (b2n drop)
    descPeak := max c.dip.descPeak l.length } }

/-- DESC_ARRIVE: every line waiting under the tag then matches, in arrival order, up to LINES (08 R266 to R268). -/
def execDescArrive (tile : Nat) (d : DescIn) (s : State) : Host.Outcome State Fault Refusal :=
  .next (when (coreRuns s tile && d.tag != 0) (fun s =>
    let s := onCore tile (enterDesc d) s
    let c := (tileOf s tile).core
    match descOf c d.tag with
    | none => s
    | some q =>
      let mine := (c.dip.waitq.filter (fun l => l.tag == d.tag)).take q.lines
      let s := onCore tile (fun c => countLines d.tag mine.length { c with dip := { c.dip with
        waitq := mine.foldl (fun w l => w.erase l) c.dip.waitq } }) s
      mine.foldl (fun s l => takeLine tile q l s) s) s)

/-- LINE_DISCARD: the oldest line has waited 16 counted cycles (08 R267). -/
def execLineDiscard (tile : Nat) (s : State) : Host.Outcome State Fault Refusal :=
  .next (when (coreRuns s tile) (discardOldest tile) s)

/-- DESC_CLOSE (08 R268). -/
def execDescClose (tile tag : Nat) (s : State) : Host.Outcome State Fault Refusal :=
  .next (when (coreRuns s tile) (onCore tile (fun c =>
    { c with dip := { c.dip with descs := c.dip.descs.filter (fun q => q.tag != tag) } })) s)

/-- A step's accumulation may close: a command of a later step has started, and no descriptor of the step is open (08
R250). -/
def stepDone (c : Core) (step : Nat) : Bool :=
  decide (step < c.dip.maxStep) && !c.dip.descs.any (fun q => q.step == step)

/-- DIP_ACC_CLOSE: one of a slot's open accumulations, each for itself (08 R250). -/
def execDipAccClose (tile : Nat) (slot : Nat × Bool) (s : State) : Host.Outcome State Fault Refusal :=
  .next (when (coreUp (tileOf s tile) && (accOf slot.2 (dipSlotOf s tile slot.1)).any (fun a => stepDone (tileOf s tile).core a.step))
    (closeOne tile slot.1 slot.2 false) s)

/-- A SNOOP frame's last line has matched: its step's accumulation would close, or with TOK_EN the last descriptor of its
command has closed (09 R284). -/
def frameDone (c : Core) (d : CapCfg) (o : OpenFrame) : Bool :=
  if d.tokEn then !c.dip.descs.any (fun q => q.cmdSeq == o.cmdSeq) else stepDone c o.step

/-- SNOOP_FRAME_CLOSE: one of a slot's open frames (09 R284, R291 to R293). -/
def execSnoopFrameClose (tile : Nat) (slot : Nat × Bool) (s : State) : Host.Outcome State Fault Refusal :=
  .next (
    let c := (tileOf s tile).core
    let d := capCfg c slot.1
    when (coreUp (tileOf s tile) && !d.still && (frameOf slot.2 (capOf s tile slot.1)).any (frameDone c d))
      (closeOneFrame tile slot.1 slot.2 0) s)

/-- STILL_COPY_HOLD_END: the shim has acknowledged the last line, or HOLD_MAX has passed (09 R287). -/
def execStillCopyHoldEnd (tile slot : Nat) (acked : Bool) (s : State) : Host.Outcome State Fault Refusal :=
  .next (when (capOf s tile slot).holding (fun s =>
    let d := capCfg (tileOf s tile).core slot
    let s := if acked then s else elapse ((capOf s tile slot).holdFrom + d.holdMax * 1000) s
    finishHold tile slot acked 0 s) s)

/-! Commands and contexts -/

/-- A command boundary returns the hang watchdog to zero (10 R320). -/
def clearHang (me : Nat) (x : Tile) : Tile := restartHang me { x with hang := { x.hang with fired := false } }

/-- The new command's bank opens; THR_REGION may be high from its first cycle (07 R216, R217). -/
def openBank (cmd : Command) (thr : Bool) (k : CoreCount) : CoreCount :=
  { k with
    cmdo := { layer := cmd.layer, oper := cmd.oper, step := cmd.step, thrSeen := thr }
    cmdOpen := true
    curStep := cmd.step
    anyCmd := true }

/-- COMMAND_START: the cycles up to the swap belong to the closing bank (07 R216 to R221; 05 R165, R166). -/
def execCommandStart (tile : Nat) (cmd : Command) (cyc : Cycles) (s : State) : Host.Outcome State Fault Refusal :=
  .next (when (coreRuns s tile) (fun s =>
    let s := addCycles tile cyc s
    let k := (tileOf s tile).core.count
    let s := if k.anyCmd then closeBank tile s else s
    let s := if k.anyCmd && decide (k.curStep < cmd.step) then closeTileStep tile cmd.step s else s
    let me := stubNow s tile
    let s := onTile tile (fun x =>
      let y := clearHang me (onCount (openBank cmd x.power.thr) x)
      { y with core := { y.core with
        cmd := cmd
        cmdSeq := y.core.cmdSeq + 1
        cmdBusy := true
        dip := { y.core.dip with maxStep := max y.core.dip.maxStep cmd.step } } }) s
    cmpEvent tile 1 (cmdTest (tileOf s tile).core cmd false) s) s)

/-- At the last cycle of the K-th command of a step the agent stills itself, and the tile drives VPEND (04 R126, R149). -/
def selfStill (t : Nat) (vpend : Bool) (s : State) : State :=
  let x := tileOf s t
  if !x.still.stepping || x.still.stepK = 0 then s
  else
    let n := min 255 (x.still.stepRun + 1)
    let s := onTile t (fun x => { x with still := { x.still with stepRun := n } }) s
    if n < x.still.stepK then s
    else
      recordStill t s.root.stepScope true true (onTile t (freeze s.root.stepScope (ownTime x (now s)) (now s) 0 vpend) s)

/-- COMMAND_END: CMD_END, the end of the command's descriptors, the COMMAND comparators, then a command step's own still
and the still-copy holds (10 R304, R320; 08 R268; 05 R165; 04 R149; 09 R286). -/
def execCommandEnd (tile : Nat) (cyc : Cycles × Bool) (s : State) : Host.Outcome State Fault Refusal :=
  .next (when (coreRuns s tile && (tileOf s tile).core.count.cmdOpen) (fun s =>
    let s := addCycles tile cyc.1 s
    let c := (tileOf s tile).core
    let me := stubNow s tile
    let s := onTile tile (fun x =>
      let y := clearHang me (onCount (fun k => { k with cmdOpen := false }) x)
      { y with core := { y.core with
        cmdBusy := false
        dip := { y.core.dip with descs := y.core.dip.descs.filter (fun q => q.cmdSeq != y.core.cmdSeq) } } }) s
    let s := record tile 0x01 (c.cmd.layer * 2 ^ 48 + c.cmd.oper * 2 ^ 32 + c.cmd.step) s
    let s := cmpEvent tile 1 (cmdTest (tileOf s tile).core c.cmd true) s
    (List.range 4).foldl (fun s n => holdSlot tile n c.cmd s) (selfStill tile cyc.2 s)) s)

/-- CONTEXT_SWITCH (05 R165). -/
def execContextSwitch (tile old new : Nat) (s : State) : Host.Outcome State Fault Refusal :=
  .next (when (coreRuns s tile) (fun s =>
    let s := onTile tile (fun x => { x with engine := { x.engine with ctxSel := new } }) s
    cmpEvent tile 2 (ctxTest (tileOf s tile).core old new) s) s)

/-- CONTEXT_LOAD: CTX_EPOCH adds 1, modulo 256 (06 R209). -/
def execContextLoad (tile : Nat) (s : State) : Host.Outcome State Fault Refusal :=
  .next (when (coreRuns s tile) (onTile tile (fun x =>
    { x with txn := { x.txn with ctxEpoch := (x.txn.ctxEpoch + 1) % 256 } })) s)

/-! Errors and watchdogs -/

/-- A link CRC error at the tile's router: STORM_N of them within a window of 1 ms of stub time raise class 4, once per window
(05 R157, 12 R370; log 116: the windows begin at multiples of 1 ms). -/
def stormCount (t : Nat) (s : State) : State :=
  let me := stubNow s t
  let s := if (tileOf s t).hang.stormFrom + 1000000 ≤ me then
    onTile t (fun x => { x with hang := { x.hang with stormErrs := 0, stormFrom := me / 1000000 * 1000000, stormDone := false } }) s else s
  let s := onTile t (fun x => { x with hang := { x.hang with stormErrs := x.hang.stormErrs + 1 } }) s
  let h := (tileOf s t).hang
  if s.cfg.stormN ≤ h.stormErrs && !h.stormDone then
    stubAlarm t 4 (onTile t (fun x => { x with hang := { x.hang with stormDone := true } }) s)
  else s

/-- TILE_ERROR_EVENT: index 36 to 39 of R213, and 41 for an uncorrected fabric data error, which no counter of R213 counts; an
uncorrected error raises class 1 (07 R213; 05 R157; 12 R368, R370). -/
def execTileErrorEvent (tile index line port : Nat) (s : State) : Host.Outcome State Fault Refusal :=
  .next (when (coreUp (tileOf s tile) && decide (36 ≤ index) && decide (index ≤ 41) && index != 40) (fun s =>
    let s := if index = 41 then s else countError tile index (if 38 ≤ index then port else line) s
    if index = 37 || index = 41 then stubAlarm tile 1 s
    else if index = 38 then stormCount tile s
    else s) s)

/-- WAIT_DESCRIPTOR: the stub holds the latest descriptor and records WAIT when VALID rises; a still freezes it (10
R321). -/
def execWaitDescriptor (tile e : Nat) (d : Word) (s : State) : Host.Outcome State Fault Refusal :=
  .next (when (coreRuns s tile && decide (e < 4)) (fun s =>
    let rise := d.getLsbD 63 && !(mget 0 (tileOf s tile).hang.wait e).getLsbD 63
    let s := onTile tile (fun x => { x with hang := { x.hang with wait := mput 0 x.hang.wait e d } }) s
    if rise then record tile 0x02 d.toNat s else s) s)

/-- HANG: the count reaches the limit (10 R320); class 3 does nothing more while a region still stands (04 R144). -/
def execHang (tile : Nat) (s : State) : Host.Outcome State Fault Refusal :=
  .next (when (coreUp (tileOf s tile) && hangCounts (tileOf s tile)) (fun s =>
    let s := elapse (now s + (hangLimit (tileOf s tile) - hangCount (stubNow s tile) (tileOf s tile))) s
    let c := (tileOf s tile).core.cmd
    let me := stubNow s tile
    let s := onTile tile (fun x =>
      let y := stopHang me x
      { y with hang := { y.hang with fired := true, episodes := satAdd 16 x.hang.episodes 1 } }) s
    let s := record tile 0x05 (c.layer * 2 ^ 48 + c.oper * 2 ^ 32 + c.step) s
    cmpEvent tile 6 (fun _ => true) (driveClass 3 s)) s)

/-- CWDT_EXPIRY: no increment has come for 100 µs of the stub's time; the watchdog pauses while THR_REGION is high, and
expires once until increments resume (12 R369). -/
def execCwdtExpiry (tile : Nat) (s : State) : Host.Outcome State Fault Refusal :=
  .next (when (coreUp (tileOf s tile) && (tileOf s tile).power.ready && !(tileOf s tile).power.thr && !(tileOf s tile).power.cwdtHeld) (fun s =>
    let s := elapse (now s + ((tileOf s tile).power.cwdtSince + 100000 - stubNow s tile)) s
    stubAlarm tile 2 (setW1c (agentKey tile 0x48) 1
      (onTile tile (fun x => { x with power := { x.power with cwdtFired := true, cwdtHeld := true } }) s))) s)

end Sys2Proof.Machine
end

