-- ==== Sys2Proof/Machine/Power.lean ====
section
/-! DEFINITION. A tile's power and clock (07 R224, R225; 04 R140, R141; 15 R475; 17 R502). -/

namespace Sys2Proof.Machine

def onPower (f : StubPower → StubPower) (x : Tile) : Tile := { x with power := f x.power }

/-- DARK_PENDING_RISE: open accumulations close DISTURBED and open frames close DARK, then the save of the counters ends
with DARK_READY (07 R225, 08 R270, 09 R299). `savedOk` says that the save completes in time. -/
def execDarkPendingRise (tile : Nat) (savedOk : Bool) (s : State) : Host.Outcome State Fault Refusal :=
  .next (when (inService s && (tileOf s tile).power.pwrOk) (fun s =>
    let s := closeFrames tile 16 (closeAllAccs tile s)
    onTile tile (fun x =>
      { x with
        power := { x.power with
          darkPending := true
          pendingAt := now s
          darkReady := savedOk }
        save := if savedOk then some { count := x.core.count } else none
        plan := { x.plan with
          saved := savedOk
          saveLost := x.plan.saveLost && !savedOk } }) s) s)

/-- DARK_PENDING_FALL: before power is removed it cancels the handshake, and the core goes on as it was (07 R225). -/
def execDarkPendingFall (tile : Nat) (s : State) : Host.Outcome State Fault Refusal :=
  .next (onTile tile (fun x =>
    if x.power.pwrOk && x.power.darkPending then
      { x with
        power := { x.power with darkPending := false, darkReady := false }
        save := none
        plan := { x.plan with saved := false } }
    else onPower (fun p => { p with darkPending := false }) x) s)

/-- DARK_SAVE_TIMEOUT: 10 µs after DARK_PENDING the stub raises DARK_READY all the same and keeps nothing (07 R225). -/
def execDarkSaveTimeout (tile : Nat) (s : State) : Host.Outcome State Fault Refusal :=
  .next (when (inService s && (tileOf s tile).power.pwrOk && (tileOf s tile).power.darkPending && !(tileOf s tile).power.darkReady) (fun s =>
    onTile tile (fun x =>
      { x with
        power := { x.power with darkReady := true }
        save := none
        plan := { x.plan with saved := false, saveLost := true } }) (elapse ((tileOf s tile).power.pendingAt + 10000) s)) s)

/-- A held set, or one that is being applied, loses its core-bound items: VOID and a HOLD_VIOLATION record (06 R205). -/
def voidHeld (t : Nat) (s : State) : State :=
  let x := tileOf s t
  if x.txn.hold || x.txn.tstate = 4 then
    record t 0x0A (x.txn.id * 2 ^ 48) (onTile t (fun x => { x with txn := { x.txn with void := true } }) s)
  else s

/-- The core's state is gone and its tile's with it: with a still bit set the tile is DARK_STILL, else DARK (04 R141); the
tile's own state is undefined from here (log 10). -/
def darkTile (k t : Nat) (x : Tile) : Tile :=
  { x with
    core := {}
    engine := freeEngine k t
    power := { x.power with pwrOk := false, ready := false, noClock := false }
    plan := { x.plan with saveLost := x.plan.saveLost || !(x.power.darkPending && x.power.darkReady) }
    still := { x.still with
      state := if x.still.mask != 0 then stDarkStill else stDark
      frz := false
      frzAck := false
      rfrzAck := false
      vpend := false
      stepping := false } }

/-- CORE_PWR_FALL (04 R141, 06 R205, 07 R225, 10 R304). A straggler that turns DARK_STILL counts as still (04 R134). -/
def execCorePwrFall (tile : Nat) (s : State) : Host.Outcome State Fault Refusal :=
  .next (when ((tileOf s tile).power.pwrOk) (fun s =>
    if !inService s then onTile tile (onPower (fun p => { p with pwrOk := false, ready := false })) s
    else
      let s := onTile tile (stopHang (stubNow s tile)) (voidHeld tile s)
      let s := settleHold tile (drawFree (onTile tile (darkTile s.boot.freeCount tile) s))
      let s := record tile 0x14 (2 ^ 63 + b2n (tileOf s tile).plan.saveLost * 2 ^ 62) s
      if (tileOf s tile).still.mask != 0 then leaveStragglers tile s else s) s)

/-- The counters run in a core that comes up once start has set RUN (07 R214). -/
def runsCounters (s : State) : Bool := s.boot.phase == 9 || s.boot.romReason == 10

/-- A core's counters as they come back: saved counters and tables, or zeros; the counter plan comes back by RELOAD
(07 R225, R226). -/
def restoredCount (run : Bool) (v : Option SaveArea) : CoreCount :=
  match v with
  | some a => { a.count with
      run := run
      cmdOpen := false
      dkey := []
      dplan := []
      dnext := []
      planId := 0 }
  | none => { run := run }

/-- A core comes up: under FRZ while a still bit is set, waiting for its plans if its tile holds an LTN, and taking no
action until it has rebuilt core time (03 R98; 04 R141, R142, R155; 15 R476). -/
def coreUpAgain (now : Nat) (x : Tile) : Tile :=
  restartHang (ownTime x now) { x with
    power := { x.power with pwrOk := true, ready := false }
    plan := { x.plan with reload := x.plan.reload || takesPlan x }
    still := { x.still with
      frz := x.still.mask != 0
      edgeAt := if x.still.mask != 0 then now else x.still.edgeAt
      lateFrz := if x.still.mask != 0 then decide (x.still.actTick + 1000 < ownTime x now) else x.still.lateFrz
      state := if x.still.mask != 0 then stFreezing
        else if x.still.pending.any (fun a => a.kind == 1) then stArmed else stRunning } }

/-- CORE_PWR_RISE (15 R475, 07 R225, 10 R304). -/
def execCorePwrRise (tile : Nat) (s : State) : Host.Outcome State Fault Refusal :=
  .next (when (decide (tile < numTiles) && !(tileOf s tile).power.pwrOk) (fun s =>
    if !inService s then onTile tile (onPower (fun p => { p with pwrOk := true })) s
    else
      let s := onTile tile (fun x =>
        let y := coreUpAgain (now s) x
        { y with
          core := { y.core with count := restoredCount (runsCounters s) x.save }
          save := none
          power := { y.power with darkReady := false }
          plan := { y.plan with saved := false } }) s
      record tile 0x14 (b2n (tileOf s tile).plan.saveLost * 2 ^ 62) s) s)

/-- CORE_TIME_REBUILT: the core may act; the actions whose tick has passed meanwhile are late, and the pair's flag is the VPEND
of a core under FRZ (02 R80, 03 R98, 04 R126). -/
def execCoreTimeRebuilt (tile : Nat × Bool) (s : State) : Host.Outcome State Fault Refusal :=
  .next (when (inService s && (tileOf s tile.1).power.pwrOk) (fun s =>
    let me := stubNow s tile.1
    let lates := (tileOf s tile.1).still.pending.filter (fun a => decide (a.tick < me) && !a.late)
    let s := onTile tile.1 (fun x =>
      let y := onPower (fun p => { p with ready := true, cwdtSince := if p.ready then p.cwdtSince else me }) x
      { y with still := { y.still with
        pending := y.still.pending.map (fun a => { a with late := a.late || decide (a.tick < me) })
        vpend := if y.still.frz && !x.power.ready then tile.2 else y.still.vpend } }) s
    lates.foldl (fun s a => recordLate tile.1 a.kind a.scope a.tick s) s) s)

/-- Some region is throttled or changing frequency: its THR_REGION is high for more than a stopped TCLK (07 R224). -/
def someThr (s : State) : Bool := s.tiles.any (fun p => p.2.power.thr && !p.2.power.noClock)

/-- THR_ANY follows the regions (07 R224). -/
def followThr (s : State) : State :=
  let v := someThr s
  onBoot (fun b => { b with thrAny := v, thrAnyAt := if b.thrAny && !v then now s else b.thrAnyAt }) s

/-- THR_REGION_CHANGE: THR_REGION rises or falls, with TCLK stopped or not; THR_ANY follows. A rise within a command's span is
THR_SEEN (07 R217, R224). -/
def execThrRegionChange (tile : Nat) (high stopped : Bool) (s : State) : Host.Outcome State Fault Refusal :=
  .next (followThr (onTile tile (fun x =>
    let x := onPower (fun p => { p with
      thr := high
      noClock := p.noClock || (high && stopped && p.pwrOk)
      cwdtSince := if p.thr && !high then ownTime x (now s) else p.cwdtSince }) x
    onCount (fun k => if k.cmdOpen && high then { k with cmdo := { k.cmdo with thrSeen := true } } else k) x) s))

/-- TCLK_RESUME: TCLK runs again; a core whose mask is set asserts FRZ at its first edge, E (04 R126, R134, R140). -/
def execTclkResume (tile : Nat × Bool) (s : State) : Host.Outcome State Fault Refusal :=
  .next (when ((tileOf s tile.1).power.noClock) (fun s =>
    followThr <| onTile tile.1 (fun x =>
      let x := onPower (fun p => { p with noClock := false }) x
      if inService s && x.power.pwrOk && x.still.mask != 0 && x.still.state == stFreezing then assertFrz (now s) tile.2 x else x) s) s)

/-- What VDD_AON keeps of a tile: the core and the tile itself stand; stub, ring and still-mask contents are the k-th free
content, and the stub answers nothing (17 R502). -/
def aonTile (k t : Nat) (x : Tile) : Tile :=
  let v := Config.freeTile k t
  { v with
    core := x.core
    engine := x.engine
    power := { v.power with
      pwrOk := x.power.pwrOk
      darkPending := x.power.darkPending
      thr := x.power.thr
      noClock := x.power.noClock
      answers := false } }

/-- VDD_AON_FALL: stub, ring and still-mask contents are undefined until the next cold reset, and a census of every stub
fails (17 R502). -/
def execVddAonFall (s : State) : Host.Outcome State Fault Refusal :=
  .next (when (!s.boot.inReset) (fun s =>
    let k := s.boot.freeCount
    let s := onEveryTile (aonTile k) s
    drawFree (setW1c 0x600 (2 ^ 23) (onRoot (fun r => { r with censusFail := true }) (onBoot (fun b => { b with aonLost := true }) s)))) s)

end Sys2Proof.Machine
end

