-- ==== Sys2Proof/Machine/Txns.lean ====
section
/-! DEFINITION. Debug transactions: the host's requests, staging at a stub, the check, the press and what confirms it (06). -/

namespace Sys2Proof.Machine

/-! Opening and building -/

/-- The open host transaction of an identifier: it has not been committed (06 R190). -/
def openTxn (s : State) (id : Nat) : Option Txn :=
  match s.txn.host with
  | none => none
  | some x => if x.id = id && !x.committed then some x else none

/-- TXN_OPEN (06 R188, R192). -/
def execTxnOpen (h : ReqHdr) (mapEpoch tmo : Nat) (s : State) : Host.Outcome State Fault Refusal :=
  request { op := 0x50, classC := true, need := .intrusive } h
    (fun _ s => [badField (tmo != 0 && (decide (tmo < 20) || decide (10000 < tmo))) 2, busy s.txn.host.isSome])
    (fun h s =>
      let id := nextTxnId s.txn.lastId
      let x : Txn := { id := id, mapEpoch := mapEpoch, tmo := if tmo = 0 then s.txn.stageTmo else tmo, owner := h.session }
      respond h .ok (le 2 id) (onTxn (fun q => { q with
        host := some x
        lastId := id
        id := if q.active.isNone then id else q.id
        centre := q.centre && q.active.isSome
        targets := if q.active.isNone then 0 else q.targets
        tstate := if q.active.isNone && q.tstate != 6 then 1 else q.tstate }) s)) s

/-- ADDR lies in its kind's range (06 R185, 16 R489). -/
def addrInRange (i : Item) : Bool :=
  match i.kind with
  | 1 => i.addr % 8 == 0 && decide (i.addr + 8 * i.data.length ≤ 0x5000)
  | 2 => i.addr % 8 == 0 && decide (i.addr + 8 * i.data.length ≤ 49152)
  | 3 => decide (i.addr + i.data.length ≤ 64)
  | 7 => decide (i.addr < 512)
  | _ => i.addr == 0

/-- The registers of the agent window that a press may write: those with RW access, but for ST_REGION (06 R186; 10 R325;
07 R240). -/
def aregAllowed (o : Nat) : Bool := o == 0x80 || o == 0x90 || o == 0x1010

/-- A value an AREG item writes sets a reserved bit or leaves a field's range (06 R189, 16 R481). -/
def aregValueBad (i : Item) : Bool :=
  i.kind == 1 && (List.range i.data.length).any (fun j =>
    let o := i.addr + 8 * j
    aregAllowed o && (badByte (agentResv o) (agentRanges o) (i.data.getD j 0).toNat).isSome)

/-- An item that TXN_ADD finds malformed (06 R189). -/
def itemBad (cchk : Bool) (i : Item) : Bool :=
  kindWords i.kind == 0 || i.data.length == 0 || decide (kindWords i.kind < i.data.length) || !addrInRange i ||
  (i.kind == 4 && decide (3 < (i.data.headD 0).toNat)) || aregValueBad i || (cchk && !needsStill i.kind)

/-- The words of an entry, headers included. -/
def entryWords (e : TxnEntry) : Nat := (e.items.map (fun i => 1 + i.data.length)).sum

/-- An entry that TXN_ADD finds malformed: its target (06 R189, 00 R8), or WORDS outside 1 to 512 (13 R435, 00 R15). An
address that names no tile is no target (log 29). -/
def entryBad (e : TxnEntry) : Bool :=
  (if e.isSet then setBad e.set else addrBad e.addr || !tileSpace (addrSpace e.addr)) ||
  e.items.isEmpty || decide (512 < entryWords e)

/-- Bytes of entries in the transaction buffer (13 R435; log 29). -/
def bufferBytes (es : List TxnEntry) : Nat := (es.map (fun e => 24 + 8 * entryWords e)).sum

/-- Some target would hold more than 512 words (06 R189). -/
def overFull (s : State) (es : List TxnEntry) : Bool :=
  (targetsOf s [] es).any (fun t => decide (512 < ((es.filter (fun e => entryHas s e t)).map entryWords).sum))

/-- The items of a list of entries, each with its entry's CCHK; INDEX of the detail body counts them (06 R189; log 29). -/
def itemList (es : List TxnEntry) : List (Bool × Item) := es.flatMap (fun e => e.items.map (fun i => (e.cchk, i)))

/-- The index of an entry's first item. -/
def firstItem (es : List TxnEntry) (k : Nat) : Nat := ((es.take k).map (fun e => e.items.length)).sum

/-- The byte offset of an entry's target in the request body (13 R429, R435; 00 R514). -/
def targetAt (es : List TxnEntry) (k : Nat) : Nat := 16 + bufferBytes (es.take k)

/-- The checks of TXN_ADD (06 R189; 00 R514). -/
def addChecks (txn : Nat) (es : List TxnEntry) (s : State) : List Check :=
  let is := itemList es
  let old := match openTxn s txn with
    | some x => x.entries
    | none => []
  (List.range es.length).map (fun k => badEntry .malformed (entryBad (es.getD k {})) (firstItem es k)) ++
  (List.range is.length).map (fun k => badEntry .malformed (let p := is.getD k (false, {}); itemBad p.1 p.2) k) ++
  (List.range is.length).map (fun k => badEntry .denied (decide (5 ≤ (is.getD k (false, {})).2.kind)) k) ++
  [ refuse (openTxn s txn).isNone ] ++
  (List.range es.length).map (fun k => refuse
    (let e := es.getD k {}; !e.isSet && (entryTile s e).isNone) (targetAt es k)) ++
  [ refuse (decide (4194304 < bufferBytes (old ++ es))), refuse (overFull s (old ++ es)), emptyIf es.isEmpty ]

/-- TXN_ADD. -/
def execTxnAdd (h : ReqHdr) (txn : Nat) (entries : List TxnEntry) (s : State) : Host.Outcome State Fault Refusal :=
  request { op := 0x51, classC := true, need := .intrusive } h (fun _ s => addChecks txn entries s)
    (fun h s => respond h .ok [] (onTxn (fun q => { q with
      host := q.host.map (fun x => { x with entries := x.entries ++ entries }) }) s)) s

/-! Committing -/

/-- An entry names its tiles by physical coordinate (06 R190; log 29). -/
def entryPhys (e : TxnEntry) : Bool := if e.isSet then !e.set.lfilt else addrPhys e.addr

/-- An item that needs the still has a target that no declared still covers (06 R190). -/
def uncovered (s : State) (e : TxnEntry) : Bool :=
  e.items.any (fun i => needsStill i.kind) && (entryTiles s e).any (fun t => !tileDeclared s t)

/-- The entry's AREG items write a register that 06 R186 excludes. -/
def aregExcluded (e : TxnEntry) : Bool :=
  e.items.any (fun i => i.kind == 1 && (List.range i.data.length).any (fun j => !aregAllowed (i.addr + 8 * j)))

/-- Some transaction stages, presses, waits or is fenced (06 R192, R203). -/
def stageBusy (s : State) : Bool := s.txn.active.isSome || !s.txn.waiting.isEmpty || s.txn.tstate == 6

/-- The checks of TXN_COMMIT (06 R190; 11 R362; 12 R391). -/
def commitChecks (txn tick : Nat) (h : ReqHdr) (s : State) : List Check :=
  let x := (openTxn s txn).getD {}
  let es := x.entries
  let known := (openTxn s txn).isSome
  [ staleIf (known && x.mapEpoch != s.mapEpoch && es.any entryPhys),
    busy (stageBusy s || recBusy s || snapRuns s || s.snap.restoring),
    lateIf (tick != 0 && decide (tick < now s + s.time.lstill) && !h.atEarliest),
    refuse (!known) ] ++
  (List.range es.length).map (fun k =>
    let e := es.getD k {}
    badEntry .refused (aregExcluded e || (!e.isSet && (entryTile s e).isNone) || uncovered s e) k) ++
  [ refuse (tick != 0 && decide (now s + x.tmo * 1000 - 1000 < tick)) ]

/-- An empty transaction closes with nothing staged, and no event is recorded (06 R190, 00 R14). -/
def closeEmpty (h : ReqHdr) (s : State) : State :=
  respond h .empty [] (onTxn (fun q => { q with host := none, tstate := if q.tstate = 6 then 6 else 0 }) s)

/-- TXN_COMMIT. -/
def execTxnCommit (h : ReqHdr) (txn tick : Nat) (s : State) : Host.Outcome State Fault Refusal :=
  request { op := 0x52, classC := true, need := .intrusive } h (commitChecks txn tick)
    (fun h s =>
      match s.txn.host with
      | none => s
      | some x =>
        if x.entries.isEmpty then closeEmpty h s
        else beginStaging { x with committed := true, tick := tick, atEarliest := h.atEarliest, reply := some h } s) s

/-- The host transaction of an identifier that TXN_RINSE can still end: its PRESS has not been launched. -/
def rinsable (s : State) (txn : Nat) : Bool :=
  match s.txn.host with
  | none => false
  | some x => x.id == txn && !(x.committed && s.txn.pressed && s.txn.active.any (fun a => !a.centre))

/-- Takes a host transaction that waits to be staged once more out of the queue (06 R188, R202). -/
def dropWaiting (s : State) : State :=
  let r := (s.txn.waiting.find? (fun x => !x.centre)).bind (·.reply)
  respondOpt r .refused (detail { reason := 0x12, index := 5 }) (onTxn (fun q => { q with
    waiting := q.waiting.filter (fun x => x.centre)
    host := none
    cause := 5 }) s)

/-- TXN_RINSE: an open transaction ends at once; one that stages rinses with cause HOST (06 R188). -/
def execTxnRinse (h : ReqHdr) (txn : Nat) (s : State) : Host.Outcome State Fault Refusal :=
  request { op := 0x53, classC := true, need := .intrusive } h (fun _ s => [refuse (!rinsable s txn)])
    (fun h s =>
      let s := if (openTxn s txn).isSome then
          event evTxn (onTxn (fun q => { q with host := none, tstate := if q.tstate = 1 then 0 else q.tstate }) s)
        else if s.txn.active.any (fun a => !a.centre) then rinseTxn 5 s
        else dropWaiting s
      respond h .ok [] s) s

/-- The answer of TXN_QUERY (13 R429). -/
def txnBody (s : State) : List Byte :=
  le 8 (txnReg s) ++ le 8 s.txn.t ++ le 8 s.txn.d ++ le 4 ((s.txn.firstNak.map coord).getD 4294967295) ++
    le 1 s.txn.firstReason ++ zeros 3 ++ le 4 s.txn.lost.length ++ s.txn.lost.flatMap (stragBytes s)

/-- TXN_QUERY: R188 needs the intrusive session as a further right beside the least session of 13 R429 (06 R188, R210; 13 R425). -/
def execTxnQuery (h : ReqHdr) (s : State) : Host.Outcome State Fault Refusal :=
  request { op := 0x54, classC := false, need := .intrusive } h (fun _ _ => []) (okWith txnBody) s

/-! Staging at a stub -/

/-! The centre's STAGE packets (06 R193, R195) -/

/-- The entries that reach a target, each with the place of its first word in the staged set. -/
def shareParts (s : State) (x : Txn) (t : Nat) : List (Nat × TxnEntry × Nat) :=
  ((x.entries.filter (fun e => entryHas s e t)).foldl (fun (a : Nat × List (Nat × TxnEntry × Nat)) e =>
    let n := ((builtItems s e t).flatMap itemWords).length
    (a.1 + n, a.2 ++ [(a.1, e, n)])) (0, [])).2

/-- The STAGE packet that carries `n` words from OFFSET `off` on to target `t`; none where it would carry more than 7 or leave the
entry they belong to. A packet with LFILT or an LTN sets LCHK; one of an entry with CCHK carries its CTX_EPOCH. -/
def stagePacket (s : State) (x : Txn) (t off n : Nat) (final multi : Bool) : Option StagePkt :=
  match ((shareParts s x t).filter (fun p => decide (p.1 ≤ off))).getLast? with
  | none => none
  | some (o, e, k) =>
    let byLtn := !entryPhys e
    if 7 < n || o + k < off + n || (multi && !e.isSet) then none
    else some
      { txn := x.id
        offset := off
        final := final
        deadlineLo := s.txn.d % 2 ^ 32
        words := ((shareWords s x t).drop off).take n
        lchk := byLtn
        multi := multi
        mapEpoch := s.mapEpoch
        ltn := if byLtn && !multi then (ltnOf s t).getD 0 else 0
        cchk := e.cchk
        ctxEpoch := if e.cchk then e.ctxEpoch else 0 }

/-- Word `j` of a target's share has been answered for. -/
def wordAnswered (s : State) (t j : Nat) : Bool :=
  s.txn.answered.any (fun a => a.tile == t && decide (a.offset ≤ j) && decide (j < a.offset + a.words))

/-- The centre sends the packet: it is one of the transaction that stages, not answered yet; FINAL completes the share, once every
earlier packet to the target has been answered (06 R193, R195). A packet of an earlier transaction may still be under way
(log 136). -/
def sendsPacket (s : State) (t : Nat) (p : StagePkt) : Bool :=
  match s.txn.active with
  | none => true
  | some x =>
    if x.id != p.txn then true
    else
      let n := (shareWords s x t).length
      s.txn.tstate == 2 && entryTargets s x t && stagePacket s x t p.offset p.words.length p.final p.multi == some p &&
      !s.txn.answered.any (fun a => a.tile == t && (a.final || (a.offset == p.offset && !p.final))) &&
      (!p.final || (p.offset + p.words.length == n && (List.range p.offset).all (wordAnswered s t)))
where
  entryTargets (s : State) (x : Txn) (t : Nat) : Bool := x.entries.any (fun e => entryHas s e t)

/-! What a stub does with them -/

/-- The map and context checks of a packet (02 R48). -/
def packetStale (x : Tile) (p : StagePkt) : Nat :=
  if p.lchk && (!x.txn.ltnValid || x.txn.mapEpoch != p.mapEpoch || (!p.multi && x.txn.ltn != p.ltn)) then 3
  else if p.cchk && x.txn.ctxEpoch != p.ctxEpoch then 4
  else 0

/-- What a stub would hold after the packet. -/
def mergeStaged (x : Tile) (p : StagePkt) : Map Word :=
  let old := if x.txn.id = p.txn && holdsStaged x then x.txn.staged else []
  (List.range p.words.length).foldl (fun m i => mput 0 m (p.offset + i) (p.words.getD i 0)) old

/-- The words of the staged set that are written after the packet. -/
def mergeWritten (x : Tile) (p : StagePkt) : List Nat :=
  let old := if x.txn.id = p.txn && holdsStaged x then x.txn.written else []
  (List.range 512).filter (fun j => old.contains j || (decide (p.offset ≤ j) && decide (j < p.offset + p.words.length)))

/-- One more than the highest word index written (06 R196). -/
def wordCount (written : List Nat) : Nat := written.foldl (fun m j => max m (j + 1)) 0

/-- The staged words after the packet as far as they can be read: on FINAL all up to the highest written, those never written
zero; before, those ahead of the first one that is still to come (06 R194). -/
def readable (x : Tile) (p : StagePkt) : List Word :=
  let w := mergeWritten x p
  let n := if p.final then wordCount w else ((List.range 512).takeWhile w.contains).length
  (List.range n).map (fun j => mget 0 (mergeStaged x p) j)

/-- The reason a stub answers a STAGE packet with (06 R194). -/
def stageReason (x : Tile) (p : StagePkt) : Nat :=
  let stale := packetStale x p
  if stale != 0 then stale
  else if 512 < p.offset + p.words.length then 5
  else
    match decodeItems p.final 513 (readable x p) with
    | none => 7
    | some is =>
      if coreDark x && is.any (fun i => !darkAccepts i) then 2
      else if is.any (fun i => needsStill i.kind) && x.still.mask == 0 then 8
      else 0

/-- The staged words a stub holds, w_0 to w_(n−1) (06 R196). -/
def heldWords (x : Tile) : List Word := (List.range x.txn.words).map (fun i => mget 0 x.txn.staged i)

/-- The items a stub holds. -/
def heldItems (x : Tile) : List Item := (decodeItems true 513 (heldWords x)).getD []

/-- The words the digest runs over: for a BANK item, the stub's own digest of the inactive bank stands for the data word,
unless the core is dark (06 R196). -/
def digestWords (x : Tile) : List Word :=
  if coreDark x then heldWords x else withBank (bankDigest (bankList (inactiveBank x.core))) 513 (heldWords x)

def ownDigest (x : Tile) (t : Nat) : Word := stagedDigest x.txn.id t (digestWords x)

/-- The stub takes the packet's words, and on FINAL its set is STAGED (06 R194, R205). -/
def takeStage (t : Nat) (p : StagePkt) (s : State) : State :=
  let me := stubNow s t
  onTile t (fun x =>
    let y := { x with txn := { x.txn with
      id := p.txn
      words := wordCount (mergeWritten x p)
      staged := mergeStaged x p
      written := mergeWritten x p
      tstate := 1
      void := false
      deadline := widen32 me p.deadlineLo } }
    if p.final then { y with txn := { y.txn with
      tstate := 2
      digest := ownDigest y t
      hold := (heldItems y).any coreBound } }
    else y) s

/-- The centre notes a staging reply of the transaction in progress (06 R195, R197, 02 R58). -/
def noteReply (t reason : Nat) (p : StagePkt) (s : State) : State :=
  if !(s.txn.active.any (fun x => x.id == p.txn) && s.txn.tstate == 2) then s
  else
    let s := onTxn (fun q => { q with
      answered := q.answered ++ [{ tile := t, offset := p.offset, words := p.words.length, final := p.final }] }) s
    if reason != 0 then
      let first := match s.txn.firstNak with
        | some k => decide (t < k)
        | none => true
      onTxn (fun q => { q with
        nakCount := q.nakCount + 1
        firstNak := if first then some t else q.firstNak
        firstReason := if first then reason else q.firstReason }) s
    else if p.final then
      onTxn (fun q => { q with okCount := q.okCount + 1, digestXor := q.digestXor ^^^ (tileOf s t).txn.digest }) s
    else s

/-- STAGE: a stub takes a packet or answers with a reason and keeps nothing; content of another transaction goes first. An
ARMED stub keeps what it holds (06 R194, R204). -/
def execStage (tile : Nat) (p : StagePkt) (s : State) : Host.Outcome State Fault Refusal :=
  .next (when (inService s && (tileOf s tile).power.answers && decide (tile < numTiles) &&
      (tileOf s tile).txn.tstate != 3 && (tileOf s tile).txn.tstate != 4 && sendsPacket s tile p) (fun s =>
    let s := if holdsStaged (tileOf s tile) && (tileOf s tile).txn.id != p.txn then discardStaged tile 1 s else s
    let r := stageReason (tileOf s tile) p
    let s := if r = 0 then takeStage tile p s
      else onTile tile (fun x => { x with txn := { x.txn with
        id := p.txn
        tstate := 0
        words := 0
        staged := []
        written := []
        hold := false
        void := false } }) s
    noteReply tile r p s) s)

/-- RINSE: a stub that holds the identifier's content discards it (06 R204). -/
def execRinse (tile txn : Nat) (s : State) : Host.Outcome State Fault Refusal :=
  .next (when (inService s) (rinseStub txn tile) s)

/-- STAGE_DEADLINE: the stub's time reaches D: content that is not ARMED is discarded, and HOLD_AWAKE is driven no longer (06 R204,
R205). -/
def execStageDeadline (tile : Nat) (s : State) : Host.Outcome State Fault Refusal :=
  .next (when (inService s && (holdsStaged (tileOf s tile) || (tileOf s tile).txn.hold)) (fun s =>
    let s := elapse (reachAt s tile (tileOf s tile).txn.deadline) s
    if holdsStaged (tileOf s tile) then discardStaged tile 2 s
    else onTile tile (fun x => { x with txn := { x.txn with hold := false } }) s) s)

/-! The check -/

/-- The first staging met STALE_MAP and addresses its targets by LTN: it rinses and is staged once more (06 R202). -/
def restage (x : Txn) (s : State) : State :=
  let s := rinseTargets x.id (txnTargets s x) (onTxn (fun q => { q with tstate := 5 }) s)
  let y := { x with restaged := true }
  nextCentre (onTxn (fun q => { q with
    active := none
    host := if x.centre then q.host else some y
    waiting := y :: q.waiting }) s)

/-- The digests the centre expects of every target (06 R197). -/
def expectXor (s : State) (x : Txn) : Word := xorAll ((txnTargets s x).map (expectDigest s x))

/-- TXN_CHECK: the replies are in. A NAK, a short count or a wrong digest rinses; otherwise the PRESS is placed (06 R197,
R198, R201, R202). -/
def execTxnCheck (s : State) : Host.Outcome State Fault Refusal :=
  .next (match s.txn.active with
    | none => s
    | some x =>
      if s.txn.tstate != 2 then s
      else if s.txn.nakCount != 0 then
        if s.txn.firstReason = 3 && !x.restaged && !x.entries.any entryPhys then restage x s else rinseTxn 1 s
      else if s.txn.okCount != s.txn.targets then rinseTxn 2 s
      else if s.txn.digestXor != expectXor s x then rinseTxn 3 s
      else placePress (onTxn (fun q => { q with tstate := 3 }) s))

/-- PRESS_PLACE_TIMEOUT: no queue entry has freed by D − 1 µs (06 R198). -/
def execPressPlaceTimeout (s : State) : Host.Outcome State Fault Refusal :=
  .next (when (s.txn.tstate == 3 && !s.root.queue.any (fun a => a.kind == 3)) (fun s =>
    rinseTxn 4 (elapse (s.txn.d - 1000) s)) s)

/-- FENCE_END: D has passed, and the centre stages again (06 R203). -/
def execFenceEnd (s : State) : Host.Outcome State Fault Refusal :=
  .next (when (s.txn.tstate == 6) (fun s =>
    let s := elapse s.txn.d s
    nextCentre (onTxn (fun q => { q with tstate := b2n q.host.isSome }) s)) s)

/-! The press at a tile -/

/-- The frames that the active watch plan gives a member (09 R290, R291). -/
def planFrames (s : State) (t : Nat) : List Frame :=
  match s.plans.watch, ltnOf s t with
  | some p, some l =>
    let cs := capEntries p.entries
    (List.range cs.length).flatMap (fun i =>
      let c := cs.getD i {}
      match capSlice s c t with
      | none => []
      | some v => (List.range c.frames).map (fun k =>
          { slot := c.slot
            tile := l
            index := k
            entry := i
            tensor := c.tensor
            base := v.base
            stride := v.stride
            tokstride := v.tokstride
            rowlen := v.rowlen
            sliceOff := v.off
            sliceLen := v.len
            fmt := ((s.plans.symbols.find? (fun r => r.tensor == c.tensor)).map (·.fmt)).getD 0
            mode := c.still }))
  | _, _ => []

/-- The active transaction is a mend's, whose pressed remap moves a role with its frames (12 R385, 09 R299). -/
def mendPress (s : State) : Bool := s.txn.active.any (fun x => x.purpose == 4)

/-- The frames of a tile's role are those of the new plan (09 R290; 05 R176). A mend keeps the role's frames as they are (09
R299). -/
def replaceFrames (t : Nat) (s : State) : State :=
  match ltnOf s t with
  | none => s
  | some l =>
    if mendPress s then s
    else
      let fs := planFrames s t
      onShim (fieldOf t) (fun q => { q with frames := q.frames.filter (fun f => f.tile != l) ++ fs }) s

/-- What a switch of the bank ends: open accumulations and frames close DISTURBED (08 R270, 09 R299). -/
def closeBankWork (t : Nat) (s : State) : State := closeFrames t 8 (closeAllAccs t s)

/-- A core as it takes the other bank: match counts, FIRED, HITS and ARMED are cleared, and the new slots begin with the next
step (05 R172; 08 R270; 09 R299). -/
def otherBank (sel : Bool) (c : Core) : Core :=
  { c with
    active := sel
    cmps := []
    dip := { c.dip with
      slots := mapBelow {} 4 (fun _ d => { d with cur := none, older := none, minStep := nextStep c }) c.dip.slots
      caps := mapBelow {} 4 (fun _ _ => { minStep := nextStep c }) []
      capq := [] } }

/-- The core takes the other bank at edge E. -/
def switchBank (t : Nat) (sel : Bool) (s : State) : State := replaceFrames t (onCore t (otherBank sel) s)

/-- A BANK item: the stub records the plan's identifier and digest, and a core that is up takes the bank (06 R185). -/
def pressBank (i : Item) (t : Nat) (s : State) : State :=
  let s := onTile t (fun x => { x with plan := { x.plan with watchId := i.addr % 256, digest := i.data.headD 0, fails := 0 } }) s
  if coreDark (tileOf s t) then replaceFrames t s else switchBank t (bit 8 i.addr) s

/-- An IDENT item (06 R185): LTN and region membership. -/
def pressIdent (v : Nat) (t : Nat) (s : State) : State :=
  onTile t (fun x => { x with
    txn := { x.txn with ltnValid := bit 63 v, ltn := bits 50 32 v }
    still := { x.still with region := BitVec.ofNat 16 (v % 65536 / 2 * 2) } }) (keepLoaded t s)

/-- A press writes AG_DCTL: when it changes SEL, it activates the fetched counter plan (07 R219, R240; 16 R493). -/
def pressDctl (v : Nat) (t : Nat) (s : State) : State :=
  let x := tileOf s t
  let k := x.core.count
  if k.sel = bit 8 v then onTile t (onCount (fun k => { k with planId := v % 256, foldStep := bits 63 32 v })) s
  else
    let ws := fun lo => (List.range 15).foldl (fun m e => mput 0 m e (mget 0 k.dnext (lo + e))) []
    onTile t (fun x =>
      let y := onCount (fun k => { k with
        sel := bit 8 v
        planId := v % 256
        tabPlan := v % 256
        foldStep := bits 63 32 v
        dkey := ws 0
        dplan := ws 15
        dtab := []
        dcls := []
        folded := true
        partialStep := true
        devSeen := [] }) x
      { y with plan := { y.plan with cntId := v % 256, closedStep := 4294967295, overrun := false, fails := 0 } }) s

/-- The shim of a streaming tile gives it a partition of the eddy pool, which a load empties; a tile back in ring mode has
none (10 R310 to R312). -/
def setPartition (t : Nat) (stream : Bool) (s : State) : State :=
  let n := match s.plans.trace with
    | none => 0
    | some p => ((fieldTiles (fieldOf t)).filter (fun u => inSet s p.cfg.set u && (ltnOf s u).isSome)).length
  setCredit (onShim (fieldOf t) (fun q => { q with
    partitions := q.partitions.filter (fun p => p.tile != t) ++ (if stream then [newPartition (max 1 n) t] else []) }) s)

/-- A press writes ST_EDDY_CTL. A replaced plan sends what is unsent; a removed one discards it (10 R310, R311, R313). -/
def pressEddyCtl (v : Nat) (t : Nat) (s : State) : State :=
  let x := tileOf s t
  let s := if x.eddy.stream && s.plans.trace.isSome then flushStub t s else s
  let fall := x.eddy.freeze && !bit 9 v
  let s := onTile t (fun x => { x with eddy := { x.eddy with
    mask := forcedMask (BitVec.ofNat 8 (bits 39 32 v))
    flushUs := bits 31 16 v
    fullClass := bits 15 12 v
    policy := bits 11 10 v
    freeze := bit 9 v
    stream := bit 8 v
    freezeAt := if bit 9 v && !x.eddy.freeze then now s else x.eddy.freezeAt
    streamQ := if bit 8 v then x.eddy.streamQ else []
    unsent := if bit 8 v then x.eddy.unsent else 0
    streamGap := if bit 8 v then x.eddy.streamGap else 0
    flushAsked := bit 8 v && x.eddy.flushAsked
    fullDriven := false } }) s
  setPartition t (bit 8 v) (if fall then thaw t s else s)

/-- A register that an AREG item writes (06 R185, R186). -/
def pressReg (t o v : Nat) (s : State) : State :=
  match o with
  | 0x80 => pressEddyCtl v t s
  | 0x90 => agentWrite t 0x90 v s
  | 0x1010 => pressDctl v t s
  | _ => s

def pressAreg (i : Item) (t : Nat) (s : State) : State :=
  (List.range i.data.length).foldl (fun s j => pressReg t (i.addr + 8 * j) (i.data.getD j 0).toNat s) s

/-- The items that take effect at edge E (06 R199). -/
def pressItem (t : Nat) (s : State) (i : Item) : State :=
  match i.kind with
  | 1 => pressAreg i t s
  | 4 => onTile t (fun x => { x with engine := { x.engine with ctxSel := (i.data.headD 0).toNat % 4 } }) s
  | 5 => pressIdent (i.data.headD 0).toNat t s
  | 6 => onTile t (fun x => { x with txn := { x.txn with mapEpoch := (i.data.headD 0).toNat % 65536 } }) s
  | 7 => pressBank i t s
  | _ => s

/-- An item written through the SRAM copy port or the route-table port (06 R199). -/
def copyItem (t : Nat) (s : State) (i : Item) : State :=
  match i.kind with
  | 2 => onTile t (fun x => { x with engine := { x.engine with sram := storeBytes 0 x.engine.sram i.addr (wordBytes i.data) } }) s
  | 3 => onTile t (fun x => { x with engine := { x.engine with
      route := (List.range i.data.length).foldl (fun m j => mput 0 m (i.addr + j) (i.data.getD j 0)) x.engine.route } }) s
  | _ => s

/-- The core reports a bank digest or a counter plan other than the stub's, and the tile holds an LTN (15 R476). -/
def setReload (t : Nat) (s : State) : State :=
  onTile t (fun x =>
    let c := x.core
    { x with plan := { x.plan with reload := x.plan.reload || (takesPlan x && !coreDark x &&
      (bankDigest (bankList (activeBank c)) != x.plan.digest || c.count.planId != x.plan.cntId)) } }) s

/-- The set is applied, or lost: the staged words go, HOLD_AWAKE drops, and a PRESS record is written (06 R199, R205). -/
def endPress (t tstate : Nat) (s : State) : State :=
  let id := (tileOf s t).txn.id
  let s := onTile t (fun x => { x with txn := { x.txn with
    tstate := tstate
    words := 0
    staged := []
    written := []
    hold := false } }) s
  setReload t (record t 0x08 (id * 2 ^ 48 + tstate * 2 ^ 45) s)

/-- PRESS_ACT: at edge E an ARMED stub applies its set in staged order. With SRAM or ROUTE items it is APPLYING until they
are written; a VOID set applies its stub items only and is LOST (06 R187, R199, R205; 09 R288). What a switch of the bank ends
belongs to the tile's role before the press (09 R299). -/
def execPressAct (tile : Nat) (s : State) : Host.Outcome State Fault Refusal :=
  .next (match (takeAction 3 (tileOf s tile)).filter (fun _ => mayAct (tileOf s tile)) with
    | none => s
    | some a =>
      let s := onTile tile (dropPending a) (elapse (reachAt s tile a.tick) s)
      let x := tileOf s tile
      if x.txn.tstate != 3 then s
      else
        let is := if x.txn.void then (heldItems x).filter (fun i => !coreBound i) else heldItems x
        let s := if is.any (fun i => i.kind == 7) && !coreDark x then closeBankWork tile s else s
        let s := is.foldl (pressItem tile) s
        let bump := is.any (fun i => i.kind == 3 || i.kind == 4)
        let s := onTile tile (fun x => { x with txn := { x.txn with
          ctxEpoch := if bump then (x.txn.ctxEpoch + 1) % 256 else x.txn.ctxEpoch } }) s
        if x.txn.void then endPress tile 6 s
        else if is.any (fun i => i.kind == 2 || i.kind == 3) then
          onTile tile (fun x => { x with txn := { x.txn with tstate := 4 } }) (pressHolds tile s)
        else endPress tile 5 s)

/-- PRESS_APPLY_DONE: the SRAM and ROUTE items are written; a core that has been lost meanwhile takes none of them, and the set is
LOST (06 R199, R205). -/
def execPressApplyDone (tile : Nat) (s : State) : Host.Outcome State Fault Refusal :=
  .next (when ((tileOf s tile).txn.tstate == 4) (fun s =>
    if (tileOf s tile).txn.void then endPress tile 6 s
    else endPress tile 5 ((heldItems (tileOf s tile)).foldl (copyItem tile) s)) s)

end Sys2Proof.Machine
end

