-- ==== Sys2Proof/Machine/Snaps.lean ====
section
/-! DEFINITION. Snapshots: taking, copying, channel state, restoring, draining and the snapshot plan (11). -/

namespace Sys2Proof.Machine

/-! Taking -/

/-- A transaction is committed and has not ended (11 R362). -/
def txnCommitted (s : State) : Bool := s.txn.active.isSome || !s.txn.waiting.isEmpty

/-- A wafer STILL is in force, in doubt or queued (04 R121). -/
def stillTaken (s : State) : Bool := inForce s 0 || queuedStill s 0 || s.root.wstate != 0

/-- A retained snapshot holds the identifier (11 R351). -/
def idHeld (s : State) (id : Nat) : Bool := [0, 1].any (fun p => (pondOf s p).state == 3 && (pondOf s p).snapId == id)

/-- The tick of a snapshot's own still: the first possible one for TICK 0 (11 R334). -/
def takeTick (s : State) (tick : Nat) : Nat := if tick = 0 then soonest s else tick

/-- The conditions of SNAP_TAKE (11 R334, R351, R362, R363; 04 R133, R135, R143). -/
def takeChecks (id tick : Nat) (h : ReqHdr) (s : State) : List Check :=
  let own := !(declared s 0 && tick == 0)
  let h := { h with atEarliest := false }
  [ badField (id == 0 || decide (2 ^ 31 ≤ id)) 0,
    busy (takeBarred s || recBusy s || txnCommitted s || (own && (queueFull s 1 || stepRuns s))) ] ++
  (if tick = 0 then [] else tickChecks s h (now s + s.time.lstill) tick (crowded s)) ++
  [ { st := .timeout, bad := own && unconfirmed s },
    refuse (own && !unconfirmed s && stillTaken s),
    refuse (own && conflicts s 1 0 (takeTick s tick)),
    refuse (regionStands s), refuse (idHeld s id) ]

/-- Starts a snapshot that issues its own wafer still at a tick (11 R333, R334). -/
def takeOwn (id kind tick : Nat) (autoRel forced : Bool) (reply : Option ReqHdr) (s : State) : State :=
  enqueue 1 0 tick 3 0 (startTake id kind autoRel true forced tick reply s)

/-- SNAP_TAKE: answered when the snapshot commits or breaks (11 R338). -/
def execSnapTake (h : ReqHdr) (id : Nat) (autoRel : Bool) (tick : Nat) (s : State) : Host.Outcome State Fault Refusal :=
  request { op := 0x80, classC := true, need := .intrusive } h (takeChecks id tick)
    (fun h s =>
      if declared s 0 && tick == 0 then startTake id 0 autoRel false false s.root.stillT (some h) s
      else takeOwn id 0 (takeTick s tick) autoRel false (some h) s) s

/-- The snapshot being taken, before its release. -/
def taking (s : State) : Option SnapTake := s.snap.take.bind (fun k => if k.sealing then none else some k)

/-- The copy runs: SNAP_GO has been sent. -/
def copying (s : State) : Option SnapTake := (taking s).bind (fun k => if k.goAt.isSome then some k else none)

/-- Each shim sends COW_OPEN for the snapshot's epoch, which SK-S has not (11 R327, R339). -/
def openEpoch (e : Nat) (s : State) : State :=
  if s.cfg.skS then onEveryShim (fun _ q => { q with done := false }) s
  else onEveryShim (fun _ q => { q with
    done := false
    epoch := some e
    written := []
    cowAcked := false
    cowSentAt := now s }) s

/-- SNAP_GO: the still is declared without stragglers; the shims start the copy and every stub drives HOLD_AWAKE until
its image is copied (11 R335, R336, R337). -/
def execSnapGo (s : State) : Host.Outcome State Fault Refusal :=
  .next (match taking s with
    | none => s
    | some k =>
      if k.goAt.isSome || s.root.wstate != 3 then s
      else
        let e := s.snap.nextEpoch
        let s := openEpoch e (onSnap (fun q => { q with take := some { k with goAt := some (now s) } }) s)
        let s := onPond k.pond (fun p => { p with epoch := if s.cfg.skS then 0 else e, mapEpoch := s.mapEpoch }) s
        let s := onSnap (fun q => { q with nextEpoch := if s.cfg.skS then e else e + 1 }) s
        onEveryTile (fun _ x => { x with power := { x.power with holdSnap := true } }) s)

/-- The shim awaits COW_ACK (11 R343). -/
def awaitsAck (s : State) (f : Nat) : Bool := (copying s).isSome && !s.cfg.skS && !(shimOf s f).cowAcked && decide (f < numFields)

/-- COW_ACK. -/
def execCowAck (field : Nat) (s : State) : Host.Outcome State Fault Refusal :=
  .next (when (awaitsAck s field) (onShim field (fun q => { q with cowAcked := true })) s)

/-- COW_ACK_TIMEOUT: no COW_ACK within 10 µs, or a NAK (11 R343). -/
def execCowAckTimeout (field : Nat) (nak : Bool) (s : State) : Host.Outcome State Fault Refusal :=
  .next (when (awaitsAck s field) (fun s =>
    let s := if nak then s else elapse ((shimOf s field).cowSentAt + 10000) s
    breakSnap 4 (shimFault field 0 (if nak then 0 else 1) 0 s)) s)

/-- IMAGE_COPY_DONE: the shim copies a tile at its turn; one that reports VPEND goes to the end of the order. A still copy
in progress delays the tile's copy (11 R336, R337). The pair's flag says that the pond holds the image with an uncorrectable error,
which a drain or a restore finds (R352; log 141). -/
def execImageCopyDone (tile : Nat × Bool) (s : State) : Host.Outcome State Fault Refusal :=
  .next (match copying s with
    | none => s
    | some k =>
      let x := tileOf s tile.1
      if !x.power.holdSnap || copyHolds x then s
      else if x.still.vpend then
        onSnap (fun q => { q with
          take := some { k with deferred := if k.deferred.contains tile.1 then k.deferred else k.deferred ++ [tile.1] } }) s
      else copyImage k tile.2 tile.1 s)

/-- VPEND_FALL: the tile's outstanding replies have landed (04 R126). -/
def execVpendFall (tile : Nat) (s : State) : Host.Outcome State Fault Refusal :=
  .next (onTile tile (fun x => { x with still := { x.still with vpend := false } }) s)

/-- The tiles of a field that the shim has still to copy. -/
def uncopied (s : State) (f : Nat) : List Nat := (fieldTiles f).filter (fun t => (tileOf s t).power.holdSnap)

/-- SHIM_DONE: the field's last images are copied, which a still copy in progress delays (09 R288), and the shim reports DONE;
with every shim done, the release is queued as the snapshot's kind has it (11 R335, R336). -/
def execShimDone (field : Nat) (s : State) : Host.Outcome State Fault Refusal :=
  .next (match copying s with
    | none => s
    | some k =>
      let left := uncopied s field
      if (shimOf s field).done || left.any (fun t => (tileOf s t).still.vpend || copyHolds (tileOf s t)) || decide (numFields ≤ field) then s
      else
        let s := onShim field (fun q => { q with done := true }) (left.foldl (fun s t => copyImage k false t s) s)
        if shimsDone s then releaseAfter k s else s)

/-- When a snapshot's copy must be done: 245 µs from T for one that issued its own still, else 245 µs from SNAP_GO
(11 R337); never for one restarted after a warm reset (11 R362). -/
def copyDue (s : State) (k : SnapTake) : Option Nat :=
  if k.rerun then none
  else if k.ownStill || (k.kind == 2 && s.alarm.running.any (fun r => r.issued)) then some (k.t + 245000)
  else k.goAt.map (· + 245000)

/-- SNAP_COPY_TIMEOUT: the copy is not done in time (11 R337). -/
def execSnapCopyTimeout (s : State) : Host.Outcome State Fault Refusal :=
  .next (match taking s with
    | none => s
    | some k =>
      match copyDue s k with
      | none => s
      | some d => if k.goAt.isSome && shimsDone s then s else breakSnap 5 (elapse d s))

/-! Copy-on-write -/

/-- Bytes of the tile-visible tier of a die (11 R328; 01: a memory-side die holds 32 GiB). -/
def tierBytes (s : State) : Nat :=
  2 ^ 35 - (752 + (if s.cfg.skS then 0 else s.cfg.reserveMib) + s.cfg.watchMib + 256) * 2 ^ 20

/-- The ponds whose snapshots need a granule's current content: those with no slot for it from their epoch on (11 R340). -/
def needing (s : State) (f g : Nat) : List Nat :=
  [0, 1].filter (fun p =>
    let q := pondOf s p
    decide (1 ≤ q.state) && decide (q.state ≤ 3) && q.epoch != 0 &&
      !(shimOf s f).slots.any (fun x => x.granule == g && decide (q.epoch ≤ x.epoch)))

/-- The newest of some ponds' snapshots. -/
def newestPond (s : State) (ps : List Nat) : Nat :=
  ps.foldl (fun a p => if (pondOf s a).epoch < (pondOf s p).epoch then p else a) (ps.headD 0)

/-- Finds a slot: while none is free, which is a fault of SLOT_REQ (R343; log 132), the newest snapshot that needs one breaks with
RESERVE, which raises class 7 (11 R341). At most two snapshots can need it. -/
def makeRoom (f g : Nat) : Nat → State → State
  | 0, s => s
  | n + 1, s =>
    let ps := needing s f g
    if ps = [] || 0 < slotFree s f then s
    else makeRoom f g n (raiseClass 7 (breakPond (newestPond s ps) 1 (shimFault f 1 0 g s)))

/-- The content of a granule, at offsets from its start. -/
def granuleCells (q : Shim) (g : Nat) : List Host.Cell :=
  (sliceRange q.tier (g * 65536) 65536).map (fun c => (c.1 - g * 65536, c.2))

/-- A write by the tiles into a granule of the tier. -/
def tierWrite (g : Nat) (write : List (Nat × Byte)) (m : List Host.Cell) : List Host.Cell :=
  write.foldl (fun m p => if p.1 < 65536 then mput 0 m (g * 65536 + p.1) p.2 else m) m

/-- SLOT_REQ: the first write to a granule in the open epoch keeps the old content in a slot, if a snapshot needs it, and
only then writes (11 R339 to R341). -/
def execSlotReq (field granule : Nat) (write : List (Nat × Byte)) (s : State) : Host.Outcome State Fault Refusal :=
  .next (when (decide (field < numFields) && decide ((granule + 1) * 65536 ≤ tierBytes s)) (fun s =>
    let first := (shimOf s field).epoch.isSome && !(shimOf s field).written.contains granule
    let s := if first then makeRoom field granule 3 s else s
    let keep := first && !(needing s field granule).isEmpty
    let s := onShim field (fun q => { q with
      slots := if keep then q.slots ++ [{ granule := granule, epoch := q.epoch.getD 0, content := granuleCells q granule }] else q.slots
      written := if first then q.written ++ [granule] else q.written
      tier := tierWrite granule write q.tier }) s
    setResLow s) s)

/-- The ponds whose snapshots need a slot of the granule in the open epoch. -/
def onSlot (s : State) (f g : Nat) : List Nat :=
  let q := shimOf s f
  [0, 1].filter (fun p => (pondOf s p).epoch != 0 && decide (1 ≤ (pondOf s p).state) && decide ((pondOf s p).state ≤ 3) &&
    q.slots.any (fun x => x.granule == g && q.epoch == some x.epoch && neededBy q.slots (pondOf s p).epoch x))

/-- COPY_DONE: the old content is stored; a NAK (1) or an uncorrectable error (2) breaks every snapshot that needs the
slot (11 R343). -/
def execCopyDone (field granule answer : Nat) (s : State) : Host.Outcome State Fault Refusal :=
  .next (when (answer != 0 && (shimOf s field).slots.any (fun x => x.granule == granule && (shimOf s field).epoch == some x.epoch))
    (fun s =>
      let ps := onSlot s field granule
      let s := onShim field (fun q => { q with slots := q.slots.map (fun x =>
        if x.granule == granule && q.epoch == some x.epoch then { x with bad := true } else x) }) s
      ps.foldl (fun s p => breakPond p 4 s) (shimFault field 2 (if answer = 1 then 0 else 2) granule s)) s)

/-! Channel state -/

/-- The peer table entry of a die, if it has one (11 R344). EA_PEER keeps the engine plus one, so that 0 is no entry. -/
def flowFrom (e : Edge) (engine die : Nat) : Option Nat :=
  (e.peers.find? (fun p => p.2 == (engine + 1, die))).map (·.1)

/-- A record of a log: an 8-byte header and the unit, padded to a multiple of 8 bytes (11 R346). -/
def logRecord (srcEngine srcDie : Nat) (unit : List Byte) : List Byte :=
  le 8 (pack [(16, 16, unit.length), (43, 5, srcDie), (48, 16, srcEngine)]) ++ unit ++ zeros ((8 - unit.length % 8) % 8)

/-- ING_COPY: a unit delivered on a flow whose marker is awaited enters the log; a log that would pass 256 KiB breaks the
snapshot (11 R345 to R347). -/
def execIngCopy (die srcEngine srcDie : Nat) (unit : List Byte) (s : State) : Host.Outcome State Fault Refusal :=
  .next (
    let e := edgeOf s die
    match flowFrom e srcEngine srcDie with
    | none => s
    | some i =>
      if e.state != 1 || !e.openFlows.contains i || unit.length == 0 || decide (512 < unit.length) then s
      else if 262144 < e.log.length + (logRecord srcEngine srcDie unit).length then
        breakSnap 2 (onEdge die (fun e => { e with state := 3 }) s)
      else onEdge die (fun e => { e with log := e.log ++ logRecord srcEngine srcDie unit }) s)

/-- MK_SEEN: the marker that a flow awaits closes it; any other marker is discarded and counted (11 R346, R347, R355). -/
def execMkSeen (die engine peerDie snapId kind : Nat) (s : State) : Host.Outcome State Fault Refusal :=
  .next (
    let e := edgeOf s die
    let awaited := match flowFrom e engine peerDie with
      | none => none
      | some i =>
        if e.openFlows.contains i && e.snapId == snapId && ((e.state == 1 && kind == 0) || (e.state == 5 && kind == 1)) then some i
        else none
    match awaited with
    | none => onEdge die (fun e => { e with badMarkers := e.badMarkers + 1 }) s
    | some i =>
      let left := e.openFlows.erase i
      let s := onEdge die (fun e => { e with
        openFlows := left
        ingDiscard := e.ingDiscard.erase i
        state := if left = [] then (if e.state = 1 then 2 else 0) else e.state }) s
      if kind = 1 && s.snap.restoreReply.isSome then answerRestore s else s)

/-- LOG_WRITTEN: a closed log lies in its field area; with the last one the snapshot commits (11 R338, R346). -/
def execLogWritten (die : Nat) (s : State) : Host.Outcome State Fault Refusal :=
  .next (match s.snap.take with
    | none => s
    | some k =>
      let e := edgeOf s die
      if e.state != 2 || e.snapId != k.id then s
      else
        let s := onEdge die (fun e => { e with logWritten := true }) (onPond k.pond (fun p => { p with
          logs := mput [] p.logs die e.log
          logged := p.logged ++ [die] }) s)
        if k.sealing && logsDone (pondOf s k.pond) then commitSnap s else s)

/-- MARKER_TIMEOUT: a peer's marker is missing MARKER_TMO after the release: the snapshot breaks, or a restore goes on
UNPAIRED. With the pair's flag it is the link layer that rejects a marker put, and the snapshot breaks at once (11 R347, R349,
R355). -/
def execMarkerTimeout (die : Nat × Bool) (s : State) : Host.Outcome State Fault Refusal :=
  .next (
    let e := edgeOf s die.1
    let due := e.releasedAt + e.markerTmo * 1000
    if die.2 then
      (if e.state = 1 && s.snap.take.any (fun k => k.id == e.snapId) then breakSnap 3 s else s)
    else if e.state = 1 && s.snap.take.any (fun k => k.sealing && k.id == e.snapId) then breakSnap 3 (elapse due s)
    else if e.state = 5 then
      let s := setW1c (edgeKey die.1 0x20) 8 (onEdge die.1 (fun e => { e with
        state := 0
        openFlows := []
        ingDiscard := []
        unpaired := true }) (elapse due s))
      if s.snap.restoreReply.isSome then answerRestore s else s
    else s)

/-- EG_FROZEN_RISE: every egress queue holds (11 R349). -/
def execEgFrozenRise (die : Nat) (s : State) : Host.Outcome State Fault Refusal :=
  .next (when (edgeOf s die).egFreeze (onEdge die (fun e => { e with egFrozen := true })) s)

/-- EG_FROZEN_TIMEOUT: EG_FROZEN has not risen 1 µs after EG_FREEZE: the still census flags the die, in a field of the model's
own, since the spec gives its report no place (11 R349; log 131). -/
def execEgFrozenTimeout (die : Nat) (s : State) : Host.Outcome State Fault Refusal :=
  .next (when ((edgeOf s die).egFreeze && !(edgeOf s die).egFrozen) (fun s =>
    let s := onEdge die (fun e => { e with flagged := true }) (elapse ((edgeOf s die).egFreezeAt + 1000) s)
    if snapRuns s then breakSnap 5 s else s) s)

/-- EG_FROZEN_FALL: a fall while EG_FREEZE is high is counted and breaks a snapshot that is TAKING (11 R349). -/
def execEgFrozenFall (die : Nat) (s : State) : Host.Outcome State Fault Refusal :=
  .next (when ((edgeOf s die).egFreeze && (edgeOf s die).egFrozen) (fun s =>
    let s := onEdge die (fun e => { e with egFrozen := false, egFalls := e.egFalls + 1 }) s
    if snapRuns s then breakSnap 5 s else s) s)

/-! Restoring -/

/-- The pond of the VALID snapshot of an identifier. -/
def validPond (s : State) (id : Nat) : Option Nat :=
  [0, 1].find? (fun p => (pondOf s p).state == 3 && (pondOf s p).snapId == id)

/-- The conditions of SNAP_RESTORE (11 R327, R353, R362, R363; 04 R133, R135, R143; 12 R391). -/
def restoreChecks (id : Nat) (memKept : Bool) (s : State) : List Check :=
  [ busy (takeBusy s || s.snap.restoring || recBusy s || txnCommitted s), refuse (validPond s id).isNone ] ++ needsDeclared s 0 ++
  [ refuse (regionStands s), refuse (s.cfg.skS && !memKept) ]

/-- SNAP_RESTORE: steps 1 to 3 of R354; the rest follows the last copy-back (11 R353 to R356). -/
def execSnapRestore (h : ReqHdr) (id : Nat) (memKept : Bool) (tr : Nat) (s : State) : Host.Outcome State Fault Refusal :=
  request { op := 0x81, classC := true, need := .intrusive } h (fun _ s => restoreChecks id memKept s)
    (fun h s => beginRestore ((validPond s id).getD 0) tr h.atEarliest false memKept (some h) s) s

/-- The granule of the restored snapshot is copied back into the tier (11 R340, R354). -/
def copyBack (f g : Nat) (s : State) : State :=
  let k := (pondOf s s.snap.restorePond).epoch
  onShim f (fun q => { q with
    copyback := q.copyback.erase g
    tier := storeBytes 0 q.tier (g * 65536) (asOf q k g) }) s

/-- CB_DONE: a granule is copied back; a NAK (1) or no answer within 10 µs (2) fails the restore (11 R343, R354, R356). -/
def execCbDone (field granule answer : Nat) (s : State) : Host.Outcome State Fault Refusal :=
  .next (when (s.snap.restoring && (shimOf s field).copyback.contains granule) (fun s =>
    if answer = 0 then tryFinish (copyBack field granule s)
    else failRestore 4 (shimFault field 3 (answer - 1) granule s)) s)

/-! Draining -/

/-- Bytes of a pond in a drain: a field area of 1 MiB and 7,680 images (11 R358). -/
def pondBytes : Nat := 376 * 2 ^ 20

/-- Bytes that a drain writes (11 R358). -/
def drainSize (s : State) (full : Bool) : Nat := 4096 + 48 * pondBytes + if full then 48 * tierBytes s else 0

/-- The drain header (11 R358); its fields lie in the order given there, each at a multiple of its size (log 36). -/
def drainHeader (s : State) (p : Nat) (full : Bool) : List Byte :=
  let q := pondOf s p
  padTo 4096 (le 4 q.snapId ++ le 2 s.cfg.engine ++ zeros 2 ++ le 8 q.t ++ le 1 (b2n full) ++ zeros 7 ++ le 8 (tierBytes s) ++
    (List.range numFields).flatMap (fun f =>
      le 8 (xorAll ((fieldImages q f).map (fun i => i.2.digest))).toNat))

/-- A field's part of a drain: its field area, then its images in physical order (11 R329, R358). -/
def drainField (s : State) (p f : Nat) : List Byte :=
  fieldArea s p f 0 (2 ^ 20) ++ (fieldTiles f).flatMap (fun t => imageBytes t (imageOf s p t))

/-- The conditions of SNAP_DRAIN (11 R327, R357, R363). -/
def drainChecks (id : Nat) (full : Bool) (dest : Dest) (s : State) : List Check :=
  [ absent (full && s.cfg.skS), refuse (validPond s id).isNone, refuse s.snap.draining, refuse (decide (dest.limit < drainSize s full)) 24 ]

/-- Starts a drain: the header, field areas and images go to the edge I/O; an image whose digest fails breaks the snapshot
(11 R352, R358, R359). -/
def startDrain (p : Nat) (full : Bool) (dest : Dest) (h : ReqHdr) (s : State) : State :=
  if !imagesOk s p then respond h .broken (detail { reason := 0x12, index := 8 }) (breakPond p 8 s)
  else
    let ds := ⟨dest, 0, drainHeader s p full⟩ :: (List.range numFields).map (fun f =>
      (⟨dest, 4096 + f * pondBytes, drainField s p f⟩ : Drain))
    let s := onPond p (fun q => { q with draining := true }) s
    onListedShims (fun _ q => { q with asof := 0 }) (onSnap (fun q => { q with
      draining := true
      drainPond := p
      drainFull := full
      drainReply := some h
      drainDest := dest
      drains := q.drains ++ ds }) s)

/-- SNAP_DRAIN. -/
def execSnapDrain (h : ReqHdr) (id : Nat) (full : Bool) (dest : Dest) (s : State) : Host.Outcome State Fault Refusal :=
  request { op := 0x82, classC := true } h (fun _ s => drainChecks id full dest s)
    (fun h s => startDrain ((validPond s id).getD 0) full dest h s) s

/-- Granules of a die's tier. -/
def tierGranules (s : State) : Nat := tierBytes s / 65536

/-- ASOF_DATA: the next granule of a FULL drain arrives as of the snapshot's epoch; no answer within 10 µs ends the drain
with TIMEOUT (11 R343, R359). -/
def execAsofData (field : Nat) (ok : Bool) (s : State) : Host.Outcome State Fault Refusal :=
  .next (when (s.snap.draining && s.snap.drainFull && decide (field < numFields) && decide ((shimOf s field).asof < tierGranules s))
    (fun s =>
      let g := (shimOf s field).asof
      if !ok then endDrain .timeout (detail {}) (shimFault field 4 1 g s)
      else
        let bs := asOf (shimOf s field) (pondOf s s.snap.drainPond).epoch g
        let at0 := 4096 + 48 * pondBytes + field * tierBytes s + g * 65536
        onSnap (fun q => { q with drains := q.drains ++ [⟨q.drainDest, at0, bs⟩] })
          (onShim field (fun q => { q with asof := q.asof + 1 }) s)) s)

/-- Every shim has sent what the drain asks of it. -/
def drainOver (s : State) : Bool :=
  s.snap.draining && s.snap.drains.all (fun d => d.dest != s.snap.drainDest) &&
  (!s.snap.drainFull || (List.range numFields).all (fun f => (shimOf s f).asof == tierGranules s))

/-- DRAIN_DONE: every shim is done (11 R359). An image that cannot be read has ended the drain at its request. -/
def execDrainDone (s : State) : Host.Outcome State Fault Refusal :=
  .next (when (drainOver s) (endDrain .ok []) s)

/-! The plan -/

/-- The conditions of SNAP_PLAN (11 R360, R361, R363). -/
def snapPlanChecks (period k baseId : Nat) (forceNext : Bool) (s : State) : List Check :=
  [ badField (decide (period < 1000) || decide (60000000 < period)) 8, badField (k == 0 || decide (255 < k)) 12,
    badField (decide (2 ^ 31 ≤ baseId)) 16, busy (takeBusy s), refuse (forceNext && !(cutDies s).isEmpty) 16 ]

/-- SNAP_PLAN. -/
def execSnapPlan (h : ReqHdr) (p0 period k baseId : Nat) (forceNext : Bool) (s : State) : Host.Outcome State Fault Refusal :=
  request { op := 0x83, classC := true, need := .intrusive } h (fun _ s => snapPlanChecks period k baseId forceNext s)
    (fun h s => respond h .ok [] (onPlans (fun q => { q with
      snap := some { p0 := p0, period := period, k := k, baseId := baseId, forceNext := forceNext } }) s)) s

/-- SNAP_PLAN with STOP. -/
def execSnapPlanStop (h : ReqHdr) (s : State) : Host.Outcome State Fault Refusal :=
  request { op := 0x83, classC := true, need := .intrusive } h (fun _ s => [busy (takeBusy s)])
    (fun h s => respond h .ok [] (onPlans (fun q => { q with snap := none }) s)) s

/-- The identifier of point n (11 R360). -/
def pointId (baseId n : Nat) : Nat := 1 + (((baseId : Int) + n - 1) % (2 ^ 31 - 1 : Int)).toNat

/-- The tick of point n (11 R361). -/
def pointTick (p : SnapPlan) (n : Nat) : Nat := p.p0 + n * p.period * 1000

/-- A point is forced: FORCE_NEXT is set and RES_LOW stands (11 R342). -/
def forcing (s : State) (p : SnapPlan) : Bool := p.forceNext && s.snap.resLow

/-- The next point whose still can be launched in time, and that comes after the last one. -/
def nextPoint (s : State) (p : SnapPlan) : Nat :=
  let lo := now s + s.time.lstill
  let n := if lo ≤ p.p0 then 0 else (lo - p.p0 + p.period * 1000 - 1) / (p.period * 1000)
  match p.lastPoint with
  | none => n
  | some m => max n (m + 1)

/-- The next point due for a snapshot: the next one when forced, else the next multiple of K (11 R361). -/
def duePoint (s : State) (p : SnapPlan) : Nat :=
  let n := nextPoint s p
  if forcing s p then n else (n + p.k - 1) / p.k * p.k

/-- A point is skipped (04 R118; 11 R361; 12 R391). -/
def pointBarred (s : State) : Bool := queueFull s 1 || stillTaken s || takeBarred s || regionStands s || recRuns s

/-- SNAP_PLAN_POINT: the centre queues the wafer STILL of the point and takes its snapshot, or skips and counts it. -/
def execSnapPlanPoint (s : State) : Host.Outcome State Fault Refusal :=
  .next (match (if inRom s then none else s.plans.snap) with
    | none => s
    | some p =>
      let n := duePoint s p
      let forced := forcing s p && n % p.k != 0
      let s := elapse (pointTick p n - s.time.lstill) s
      let s := onPlans (fun q => { q with snap := some { p with lastPoint := some n } }) s
      if pointBarred s then onSnap (fun q => { q with skipped := satAdd 8 q.skipped 1 }) s
      else takeOwn (pointId p.baseId n) 1 (firstTick s (max (pointTick p n) (now s + s.time.lstill))) true forced none s)

/-! The other requests -/

/-- The conditions of PEER_SET (11 R344, R361, R363). -/
def peerChecks (die : Nat) (cut : Bool) (entries : List (Nat × Nat)) (s : State) : List Check :=
  [ badField (decide (numDies ≤ die)) 0, badField (decide (64 < entries.length) || (cut && entries.isEmpty)) 2 ] ++
  (List.range entries.length).map (fun i => badField (decide (numDies ≤ (entries.getD i (0, 0)).2)) (8 + 4 * i)) ++
  [ busy (takeBusy s), refuse (cut && s.plans.snap.any (fun p => p.forceNext)) ]

/-- PEER_SET. -/
def execPeerSet (h : ReqHdr) (die : Nat) (cut : Bool) (entries : List (Nat × Nat)) (s : State) : Host.Outcome State Fault Refusal :=
  request { op := 0x84, classC := true, need := .intrusive } h (fun _ s => peerChecks die cut entries s)
    (fun h s => respond h .ok [] (onEdge die (fun e => { e with
      cut := cut
      peers := entries.mapIdx (fun i p => (i, (p.1 + 1, p.2))) }) s)) s

/-- The pond of a snapshot that SNAP_DROP can retire: VALID or BROKEN (11 R351, R352). -/
def dropPond (s : State) (id : Nat) : Option Nat :=
  match validPond s id with
  | some p => some p
  | none => [0, 1].find? (fun p => (pondOf s p).state == 4 && (pondOf s p).snapId == id)

/-- SNAP_DROP. A drain of the dropped snapshot is cancelled (log 37). -/
def execSnapDrop (h : ReqHdr) (id : Nat) (s : State) : Host.Outcome State Fault Refusal :=
  request { op := 0x85, classC := true, need := .intrusive } h
    (fun _ s => [badField (id == 0) 0, busy (takeBusy s), refuse (dropPond s id).isNone])
    (fun h s =>
      let p := (dropPond s id).getD 0
      let s := if s.snap.draining && s.snap.drainPond = p then endDrain .refused (detail { reason := 0x12 }) s else s
      respond h .ok [] (retirePond p s)) s

/-- The answer of SNAP_QUERY (13 R432). -/
def snapBody (s : State) : List Byte :=
  le 8 (snapReg s) ++ le 8 (pondReg (pondOf s 0)) ++ le 8 (pondOf s 0).t ++ le 8 (pondReg (pondOf s 1)) ++ le 8 (pondOf s 1).t ++
    (List.range numFields).flatMap (fun f => padTo 64 (fieldHeader s 0 f) ++ padTo 64 (fieldHeader s 1 f))

/-- SNAP_QUERY. -/
def execSnapQuery (h : ReqHdr) (s : State) : Host.Outcome State Fault Refusal :=
  request { op := 0x86, classC := false } h (fun _ _ => []) (okWith snapBody) s

/-- CONTROLLER_FATAL_STATE: the centre raises class 7 and treats the die as lost, which acts as STILL_DUMP (12 R368,
R371). -/
def execControllerFatalState (field : Nat) (s : State) : Host.Outcome State Fault Refusal :=
  .next (when (inService s && decide (field < numFields)) (fun s =>
    loseDie (onShim field (fun q => { q with lost := true }) s)) s)

end Sys2Proof.Machine
end

