-- ==== Sys2Proof/Machine/Watch.lean ====
section
/-! DEFINITION. Watch plans (05 R171 to R179), fingerprint records (08 R263 to R265), the symbol table and placement map
(09 R276 to R279), and the requests on captured frames (09 R290 to R298). -/

namespace Sys2Proof.Machine

/-! Entries of a watch plan -/

/-- A comparator's operand words break the layout of its source (05 R178, R181). -/
def operandBad (src a b c : Nat) : Bool :=
  match src with
  | 1 => decide (bits 31 0 b < bits 63 32 b) || bits 15 1 c != 0 || (bit 0 c && decide (bits 39 16 c ≤ bits 63 40 c))
  | 2 => bits 63 8 a != 0 || bits 3 2 a != 0 || b != 0 || c != 0
  | 3 => bits 63 48 a != 0 || bits 31 16 a != 0 || decide (bits 15 0 a < bits 47 32 a) || decide (49151 < bits 15 0 a) ||
      b != 0 || c != 0
  | 4 => bits 63 4 a != 0 || bits 3 2 a == 3 || bits 63 32 b != 0 || c != 0
  | 5 => bits 63 5 a != 0 || b != 0 || c != 0
  | _ => a != 0 || b != 0 || c != 0

/-- A comparator entry is malformed (05 R178, R180). -/
def cmpBad (s : State) (d : TileSet) (n ctl a b c : Nat) : Bool :=
  planSetBad s d || decide (3 < n) || ctl &&& unnamed [(0, 4), (8, 1), (12, 8), (48, 16)] != 0 || decide (6 < bits 3 0 ctl) ||
  decide (bits 15 12 ctl < 8) || decide (4 < bits 19 17 ctl) || bits 63 48 ctl == 0 || operandBad (bits 3 0 ctl) a b c

/-- A slice that breaks 08 R247. -/
def sliceBad (l : Slice) : Bool :=
  l.off % 64 != 0 || l.len == 0 || l.rowlen == 0 || decide (16777215 < l.rowlen) || decide (49152 < l.off + l.len) ||
  decide (2 ^ 48 ≤ l.base) || decide (2 ^ 48 ≤ l.stride) || decide (2 ^ 48 ≤ l.tokstride)

/-- A dip entry is malformed (05 R178; 08 R246, R248, R271; 13 R434). -/
def dipBad (s : State) (d : DipEntry) : Bool :=
  planSetBad s d.set || decide (3 < d.slot) || decide (12 < d.fmt) || decide (d.step1 < d.step0) ||
  (!isMx d.fmt && d.sumExp != 0) || decide (d.sumExp < -160) || decide (160 < d.sumExp) || decide (d.histBase < -160) ||
  decide (127 < d.histBase) || decide (d.epochTmo < 10) || decide (10000 < d.epochTmo) || d.minInt == 0 ||
  decide (1000 < d.minInt) || decide (63 < d.foldSel) || (d.replica && !bit 0 d.foldSel) || (bit 5 d.foldSel && !isMx d.fmt) ||
  d.slices.length != (ltnMembers s d.set).length ||
  d.slices.any (fun l => sliceBad l || (isMx d.fmt && l.len % (fmtOf d.fmt).slot != 0))

/-- A capture entry is malformed (09 R298). -/
def capBad (c : CapEntry) : Bool :=
  decide (3 < c.slot) || c.frames == 0 || decide (255 < c.frames) || decide (c.step1 < c.step0) ||
  (c.tokEn && decide (c.tok1 ≤ c.tok0)) ||
  (if c.still then decide (c.holdMax < 2) || decide (100 < c.holdMax) else c.holdMax != 0)

/-- An entry is malformed (05 R178). -/
def watchBad (s : State) (e : WatchEntry) : Bool :=
  match e with
  | .comparator d n ctl a b c => cmpBad s d n ctl.toNat a.toNat b.toNat c.toNat
  | .binding c act r _ _ => decide (c < 8) || decide (15 < c) || decide (4 < act) || (act == 2 && (r == 0 || decide (14 < r)))
  | .condition _ _ t _ c _ => decide (c < 8) || decide (15 < c) || decide (6 < t)
  | .dip d => dipBad s d
  | .capture c => capBad c

/-- Capture entries up to and including entry i. -/
def capsUpTo (es : List WatchEntry) (i : Nat) : Nat := (capEntries (es.take (i + 1))).length

def isCapture (e : WatchEntry) : Bool :=
  match e with
  | .capture _ => true
  | _ => false

def isCondition (e : WatchEntry) : Bool :=
  match e with
  | .condition .. => true
  | _ => false

/-- The entry needs a unit that SK-S lacks (05 R178). -/
def needsDips (e : WatchEntry) : Bool :=
  match e with
  | .dip _ => true
  | .comparator _ _ ctl _ _ _ => bits 3 0 ctl.toNat == 4
  | _ => false

/-- The entry makes a plan that only the intrusive session may load (05 R179). -/
def needsIntrusive (e : WatchEntry) : Bool :=
  match e with
  | .binding _ act _ _ _ => act != 0
  | .capture c => c.still
  | _ => false

def isRegionBinding (e : WatchEntry) : Bool :=
  match e with
  | .binding _ act _ _ _ => act == 2
  | _ => false

/-- Two tile sets of plan entries share a member. -/
def setsMeet (s : State) (a b : TileSet) : Bool := (ltnMembers s a).any (inSet s b)

/-- Two capture entries take one slot of one tile: their tensors share a tile. -/
def capsMeet (s : State) (a b : CapEntry) : Bool :=
  a.slot == b.slot && s.plans.pmap.any (fun r => r.tensor == a.tensor &&
    (a.tensor == b.tensor || s.plans.pmap.any (fun q => q.tensor == b.tensor && q.ltn == r.ltn)))

/-- Entry `e` programs what an earlier entry `f` already does (05 R178; 08 R271; 09 R298). -/
def entryClash (s : State) (f e : WatchEntry) : Bool :=
  match f, e with
  | .comparator d n _ _ _ _, .comparator d2 n2 _ _ _ _ => n == n2 && setsMeet s d d2
  | .binding c _ _ _ _, .binding c2 _ _ _ _ => c == c2
  | .dip d, .dip d2 => d.slot == d2.slot && setsMeet s d.set d2.set
  | .capture c, .capture c2 => capsMeet s c c2
  | _, _ => false

/-- Identifiers of the folds an entry emits. -/
def entryFolds (e : WatchEntry) : List FoldInfo :=
  match e with
  | .dip d => dipFolds d
  | _ => []

/-- The vector length of a fold that a condition may name: one of the fold plan, or of the plan's own dips (05 R173; 08 R261;
log 30). -/
def condVlen (s : State) (es : List WatchEntry) (id : Nat) : Option Nat :=
  ((optList s.plans.fold (fun p => p.entries.map ofEntry) ++ es.flatMap entryFolds).find? (fun i => i.id == id)).map (·.vlen)

/-- Some tile of a DIP comparator has no dip entry for its slot (05 R178). -/
def slotMissing (s : State) (es : List WatchEntry) (d : TileSet) (slot : Nat) : Bool :=
  (ltnMembers s d).any (fun t => !(dipEntries es).any (fun x => x.slot == slot && inSet s x.set t))

/-- Bytes of one frame (09 R290). -/
def frameSize (len : Nat) : Nat := (256 + len + 63) / 64 * 64

/-- Bytes that capture entries take in a field's watch area (09 R290). -/
def frameTotal (s : State) (cs : List CapEntry) (f : Nat) : Nat :=
  (cs.map (fun c => ((s.plans.pmap.filter (fun r => r.tensor == c.tensor &&
    ((holderOf s r.ltn).any (fun t => fieldOf t == f)))).map (fun r => c.frames * frameSize r.slice.len)).sum)).sum

/-- Bytes of a field's watch area (09 R290). -/
def watchBytes (s : State) : Nat := s.cfg.watchMib * 2 ^ 20

/-- The first field whose watch area the plan's capture entries up to entry i overflow. -/
def overflowField (s : State) (es : List WatchEntry) (i : Nat) : Option Nat :=
  (List.range numFields).find? (fun f => decide (watchBytes s < frameTotal s (capEntries (es.take (i + 1))) f))

def symbolOf (s : State) (tensor : Nat) : Option SymRecord := s.plans.symbols.find? (fun r => r.tensor == tensor)

/-- What refuses entry i on its own account (05 R178; 08 R271; 09 R298). -/
def watchRefused (s : State) (es : List WatchEntry) (i : Nat) : Bool :=
  let e := es.getD i (.binding 8 0 0 0 0)
  (es.take i).any (fun f => entryClash s f e) ||
  match e with
  | .comparator d _ ctl a _ _ => bits 3 0 ctl.toNat == 4 && slotMissing s es d (bits 1 0 a.toNat)
  | .binding _ act r _ _ => act == 2 && !(regionOf s r).valid
  | .condition f el _ _ _ _ =>
    decide (32 < ((es.take (i + 1)).filter isCondition).length) ||
    (match condVlen s es f with
     | none => true
     | some n => decide (n ≤ el))
  | .dip d =>
    let taken := optList s.plans.fold (fun p => p.entries.map (·.foldId)) ++ ((es.take i).flatMap entryFolds).map (·.id)
    (dipFolds d).any (fun k => decide (0xF7 < k.id) || taken.contains k.id)
  | .capture c =>
    (match symbolOf s c.tensor with
     | none => true
     | some r => (!c.still && r.inplace) || (c.tokEn && !r.seq)) ||
    !s.plans.pmap.any (fun r => r.tensor == c.tensor)

/-- The refusals of entry i: its own, the fold limits, and the first field its frames overflow. -/
def refusedChecks (s : State) (es : List WatchEntry) (lim : Check) (i : Nat) : List Check :=
  [ badEntry .refused (watchRefused s es i) i,
    { lim with bad := lim.bad && lim.index == i },
    match if isCapture (es.getD i (.binding 8 0 0 0 0)) then overflowField s es i else none with
    | none => badEntry .refused false i
    | some f => { st := .refused, bad := true, reason := 0xF, index := i, place := coord (nodeTile (.junction f)) } ]

/-- The watch plan's owner bars this session (05 R179). -/
def watchOwned (h : ReqHdr) (s : State) : Bool :=
  match s.plans.watch with
  | none => false
  | some p => ownedByOther h p.owner (p.intrusiveOwner && !isIntrusive s h.session)

/-- A plan load or removal is under way, or something bars one (05 R178; 06 R192; 12 R391). -/
def watchBusy (s : State) : Bool := txnOpenNow s || s.plans.watchNext.isSome || s.plans.watchRemoving || recBusy s

/-- The checks of WATCH_LOAD (05 R175 to R179; 08 R271; 09 R298). -/
def watchChecks (activate : Nat) (es : List WatchEntry) (h : ReqHdr) (s : State) : List Check :=
  let is := List.range es.length
  let e := fun i => es.getD i (.binding 8 0 0 0 0)
  let bad := is.map (fun i => badEntry .malformed (watchBad s (e i) || (isCapture (e i) && decide (64 < capsUpTo es i))) i)
  let shape := (pick bad).isSome
  let base := optList s.plans.fold (fun p => p.entries.map ofEntry) ++ centreFolds s s.plans.cnt
  let lim := if shape then { st := .refused } else limitCheck s base (es.map entryFolds)
  [badField (decide (4096 < es.length) || (h.opt && !es.isEmpty)) 2] ++ bad ++
  is.map (fun i => badEntry .absent (s.cfg.skS && needsDips (e i)) i) ++
  is.map (fun i => badEntry .denied ((needsIntrusive (e i) && !isIntrusive s h.session) ||
    (isRegionBinding (e i) && !regionState s)) i) ++
  [ denied (watchOwned h s), busy (watchBusy s), lateIf (activate != 0 && decide (activate < now s + s.time.lstill)) ] ++
  (if shape then [] else is.flatMap (refusedChecks s es lim)) ++ [emptyIf es.isEmpty]

/-! Loading -/

/-- A core takes its block of a plan, as the maps of `s` give it, into its inactive bank (05 R171, R177). -/
def takeBank (p : Option WatchPlan) (s : State) (t : Nat) (x : Tile) : Tile :=
  let m := bankMap (bankWords s p t)
  let id := (mget 0 m 0).toNat
  { x with core := if x.core.active then { x.core with bank0 := m, planId0 := id } else { x.core with bank1 := m, planId1 := id } }

def fetchBank (p : Option WatchPlan) (t : Nat) (s : State) : State := onTile t (takeBank p s t) s

/-- Every core that answers and whose tile holds an LTN fetches its block of a plan; the whole exchange is one step (05
R177; log 8). -/
def fetchBanks (p : Option WatchPlan) (s : State) : State :=
  onListedTiles (fun t x => if canFetch x && x.txn.ltnValid then takeBank p s t x else x) s

/-- Steps 2 and 3 of a load: the agents fetch their blocks, and one centre transaction activates the plan (05 R177). -/
def loadWatch (id activate : Nat) (es : List WatchEntry) (h : ReqHdr) (s : State) : State :=
  let p : WatchPlan :=
    { id := id, entries := es, owner := some h.session, intrusiveOwner := isIntrusive s h.session, mapEpoch := s.mapEpoch }
  let s := fetchBanks (some p) (onPlans (fun q => { q with watchNext := some p }) s)
  startCentreAt activate 1 s.txn.stageTmo [centreEntry 1] (some h) s

/-- The checks of a removal (05 R176). -/
def removeChecks (h : ReqHdr) (s : State) : List Check :=
  let strong := match s.plans.watch with
    | none => false
    | some p => p.entries.any needsIntrusive
  [denied (watchOwned h s || (strong && !isIntrusive s h.session)), busy (watchBusy s), emptyIf s.plans.watch.isNone]

/-- A removal: every agent fetches the all-zero bank, and one centre transaction activates it (05 R176, R515). -/
def removeWatch (h : ReqHdr) (s : State) : State :=
  let s := fetchBanks none (onPlans (fun q => { q with watchNext := none, watchRemoving := true }) s)
  startCentre 1 s.txn.stageTmo [centreEntry 1] (some h) s

/-- WATCH_LOAD; with OPT and no entry it removes the plan (05 R175, R176). -/
def execWatchLoad (h : ReqHdr) (id activate : Nat) (entries : List WatchEntry) (s : State) : Host.Outcome State Fault Refusal :=
  if h.opt && entries.isEmpty then request { op := 0x40, classC := true } h removeChecks removeWatch s
  else request { op := 0x40, classC := true } h (watchChecks activate entries) (loadWatch id activate entries) s

/-- WATCH_LOAD with OPT and no entry (05 R176). -/
def execWatchRemove (h : ReqHdr) (s : State) : Host.Outcome State Fault Refusal :=
  request { op := 0x40, classC := true } h removeChecks removeWatch s

/-! Fingerprint records -/

/-- A fingerprint record (08 R263). -/
def fpBytes (r : FpRecord) : List Byte :=
  le 2 r.engine ++ le 2 r.group ++ le 4 r.tensor ++ le 4 r.step ++
    le 4 (pack [(0, 1, b2n (r.complete && !r.broken)), (1, 1, b2n r.ovf), (2, 1, b2n r.broken), (3, 1, b2n r.disturbed)]) ++
    le 8 r.elements ++ le 8 r.fingerprint.toNat

/-- FP_READ: the newest `count` records of a group, oldest first; TENSOR 0 names any (08 R263, 13 R430). -/
def execFpRead (h : ReqHdr) (group count tensor : Nat) (s : State) : Host.Outcome State Fault Refusal :=
  request { op := 0x60, classC := false } h (fun _ s => [absent s.cfg.skS, emptyIf (count == 0)])
    (okWith (fun s => (lastN count (s.census.fpRing.filter (fun r => r.group == group && (tensor == 0 || r.tensor == tensor)))).flatMap
      fpBytes)) s

/-- A record is COMPLETE: BROKEN clears it (08 R263). -/
def fpComplete (r : FpRecord) : Bool := r.complete && !r.broken

/-- The record of a key, the newest if a step was run again. -/
def ownFp (s : State) (group tensor step : Nat) : Option FpRecord :=
  (s.census.fpRing.filter (fun r => r.group == group && r.tensor == tensor && r.step == step)).getLast?

/-- A peer record counts (08 R264, step 3). -/
def fpCounts (own r : FpRecord) : Bool :=
  fpComplete r && r.group == own.group && r.tensor == own.tensor && r.step == own.step && r.elements == own.elements

/-- The value that more than half of the records hold (08 R264). -/
def majority (vs : List Word) : Option Word := vs.find? (fun v => decide (vs.length < 2 * (vs.filter (fun w => w == v)).length))

/-- OUTCOME (08 R264, 13 R430). -/
def fpOutcome (own : FpRecord) (peers : List FpRecord) : Nat :=
  if !fpComplete own then 4
  else
    let ps := (peers.filter (fpCounts own)).map (·.fingerprint)
    if ps.all (fun v => v == own.fingerprint) then 0
    else
      match majority (own.fingerprint :: ps) with
      | none => 3
      | some v => if v = own.fingerprint then 1 else 2

/-- The listed peers: those that differ, and those that are not comparable (08 R264). With an own record that is not
COMPLETE nothing was compared. -/
def fpListed (own : FpRecord) (peers : List FpRecord) : List (Nat × Nat) :=
  if !fpComplete own then []
  else peers.filterMap (fun r =>
    if !fpCounts own r then some (r.engine, 1) else if r.fingerprint = own.fingerprint then none else some (r.engine, 0))

/-- The counted values of the peers that differ from the own one (08 R264). -/
def fpDiffering (own : FpRecord) (peers : List FpRecord) : List Word :=
  ((peers.filter (fpCounts own)).map (·.fingerprint)).filter (fun v => v != own.fingerprint)

/-- On SELF_DEVIANT and UNRESOLVED the response also carries the key and the differing values, behind the fields of 13 R430 (08
R264; log 127). -/
def deviantBody (own : FpRecord) (peers : List FpRecord) : List Byte :=
  if fpOutcome own peers = 2 || fpOutcome own peers = 3 then
    padTo 4 (le 2 own.group) ++ le 4 own.tensor ++ padTo 8 (le 4 own.step) ++ (fpDiffering own peers).flatMap (fun v => le 8 v.toNat)
  else []

def compareBody (own : FpRecord) (peers : List FpRecord) : List Byte :=
  let l := fpListed own peers
  padTo 8 (le 1 (fpOutcome own peers) ++ le 1 l.length) ++ le 8 own.fingerprint.toNat ++
    l.flatMap (fun p => padTo 4 (le 2 p.1 ++ le 1 p.2)) ++ deviantBody own peers

/-- A deviant or unresolved outcome raises SDC with its key and the differing values (08 R264, R265). -/
def raiseSdc (own : FpRecord) (peers : List FpRecord) (s : State) : State :=
  raiseClass 5 (onRec (fun r => { r with
    sdcKey := some (own.group, own.tensor, own.step)
    sdcValues := own.fingerprint :: fpDiffering own peers }) s)

/-- FP_COMPARE (08 R264, R265). -/
def execFpCompare (h : ReqHdr) (group tensor step : Nat) (peers : List FpRecord) (s : State) : Host.Outcome State Fault Refusal :=
  request { op := 0x61, classC := true } h
    (fun _ s => [badField (decide (63 < peers.length)) 2, absent s.cfg.skS, refuse (ownFp s group tensor step).isNone,
      emptyIf peers.isEmpty])
    (fun h s =>
      match ownFp s group tensor step with
      | none => s
      | some own =>
        let s := respond h .ok (compareBody own peers) s
        let o := fpOutcome own peers
        if (o = 2 || o = 3) && isIntrusive s h.session then raiseSdc own peers s else s) s

/-! Symbols and the placement map -/

/-- Puts a record in place of the one with its key, or at the end (09 R279). -/
def putRecord {α : Type} (same : α → α → Bool) (l : List α) (r : α) : List α :=
  if l.any (same r) then l.map (fun x => if same r x then r else x) else l ++ [r]

def sameSym (a b : SymRecord) : Bool := a.tensor == b.tensor
def sameMap (a b : MapRecord) : Bool := a.tensor == b.tensor && a.ltn == b.ltn

/-- The active watch plan captures (09 R279). -/
def capturing (s : State) : Bool := (optList s.plans.watch (fun p => capEntries p.entries)).length != 0

/-- The areas that records are appended to: empty where BUILD differs (09 R279). -/
def heldSyms (s : State) (build : Nat) : List SymRecord := if build = s.plans.build then s.plans.symbols else []
def heldMap (s : State) (build : Nat) : List MapRecord := if build = s.plans.build then s.plans.pmap else []

/-- SYM_LOAD (09 R276, R277, R279). -/
def execSymLoad (h : ReqHdr) (build : Nat) (recs : List SymRecord) (s : State) : Host.Outcome State Fault Refusal :=
  request { op := 0x62, classC := true } h
    (fun _ s => (List.range recs.length).map (fun i => badField (decide (12 < (recs.getD i {}).fmt)) i) ++
      [ busy (capturing s), refuse (decide (16384 < (recs.foldl (putRecord sameSym) (heldSyms s build)).length)),
        emptyIf recs.isEmpty ])
    (fun h s => respond h .ok [] (onPlans (fun p => { p with
      build := build
      symbols := recs.foldl (putRecord sameSym) (heldSyms s build)
      pmap := heldMap s build }) s)) s

/-- PMAP_LOAD (09 R276, R278, R279). -/
def execPmapLoad (h : ReqHdr) (build : Nat) (recs : List MapRecord) (s : State) : Host.Outcome State Fault Refusal :=
  request { op := 0x63, classC := true } h
    (fun _ s =>
      let is := List.range recs.length
      is.map (fun i => badField (sliceBad (recs.getD i {}).slice || decide (345600 ≤ (recs.getD i {}).ltn)) i) ++
      [busy (capturing s)] ++
      is.map (fun i => refuse (!(heldSyms s build).any (fun x => x.tensor == (recs.getD i {}).tensor)) i) ++
      [ refuse (decide (209715 < (recs.foldl (putRecord sameMap) (heldMap s build)).length)), emptyIf recs.isEmpty ])
    (fun h s => respond h .ok [] (onPlans (fun p => { p with
      build := build
      symbols := heldSyms s build
      pmap := recs.foldl (putRecord sameMap) (heldMap s build) }) s)) s

/-! Frames -/

/-- A frame as it lies in the watch area: its header, then the slice's bytes (09 R291). -/
def frameBytes (f : Frame) : List Byte :=
  let tok := f.tok.getD (0, 0)
  padTo 256 (le 4 f.tensor ++ le 4 f.tile ++ le 8 (f.base % 2 ^ 48) ++ le 8 (f.stride % 2 ^ 48) ++ le 8 (f.tokstride % 2 ^ 48) ++
    le 4 f.rowlen ++ le 2 f.sliceLen ++ le 1 (f.fmt % 16 + 16 * b2n f.mode) ++ le 1 f.entry ++ le 4 f.step ++ le 3 tok.1 ++
    le 3 tok.2 ++ le 2 f.mapEpoch ++ le 4 f.seq ++ le 8 f.closeTs ++ le 2 f.flags.toNat ++ le 2 f.lineMap.length ++ le 4 f.lost ++
    zeros 8 ++ le 96 (maskOf 768 (fun k => f.lineMap.contains k))) ++
  padTo (frameSize f.sliceLen - 256) (bytesAt 0 f.data 0 f.sliceLen)

/-- The frames of a capture entry, in every shim. -/
def entryFrames (s : State) (entry : Nat) : List Frame := s.shims.flatMap (fun q => q.2.frames.filter (fun f => f.entry == entry))

/-- The capture entries of the active plan. -/
def activeCaps (s : State) : List CapEntry := optList s.plans.watch (fun p => capEntries p.entries)

def noEntry (s : State) (entry : Nat) : Bool := decide ((activeCaps s).length ≤ entry)

/-- The capture slots that hold an entry in a tile's active bank. -/
def entrySlots (x : Tile) (entry : Nat) : List Nat :=
  (List.range 4).filter (fun n => (capCfg x.core n).en && (capCfg x.core n).entry == entry)

/-- Free bytes of a field's watch area. -/
def watchFree (s : State) (f : Nat) : Nat := watchBytes s - ((shimOf s f).frames.map (fun x => frameSize x.sliceLen)).sum

/-- The totals of one entry: VALID, BROKEN and PARTIAL frames, and LOST and FULL_SKIPS over the answering members (09
R297). -/
def entryTotals (s : State) (entry : Nat) : List Byte :=
  let fs := entryFrames s entry
  let n := fun b => (fs.filter (fun f => f.flags.getLsbD b)).length
  let slots := (s.tiles.filter (fun p => p.2.power.answers && coreUp p.2)).flatMap (fun p =>
    (entrySlots p.2 entry).map (fun k => mget ({} : CapSlot) p.2.core.dip.caps k))
  le 1 entry ++ zeros 3 ++ le 4 (n 0) ++ le 4 (n 2) ++ le 4 (n 1) ++ le 4 ((slots.map (·.lostLines)).sum) ++
    le 4 ((slots.map (·.fullSkips)).sum)

/-- WATCH_STATUS (09 R297, 13 R430). -/
def execWatchStatus (h : ReqHdr) (s : State) : Host.Outcome State Fault Refusal :=
  request { op := 0x64, classC := false } h (fun _ _ => [])
    (okWith (fun s => le 4 s.cfg.watchMib ++ le 4 (activeCaps s).length ++
      (List.range numFields).flatMap (fun f => le 8 (watchFree s f)) ++
      (List.range (activeCaps s).length).flatMap (entryTotals s))) s

/-- WATCH_RESET (09 R294, R297). -/
def execWatchReset (h : ReqHdr) (entry : Nat) (s : State) : Host.Outcome State Fault Refusal :=
  request { op := 0x65, classC := true } h (fun h s => [denied (watchOwned h s), refuse (noEntry s entry)])
    (fun h s =>
      let s := onListedShims (fun _ q => { q with
        frames := q.frames.map (fun f => if f.entry == entry then { f with flags := 0 } else f) }) s
      let s := onListedTiles (fun _ x =>
        if x.power.answers then
          { x with core := { x.core with dip := { x.core.dip with
            caps := (entrySlots x entry).foldl (fun m n => mmod {} m n (fun k =>
              { k with next := 0, fullSkips := 0, taken := 0, skipKey := none })) x.core.dip.caps } } }
        else x) s
      respond h .ok [] s) s

/-- Hands bytes to the edge I/O for a destination (11 R357; 07 R237). -/
def drainTo (d : Dest) (bs : List Byte) (s : State) : State := onSnap (fun q => { q with drains := q.drains ++ [⟨d, 0, bs⟩] }) s

/-- The VALID frames of an entry's members, of a tile set if one is named, in the shims' order (09 R296). -/
def drainFrames (s : State) (entry : Nat) (set : Option TileSet) : List Frame :=
  (entryFrames s entry).filter (fun f => f.flags.getLsbD 0 &&
    match set with
    | none => true
    | some d => (holderOf s f.tile).any (inSet s d))

/-- WATCH_DRAIN (09 R296, R297; 11 R357). -/
def execWatchDrain (h : ReqHdr) (entry : Nat) (set : Option TileSet) (dest : Dest) (s : State) : Host.Outcome State Fault Refusal :=
  request { op := 0x66, classC := true } h
    (fun _ s =>
      let fs := drainFrames s entry set
      [ badField (set.any setBad) 8, refuse (noEntry s entry),
        refuse (decide (dest.limit < (fs.map (fun f => frameSize f.sliceLen)).sum)), emptyIf fs.isEmpty ])
    (fun h s => respond h .ok [] (drainTo dest ((drainFrames s entry set).flatMap frameBytes) s)) s

/-- A member's slice goes into its slot's next frame, as a still-copy without a hold; STEP and the token range are those of
the tile's last command (09 R297). A hold in effect ends first (R288), and a frame open at the still stays open (R299; log
31). -/
def captureSlot (t n : Nat) (s : State) : State :=
  let c := (tileOf s t).core
  let s := awaitHolds t s
  let s' := openFrame t n c.cmd.step c.cmdSeq c.cmd.tok s
  if mayOpen (capCfg c n) (capOf s t n) then closeOneFrame t n false 0 (copyLines t n (sliceLines (capCfg c n)) s') else s'

/-- CAPTURE_NOW (09 R289, R297). -/
def execCaptureNow (h : ReqHdr) (entry : Nat) (s : State) : Host.Outcome State Fault Refusal :=
  request { op := 0x67, classC := true } h
    (fun h s => [denied (watchOwned h s), busy (txnOpenNow s), refuse (noEntry s entry), refuse (regionStands s)] ++
      needsDeclared s 0)
    (fun h s =>
      let ts := (s.tiles.filter (fun p => p.2.power.answers && coreUp p.2)).map (·.1)
      respond h .ok [] (ts.foldl (fun s t => (entrySlots (tileOf s t) entry).foldl (fun s n => captureSlot t n s) s) s)) s

end Sys2Proof.Machine
end

