-- ==== Sys2Proof/Machine/Traces.lean ====
section
/-! DEFINITION. Eddy rings and trace plans: reading rings, streams, partitions and their drains, and the wait-for graph (10). -/

namespace Sys2Proof.Machine

/-! Rings -/

/-- The tiles an EDDY_READ names: a set, or a list of addresses (10 R308). -/
def readTiles (s : State) (set : Option TileSet) (addrs : List Nat) : List Nat :=
  match set with
  | some d => members s d
  | none => addrs.filterMap (addrTile s)

/-- An address that names no tile's window (00 R6, R8). -/
def tileAddrBad (a : Nat) : Bool := addrBad a || !tileSpace (addrSpace a)

/-- One tile's share of the response: coordinate, LTN word, k and its newest records, oldest first (13 R431, 12 R516). -/
def ringBytes (s : State) (count t : Nat) : List Byte :=
  let x := tileOf s t
  let l := lastN count (ringList (ringDepth s) x.eddy)
  le 4 (coord t) ++ le 4 (ltnWord x) ++ le 4 l.length ++ zeros 4 ++ l.flatMap eddyBytes

/-- The checks of EDDY_READ (10 R308, R324; 00 R8, R514). A stub that gives no answer ends the read (02 R60). -/
def ringChecks (set : Option TileSet) (addrs : List Nat) (count : Nat) (s : State) : List Check :=
  let ts := readTiles s set addrs
  let is := List.range addrs.length
  [badField (decide (64 < count)) 1, badField (set.any setBad) 8] ++
  is.map (fun i => badField (set.isNone && tileAddrBad (addrs.getD i 0)) (8 + 8 * i)) ++
  is.map (fun i => refuse (set.isNone && (addrTile s (addrs.getD i 0)).isNone) (8 + 8 * i)) ++
  [ refuse (decide (256 < ts.length)), emptyIf (count == 0 || ts.isEmpty),
    match ts.find? (fun t => !(tileOf s t).power.answers) with
    | none => { st := .timeout }
    | some t => { st := .timeout, bad := true, reason := 0x109, place := coord t } ]

/-- EDDY_READ: each ring is frozen, read and set free again; the exchange is one step (10 R308; log 8). -/
def execEddyRead (h : ReqHdr) (set : Option TileSet) (addrs : List Nat) (count : Nat) (s : State) : Host.Outcome State Fault Refusal :=
  request { op := 0x70, classC := false } h (fun _ s => ringChecks set addrs count s)
    (fun h s =>
      let ts := readTiles s set addrs
      respond h .ok (ts.flatMap (ringBytes s count)) (ts.foldl (fun s t => thaw t s) s)) s

/-- EDDY_FREEZE_TIMEOUT: the stub clears FREEZE by itself 100 µs after it was set, and a host write in that cycle does not set it
(10 R308, 16 R484). -/
def execEddyFreezeTimeout (tile : Nat) (s : State) : Host.Outcome State Fault Refusal :=
  .next (when ((tileOf s tile).eddy.freeze) (fun s =>
    setW1c (agentKey tile 0x80) (2 ^ 9) (thaw tile (elapse ((tileOf s tile).eddy.freezeAt + 100000) s))) s)

/-- EDDY_GAP: in the first RCLK cycle in which the write queue has room the stub enters a GAP for the events lost (10
R306). -/
def execEddyGap (tile : Nat) (s : State) : Host.Outcome State Fault Refusal :=
  .next (when (inService s && (tileOf s tile).eddy.lostQ != 0) (fun s =>
    let n := wqNow (tileOf s tile).eddy (now s / 2)
    let s := if n < 8 then s else elapse (now s + 2 * (n - 7)) s
    onTile tile (fun x => { x with eddy := enterGap (ringDepth s) (now s / 2) (stubNow s tile) (eddyFlags x) x.eddy }) s) s)

/-! The trace plan -/

/-- A field that the policy does not use is non-zero (10 R310, R324). -/
def traceUnused (e : TraceEntry) : Bool :=
  (e.policy != 2 && (e.trigMask != 0 || e.w != 0)) || (e.policy != 3 && (e.fullClass != 0 || e.drainMax != 0))

/-- A trace entry is malformed (10 R310, R324). -/
def traceBad (s : State) (e : TraceEntry) : Bool :=
  planSetBad s e.set || decide (3 < e.policy) || e.flushUs == 0 || decide (10000 < e.flushUs) || traceUnused e ||
  (e.policy == 2 && decide (e.w < 64)) || (e.policy == 3 && (decide (e.fullClass < 8) || decide (15 < e.fullClass) ||
    e.drainMax == 0 || decide (1000 < e.drainMax)))

/-- The capacities of the partitions that a plan's set gives (10 R312). -/
def planCaps (s : State) (d : TileSet) : List Nat :=
  let ts := ltnMembers s d
  (List.range numFields).filterMap (fun f =>
    let n := (ts.filter (fun t => fieldOf t == f)).length
    if n = 0 then none else some (newPartition n 0).cap)

/-- The trace plan's owner bars this session (05 R179). -/
def traceOwned (h : ReqHdr) (s : State) : Bool :=
  match s.plans.trace with
  | none => false
  | some p => ownedByOther h p.owner (p.intrusiveOwner && !isIntrusive s h.session)

/-- A transaction is open, a plan is being activated, or a drain is DRAINING (10 R324). -/
def traceBusy (s : State) : Bool :=
  txnOpenNow s || s.plans.traceNext.isSome || s.plans.traceRemoving || s.plans.trace.any (fun p => p.drainFrom.isSome)

/-- The checks of TRACE_LOAD (10 R310, R317, R324). -/
def traceChecks (es : List TraceEntry) (h : ReqHdr) (s : State) : List Check :=
  let e := es.headD {}
  let bad := decide (1 < es.length) || (h.opt && !es.isEmpty) || (!es.isEmpty && traceBad s e)
  [ badEntry .malformed bad 0, denied ((!es.isEmpty && e.policy == 3 && !isIntrusive s h.session) || traceOwned h s),
    busy (traceBusy s) ] ++
  (if bad || es.isEmpty then [] else
    [ badEntry .refused (e.policy == 2 && (planCaps s e.set).any (fun c => decide (c < e.w + 64))) 0,
      badEntry .refused (e.policy == 3 && !fullBound s e.fullClass) 0 ]) ++
  [emptyIf es.isEmpty]

/-- The centre transaction that writes ST_EDDY_CTL of every tile (10 R310, R311). -/
def activateTrace (h : ReqHdr) (s : State) : State := startCentre 3 s.txn.stageTmo [centreEntry 5] (some h) s

def loadTrace (id : Nat) (es : List TraceEntry) (h : ReqHdr) (s : State) : State :=
  activateTrace h (onPlans (fun q => { q with
    traceNext := some { id := id, cfg := es.headD {}, owner := some h.session, intrusiveOwner := isIntrusive s h.session } }) s)

/-- The checks of a removal (10 R311). -/
def traceRemoveChecks (h : ReqHdr) (s : State) : List Check :=
  let strong := s.plans.trace.any (fun p => p.cfg.policy == 3)
  [denied (traceOwned h s || (strong && !isIntrusive s h.session)), busy (traceBusy s), emptyIf s.plans.trace.isNone]

def removeTrace (h : ReqHdr) (s : State) : State :=
  activateTrace h (onPlans (fun q => { q with traceNext := none, traceRemoving := true }) s)

/-- TRACE_LOAD; with OPT and no entry it removes the plan (10 R310, R311). -/
def execTraceLoad (h : ReqHdr) (id : Nat) (entries : List TraceEntry) (s : State) : Host.Outcome State Fault Refusal :=
  if h.opt && entries.isEmpty then request { op := 0x71, classC := true } h traceRemoveChecks removeTrace s
  else request { op := 0x71, classC := true } h (traceChecks entries) (loadTrace id entries) s

/-- TRACE_LOAD with OPT and no entry (10 R311). -/
def execTraceRemove (h : ReqHdr) (s : State) : Host.Outcome State Fault Refusal :=
  request { op := 0x71, classC := true } h traceRemoveChecks removeTrace s

/-- TRACE_REARM; a plan without an owner needs the intrusive session (10 R316, R324; log 66). -/
def execTraceRearm (h : ReqHdr) (s : State) : Host.Outcome State Fault Refusal :=
  request { op := 0x72, classC := true } h
    (fun h s => [ denied (s.plans.trace.any (fun p => match p.owner with
                                                        | some o => o != h.session
                                                        | none => !isIntrusive s h.session)),
      refuse (!s.plans.trace.any (fun p => p.cfg.policy == 2)) ])
    (fun h s => respond h .ok [] (onPartitions emptied (onPlans (fun q => { q with
      trace := q.trace.map (fun p => { p with triggered := none }) }) s))) s

/-- The partitions a TRACE_DRAIN names. -/
def drainedParts (s : State) (set : Option TileSet) : List Partition :=
  match set with
  | none => allPartitions s
  | some d => (allPartitions s).filter (fun p => inSet s d p.tile)

/-- TRACE_DRAIN: the held records go to the plan's destination; only under STILL_ON_FULL does that empty a partition (10
R318, R324; 11 R357). -/
def execTraceDrain (h : ReqHdr) (set : Option TileSet) (s : State) : Host.Outcome State Fault Refusal :=
  request { op := 0x73, classC := true } h
    (fun _ s =>
      let n := ((drainedParts s set).map (·.held.length)).sum
      [ badField (set.any setBad) 8, refuse s.plans.trace.isNone,
        refuse (s.plans.trace.any (fun p => decide (p.cfg.dest.limit < 16 * n))), emptyIf (n == 0) ])
    (fun h s =>
      match s.plans.trace with
      | none => s
      | some p =>
        let ps := drainedParts s set
        let s := drainParts p.cfg.dest ps s
        let s := if drainsAlways s then
            setCredit (onPartitions (fun q => if ps.any (fun r => r.tile == q.tile) then { q with held := [] } else q) s)
          else s
        respond h .ok [] s) s

/-! Partition headers -/

/-- A GAP record of a partition header: its count is the shim's, and the spec states no TIME, FLAGS or SEQ for it: a free
value (10 R314; log 33). -/
def headerGap (k i n : Nat) : List Byte :=
  let v := Config.freeNat k i
  eddyBytes { gapOf (v % 2 ^ 40) (v / 2 ^ 40 % 2 ^ 8) n with seq := v / 2 ^ 48 % 2 ^ 8 }

/-- A partition's header (10 R314). -/
def partHeader (s : State) (p : Partition) : List Byte :=
  let policy := (s.plans.trace.map (·.cfg.policy)).getD 0
  let oldest := if p.cap = 0 then 0 else (p.wr + p.cap - p.held.length) % p.cap
  let k := s.boot.freeCount
  padTo 256 (headerGap k (2 * p.tile) p.headGap ++ headerGap k (2 * p.tile + 1) p.tailGap ++ le 4 (coord p.tile) ++ le 1 policy ++
    le 1 p.state ++ le 1 (b2n p.trigLate) ++ zeros 1 ++ le 4 p.cap ++ le 4 p.wr ++ le 4 oldest ++
    le 4 (p.split.getD 4294967295) ++ le 4 p.post ++ zeros 4 ++ le 8 p.trigTick ++ le 8 p.held.length)

/-- The size of a field's partitions; 0 where it has none. -/
def partSize (s : State) (f : Nat) : Nat := ((shimOf s f).partitions.map (·.size)).headD 0

/-- TRACE_STATUS; it is EMPTY too where the partitions it names hold nothing (10 R318, R324; 13 R431; log 66). -/
def execTraceStatus (h : ReqHdr) (first count : Nat) (s : State) : Host.Outcome State Fault Refusal :=
  request { op := 0x74, classC := false } h
    (fun _ s => [ badField (decide (65000 < count)) 4, refuse (s.plans.trace.isNone || decide ((allPartitions s).length ≤ first)),
      emptyIf (count == 0 || (((allPartitions s).drop first).take count).all (·.held.isEmpty)) ])
    (fun h s =>
      let all := allPartitions s
      let ps := (all.drop first).take count
      drawFree (respond h .ok ((List.range numFields).flatMap (fun f => le 4 (partSize s f)) ++ le 4 all.length ++
        le 4 ps.length ++ ps.flatMap (partHeader s)) s)) s

/-! Streams -/

/-- The age of a stub's oldest unsent record in ns (10 R313). -/
def oldestAge (s : State) (t : Nat) : Nat :=
  let e := (tileOf s t).eddy
  (ts40 (stubNow s t) + 2 ^ 40 - (e.streamQ.map (·.time)).headD 0 % 2 ^ 40) % 2 ^ 40 * 2

/-- STREAM_CHUNK_SEND: sixteen records leave a streaming stub while its field's shim gives credit; with `flush` it is a partial
chunk, which leaves once the oldest unsent record is FLUSH_US old, or for a flush that has waited for credit (10 R313,
R317). -/
def execStreamChunkSend (tile : Nat) (flush : Bool) (s : State) : Host.Outcome State Fault Refusal :=
  .next (when (inService s && (tileOf s tile).eddy.stream && !withholds s (fieldOf tile) &&
      (flush || decide (16 ≤ (tileOf s tile).eddy.streamQ.length))) (fun s =>
    let e := (tileOf s tile).eddy
    let wait := flush && !e.flushAsked && decide (e.streamQ.length < 16) && !e.streamQ.isEmpty
    sendChunk tile (if wait then elapse (now s + (e.flushUs * 1000 - oldestAge s tile)) s else s)) s)

/-- EDDY_CHUNK_ARRIVE: the shim stores a chunk's records under the partition's policy (10 R314 to R317). While it withholds credit
the packet waits in the Rill. -/
def execEddyChunkArrive (tile : Nat) (recs : List Eddy) (s : State) : Host.Outcome State Fault Refusal :=
  .next (when (inService s && !withholds s (fieldOf tile)) (fun s =>
    let s := onRill (fun r => { r with bulk := r.bulk.erase (tile, chunkBytes recs) }) s
    match s.plans.trace with
    | none => s
    | some p =>
      let bound := fullBound s p.cfg.fullClass
      setCredit (onShim (fieldOf tile) (fun q => { q with
        partitions := q.partitions.map (fun x =>
          if x.tile == tile then recs.foldl (storeRec p.cfg.policy p.cfg.w bound) x else x) }) s)) s)

/-- The unsent count at which a stub drives FULL_CLASS (10 R317). -/
def fullMark (s : State) : Nat := if s.cfg.skS then 24 else 48

/-- STILL_ON_FULL_RAISE: a stub whose unsent count has reached its mark drives FULL_CLASS once (10 R317). -/
def execStillOnFullRaise (tile : Nat) (s : State) : Host.Outcome State Fault Refusal :=
  .next (when (inService s && (tileOf s tile).eddy.stream && (tileOf s tile).eddy.policy == 3 && !(tileOf s tile).eddy.fullDriven &&
      decide (fullMark s ≤ (tileOf s tile).eddy.streamQ.length)) (fun s =>
    driveClass (tileOf s tile).eddy.fullClass (onTile tile (fun x => { x with eddy := { x.eddy with fullDriven := true } }) s)) s)

/-- The host has queued its own RELEASE of the wafer (05 R160, 10 R317). -/
def hostRelease (s : State) : Bool := s.root.queue.any (fun a => a.kind == 2 && a.scope == 0 && a.origin == 0)

/-- TRACE_DRAIN_RELEASE: every partition of the plan is empty, or DRAIN_MAX has passed, and the centre releases the wafer,
unless it is not still or the host has queued its own RELEASE (04 R121; 10 R317). -/
def execTraceDrainRelease (s : State) : Host.Outcome State Fault Refusal :=
  .next (match s.plans.trace with
    | none => s
    | some p =>
      match p.drainFrom with
      | none => s
      | some t =>
        let s := if (allPartitions s).all (fun q => q.held.isEmpty) then s else elapse (t + p.cfg.drainMax * 1000000) s
        let s := onPartitions (fun q => if q.state = 4 then { q with state := 0 } else q)
          (onPlans (fun x => { x with trace := some { p with drainFrom := none } }) s)
        if hostRelease s || !inForce s 0 then s else queueRelease 7 s)

/-! The wait-for graph -/

/-- A peer of the graph: PEER_KIND and PEER; for a tile, the LTN (10 R321, R322). -/
abbrev Peer := Nat × Nat

/-- The valid descriptors of a tile, by engine. -/
def waits (x : Tile) : List Word := ((List.range 4).map (fun e => mget 0 x.hang.wait e)).filter (fun w => bit 63 w.toNat)

/-- Where a descriptor leads (10 R322). -/
def peerOf (w : Word) : Peer :=
  let k := bits 55 54 w.toNat
  (k, if k = 3 then 0 else if k = 0 then bits 53 35 w.toNat else bits 40 35 w.toNat)

/-- The tiles that some engine waits on; the first 131,072 of them are the nodes (10 R322; log 34). -/
def waiting (s : State) : List Nat := (s.tiles.filter (fun p => p.2.power.answers && !(waits p.2).isEmpty)).map (·.1)
def graphNodes (s : State) : List Nat := (waiting s).take 131072

/-- The node that a descriptor leads to, if it leads to one. -/
def leadsTo (s : State) (ns : List Nat) (w : Word) : Option Nat :=
  let p := peerOf w
  if p.1 = 0 then (holderOf s p.2).filter (fun t => ns.contains t) else none

def nextNodes (s : State) (ns : List Nat) (t : Nat) : List Nat := ((waits (tileOf s t)).filterMap (leadsTo s ns)).eraseDups

/-- What is reached from a list of nodes, itself included; `n` bounds the steps. -/
def reachFrom (adj : Nat → List Nat) : Nat → List Nat → List Nat
  | 0, l => l
  | n + 1, l =>
    let m := (l ++ l.flatMap adj).eraseDups
    if m.length = l.length then l else reachFrom adj n m

/-- The nodes reached from `t` by one edge or more. -/
def reached (s : State) (ns : List Nat) (t : Nat) : List Nat := reachFrom (nextNodes s ns) ns.length (nextNodes s ns t)

/-- The members of the cycle through `t`; empty where none runs (10 R322). -/
def cycleOf (s : State) (ns : List Nat) (t : Nat) : List Nat :=
  (reached s ns t).filter (fun u => (reached s ns u).contains t)

/-- Puts a value into a list that falls by weight, after those of its weight. -/
def insertBy {α : Type} (w : α → Nat) (a : α) : List α → List α
  | [] => [a]
  | b :: r => if w b < w a then a :: b :: r else b :: insertBy w a r

def sortBy {α : Type} (w : α → Nat) (l : List α) : List α := l.foldl (fun m a => insertBy w a m) []

/-- The lowest member of a cycle by LTN. -/
def lowestLtn (s : State) (l : List Nat) : Nat :=
  l.foldl (fun a t => if (tileOf s t).txn.ltn < (tileOf s a).txn.ltn then t else a) (l.headD 0)

/-- The cycles, largest first; of equal ones, that with the lowest member first (10 R323; log 34). -/
def cycles (s : State) (ns : List Nat) : List (List Nat) :=
  sortBy List.length ((ns.map (fun t => (t, cycleOf s ns t))).filterMap (fun p =>
    if !p.2.isEmpty && lowestLtn s p.2 == p.1 then some p.2 else none))

/-- The members of a cycle in order from the lowest LTN, each with the descriptor that leads on: to the first member not
yet listed, else to the lowest (10 R323; log 34). -/
def cycleOrder (s : State) (ms : List Nat) : Nat → Nat → List Nat → List (Nat × Word)
  | 0, _, _ => []
  | n + 1, t, left =>
    let ws := waits (tileOf s t)
    match ws.find? (fun w => (leadsTo s left w).isSome) with
    | some w =>
      let u := (leadsTo s left w).getD 0
      (t, w) :: cycleOrder s ms n u (left.filter (fun x => x != u))
    | none =>
      let w := (ws.find? (fun w => (leadsTo s ms w).isSome)).getD 0
      (t, w) :: (if left = [] then [] else
        let u := lowestLtn s left
        cycleOrder s ms n u (left.filter (fun x => x != u)))

/-- A cycle entry (10 R323). -/
def cycleBytes (s : State) (ms : List Nat) : List Byte :=
  let t := lowestLtn s ms
  le 4 ms.length ++ zeros 4 ++ ((cycleOrder s ms 64 t (ms.filter (fun u => u != t))).flatMap (fun p =>
    le 4 (tileOf s p.1).txn.ltn ++ le 8 p.2.toNat ++ zeros 4))

/-- The peers that are no nodes (10 R322). -/
def graphRoots (s : State) (ns : List Nat) : List Peer :=
  ((ns.flatMap (fun t => waits (tileOf s t))).filter (fun w => (leadsTo s ns w).isNone)).map peerOf |>.eraseDups

/-- CAUSE of a root (10 R322, R323). -/
def rootCause (s : State) (p : Peer) : Nat :=
  match p.1 with
  | 1 => 3
  | 2 => 4
  | 3 => 5
  | _ =>
    match holderOf s p.2 with
    | none => 5
    | some t =>
      let x := tileOf s t
      if coreDark x then 0 else if x.still.state != stStill then 1 else if !x.core.cmdBusy then 2 else 5

/-- DEPENDENTS of a root: nodes from which it is reached and no cycle is (10 R322). -/
def dependents (s : State) (ns : List Nat) (p : Peer) : Nat :=
  (ns.filter (fun t =>
    let r := reachFrom (nextNodes s ns) ns.length [t]
    r.any (fun u => (waits (tileOf s u)).any (fun w => peerOf w == p && (leadsTo s ns w).isNone)) &&
    !r.any (fun u => !(cycleOf s ns u).isEmpty))).length

def rootBytes (s : State) (p : Peer × Nat) : List Byte :=
  le 4 (p.1.1 + 4 * p.1.2) ++ le 1 (rootCause s p.1) ++ zeros 3 ++ le 4 p.2 ++ zeros 4

/-- The report (10 R323). -/
def graphReport (s : State) : List Byte :=
  let ns := graphNodes s
  let cs := cycles s ns
  let rs := sortBy (fun (p : Peer × Nat) => p.2) ((graphRoots s ns).map (fun p => (p, dependents s ns p)))
  padTo 32 (le 4 ns.length ++ le 4 (ns.flatMap (fun t => waits (tileOf s t))).length ++ le 2 cs.length ++ le 2 rs.length ++
    le 4 (b2n (decide (131072 < (waiting s).length)) + 2 * b2n (waferStrag s)) ++ le 8 s.root.stillT ++ le 2 s.mapEpoch) ++
  (cs.take 16).flatMap (cycleBytes s) ++ (rs.take 256).flatMap (rootBytes s)

/-- WFG_BUILD (10 R322 to R324). The build is one step, so none is ever found running (log 8). -/
def execWfgBuild (h : ReqHdr) (s : State) : Host.Outcome State Fault Refusal :=
  request { op := 0x75, classC := false } h (fun _ s => [refuse (!(s.root.wstate == 3 || waferStrag s))])
    (okWith graphReport) s

end Sys2Proof.Machine
end

