-- ==== Sys2Proof/Machine/CrashOps.lean ====
section
/-! DEFINITION. Crash records and last-gasp records: their sections, headers and places in the Well, and defect records
(12 R376 to R380, R388, R393, R516). -/

namespace Sys2Proof.Machine

/-! Places in the Well (12 R377) -/

def wellTag : Nat := 0x574C534B
def lgSlot (i : Nat) : Nat := 0x1000 + 0x10000 * i
def pendingSlot (i : Nat) : Nat := 0x21000 + 64 * i
def crashStart : Nat := 0x22000
def crashEnd : Nat := 0x22000 + 16637952

/-- The Well header's TAG and VERSION are in place (15 R471). -/
def wellOk (s : State) : Bool := wellWord s 0 == wellTag && unle (wellRead s 4 2) == 1

/-- The first 24 bytes of a fresh Well header: every counter zero, the crash ring empty (15 R471). -/
def freshHeader : List Byte := padTo 4096 (le 4 wellTag ++ le 2 1 ++ zeros 2 ++ le 4 crashStart)

/-! Sections (12 R379, R516) -/

/-- A section: KIND in [15:0] and the byte length in [63:32] of its heading. -/
def crashSection (kind : Nat) (body : List Byte) : List Byte := le 8 (kind + body.length * 2 ^ 32) ++ body

/-- Section 1: the status registers. -/
def secStatus (s : State) : List Byte :=
  crashSection 1 ([alarmReg s, stillReg s, snapReg s, txnReg s, timeStatusReg s].flatMap (le 8))

/-- Section 2: the still census result and straggler list. -/
def secCensus (s : State) : List Byte :=
  let r := s.root
  crashSection 2 (le 4 r.okCount ++ le 4 r.nakCount ++ le 4 r.flagsOr ++ le 4 r.stragCount ++ le 8 r.stillT ++
    le 4 r.stragglers.length ++ zeros 4 ++ r.stragglers.flatMap (stragBytes s))

/-- Section 3: a suspect. -/
def suspectBytes (s : State) (u : Suspect) : List Byte :=
  let x := tileOf s u.tile
  padTo 16 (le 4 (coord u.tile) ++ le 4 (ltnWord x) ++ le 1 u.cls ++
    le 1 (x.still.state % 8 + 8 * b2n x.still.lateFrz + 16 * b2n x.still.missed) ++ le 2 x.still.mask.toNat ++
    le 1 (b2n x.power.cwdtFired + 2 * b2n x.power.retired))

def secSuspects (s : State) : List Byte := crashSection 3 (s.recov.suspects.flatMap (suspectBytes s))

/-- The tiles whose rings the centre can read: those whose stubs answer (02 R60, 10 R309). -/
def ringsOf (s : State) (ts : List Nat) : List Nat := ts.filter (fun t => (tileOf s t).power.answers)

/-- Section 4: the ring of one tile, oldest record first. -/
def crashRing (s : State) (t : Nat) : List Byte :=
  let x := tileOf s t
  let l := ringList (ringDepth s) x.eddy
  le 4 (coord t) ++ le 4 (ltnWord x) ++ le 4 l.length ++ zeros 4 ++ l.flatMap eddyBytes

def secRings (s : State) (ts : List Nat) : List Byte := crashSection 4 (ts.flatMap (crashRing s))

/-- Section 5: the last status frames. -/
def secFrames (s : State) : List Byte :=
  crashSection 5 (le 4 s.recov.frames.length ++ zeros 4 ++ s.recov.frames.flatten)

/-- Section 6: the last 16 light census results. -/
def secCensusRing (s : State) : List Byte := crashSection 6 ((lastN 16 s.census.ring).flatMap lcBytes)

/-- Section 7: the SDC key and its differing values; the spec gives no layout (log 39). -/
def secSdc (s : State) : List Byte :=
  crashSection 7 (match s.recov.sdcKey with
    | none => []
    | some k => le 4 k.1 ++ le 4 k.2.1 ++ le 4 k.2.2 ++ zeros 4 ++ s.recov.sdcValues.flatMap (fun v => le 8 v.toNat))

/-- Section 8: the recovery journal, whose content the spec does not give: a free value (log 39). -/
def secJournal (s : State) : List Byte :=
  crashSection 8 (((Config.freeCells s.boot.freeCount 1).map (·.2)).take 4096)

/-- Section 9: the power readings and the transaction that a last gasp found. -/
def secPower (s : State) (txn : Nat) : List Byte :=
  let c := s.census
  crashSection 9 (padTo 24 (le 2 c.vin ++ le 2 c.iin ++ le 2 c.pin ++ le 2 c.statusWord ++ le 8 c.einTotal ++ le 2 txn ++
    le 1 (b2n (txn != 0) + 2 * b2n c.readValid)))

/-! Rings to read (10 R309, 12 R376) -/

/-- How far a tile lies from the nearest suspect. -/
def suspectDistance (us : List Nat) (t : Nat) : Nat :=
  (us.map (fun u => max (max (tileX u - tileX t) (tileX t - tileX u)) (max (tileY u - tileY t) (tileY t - tileY u)))).min?.getD 0

/-- The tiles within two columns and two rows of a suspect, spares included, on y then x. -/
def ringTiles (us : List Nat) : List Nat :=
  ((us.flatMap (fun u => (List.range 5).flatMap (fun i => (List.range 5).filterMap (fun j =>
    let x := tileX u + j
    let y := tileY u + i
    if 2 ≤ x && x ≤ 769 && 2 ≤ y && y ≤ 481 then some (tileAt (x - 2) (y - 2)) else none)))).eraseDups.foldl
      (fun l t => l.takeWhile (fun q => decide (q < t)) ++ [t] ++ l.dropWhile (fun q => decide (q < t))) [])

/-- The rings without those of the farthest neighbours. -/
def dropFarthest (us ts : List Nat) : List Nat :=
  let d := (ts.map (suspectDistance us)).max?.getD 0
  ts.filter (fun t => suspectDistance us t != d)

/-- The compressed payload of a crash record with the rings of `ts`. -/
def crashFrame (s : State) (ts : List Nat) : List Byte :=
  Config.zstd (secStatus s ++ secCensus s ++ secSuspects s ++ secRings s ts ++ secFrames s ++ secCensusRing s ++ secSdc s ++ secJournal s)

/-- Leaves rings out, farthest first, until the record is at most 1 MiB; at most three distances occur, and a fourth
round leaves none. -/
def fitRings (s : State) : Nat → List Nat → List Nat
  | 0, ts => ts
  | n + 1, ts =>
    if 256 + (crashFrame s ts).length ≤ 2 ^ 20 then ts
    else fitRings s n (dropFarthest (s.recov.suspects.map (·.tile)) ts)

/-! Headers (12 R378, R393) -/

/-- The last step that every counter-plan member has closed: LC_STEP − 1, all ones if unknown (12 R378, 07 R222). -/
def lastStep (s : State) : Nat :=
  match s.census.ring.getLast? with
  | none => 2 ^ 32 - 1
  | some r => if 1 ≤ r.step && r.step < 2 ^ 32 then r.step - 1 else 2 ^ 32 - 1

/-- A record header but for COMMIT: 252 bytes. -/
def recordHeader (s : State) (tag flags sq t onset raised : Nat) (frame : List Byte) : List Byte :=
  padTo 252 (le 4 tag ++ le 2 1 ++ le 2 flags ++ le 4 sq ++ le 4 frame.length ++ le 8 t ++ le 8 onset ++ le 2 s.cfg.engine ++
    le 2 raised ++ le 2 s.mapEpoch ++ le 1 0xFF ++ le 1 s.recov.suspects.length ++ le 4 0 ++ le 4 (lastStep s) ++
    sha384 frame)

/-- No snapshot is VALID. -/
def noSnapshot (s : State) : Bool := !([0, 1].any (fun p => (pondOf s p).state == 3))

/-- Where the next crash record goes: CRASH_HEAD, or the place after a record that is still to be written; the start of the ring
where it would run past the end (12 R377, R380). -/
def crashPlace (s : State) (len : Nat) : Nat :=
  let h := match s.recov.older.getLast? with
    | some w => afterRecord w.offset w.bytes.length
    | none => wellWord s 8
  if h < crashStart || crashEnd < h + len then crashStart else h

/-- Builds the crash record of the dump's still and starts its Well write (12 R376); each ring read is frozen and set free (10
R308, R309). An onset that is not known is a free value (log 39). -/
def startCrash (s : State) : State :=
  let us := s.recov.suspects.map (·.tile)
  let all := ringsOf s (ringTiles us)
  let ts := fitRings s 4 all
  let frame := crashFrame s ts
  let flags := b2n (ts != all) + 2 * b2n s.recov.defectPending + 4 * b2n (noSnapshot s)
  let onset := s.recov.onset.getD (Config.freeNat s.boot.freeCount 2)
  let bs := recordHeader s 0x4352534B flags (wellWord s 12 + s.recov.older.length) s.root.stillT onset s.recov.raised.toNat frame ++ zeros 4 ++ frame
  let w : CrashWrite := { offset := crashPlace s bs.length, bytes := bs, rings := all.map (crashRing s) }
  all.foldl (fun s t => thaw t s) (drawFree (onRec (fun r => { r with crash := some w }) s))

/-- A committed crash record starts at a 4 KiB boundary of the ring (12 R378, R380). -/
def crashAt (s : State) (a : Nat) : Bool := wellWord s a == 0x4352534B && wellWord s (a + 252) == 1

/-- The committed crash records, by place. -/
def crashRecords (s : State) : List Nat := ((List.range 4062).map (fun i => crashStart + 4096 * i)).filter (crashAt s)

/-- Writes a record that waits, COMMIT last, and notes the records that it overwrites; a record whose recovery has ended is
followed by the Well header (12 R380). -/
def commitCrash (w : CrashWrite) (s : State) : CrashWrite × State :=
  let gone := (crashRecords s).filter (fun a => decide (w.offset ≤ a) && decide (a < w.offset + w.bytes.length))
  let w := { w with written := true, lost := gone.length }
  let s := wellPut (w.offset + 252) (le 4 1) (wellPut w.offset w.bytes s)
  (w, if w.ended then putWellHead w s else s)

/-! The last gasp (12 R392, R393) -/

/-- A committed last-gasp record lies in a slot. -/
def lgAt (s : State) (i : Nat) : Bool := wellWord s (lgSlot i) == 0x4C47534B && wellWord s (lgSlot i + 252) == 1

/-- The slot that does not hold the newest committed record. -/
def lgTarget (s : State) : Nat :=
  match lgAt s 0, lgAt s 1 with
  | true, true => if wellWord s (lgSlot 1 + 8) < wellWord s (lgSlot 0 + 8) then 1 else 0
  | true, false => 1
  | _, _ => 0

/-- The rings that fit into `n` bytes more. -/
def fitLast : Nat → List (List Byte) → List (List Byte)
  | _, [] => []
  | n, b :: r => if b.length ≤ n then b :: fitLast (n - b.length) r else []

/-- Assembles the last-gasp record: `txn` is the transaction the FIXED action found; the rings that an interrupted crash
capture has read fill the rest. Crash records that are not yet in the Well are cut short. -/
def startLastGasp (txn accepted onset : Nat) (s : State) : State :=
  let body := secStatus s ++ secFrames s ++ secCensusRing s ++ secJournal s ++ secPower s txn
  let rings := match s.recov.crash with
    | some w => if w.written then [] else w.rings
    | none => []
  let fit := fitLast (65536 - 256 - 8 - body.length) rings
  let frame := body ++ if fit = [] then [] else crashSection 4 fit.flatten
  let flags := b2n (fit != rings) + 2 * b2n s.recov.defectPending + 4 * b2n (noSnapshot s)
  let bs := recordHeader s 0x4C47534B flags (wellWord s 16) (accepted - 34) onset s.alarm.raised.toNat frame ++ zeros 4 ++ frame
  drawFree (onRec (fun r => { r with
    crash := r.crash.filter (·.written)
    older := []
    lastGasp := some { offset := lgSlot (lgTarget s), bytes := bs } }) s)

/-- Writes the last-gasp record, COMMIT last, and LG_SEQ. -/
def commitLastGasp (w : CrashWrite) (s : State) : State :=
  let s := wellPut (w.offset + 252) (le 4 1) (wellPut w.offset w.bytes s)
  wellPut 16 (le 4 (wellWord s 16 + 1)) s

/-! Defect records (12 R388) -/

/-- The 64 bytes of a defect record. -/
def defectBytes (d : DefectRec) : List Byte :=
  let b := padTo 60 (le 4 0x4446534B ++ le 4 d.seq ++ le 8 d.press ++ le 2 d.engine ++ le 1 d.kind ++ le 1 d.cls ++ le 4 (coord d.tile) ++
    le 1 d.deadPos ++ le 1 d.sparePos ++ le 2 d.mapEpoch ++ le 4 d.snapId)
  b ++ le 4 (crc32 b)

/-- A slot's 64 bytes hold a record: its TAG and CRC match. -/
def holdsDefect (bs : List Byte) : Bool := unle (bs.take 4) == 0x4446534B && unle (bs.drop 60) == crc32 (bs.take 60)

/-- A slot is free: its first four bytes are all ones. -/
def freeSlot (bs : List Byte) : Bool := unle (bs.take 4) == 2 ^ 32 - 1

def springRead (s : State) (a n : Nat) : List Byte := bytesAt 0xFF s.xspi.spring a n
def springPut (a : Nat) (bs : List Byte) (s : State) : State :=
  onXspi (fun x => { x with spring := storeBytes 0xFF x.spring a bs }) s

/-- The offsets of the slots of the Spring defect area. -/
def springSlots (s : State) : List Nat := (List.range (s.cfg.defSize / 64)).map (fun i => s.cfg.defOff + 64 * i)

/-- The first free slot of the Spring defect area. -/
def springFree (s : State) : Option Nat := (springSlots s).find? (fun a => freeSlot (springRead s a 64))

/-- The slots of the Well's defect pending area that hold a record, and the first free one. -/
def pendingSlots (s : State) : List Nat := (List.range 64).filter (fun i => holdsDefect (wellRead s (pendingSlot i) 64))
def pendingFree (s : State) : Option Nat :=
  if s.boot.wellAbsent then none else (List.range 64).find? (fun i => freeSlot (wellRead s (pendingSlot i) 64))

/-- A record goes into the Well's pending area; with no free slot it stays in hub SRAM. -/
def toPending (d : DefectRec) (s : State) : State :=
  match pendingFree s with
  | none => s
  | some i => onRec (fun r => { r with defectPending := true, defects := r.defects.erase d }) (wellPut (pendingSlot i) (defectBytes d) s)

/-- A record goes into the Spring defect area, or to the pending area if that is full or the program fails. -/
def storeDefect (ok : Bool) (d : DefectRec) (s : State) : State :=
  match ok, springFree s with
  | true, some a => onRec (fun r => { r with defects := r.defects.erase d }) (springPut a (defectBytes d) s)
  | _, _ => toPending d s

end Sys2Proof.Machine
end

