-- ==== Sys2Proof/Machine/MendOps.lean ====
section
/-! DEFINITION. Retiring tiles, the map of logical positions, and the mend (12 R381 to R388). -/

namespace Sys2Proof.Machine

/-! Retiring -/

/-- The sixteen tiles of a tile's row segment, by position (12 R383). -/
def segTiles (t : Nat) : List Nat := (List.range 16).map (fun p => tileAt (16 * segGroup t + p) (segRow t))

/-- The position of a tile in its segment. -/
def segPos (t : Nat) : Nat := tileX t % 16

/-- Another tile of the segment is retired. -/
def segSpent (s : State) (t : Nat) : Bool := (segTiles t).any (fun u => u != t && (tileOf s u).power.retired)

/-- The centre sets ST_HEALTH.RETIRED: the stub drives TILE_RETIRE and answers every still census OK (12 R382). -/
def retireTile (t : Nat) (s : State) : State :=
  onRec (fun r => { r with deadX := tileX t, deadY := tileY t })
    (onTile t (fun x => { x with power := { x.power with retired := true } }) s)

/-! The map -/

/-- The logical position of a tile under the rule of R383: the tiles of a segment that are not retired take its fifteen
logical columns in physical order. -/
def segLtn (s : State) (t : Nat) : Option Nat :=
  if (tileOf s t).power.retired then none
  else
    let i := ((segTiles t).filter (fun u => decide (u < t) && !(tileOf s u).power.retired)).length
    if i < 15 then some (ltnAt (15 * segGroup t + i) (segRow t)) else none

/-- The region bits of a logical position (04 R111). -/
def regionBits (s : State) (l : Option Nat) : Nat :=
  match l with
  | none => 0
  | some n => maskOf 16 (fun i => i != 0 && i != 15 && (regionOf s i).valid && inRect (regionOf s i) n)

/-- An IDENT word (06 R185). -/
def identWord (s : State) (l : Option Nat) : Word :=
  BitVec.ofNat 64 (regionBits s l + l.getD 0 * 2 ^ 32 + b2n l.isSome * 2 ^ 63)

/-- The state as it will be once the tiles of a list hold the positions of R383: for building what depends on the new map. -/
def mapped (ts : List Nat) (s : State) : State :=
  ts.foldl (fun v t =>
    let l := segLtn s t
    onTile t (fun x => { x with txn := { x.txn with ltnValid := l.isSome, ltn := l.getD 0 } }) v) s

/-! The mend transaction (12 R385) -/

/-- A tile takes a new role. -/
def newRole (s : State) (t : Nat) : Bool := (segLtn s t).isSome && segLtn s t != ltnOf s t

/-- A tile that takes a new role fetches the role's bank and counter plan. -/
def fetchRole (v : State) (t : Nat) (s : State) : State :=
  if !fetches s t then s
  else
    let y := fetchCnt v.plans.cnt t (fetchBank v.plans.watch t v)
    onTile t (fun x => { x with core := (tileOf y t).core }) s

/-- The 64 entries of a tile's new route table, by the engine's own rule (log 10). -/
def routeWords (t d : Nat) : List Word := (List.range 64).map (fun i => (Config.mendRoute t d).getD i 0)

/-- The items staged at one tile of a mended segment. -/
def mendItems (s v : State) (d t : Nat) : List Item :=
  let x := tileOf s t
  let id : Item := ⟨5, 0, [identWord s (segLtn s t)]⟩
  let route : List Item := if x.power.retired then [] else [⟨3, 0, routeWords t d⟩]
  let plan := match v.plans.cnt with
    | some p => if inSet v p.set t then p.id else 0
    | none => 0
  let wid := match v.plans.watch with
    | some p => p.id % 256
    | none => 0
  let role : List Item := if newRole s t then
      [⟨7, (if x.core.active then 0 else 256) + wid, [bankDigest (bankWords v v.plans.watch t)]⟩,
       ⟨1, 0x1010, [BitVec.ofNat 64 (plan + if x.core.count.sel then 0 else 256)]⟩]
    else []
  id :: route ++ role

/-- An entry for one physical tile. -/
def tileEntry (t : Nat) (is : List Item) : TxnEntry := { isSet := false, addr := tileAddr t, items := is }

/-- EPOCH for every physical tile of the wafer. -/
def epochEntry (e : Nat) : TxnEntry := { set := wholeWafer, items := [⟨6, 0, [BitVec.ofNat 64 e]⟩] }

def mendEntries (ds : List Nat) (s : State) : List TxnEntry :=
  let v := mapped (ds.flatMap segTiles) s
  ds.flatMap (fun d => (segTiles d).map (fun t => tileEntry t (mendItems s v d t))) ++ [epochEntry ((s.mapEpoch + 1) % 65536)]

/-- Starts the transaction that mends the segments of retired tiles. -/
def startMend (ds : List Nat) (reply : Option ReqHdr) (s : State) : State :=
  let v := mapped (ds.flatMap segTiles) s
  let es := mendEntries ds s
  let s := ((ds.flatMap segTiles).filter (newRole s)).foldl (fun s t => fetchRole v t s) s
  startCentre 4 s.txn.stageTmo es reply (onTxn (fun q => { q with mapTries := 0 }) s)

/-- A mend is staged, pressed or waits. -/
def mendRuns (s : State) : Bool := s.txn.active.any (fun x => x.purpose == 4) || s.txn.waiting.any (fun x => x.purpose == 4)

/-! Defect records -/

/-- The next SEQ: one more than the records that the two areas and the centre hold (log 40). -/
def defectSeq (s : State) : Nat :=
  ((springSlots s).filter (fun a => holdsDefect (springRead s a 64))).length + (pendingSlots s).length + s.recov.defects.length

/-- Adds a record of one retired tile to those that are to be written (12 R388). -/
def addDefect (kind cls snap press t : Nat) (s : State) : State :=
  let d : DefectRec :=
    { seq := defectSeq s
      press := press
      engine := s.cfg.engine
      kind := kind
      cls := cls
      tile := t
      deadPos := segPos t
      sparePos := if spareCol (tileX t) then 255 else 15
      mapEpoch := s.mapEpoch
      snapId := snap }
  onRec (fun r => { r with defects := r.defects ++ [d] }) s

/-- A segment has been mended under the current map epoch (12 R387). -/
def noteMend (t : Nat) (s : State) : State :=
  onRec (fun r => { r with
    lastMendEpoch := r.lastMendEpoch.filter (fun m => !(m.1 == segRow t && m.2.1 == segGroup t)) ++ [(segRow t, segGroup t, s.mapEpoch)] }) s

/-- After a mend the trace plan is applied by LTN again: a tile of a mended segment that has come into its set streams into a
partition of its own, and one that has left it goes back to ring mode. The dead tile's partition stays (10 R319). -/
def reapplyTrace (ds : List Nat) (s : State) : State :=
  match s.plans.trace with
  | none => s
  | some p =>
    let v := pack [(8, 1, 1), (10, 2, p.cfg.policy), (12, 4, p.cfg.fullClass), (16, 16, p.cfg.flushUs), (32, 8, p.cfg.mask.toNat)]
    (ds.flatMap segTiles).foldl (fun s t =>
      let x := tileOf s t
      let held := inSet s p.cfg.set t && x.txn.ltnValid
      if held && !x.eddy.stream then pressEddyCtl v t s
      else if !held && x.eddy.stream then
        onTile t (fun x => { x with eddy := { x.eddy with
          stream := false
          streamQ := []
          unsent := 0
          streamGap := 0
          flushAsked := false
          policy := 0
          fullClass := 0 } }) (flushStub t s)
      else s) s

/-! Going on -/

/-- The newest VALID snapshot taken at least 1 µs before the onset (12 R372). -/
def usablePond (s : State) (onset : Nat) : Option Nat :=
  let ok := fun p => (pondOf s p).state == 3 && decide ((pondOf s p).t + 1000 ≤ onset)
  match ok 0, ok 1 with
  | true, true => some (if (pondOf s 0).t < (pondOf s 1).t then 1 else 0)
  | true, false => some 0
  | false, true => some 1
  | _, _ => none

/-- The snapshot a recovery goes back to. -/
def recoveryPond (s : State) : Option Nat := s.recov.onset.bind (usablePond s)

/-- The recovery's restore: steps 1 to 4 of R354, the release withheld; one that cannot start leaves the wafer still for
the host (12 R371, R375). -/
def startRestore (s : State) : State :=
  match recoveryPond s with
  | none => endRecovery 5 s
  | some p =>
    if !declared s 0 || regionStands s then endRecovery 8 s
    else beginRestore p 0 false true s.cfg.skS none (onRec (fun r => { r with phase := 4, snapId := (pondOf s p).snapId }) s)

/-- The mend's press is confirmed: its segments are noted and a defect record is due for every tile retired with it; then
the recovery restores, or MEND_NOW is over (12 R385, R388, R396). -/
def afterMend (s : State) : State :=
  let press := s.txn.t
  match s.recov.mendRequest with
  | some _ =>
    let s := reapplyTrace [s.recov.mendTile] s
    onRec (fun r => { r with mendRequest := none }) (addDefect 2 0 0 press s.recov.mendTile (noteMend s.recov.mendTile s))
  | none =>
    let s := reapplyTrace s.recov.mending s
    let snap := ((recoveryPond s).map (fun p => (pondOf s p).snapId)).getD 0
    let s := s.recov.mending.foldl (fun s t =>
      addDefect (if spareCol (tileX t) then 1 else 0) ((s.recov.suspects.find? (fun u => u.tile == t)).map (·.cls) |>.getD s.recov.cls)
        snap press t (if spareCol (tileX t) then s else noteMend t s)) s
    let s := onRec (fun r => { r with mending := [] }) s
    if s.recov.phase = 3 then startRestore s else s

/-- A mend that leaves targets LOST is no mend: its recovery needs a checkpoint (log 41). -/
def lostMend (s : State) : State :=
  if s.recov.mendRequest.isSome then onRec (fun r => { r with mendRequest := none }) s
  else if s.recov.phase = 3 then endRecovery 5 s else s

end Sys2Proof.Machine
end

