-- ==== Sys2Proof/Machine/Recovery.lean ====
section
/-! DEFINITION. Recoveries, mends, crash records and the last gasp, and the confirmation of presses (12; 06 R200). -/

namespace Sys2Proof.Machine

/-! The confirmation of a press (06 R200) -/

/-- The targets that a confirmation census does not count APPLIED, on y then x; a stub without a mark is named with STALE_MAP
(03 R94). -/
def notApplied (s : State) (x : Txn) : List Nat :=
  (txnTargets s x).filter (fun t => !(counts (tileOf s t) && (tileOf s t).txn.id == x.id && (tileOf s t).txn.tstate == 5))

/-- Some target still applies its set. -/
def stillApplying (s : State) (x : Txn) : Bool :=
  (txnTargets s x).any (fun t => counts (tileOf s t) && (tileOf s t).txn.id == x.id && (tileOf s t).txn.tstate == 4)

/-- The answer of TXN_COMMIT (13 R429); a plan's load answers with no body. -/
def pressBody (s : State) (x : Txn) (applied : Nat) : List Byte :=
  if x.centre then [] else padTo 8 (le 2 x.id) ++ le 8 s.txn.t ++ le 4 applied

/-- A trace plan that is active gives no partition to a tile outside its set (10 R310). -/
def prunePartitions (s : State) : State :=
  onListedShims (fun _ q => { q with partitions := q.partitions.filter (fun p =>
    s.plans.trace.any (fun x => inSet s x.cfg.set p.tile)) }) s

/-- What the owner of a pressed transaction does next. -/
def afterPress (purpose : Nat) (ok : Bool) (s : State) : State :=
  match purpose with
  | 3 => prunePartitions s
  | 4 => if ok then afterMend s else lostMend s
  | _ => s

/-- The outcome of a press is final: OK when every target is APPLIED, else LOST with up to 256 of them listed. -/
def finishPress (x : Txn) (s : State) : State :=
  let lost := notApplied s x
  let n := (txnTargets s x).length
  let s := if lost.isEmpty then s else setW1c 0x700 (2 ^ 9) s
  let s := onTxn (fun q => { q with
    lost := lost.take 256
    lostSeen := q.lostSeen || !lost.isEmpty
    pressed := false
    recount := false }) s
  let s := closeTxn (if lost = [] then .ok else .lost)
    (if lost = [] then pressBody s x (n - lost.length) else detail { place := (lost.head?.map coord).getD 4294967295 }) s
  nextCentre (afterPress x.purpose lost.isEmpty s)

/-- PRESS_CONFIRM: the census at T_P + 5 µs; targets still APPLYING are counted once more. -/
def execPressConfirm (s : State) : Host.Outcome State Fault Refusal :=
  .next (match s.txn.active with
    | none => s
    | some x =>
      if !s.txn.pressed || s.txn.tstate != 4 || s.txn.recount then s
      else
        let s := elapse (s.txn.t + 5000) s
        if stillApplying s x then onTxn (fun q => { q with recount := true }) s else finishPress x s)

/-- PRESS_RECOUNT: the second census, at T_P + 1 ms. -/
def execPressRecount (s : State) : Host.Outcome State Fault Refusal :=
  .next (match s.txn.active with
    | none => s
    | some x => if !s.txn.pressed || !s.txn.recount then s else finishPress x (elapse (s.txn.t + 1000000) s))

/-! The decision (12 R372) -/

/-- The tiles that are dead: suspects of class 2, or of class 1 or 4 on a repeat at that tile. -/
def deadTiles (s : State) (us : List Suspect) : List Nat :=
  ((us.filter (fun u => u.cls == 2 || ((u.cls == 1 || u.cls == 4) && repeatAt s u.cls u.tile))).map (·.tile)).filter
    (fun t => !(tileOf s t).power.retired)

/-- Retires dead tiles in turn; true when one held a role that no mend may move. -/
def retireAll (mend : Bool) : List Nat → State → Bool × State
  | [], s => (false, s)
  | u :: r, s =>
    let stuck := (ltnOf s u).isSome && (!mend || segSpent s u)
    if stuck then (true, retireTile u s) else retireAll mend r (retireTile u s)

/-- A record is due for each dead spare that no mend carries along. -/
def noteSpares (c : Nat) (ds : List Nat) (s : State) : State := ds.foldl (fun s t => addDefect 1 c 0 (now s) t s) s

/-- The decision once the suspects are named and the crash record is begun. After a restart the tiles found dead before count
with those found now (12 R372, R391). -/
def decideRecovery (c : Nat) (s : State) : State :=
  let us := s.recov.suspects
  let p := policyOf s c
  if s.recov.dieLoss && (recClasses s).any (fun j => j.1 == 7) then endRecovery 6 s
  else if 8 ≤ c || !p.rollback || (c == 3 && isRepeat s 3 us) then endRecovery 8 s
  else if c = 5 && isRepeat s 5 us then endRecovery 5 s
  else
    let ds := deadTiles s us
    let r := retireAll p.mend ds s
    let s := refreshStill r.2
    let s := onRec (fun q => { q with dead := q.dead ++ ds, mending := q.mending ++ ds }) s
    let held := s.recov.mending.filter (fun t => (ltnOf s t).isSome)
    if r.1 then endRecovery 5 s
    else if s.recov.dead != [] && s.recov.dead.all (fun t => spareCol (tileX t)) && c = 2 then
      endRecovery 4 (queueRelease 1 (noteSpares 2 s.recov.mending s))
    else if (recoveryPond s).isNone then endRecovery 5 s
    else if s.cfg.skS && !p.memOk then endRecovery 8 s
    else if held = [] then startRestore (onRec (fun q => { q with mending := [] }) (noteSpares c s.recov.mending s))
    else if !declared s 0 || regionStands s then endRecovery 8 s
    else startMend held none (onRec (fun q => { q with phase := 3 }) s)

/-- RECOVERY_START: the still of a dump is declared. The suspects are named, the crash record is begun, and the centre
decides (12 R371 to R376; 10 R309). A restarted recovery waits for a mend under way. -/
def execRecoveryStart (s : State) : Host.Outcome State Fault Refusal :=
  .next (match s.alarm.running with
    | none => s
    | some a =>
      if a.action != acDump || a.declaredAt.isNone || s.recov.phase != 1 || mendRuns s then s
      else
        let us := nameSuspects s a.tick
        let s := onRec (fun r => { r with
          phase := 2
          suspects := us
          onset := recOnset s us (recClasses s) }) s
        let s := if s.recov.crash.isSome then s else startCrash s
        decideRecovery s.recov.cls s)

/-- RECOVERY_READY: the restore is done; the wafer is READY, and RESUME AUTO releases it if every edge die is ISOLATED
(12 R371, R375). -/
def execRecoveryReady (s : State) : Host.Outcome State Fault Refusal :=
  .next (when (s.recov.phase == 4 && !s.snap.restoring) (fun s =>
    let moved := s.recov.dead.any (fun t => !spareCol (tileX t))
    let p := policyOf s s.recov.cls
    let s := setOutcome (if moved then 3 else 2) (onRec (fun r => { r with phase := 5 }) s)
    if p.resume = 1 && (cutDies s).isEmpty then queueRelease 6 s else s) s)

/-- REC_OVERRUN: the recovery passes 50 ms and goes on (12 R389). -/
def execRecOverrun (s : State) : Host.Outcome State Fault Refusal :=
  .next (when (recBusy s) (fun s =>
    setW1c 0xA00 (2 ^ 19) (onRec (fun r => { r with overrun := true }) (elapse (s.recov.start + 50000000) s))) s)

/-! The Well and Spring -/

/-- What becomes of the record that is being written. -/
def setRecord (q : Nat) (w : Option CrashWrite) (s : State) : State :=
  onRec (fun r =>
    match q with
    | 0 => { r with lastGasp := w }
    | 1 => { r with older := match r.older.findIdx? (fun x => !x.written && !x.failed), w with
        | some i, some y => r.older.set i y
        | some i, none => r.older.eraseIdx i
        | none, _ => r.older }
    | _ => { r with crash := w }) s

/-- A Well write fails: WELL_FAIL is set, and the record stays in hub SRAM (12 R395). -/
def failRecord (q : Nat) (w : CrashWrite) (s : State) : State := failWell (setRecord q (some { w with failed := true }) s)

/-- Once no record is being written, the host's Well writes that waited are made, and Spring goes on with its next operation
(16 R488, R496). -/
def freeBus (s : State) : State :=
  if wellBusy s then s
  else
    let ws := s.xspi.wellWaits
    let s := onXspi (fun x => { x with wellWaits := [], owner := if x.pending.isEmpty then 0 else 1 }) s
    ws.foldl (fun s w =>
      if s.boot.wellAbsent then respondOpt w.reply .timeout (detail {}) (failWell s)
      else respondOpt w.reply .ok [] (wellPut w.offset w.bytes s)) s

/-- The write of a record can go on: a last gasp waits for the transition sequencer only, any other record for the Spring
operation in progress (12 R392, 14 R455, 16 R488). -/
def wellGoes (q : Nat) (s : State) : Bool := if q = 0 then !sequencing s else s.xspi.owner != 1

/-- WELL_WRITE_DONE: a last-gasp record or a crash record is in the Well, COMMIT last. Without a Well the write has
failed, and the record stays in hub SRAM (12 R380, R393; 15 R462). -/
def execWellWriteDone (s : State) : Host.Outcome State Fault Refusal :=
  .next (match wellNext s with
    | none => s
    | some (q, w) =>
      if s.boot.wellAbsent then freeBus (failRecord q w s)
      else if !wellGoes q s then s
      else if q = 0 then freeBus (answerOwed (setRecord 0 none (commitLastGasp w s)))
      else
        let r := commitCrash w s
        freeBus (setRecord q (if q = 1 then none else some r.1) r.2))

/-- WELL_BURST_TIMEOUT: a burst of 4 KiB is retried once; then WELL_FAIL is set and the record stays in hub SRAM (12 R395;
log 138). -/
def execWellBurstTimeout (s : State) : Host.Outcome State Fault Refusal :=
  .next (match wellNext s with
    | none => s
    | some (q, w) =>
      if !wellGoes q s then s
      else
        let s := onXspi (fun x => { x with wellTmo := satAdd 16 x.wellTmo 1 }) s
        if w.retried then freeBus (failRecord q w s) else setRecord q (some { w with retried := true }) s)

/-- DEFECT_RECORD_WRITE: the oldest record that waits goes to Spring, or to the Well's pending area, once nothing else holds the
xSPI bus (12 R388, 16 R488). -/
def execDefectRecordWrite (ok : Bool) (s : State) : Host.Outcome State Fault Refusal :=
  .next (match s.recov.defects with
    | [] => s
    | d :: _ => if wellBusy s || s.xspi.owner = 1 then s else storeDefect ok d s)

/-- The operations of the request in progress are dropped; those of later requests stay. -/
def dropRequest : List SpringOp → List SpringOp
  | [] => []
  | p :: r => if p.last then r else dropRequest r

/-- SPRING_PROGRAM_TIMEOUT: a page program passes 5 ms: a defect record goes to the pending area, and a host's operation
completes with TIMEOUT (12 R388, R395). -/
def execSpringProgramTimeout (s : State) : Host.Outcome State Fault Refusal :=
  .next (match s.xspi.pending, s.recov.defects with
    | p :: _, _ =>
      if p.erase || s.xspi.owner != 1 then s
      else
        let r := s.xspi.pending.findSome? (·.reply)
        let s := onXspi (fun x =>
          let q := dropRequest x.pending
          { x with springTmo := satAdd 16 x.springTmo 1, pending := q, owner := 0 }) s
        freeBus (respondOpt r .timeout (detail {}) s)
    | [], d :: _ => toPending d (onXspi (fun x => { x with springTmo := satAdd 16 x.springTmo 1 }) s)
    | [], [] => s)

/-! The last gasp -/

/-- The transaction that a FIXED action finds. -/
def foundTxn (s : State) : Nat := if s.txn.active.isSome then s.txn.id else 0

/-- LAST_GASP: PF_WARN_N has been low. Fewer than 32 cycles are a glitch; else class 0 is accepted, the wafer is stilled,
and the last-gasp record is assembled, but for a wipe on the way to RT (12 R392, R393; 14 R455). Before the alarm root is enabled, and in the ROM, nothing starts (15
R468, R470). -/
def execLastGasp (lowCycles : Nat) (s : State) : Host.Outcome State Fault Refusal :=
  .next (
    if lowCycles < 32 then onRec (fun r => { r with pfGlitch := satAdd 4 r.pfGlitch 1 }) s
    else
      let s := onAlarm (fun a => { a with pfWarn := true, pfLow := lowCycles }) s
      if !s.alarm.enabled || inRom s then s
      else
        let found := foundTxn s
        let at0 := now s
        let s := raiseClass 0 s
        let tick := match s.alarm.running with
          | some r => r.tick
          | none => s.root.stillT
        onRec (fun r => { r with phase := 7 }) (if sequencing s && s.lc.target = 3 then s else startLastGasp found at0 tick s))

/-- PF_WARN_RISE: the wafer stays still for the host (12 R392); a start that waited goes on (15 R470). -/
def execPfWarnRise (s : State) : Host.Outcome State Fault Refusal :=
  .next (onAlarm (fun a => { a with pfWarn := false, pfLow := 0, pfRoseAt := now s }) s)

/-! Requests -/

/-- An entry of CRASH_LIST for the record at place `a` (13 R432). -/
def crashEntry (s : State) (a : Nat) : List Byte :=
  padTo 32 (le 4 a ++ wellRead s (a + 8) 4 ++ wellRead s (a + 16) 8 ++ wellRead s (a + 38) 1 ++ zeros 1 ++ wellRead s (a + 6) 2 ++
    wellRead s (a + 12) 4)

/-- The newest `n` committed records, oldest first. -/
def newestCrashes (s : State) (n : Nat) : List Nat := ((sortBy (fun a => wellWord s (a + 8)) (crashRecords s)).take n).reverse

/-- CRASH_LIST. -/
def execCrashList (h : ReqHdr) (count : Nat) (s : State) : Host.Outcome State Fault Refusal :=
  request { op := 0x90, classC := false } h (fun _ _ => [emptyIf (count == 0)])
    (okWith (fun s => (newestCrashes s count ++ [lgSlot 0, lgSlot 1]).flatMap (crashEntry s))) s

/-- The policy that an SK_REC_POLICY image spells (12 R398). -/
def policyImage (v : Nat) : Policy :=
  { repeatMs := bits 31 16 v, memOk := bit 4 v, resume := bits 3 2 v, mend := bit 1 v, rollback := bit 0 v }

/-- An image that breaks R398: a reserved bit, a window of zero, or a reserved RESUME. -/
def policyBad (v : Nat) : Bool := bits 63 32 v != 0 || bits 15 5 v != 0 || bits 31 16 v == 0 || decide (1 < bits 3 2 v)

/-- REC_POLICY: a new binding for the class clears USED and its DISARMED bit (05 R161). -/
def execRecPolicy (h : ReqHdr) (cls action image : Nat) (s : State) : Host.Outcome State Fault Refusal :=
  request { op := 0x91, classC := true, need := .intrusive } h
    (fun _ s =>
      [ badField (cls == 0 || decide (5 < cls)) 0, badField (!(action == acRecord || action == acWafer || action == acDump)) 1,
        badField (policyBad image) 8, busy (recBusy s) ])
    (fun h s => respond h .ok []
      (onAlarm (fun a => { a with
        classes := mput {} a.classes cls { classOf s cls with action := action, used := 0 }
        disarmed := a.disarmed &&& ~~~((1 : BitVec 16) <<< cls) })
        (onRec (fun r => { r with policies := mput {} r.policies cls (policyImage image) }) s))) s

/-- The conditions of MEND_NOW (12 R384, R391, R396; 04 R133, R135, R143). -/
def mendChecks (t : Nat) (s : State) : List Check :=
  [ badField (decide (numTiles ≤ t)) 0, denied (s.lc.code == 2),
    busy (recBusy s || s.recov.mendRequest.isSome || takeBusy s || s.snap.restoring) ] ++ needsDeclared s 0 ++
  [ refuse (regionStands s), refuse (tileOf s t).power.retired, refuse (segSpent s t) ]

/-- MEND_NOW: answered when the mend's press is confirmed; a spare moves no role (12 R396). -/
def execMendNow (h : ReqHdr) (tile : Nat) (s : State) : Host.Outcome State Fault Refusal :=
  request { op := 0x92, classC := true, need := .intrusive } h (fun _ s => mendChecks tile s)
    (fun h s =>
      let held := (ltnOf s tile).isSome
      let s := retireTile tile s
      if held then startMend [tile] (some h) (onRec (fun r => { r with mendRequest := some h, mendTile := tile }) s)
      else respond h .ok [] (addDefect 2 0 0 (now s) tile s)) s

/-- Moves one pending record to Spring and frees its slot, if Spring has room. -/
def flushSlot (s : State) (i : Nat) : State :=
  match springFree s with
  | none => s
  | some a => wellPut (pendingSlot i) (List.replicate 64 0xFF) (springPut a (wellRead s (pendingSlot i) 64) s)

/-- DEFECT_FLUSH: every pending record is programmed, read back and freed; the whole is one step (12 R396; log 8). Records
for which Spring has no room stay, and the request completes with TIMEOUT (log 42). -/
def execDefectFlush (h : ReqHdr) (s : State) : Host.Outcome State Fault Refusal :=
  request { op := 0x93, classC := true, need := .intrusive } h (fun _ s => [emptyIf (pendingSlots s).isEmpty])
    (fun h s =>
      let s := (pendingSlots s).foldl flushSlot s
      let left := !(pendingSlots s).isEmpty
      let s := onRec (fun r => { r with defectPending := left }) s
      if left then fail h { st := .timeout } s else respond h .ok [] s) s

end Sys2Proof.Machine
end

