-- ==== Sys2Proof/Machine/TimeBase.lean ====
section
/-! DEFINITION. Hub time and alignment: exchanges, adjustment, echo measurement, marks, and the clock sources (03). -/

namespace Sys2Proof.Machine

/-! Exchange and adjustment -/

/-- A latency of the PORT block, in eighths of a nanosecond, as whole nanoseconds (03 R99, log 108). -/
def portLatency (v : Nat) : Nat := (v + 4) / 8

/-- The fixed receive and transmit latencies for the lane's FEC setting (03 R99). -/
def rxLatency (s : State) : Nat := portLatency (if s.port.fecActive then s.cfg.rxFec else s.cfg.rxNoFec)
def txLatency (s : State) : Nat := portLatency (if s.port.fecActive then s.cfg.txFec else s.cfg.txNoFec)

/-- TIME_EXCHANGE: `rxAt` is the hub time at which the hub's logic received the request's first block, and `txAt` the one at
which it hands over the response's. The answer gives the times at the balls, corrected for the fixed latencies of the lane (03
R99, log 108). -/
def execTimeExchange (h : ReqHdr) (rxAt txAt : Nat) (s : State) : Host.Outcome State Fault Refusal :=
  request { op := 0x20, classC := false, rom := true } h (fun _ _ => [])
    (fun h s =>
      let t2 := min rxAt (now s) - rxLatency s
      let s := elapse txAt s
      respond h .ok (le 8 t2 ++ le 8 (now s + txLatency s)) s) s

/-- A plan of any kind is loaded. -/
def anyPlan (s : State) : Bool :=
  s.plans.watch.isSome || s.plans.watchNext.isSome || s.plans.fold.isSome || s.plans.cnt.isSome || s.plans.cntNext.isSome ||
  s.plans.trace.isSome || s.plans.traceNext.isSome || s.plans.snap.isSome

def anyTxn (s : State) : Bool := s.txn.host.isSome || s.txn.active.isSome || !s.txn.waiting.isEmpty

/-- The hub may step its time (03 R101). -/
def mayStep (s : State) : Bool := decide (s.time.align ≤ 1) && s.root.queue.isEmpty && !anyPlan s && !anyTxn s

/-- Adds c to hub time, modulo 2^64. -/
def addTime (hub : Nat) (c : Int) : Nat := ((hub + c) % (2 ^ 64 : Int)).toNat

/-- A step: hub time takes c at once, while every stub's counter keeps its value until the new mark; the light census counts
from the step (03 R101). -/
def stepTime (c : Int) (s : State) : State :=
  let old := rclkNow s
  let s := setW1c 0x110 (2 ^ 7) (onTime (fun t => { t with hub := addTime t.hub c, stepped := true, align := 2 }) s)
  let s := onEveryTile (fun _ x => { x with time := { x.time with
    off8 := ((x.time.off8 + 8 * old - 8 * rclkNow s : Int) % (2 ^ 67 : Int)).toNat } }) s
  let s := startPeriods s
  beginMark (onPort (fun p => { p with frameDue := (now s / 10000 + 1) * 10000 }) s)

/-- Starts a steer (03 R101). -/
def startSteer (c : Int) (s : State) : State :=
  onTime (fun t => { t with steering := true, steerRemain := c, steerFrom := t.hub, steerAcc := 0 }) s

/-- TIME_ADJUST. -/
def execTimeAdjust (h : ReqHdr) (c : Int) (s : State) : Host.Outcome State Fault Refusal :=
  request { op := 0x21, classC := true, need := .intrusive } h
    (fun _ s => [busy s.time.steering, refuse (!mayStep s && decide (100000 < c.natAbs)), emptyIf (c == 0)])
    (fun h s => if mayStep s then respond h .ok [0] (stepTime c s) else respond h .ok [1] (startSteer c s)) s

/-- The hub time at which the accumulated difference equals c (03 R101). -/
def steerEnd (s : State) : Nat :=
  s.time.steerFrom + (s.time.steerRemain.natAbs * 1000000 - s.time.steerAcc + s.time.steerPpm - 1) / s.time.steerPpm

/-- STEER_DONE: the accumulated difference equals c (03 R101). -/
def execSteerDone (s : State) : Host.Outcome State Fault Refusal :=
  .next (when s.time.steering (fun s =>
    onTime (fun t => { t with steering := false, steerRemain := 0, steerAcc := 0, align := 2 }) (elapse (steerEnd s) s)) s)

/-! Echo measurement (03 R92, R93, R103) -/

/-- Puts a number into a list in ascending order. -/
def insertNat (n : Nat) : List Nat → List Nat
  | [] => [n]
  | m :: r => if n ≤ m then n :: m :: r else m :: insertNat n r

/-- Twice the median of a list of intervals: the middle one, or the mean of the middle two, doubled. -/
def median2 (ns : List Nat) : Nat :=
  let l := ns.foldl (fun l n => insertNat n l) []
  l.getD ((l.length - 1) / 2) 0 + l.getD (l.length / 2) 0

/-- The one-way delay in 1/8 ns: half the median interval in HCLK cycles, plus the field's fan-out delay (03 R92). -/
def fieldDelayOf (s : State) (f : Nat) (ns : List Nat) : Nat := 2 * median2 ns + mget 0 s.cfg.fanout f

/-- L_still from the delays in 1/8 ns: ceil((max d_f + 8) / 8) × 8 ns (03 R93). -/
def lstillOf (ds : List Nat) : Nat := 8 * ((ds.foldl max 0 + 64 + 63) / 64)

/-- The delays of all fields. -/
def delays (s : State) : List Nat := (List.range numFields).map (mget 0 s.time.fieldDelay)

/-- A field's down-latency above 90 ns (01 R34). -/
def overLatFields (s : State) : List Nat := (List.range numFields).filter (fun f => decide (720 < mget 0 s.time.fieldDelay f))

/-- The echo measurement: intervals by field; a field with no echo keeps its delay. SK_LSTILL follows. -/
def measure (echo : List (Nat × Nat)) (s : State) : State :=
  let s := (List.range numFields).foldl (fun s f =>
    let ns := (echo.filter (fun e => e.1 == f)).map (·.2)
    if ns.isEmpty then s
    else onTime (fun t => { t with fieldDelay := mput 0 t.fieldDelay f (fieldDelayOf s f ns % 65536) }) s) s
  let s := onTime (fun t => { t with lstill := lstillOf (delays s) }) s
  onRill (fun r => { r with overLat := overLatFields s }) s

/-- Some stub's compensation at its last mark differs from its field's delay by more than 1 ns (03 R103). -/
def drifted (s : State) : Bool :=
  s.tiles.any (fun p => !p.2.time.unset &&
    (let d := mget 0 s.time.fieldDelay (fieldOf p.1); decide (d + 8 < p.2.time.compAtMark) || decide (p.2.time.compAtMark + 8 < d)))

/-- The answer of MEASURE_TIME: SK_LSTILL and the 48 delays (13 R427). -/
def measureBody (s : State) : List Byte := le 4 s.time.lstill ++ (delays s).flatMap (le 4)

/-- A re-measurement: an over-latency field raises class 7 at once (01 R34), and a moved delay sets DRIFT. -/
def remeasure (echo : List (Nat × Nat)) (s : State) : State :=
  let s := measure echo s
  let s := if drifted s then setW1c 0x110 (2 ^ 6) (onTime (fun t => { t with drift := true }) s) else s
  if s.rill.overLat.isEmpty then s else raiseClass 7 s

/-- MEASURE_TIME. -/
def execMeasureTime (h : ReqHdr) (echo : List (Nat × Nat)) (s : State) : Host.Outcome State Fault Refusal :=
  request { op := 0x22, classC := true, need := .intrusive } h (fun _ _ => [])
    (fun h s => okWith measureBody h (remeasure echo s)) s

/-- MEASURE_TIME with REMARK: only on a still wafer with no still-tree action queued. -/
def execMeasureTimeRemark (h : ReqHdr) (echo : List (Nat × Nat)) (s : State) : Host.Outcome State Fault Refusal :=
  request { op := 0x22, classC := true, need := .intrusive } h
    (fun _ s => [refuse (s.root.wstate != 3 || !s.root.queue.isEmpty)])
    (fun h s => okWith measureBody h (beginMark (remeasure echo s))) s

/-! Marks (03 R94) -/

/-- TIME_MARK_LAUNCH: hub time equals M. -/
def execTimeMarkLaunch (s : State) : Host.Outcome State Fault Refusal :=
  .next (match s.time.markTick with
    | none => s
    | some m => onRoot (fun r => { r with lastLaunch := m }) (onTime (fun t => { t with markTick := none, markAt := m }) (elapse m s)))

/-- The stub's counter less hub time when it loads a mark captured one field delay after its launch, in 1/8 ns. -/
def markOffset (launch delay tickLo : Nat) (x : Tile) : Nat :=
  ((8 * (x.time.hi * 2 ^ 32 + tickLo : Int) + x.time.comp - (8 * launch + delay)) % (2 ^ 67 : Int)).toNat

/-- TIME_MARK: a stub captures a mark word, its 48 bits and two parity wires. An armed stub loads its counter, and any other,
or one that sees a parity error, keeps it and sets TIME_UNSET. Capturing disarms, and the record carries the old time (02 R79,
R81, 03 R94, 10 R304). -/
def execTimeMark (tile word : Nat) (parity : Bool × Bool) (s : State) : Host.Outcome State Fault Refusal :=
  .next (when (inService s && decide (tile < numTiles)) (fun s =>
    let w := word % 2 ^ 48
    let d := mget 0 s.time.fieldDelay (fieldOf tile)
    let s := elapse (s.time.markAt + (d + 7) / 8) s
    let x := tileOf s tile
    let old := ts40 (stubNow s tile)
    let good := parityOk w parity.1 parity.2
    let ok := good && x.time.armedHi && x.time.armedComp
    let s := onTile tile (stopHang (stubNow s tile)) s
    let s := onTile tile (fun x => { x with
      time := { x.time with
        off8 := if ok then markOffset s.time.markAt d (wordTick w) x else x.time.off8
        unset := !ok
        compAtMark := if ok then x.time.comp else x.time.compAtMark
        armedHi := false
        armedComp := false
        marking := false }
      still := { x.still with missed := !good } }) s
    let s := onTile tile (fun x => { x with hang := { x.hang with since := stubNow s tile } }) s
    let s := if good then s else record tile 0x0C w s
    record tile 0x0E (b2n (!ok) * 2 ^ 40 + old) s) s)

/-! Clock sources (03 R88 to R90) -/

/-- FLOCK_LOCKED: the loop acquires, or re-acquires, lock. -/
def execFlockLocked (s : State) : Host.Outcome State Fault Refusal :=
  .next (when (s.time.flockEn && (s.time.flock == 1 || s.time.flock == 3)) (fun s =>
    onTime (fun t => { t with flock := 2, holdSince := none }) s) s)

/-- FLOCK_HOLD: the port loses block lock while FLOCK is locked, and the loop enters hold. -/
def execFlockHold (s : State) : Host.Outcome State Fault Refusal :=
  .next (when (s.time.flock == 2) (fun s => if s.port.blockLock then loseLock s else holdLock s) s)

/-- FLOCK_HOLD_TIMEOUT: the hold lasts more than 1 ms. -/
def execFlockHoldTimeout (s : State) : Host.Outcome State Fault Refusal :=
  .next (match s.time.holdSince with
    | none => s
    | some t => if s.time.flock = 3 then onTime (fun x => { x with holdSince := none }) (degrade (elapse (t + 1000001) s)) else s)

/-- REFCLK_LOSS: holdover, which class 7 reports; ALIGN becomes DEGRADED when it was SYSTEM. -/
def execRefclkLoss (s : State) : Host.Outcome State Fault Refusal :=
  .next (raiseClass 7 (onTime (fun t => { t with holdover := true, align := if t.align = 2 then 3 else t.align }) s))

/-- REFCLK_RETURN: the PLL relocks without a step; ALIGN stays. -/
def execRefclkReturn (s : State) : Host.Outcome State Fault Refusal :=
  .next (onTime (fun t => { t with holdover := false }) s)

end Sys2Proof.Machine
end

