-- ==== Sys2Proof/Machine/BootOps.lean ====
section
/-! DEFINITION. What start and the life cycle do with the OTP and Spring: intents, wipes and identity (14 R445 to R455), the
partition table, the firmware image and the configuration blocks (15 R461 to R467), and the cold reset (15 R459, R473). -/

namespace Sys2Proof.Machine

/-! OTP -/

/-- Programs OTP bytes: a bit goes from 0 to 1 and never back (14 R446). -/
def otpProgram (o : Nat) (bs : List Byte) (s : State) : State :=
  let old := otpField s o bs.length
  onXspi (fun x => { x with otp := storeBytes 0 x.otp o (List.zipWith (fun a b => a ||| b) old bs) }) s

/-- Byte k of the three copies, in order (14 R452). -/
def programCopies (k : Nat) (s : State) : State :=
  otpProgram (8 + k) [0xFF] (otpProgram (4 + k) [0xFF] (otpProgram k [0xFF] s))

/-- Takes the state as the OTP now decodes (14 R448). -/
def redecode (s : State) : State := onLc (fun l => { l with code := decodeLc s }) s

/-- PF_WARN_N is low. -/
def pfWarnLow (s : State) : Bool := s.alarm.pfWarn

/-! Spring's partition table (15 R463) -/

def tablePart (s : State) (i : Nat) : SpringPart :=
  let a := 32 + 32 * i
  { kind := unle (springRead s a 1), offset := unle (springRead s (a + 4) 4), size := unle (springRead s (a + 8) 4) }

def tableCount (s : State) : Nat := unle (springRead s 6 2)

/-- The partitions of the table; a count of more than 127 spells none (15 R463). -/
def tableParts (s : State) : List SpringPart :=
  if tableCount s ≤ 127 then (List.range (tableCount s)).map (tablePart s) else []

/-- Two ranges share a byte. -/
def overlap (a n b m : Nat) : Bool := decide (a < b + m) && decide (b < a + n)

/-- No entry overlaps a later one. -/
def disjointParts : List SpringPart → Bool
  | [] => true
  | p :: r => r.all (fun q => !overlap p.offset p.size q.offset q.size) && disjointParts r

def tableValid (s : State) : Bool :=
  let n := tableCount s
  let ps := tableParts s
  unle (springRead s 0 4) == 0x5450534B && unle (springRead s 4 2) == 1 && decide (1 ≤ n) && decide (n ≤ 127) &&
    unle (springRead s 8 4) == crc32 (springRead s 32 (32 * n)) &&
    (ps.filter (fun p => p.kind == 1)).length == 1 && (ps.filter (fun p => p.kind == 2)).length == 1 &&
    ps.all (fun p => p.offset % 65536 == 0 && p.size % 65536 == 0 && p.offset != 0 && p.size != 0) &&
    disjointParts ps && ps.all (fun p => p.kind != 1 || decide (4259840 ≤ p.size))

/-- The IMAGE or CONFIG partition. -/
def partOf (s : State) (kind : Nat) : SpringPart := ((tableParts s).find? (fun p => p.kind == kind)).getD {}

/-! The wipe (14 R453) -/

/-- Erased Spring bytes read as all ones (log 5). -/
def springErase (a n : Nat) (s : State) : State := onXspi (fun x => { x with spring := clearRange x.spring a n }) s

/-- IDKEY and OWNER_DIGEST are all ones, the USER partitions are erased and the Well is zero. -/
def wipeDone (s : State) : State :=
  let s := otpProgram 0xE0 (List.replicate 48 0xFF) (otpProgram 0x80 (List.replicate 48 0xFF) s)
  let s := ((tableParts s).filter (fun p => p.kind == 3)).foldl (fun s p => springErase p.offset p.size s) s
  wellPut 0 (zeros 0x1000000) s

/-- A wipe that stopped on the way: how far it came, and so what it left in the USER partitions and in the Well, is not
said (log 43): free values. The two OTP fields come first and are programmed. -/
def wipeBroken (s : State) : State :=
  let k := s.boot.freeCount
  let s := otpProgram 0xE0 (List.replicate 48 0xFF) (otpProgram 0x80 (List.replicate 48 0xFF) s)
  let s := ((tableParts s).filter (fun p => p.kind == 3)).foldl (fun s p =>
    onXspi (fun x => { x with spring := storeBytes 0xFF x.spring p.offset (bytesAt 0xFF (freeMemory k p.offset p.size) 0 p.size) }) s) s
  drawFree (onXspi (fun x => { x with well := storeBytes wellBlank x.well 0 (bytesAt wellBlank (freeMemory k 1 0x1000000) 0 0x1000000) }) s)

/-- The hub stays in the ROM with its port open for the requests of 13 R433. -/
def openPort (s : State) : State :=
  onPort (fun p => { p with
    opened := true
    fecActive := p.fecEn
    lastValid := now s
    frameDue := (now s + 9999) / 10000 * 10000 }) s

def romMode (reason : Nat) (s : State) : State := openPort (enterRom reason s)

/-! What start does with the OTP (14 R447, R454, R455) -/

/-- A completion by the ROM. -/
def bootDone (s : State) : State := onLc (fun l => { l with bootDone := true }) (redecode s)

/-- Some copy's byte k is not all ones. -/
def copyShort (s : State) (k : Nat) : Bool := (List.range 3).any (fun i => otpByte s (4 * i + k) != 0xFF)

/-- The ROM completes an interrupted transition, unless PF_WARN_N is low (14 R454, R455); the intent of the transition out
of a state stands at that state's own code. -/
def completeIntents (wipeOk : Bool) (s : State) : State :=
  let c := s.lc.code
  if pfWarnLow s then s
  else if intentSet s 3 && c != 4 then bootDone (programCopies 3 s)
  else if 4 ≤ c then (if c = 4 && intentSet s 3 && copyShort s 3 then bootDone (programCopies 3 s) else s)
  else if c < 3 && intentSet s c then
    if c = 2 then (if wipeOk then bootDone (programCopies 2 (wipeDone s)) else wipeBroken s)
    else bootDone (programCopies c s)
  else if 0 < c && intentSet s (c - 1) && copyShort s (c - 1) then bootDone (programCopies (c - 1) s)
  else s

/-- The private key the ROM draws: three values of the entropy source, below the group's order (log 10). -/
def drawnKey (s : State) : Nat :=
  let e := fun i => (Config.entropy (s.sess.entropy + i)).toNat
  (e 0 + 2 ^ 128 * e 1 + 2 ^ 256 * e 2) % (p384N - 1) + 1

/-- Identity generation at a start in MK, and its interruption (14 R447). -/
def identity (s : State) : State :=
  if s.lc.code != 0 || !(otpBlank s 0x20 96 || otpBlank s 0x10 16) then s
  else if !otpBlank s 0x80 48 then onLc (fun l => { l with idFault := true }) s
  else if !otpBlank s 0x20 96 || pfWarnLow s then s
  else
    let k := drawnKey s
    let q := publicKey k
    let pub := le 48 q.1 ++ le 48 q.2
    let s := otpProgram 0x10 ((sha384 pub).take 16) (otpProgram 0x20 pub (otpProgram 0x80 (le 48 k) s))
    onSess (fun x => { x with entropy := x.entropy + 3 }) s

/-! The firmware image (14 R456, 15 R464) -/

/-- The result of checking the image in the IMAGE partition. -/
def imageCode (s : State) : Nat :=
  let p := partOf s 1
  let f := fun o n => unle (springRead s (p.offset + o) n)
  let len := f 8 4
  let digest := springRead s (p.offset + 16) 48
  if f 0 4 != 0x4D49534B || f 4 2 != 1 || decide (len < 4096) || decide (4194304 < len) || decide (p.size < 512 + len) then 1
  else if sha384 (springRead s (p.offset + 512) len) != digest then 2
  else if s.lc.code != 2 then 0
  else if !bit 0 (f 6 2) || !otpUsable s 0xB0 || keyDigest (f 64 48) (f 112 48) != otpField s 0xB0 48 then 3
  else if ecdsaOk digest (f 64 48) (f 112 48) (f 160 48) (f 208 48) then 0 else 4

/-- LENGTH of the image's header. -/
def imageLength (s : State) : Nat := unle (springRead s ((partOf s 1).offset + 8) 4)

/-! Configuration blocks (15 R466) -/

/-- The blocks from offset `a` of the CONFIG partition up to its end. After a block that runs past the partition, or one
with no TAG, none is read (log 44). -/
def cfgWalk (s : State) (last : Nat) : Nat → Nat → List CfgBlock
  | 0, _ => []
  | n + 1, a =>
    let f := fun o k => unle (springRead s (a + o) k)
    let size := f 8 4
    if decide (last < a + 16) || f 0 4 == 0xFFFFFFFF then []
    else if f 0 4 != 0x4643534B || decide (last < a + 16 + size) then [{ kind := f 4 2 }]
    else
      let body := springRead s (a + 16) size
      { kind := f 4 2, sound := f 6 2 == 1 && size != 0 && f 12 4 == crc32 body, body := body } ::
        cfgWalk s last n (a + 16 + (size + 7) / 8 * 8)

def cfgBlocks (s : State) : List CfgBlock :=
  let p := partOf s 2
  cfgWalk s (p.offset + p.size) (p.size / 16) p.offset

/-- The field of `n` bytes at offset `o` of a body. -/
def bodyAt (b : List Byte) (o n : Nat) : Nat := unle ((b.drop o).take n)

/-- An SK_CLASS image of a POLICY block that breaks 05 R159 and R183: USED or FROM_PLAN, a reserved bit, or an ACTION other
than RECORD, STILL_WAFER and STILL_DUMP. -/
def classImageBad (v : Nat) : Bool :=
  bits 39 8 v != 0 || bit 3 v || !(bits 2 0 v == acRecord || bits 2 0 v == acWafer || bits 2 0 v == acDump)

def classImage (v : Nat) : ClassBinding := { hold := bits 63 48 v, limit := bits 47 40 v, region := bits 7 4 v, action := bits 2 0 v }

/-- A body whose length its TYPE does not have; up to seven bytes of padding may be counted (log 44). -/
def bodyLength (kind n : Nat) : Bool :=
  let m := match kind with
    | 1 => 16
    | 2 => 96
    | 3 => 12
    | 4 => 7
    | 5 => 8
    | 6 => 12
    | 7 => 8
    | _ => 88
  decide (m ≤ n) && decide (n ≤ (m + 7) / 8 * 8)

/-- A body that breaks the table of R466. -/
def bodyBad (s : State) (b : CfgBlock) : Bool :=
  let v := bodyAt b.body
  !bodyLength b.kind b.body.length ||
    match b.kind with
    | 1 => !(v 4 1 == 8 && v 5 1 == 6 && v 6 1 == 96 && v 7 1 == 80 && v 8 1 == 16 && v 12 4 == 51200)
    | 3 => decide (1 < v 0 1)
    | 4 => decide (127 < v 0 1) || decide (1 < v 1 1)
    | 5 => v 0 4 % 65536 != 0 || v 4 4 % 65536 != 0 || decide (v 4 4 < 65536) || decide (1048576 < v 4 4) ||
        (tableParts s).any (fun p => overlap (v 0 4) (v 4 4) p.offset p.size)
    | 6 => v 0 4 % 64 != 0 || decide (v 0 4 < 64) || decide (4096 < v 0 4) || v 4 4 % 256 != 0 || decide (v 4 4 < 256) ||
        decide (8192 < v 4 4) || decide (131072 < v 8 4)
    | 7 => decide (v 0 4 < 10) || decide (1000000 < v 0 4) || decide (15 < v 4 1) || v 6 2 == 0
    | 8 => (List.range 5).any (fun i => policyBad (v (8 * i) 8)) || (List.range 6).any (fun i => classImageBad (v (40 + 8 * i) 8))
    | _ => false

/-- Takes an accepted block. -/
def takeBlock (b : CfgBlock) (s : State) : State :=
  let v := bodyAt b.body
  match b.kind with
  | 1 => onCfg (fun c => { c with engine := v 0 2, svcDie := v 2 1 }) s
  | 2 => onCfg (fun c => { c with fanout := (List.range numFields).foldl (fun m f => mput 0 m f (v (2 * f) 2)) [] }) s
  | 3 => onPort (fun p => { p with fecEn := v 0 1 == 1 })
      (onCfg (fun c => { c with rxFec := v 4 2, txFec := v 6 2, rxNoFec := v 8 2, txNoFec := v 10 2 }) s)
  | 4 => onCensus (fun c => { c with pmAddr := v 0 1, pecEn := v 1 1 == 1 })
      (onCfg (fun c => { c with pmM := toSigned 16 (v 2 2), pmB := toSigned 16 (v 4 2), pmR := toSigned 8 (v 6 1) }) s)
  | 5 => onCfg (fun c => { c with defOff := v 0 4, defSize := v 4 4 }) s
  | 6 => onCfg (fun c => { c with watchMib := v 0 4, reserveMib := if c.skS then c.reserveMib else v 4 4, lowSlots := v 8 4 }) s
  | 7 => onRec (fun r => { r with maxHang := v 0 4 * (if v 4 1 = 0 then 16 else v 4 1) })
      (onCfg (fun c => { c with limitUs := v 0 4, thrMult := v 4 1, stormN := v 6 2 }) s)
  | _ => onRec (fun r => { r with
        policies := (List.range 5).foldl (fun m i => mput {} m (i + 1) (policyImage (v (8 * i) 8))) r.policies })
      (onCfg (fun c => { c with
        bindings := (List.range 6).foldl (fun m i => mput {} m (i + 1) (classImage (v (40 + 8 * i) 8))) c.bindings }) s)

/-- One block: accepted, ignored, or rejected and counted. `seen` lists the TYPEs accepted so far. -/
def cfgStep (p : List Nat × State) (b : CfgBlock) : List Nat × State :=
  let reject := (p.1, onBoot (fun q => { q with cfgRejected := satAdd 4 q.cfgRejected 1 }) p.2)
  if !b.sound then reject
  else if b.kind = 0 || decide (8 < b.kind) then p
  else if p.1.contains b.kind || bodyBad p.2 b then reject
  else (b.kind :: p.1, takeBlock b p.2)

/-! Defects and the Well (15 R467, R471) -/

/-- The tiles of the defect records that start keeps. -/
def defectTiles (s : State) : List Nat :=
  let recs := (springSlots s).map (fun a => springRead s a 64) ++
    (if s.boot.wellAbsent then [] else (List.range 64).map (fun i => wellRead s (pendingSlot i) 64))
  let kept := recs.filter (fun b => holdsDefect b && bodyAt b 16 2 == s.cfg.engine &&
    decide (bodyAt b 20 4 % 1024 ≤ 767) && decide (bits 18 10 (bodyAt b 20 4) ≤ 479))
  ((kept.map (fun b => ofCoord (bodyAt b 20 4))).foldl (fun l t => insertNat t (l.erase t)) [])

/-- The Well's header is checked; one without TAG or VERSION is written anew, and the crash ring is discarded: its bytes
read as nothing written (log 44). -/
def checkWell (s : State) : State :=
  if s.boot.wellAbsent || wellOk s then s
  else
    let s := onXspi (fun x => { x with well := clearRange x.well crashStart (crashEnd - crashStart) }) s
    onBoot (fun b => { b with wellFmt := true }) (wellPut 0 freshHeader s)

/-! Cold reset -/

/-- What of a tile a cold reset leaves: the engine's own state, and the levels the thermal controller drives. -/
def coldTile (x : Tile) : Tile :=
  { engine := x.engine
    power := { pwrOk := x.power.pwrOk, darkPending := x.power.darkPending, thr := x.power.thr, noClock := x.power.noClock } }

/-- A cold reset: every state of the hub at its cold value. Spring, the Well and the OTP stay, as do the parts a cold reset
of the hub does not hold: the tiles' own state, the memory tier and what its areas hold, the wiring, the levels at the
pins, and the commands that wait (15 R459, R460, R473; log 45). -/
def coldState (s : State) : State :=
  redecode { State.reset with
    pending := s.pending
    tiles := mapAll {} (fun _ x => coldTile x) s.tiles
    edges := mapAll {} (fun _ e => { field := e.field, port := e.port, svc := e.svc }) s.edges
    shims := mapAll {} (fun _ q => { tier := q.tier }) s.shims
    cfg := { skS := s.cfg.skS }
    lc := { junctionHot := s.lc.junctionHot }
    alarm := { pfWarn := s.alarm.pfWarn }
    sess := { entropy := s.sess.entropy }
    boot := { thrAny := s.boot.thrAny, freeCount := s.boot.freeCount }
    xspi := { spring := s.xspi.spring, well := s.xspi.well, otp := s.xspi.otp, otpBad := s.xspi.otpBad } }

/-- The bits that the sequencer has set of a byte begun `e` ns ago: one every 10 µs, bit 0 first (14 R446, R452). -/
def bitsSet (e : Nat) : Byte := BitVec.ofNat 8 (2 ^ min 8 (e / 10000) - 1)

/-- A transition that is cut off leaves the OTP as far as it was programmed: the intent byte, then the copies, or a wipe that
stopped on the way (14 R452, R453, R454; log 139). -/
def cutTransition (s : State) : State :=
  if !sequencing s then s
  else
    let k := s.lc.target - 1
    let e := now s - s.lc.since
    let s := otpProgram (0xC + k) [bitsSet e] s
    if s.lc.target = 3 then (if e < 80000 then s else wipeBroken s)
    else otpProgram (8 + k) [bitsSet (e - 240000)] (otpProgram (4 + k) [bitsSet (e - 160000)] (otpProgram k [bitsSet (e - 80000)] s))

/-- A last gasp or a crash record whose Well write a cold reset stops has no COMMIT word, so that readers skip it, as does a
record that nothing of was written (17 R504). -/
def coldReset (s : State) : State := coldState (cutTransition s)

end Sys2Proof.Machine
end

