-- ==== Sys2Proof/Machine/LifeCycle.lean ====
section
/-! DEFINITION. Life-cycle transitions and the firmware image (14 R450 to R456, 15 R465; 13 R433). -/

namespace Sys2Proof.Machine

/-! Transitions -/

/-- The offsets of the token digests that a target takes (14 R450). -/
def tokenFields (target : Nat) : List Nat :=
  match target with
  | 1 => [0x110]
  | 2 => [0x140]
  | 3 => [0x170]
  | 4 => [0x1A0, 0x1D0]
  | _ => []

def openFields (s : State) (target : Nat) : List Nat := (tokenFields target).filter (fun o => !otpBlank s o 48 && otpUsable s o)

/-- The token matches a digest that is neither blank nor spoiled. -/
def tokenOk (s : State) (target : Nat) (token : BitVec 256) : Bool :=
  let d := sha384 (le 32 token.toNat)
  (openFields s target).any (fun o => otpField s o 48 == d)

/-- A transition of the table of R450. -/
def transition (code target : Nat) : Bool :=
  (code == 0 && target == 1) || (code == 1 && target == 2) || (code == 2 && target == 3) || (target == 4 && code != 4)

/-- A field that the transition needs is blank, or ID_FAULT is set. -/
def fieldMissing (s : State) (target : Nat) : Bool :=
  match target with
  | 1 => otpBlank s 0x20 96 || otpBlank s 0xB0 48 || otpBlank s 0x170 48 || otpBlank s 0x1A0 48 || s.lc.idFault
  | 2 => otpBlank s 0xE0 48
  | _ => false

/-- What a transition waits for (14 R451). -/
def transitionBusy (s : State) : Bool :=
  s.txn.active.isSome || !s.txn.waiting.isEmpty || takeBusy s || s.snap.restoring || s.snap.draining || recRuns s || s.lc.phase != 0

/-- The conditions of LC_TRANSITION (14 R451, 17 R512). -/
def lcChecks (target : Nat) (token : BitVec 256) (_ : ReqHdr) (s : State) : List Check :=
  let same := target == s.lc.code
  [ { st := .invalid, bad := s.lc.code == 0xFF && target != 4 },
    badField (target == 0 || decide (4 < target)) 0,
    denied (s.lc.code == 4),
    { st := .denied, bad := !(openFields s target).isEmpty && !tokenOk s target token, reason := 0xC },
    busy (!same && transitionBusy s),
    refuse (!same && !transition s.lc.code target), refuse (openFields s target).isEmpty, refuse (!same && fieldMissing s target),
    refuse (!same && pfWarnLow s), { st := .refused, bad := !same && s.lc.junctionHot, reason := 0x10 } ]

/-- LC_TRANSITION: the sequencer starts; a target that is the current state answers at once (14 R451). -/
def execLcTransition (h : ReqHdr) (target : Nat) (token : BitVec 256) (s : State) : Host.Outcome State Fault Refusal :=
  request { op := 0xA0, classC := true, rom := true, wipe := target == 4 } h (lcChecks target token)
    (fun h s =>
      if target = s.lc.code then respond h .ok (le 1 target) s
      else onLc (fun l => { l with phase := 1, target := target, since := now s, reply := some h }) s) s

/-- The sequencer has ended: the response goes out, and the hub takes nothing more until the cold reset that follows, so
PHASE keeps COPY3 (14 R451, R452). -/
def transitionOver (s : State) : State :=
  let r := s.lc.reply
  let s := redecode (programCopies (s.lc.target - 1) s)
  respondOpt r .ok (le 1 s.lc.code) (onLc (fun l => { l with phase := 5, reply := none }) s)

/-- The wipe could not complete: TIMEOUT, and the hub stays in the ROM with WIPE_PENDING (14 R453; log 43). -/
def wipeFailed (s : State) : State :=
  let r := s.lc.reply
  let s := respondOpt r .timeout (detail {}) (onLc (fun l => { l with phase := 0, reply := none }) (wipeBroken s))
  enterRom 9 s

/-- LC_TRANSITION_DONE: the intent, the wipe on the way to RT, and the three copies, 80 µs each. A low PF_WARN_N stops a wipe;
without one the copies wait until it is high (14 R452, R453, R455). How long a wipe takes is no operand (log 43). -/
def execLcTransitionDone (wipeOk pfFell : Bool) (s : State) : Host.Outcome State Fault Refusal :=
  .next (if !sequencing s then s
    else
      let s := otpProgram (0xC + (s.lc.target - 1)) [0xFF] s
      let done := elapse (s.lc.since + 320000) s
      if s.lc.target = 3 then
        (if wipeOk && !pfFell && !pfWarnLow s then transitionOver (wipeDone done) else wipeFailed s)
      else if pfWarnLow s then s
      else transitionOver done)

/-! Spring operations (16 R488, R496) -/

/-- The page size in use (16 R488). -/
def pageBytes (s : State) : Nat := if bits 23 16 s.xspi.springReg.toNat = 0 then 256 else 2 ^ bits 23 16 s.xspi.springReg.toNat

/-- Page programs for bytes from address `a`, in address order; none crosses a page. -/
def pagePrograms (page : Nat) : Nat → Nat → List Byte → List SpringOp
  | 0, _, _ => []
  | n + 1, a, bs =>
    if bs.isEmpty then []
    else
      let k := page - a % page
      { offset := a, bytes := bs.take k } :: pagePrograms page n (a + k) (bs.drop k)

def blockErases (a n : Nat) : List SpringOp := (List.range (n / 65536)).map (fun i => { erase := true, offset := a + 65536 * i })

/-- The last operation of a request answers it. -/
def closeOps (h : ReqHdr) : List SpringOp → List SpringOp
  | [] => []
  | [p] => [{ p with last := true, reply := some h }]
  | p :: r => p :: closeOps h r

/-- Queues a request's operations; the bus takes the first at once unless a record is being written to the Well (16 R488). -/
def queueOps (h : ReqHdr) (ops : List SpringOp) (s : State) : State :=
  onXspi (fun x => { x with pending := x.pending ++ closeOps h ops, owner := if wellBusy s then x.owner else 1 }) s

/-- What an operation leaves: an erased block reads as ones; a program clears bits and sets none (log 47). -/
def springApply (p : SpringOp) (s : State) : State :=
  if p.erase then springErase p.offset 65536 s
  else springPut p.offset (List.zipWith (fun a b => a &&& b) (springRead s p.offset p.bytes.length) p.bytes) s

/-- SPRING_OPERATION_DONE: the oldest operation has completed; the last of a request answers it OK. A Well write that waited goes
before the next (16 R488). -/
def execSpringOperationDone (s : State) : Host.Outcome State Fault Refusal :=
  .next (if s.xspi.owner != 1 then s
    else
      match s.xspi.pending with
      | [] => s
      | p :: r =>
        let s := onXspi (fun x => { x with pending := r, owner := 0 }) (springApply p s)
        freeBus (respondOpt p.reply .ok [] s))

/-! Firmware -/

/-- A range programmed since the erase. -/
def fwProgrammed (s : State) (offset n : Nat) : Bool := s.xspi.fwWritten.any (fun p => overlap offset n p.1 p.2)

/-- FW_WRITE: OFFSET 0 first erases the whole IMAGE partition (15 R465). -/
def execFwWrite (h : ReqHdr) (offset : Nat) (data : List Byte) (s : State) : Host.Outcome State Fault Refusal :=
  request { op := 0xA1, classC := true, need := .spring, rom := true } h
    (fun _ s =>
      [ refuse (decide ((partOf s 1).size < offset + data.length)), refuse (offset != 0 && fwProgrammed s offset data.length),
        emptyIf data.isEmpty ])
    (fun h s =>
      let p := partOf s 1
      let ops := (if offset = 0 then blockErases p.offset p.size else []) ++
        pagePrograms (pageBytes s) data.length (p.offset + offset) data
      queueOps h ops (onXspi (fun x => { x with
        fwErased := x.fwErased || offset == 0
        fwWritten := (if offset = 0 then [] else x.fwWritten) ++ [(offset, data.length)] }) s)) s

/-- FW_COMMIT: the result of the checks on the image written; OK is followed by a cold reset (14 R456, 15 R459, R465). -/
def execFwCommit (h : ReqHdr) (length : Nat) (s : State) : Host.Outcome State Fault Refusal :=
  request { op := 0xA2, classC := true, need := .spring, rom := true } h (fun _ _ => [emptyIf (length == 0)])
    (fun h s => respond h .ok (le 4 (if length != 512 + imageLength s then 1 else imageCode s)) s) s

end Sys2Proof.Machine
end

