-- ==== Sys2Proof/Machine/Resets.lean ====
section
/-! DEFINITION. The resets other than cold (15 R472, R473) and the return of plans to a core that comes back (R476). -/

namespace Sys2Proof.Machine

/-! Agent cores -/

/-- What a core reset leaves of a tile: the core is cleared, the stub is kept, and the core comes up under FRZ while a still
bit is set (04 R142; 07 R226; 08 R270; 09 R299; 15 R476). After an engine reset no engine holds a command. -/
def resetTile (engine : Bool) (x : Tile) : Tile :=
  { x with
    core := {
      cmd := x.core.cmd
      cmdSeq := x.core.cmdSeq
      cmdBusy := x.core.cmdBusy && !engine
      dip := { maxStep := x.core.dip.maxStep }
      count := { run := x.core.count.run, cleared := true } }
    power := { x.power with ready := false }
    plan := { x.plan with reload := x.plan.reload || takesPlan x }
    hang := { x.hang with fired := false }
    still := { x.still with frz := x.still.mask != 0 } }

/-- A powered core is reset: a RESET record, with 1 for an engine reset and 2 for a single-agent reset; a held set loses its
core-bound items (06 R205, 10 R304). -/
def resetCore (kind t : Nat) (s : State) : State :=
  if !(tileOf s t).power.pwrOk then s
  else record t 0x15 (kind * 2 ^ 60) (setW1c (agentKey t 0x1008) 4 (settleHold t
    (onTile t (fun x => restartHang (stubNow s t) (resetTile (kind == 1) x)) (voidHeld t s))))

/-- ENGINE_RESET: every agent core (15 R472). -/
def execEngineReset (s : State) : Host.Outcome State Fault Refusal :=
  .next (when (inService s) (fun s => (s.tiles.map (·.1)).foldl (fun s t => resetCore 1 t s) s) s)

/-- The stub holds staged content: anything that is neither EMPTY nor over (06 R205). -/
def stagedHeld (x : Tile) : Bool := decide (1 ≤ x.txn.tstate) && decide (x.txn.tstate ≤ 4)

/-- The tile an address names; tile 0 where it names none, which the checks have turned away. -/
def namedTile (s : State) (a : Nat) : Nat := (addrTile s a).getD 0

/-- AGENT_RESET: a dark core answers DARK, and a stub that holds staged content makes the request BUSY (15 R472, 02 R76). -/
def execAgentReset (h : ReqHdr) (addr : Nat) (s : State) : Host.Outcome State Fault Refusal :=
  request { op := 0x15, classC := true, need := .intrusive } h
    (fun _ s =>
      let x := tileOf s (namedTile s addr)
      badField (addrSpace addr != 2) 0 :: addrChecks s addr 0 ++
      [busy (x.power.answers && stagedHeld x), rillReason (x.power.answers && coreDark x) 2 (namedTile s addr)])
    (fun h s =>
      let t := namedTile s addr
      if !(tileOf s t).power.answers then fail h (rillReason true 9 t) s
      else respond h .ok [] (resetCore 2 t s)) s

/-! Centre warm reset -/

/-- The W1C bits of the centre take their cold values (00 R10, 15 R473). -/
def clearW1c (s : State) : State :=
  let s := onAlarm (fun a => { a with raised := 0, abandoned := false, snapSkipped := false }) s
  let s := onRoot (fun r => { r with censusFail := false, relCancel := false }) s
  let s := onTxn (fun q => { q with lostSeen := false }) s
  let s := onSnap (fun q => { q with forced := false, broke := false }) s
  let s := onCensus (fun c => { c with gap := false }) s
  let s := onRec (fun r => { r with overrun := false, wellFail := false }) s
  let s := onTime (fun t => { t with stepped := false, drift := false }) s
  let s := onPort (fun p => { p with events := 0 }) s
  onBoot (fun b => { b with reloadStuck := false }) s

/-- The closing STILL of a step whose RELEASE has been launched stays at the root (04 R142). -/
def keptAtRoot (s : State) (a : StillAction) : Bool := a.origin == 2 && a.kind == 1 && s.root.stepReleased

/-- Every other queued action is discarded and listed (04 R142). -/
def discardQueue (s : State) : State :=
  let gone := s.root.queue.filter (fun a => !keptAtRoot s a)
  let s := onRoot (fun r => { r with waiting := [] }) s
  let s := gone.foldl (fun s a => cancelAction a s) s
  let s := onRoot (fun r => { r with discarded := gone }) s
  if gone.isEmpty then s else event evDiscarded s

/-- Every outstanding request completes with TIMEOUT (13 R417). -/
def dropRequests (s : State) : State :=
  s.sess.outstanding.foldl (fun s h => respond h .timeout (detail { reason := 0xE }) s) s

/-- A transaction that is not pressed rinses with cause WARM, over the whole wafer and with a fence; the centre transactions
that wait end; a host transaction not committed is gone. A pressed one goes on (06 R189, R192, R206). -/
def warmTxn (s : State) : State :=
  let s := s.txn.waiting.foldl (fun s x => dropPurpose x.purpose s) s
  let s := onTxn (fun q => { q with waiting := [] }) s
  match s.txn.active with
  | none => onTxn (fun q => { q with host := none, tstate := if q.tstate = 1 then 0 else q.tstate }) s
  | some x =>
    if s.txn.pressed then (if x.centre then onTxn (fun q => { q with host := none }) s else s)
    else
      let s := onTxn (fun q => { q with cause := 8, host := none }) s
      let s := rinseTargets x.id (s.tiles.map (·.1)) s
      let s := onRec (fun r => { r with mendRequest := none }) (dropPurpose x.purpose s)
      closeTxn .timeout [] (onTxn (fun q => { q with active := some { x with reply := none } }) s)

/-- A copy in progress starts again from its first step: every shim opens the epoch again, and every stub is held awake until
its image is copied (11 R362). -/
def restartCopy (k : SnapTake) (s : State) : State :=
  let s := onPond k.pond (fun p => { p with images := [] }) s
  let s := onListedShims (fun _ q => { q with done := false, cowAcked := false, cowSentAt := now s }) s
  let s := onEveryTile (fun _ x => { x with power := { x.power with holdSnap := true } }) s
  onSnap (fun q => { q with take := some { k with rerun := true, deferred := [], reply := none } }) s

/-- A snapshot that is TAKING starts again, or breaks with WARM where no still is confirmed; one that is SEALING goes on
(11 R362). -/
def warmTake (s : State) : State :=
  match s.snap.take with
  | none => s
  | some k =>
    if k.sealing then s
    else if !declared s 0 then breakSnap 7 s
    else if k.goAt.isSome then restartCopy k s
    else onSnap (fun q => { q with take := some { k with rerun := true, reply := none } }) s

/-- A restore starts again, or fails where no still is confirmed (11 R362); granules copied back already stay so. -/
def warmRestore (s : State) : State :=
  if !s.snap.restoring then s
  else if !declared s 0 then failRestore 7 s
  else
    let left := s.shims.any (fun q => !q.2.copyback.isEmpty)
    beginRestore s.snap.restorePond s.snap.restoreTr s.snap.restoreEarliest s.snap.restoreRec (!left) none s

/-- The running alarm action: its snapshot or its dump goes on once the wafer is confirmed still, and is abandoned otherwise
(05 R163). -/
def warmAlarm (s : State) : State :=
  match s.alarm.running with
  | none => s
  | some r =>
    if (r.action == acSnap || r.action == acDump) && !declared s 0 then abandonAction s else s

/-- The recovery resumes from the last phase of its journal; a second warm reset ends it ABANDONED, as does an action that
was abandoned (12 R390, R391; 05 R163). The release it had queued is queued again. -/
def warmRecovery (s : State) : State :=
  if !recRuns s then s
  else if decide (1 ≤ s.recov.warmSeen) || (s.alarm.running.isNone && !declared s 0) then endRecovery 7 s
  else
    let s := onRec (fun r => { r with warmSeen := r.warmSeen + 1 }) s
    if s.recov.phase = 3 && s.txn.active.isNone then
      startMend (s.recov.mending.filter (fun t => !spareCol (tileX t))) none s
    else if s.recov.phase = 5 && s.root.discarded.any (fun a => a.kind == 2 && a.origin == 6) then queueRelease 6 s
    else s

/-- What the centre does after a warm reset when its firmware runs again. -/
def warmResume (s : State) : State :=
  let s := rebuildStill s
  let s := warmAlarm (warmRestore (warmTake (warmTxn s)))
  let s := warmRecovery s
  onPlans (fun p => { p with trace := p.trace.map (fun x => { x with drainFrom := x.drainFrom.map (fun _ => now s) }) }) s

/-- What is left of the centre's operations when the copy of the firmware does not match: none goes on, and the parts of the
wafer stay as they stood (15 R468, R472; log 48). -/
def warmStop (s : State) : State :=
  let s := onTxn (fun q => { q with waiting := [], active := none, host := none, pressed := false, tstate := 0 }) s
  let s := breakSnap 7 s
  let s := if s.snap.restoring then failRestore 7 s else s
  let s := if recRuns s then endRecovery 7 s else s
  enterRom 10 (abandonAction s)

/-- A centre warm reset (15 R472). Spring operations not yet started are dropped with the requests they served. -/
def centreWarm (cause : Nat) (copyOk : Bool) (s : State) : State :=
  let s := onBoot (fun b => { b with warmCount := satAdd 8 b.warmCount 1, lastWarm := cause % 16 }) s
  let s := discardQueue (clearW1c s)
  let s := dropRequests s
  let s := onRill (fun q => { q with ops := [] }) s
  let s := onXspi (fun x => { x with pending := (x.pending.take x.owner).map (fun p => { p with last := false, reply := none }), wellWaits := [] }) s
  event evWarm (if copyOk then warmResume s else warmStop s)

/-- The firmware runs: a centre warm reset can act. -/
def firmwareRuns (s : State) : Bool := s.boot.phase == 9 && !inRom s

/-- WARM_RESET: causes as LAST_WARM codes them. -/
def execWarmReset (cause : Nat) (copyOk : Bool) (s : State) : Host.Outcome State Fault Refusal :=
  .next (when (firmwareRuns s) (centreWarm cause copyOk) s)

/-- HUB_WATCHDOG_EXPIRY (15 R472). -/
def execHubWatchdogExpiry (copyOk : Bool) (s : State) : Host.Outcome State Fault Refusal :=
  .next (when (firmwareRuns s) (centreWarm 1 copyOk) s)

/-- CENTRE_RESET: the response goes first (13 R426). -/
def execCentreReset (h : ReqHdr) (copyOk : Bool) (s : State) : Host.Outcome State Fault Refusal :=
  request { op := 0x07, classC := true, need := .intrusive } h (fun _ _ => [])
    (fun h s => centreWarm 2 copyOk (respond h .ok [] s)) s

/-! The return of plans -/

/-- The core's fetched counter plan becomes its active one. Tables restored from a dark save go on under the plan they are of; under
another they begin empty (07 R219, R225, R226). -/
def activateCnt (id : Nat) (k : CoreCount) : CoreCount :=
  let ws := fun lo => (List.range 15).foldl (fun m e => mput 0 m e (mget 0 k.dnext (lo + e))) []
  let y := if k.tabPlan = id then k else { k with dtab := [], dcls := [], folded := true, partialStep := true, devSeen := [] }
  { y with
    sel := !k.sel
    planId := id
    tabPlan := id
    dkey := ws 0
    dplan := ws 15 }

/-- The identifier of the counter plan that a tile has fetched: the active plan's in its set, else 0. -/
def fetchedCnt (s : State) (t : Nat) : Nat :=
  match s.plans.cnt with
  | some p => if inSet s p.set t then p.id else 0
  | none => 0

/-- PLAN_RESTORE: what a core with RELOAD has fetched is checked against ST_PLAN_DIGEST and CNT_ID; if both match, it
switches to it, as a press would (log 128), and RELOAD clears; else FAILS counts, and at 3 RELOAD_STUCK is set. `ok` says that the fetched words came
whole (15 R476). -/
def execPlanRestore (tile : Nat) (ok : Bool) (s : State) : Host.Outcome State Fault Refusal :=
  .next (when (inService s && fetches s tile && (tileOf s tile).plan.reload && (tileOf s tile).txn.ltnValid) (fun s =>
    let x := tileOf s tile
    let id := fetchedCnt s tile
    let good := ok && bankDigest (bankList (inactiveBank x.core)) == x.plan.digest && id == x.plan.cntId
    if good then
      onTile tile (fun x => { x with
        core := { otherBank (!x.core.active) x.core with count := activateCnt id x.core.count }
        plan := { x.plan with reload := false, fails := 0 } }) (closeBankWork tile s)
    else
      let s := onTile tile (fun x => { x with plan := { x.plan with fails := min 3 (x.plan.fails + 1) } }) s
      if (tileOf s tile).plan.fails = 3 then setW1c 0x010 (2 ^ 10) (onBoot (fun b => { b with reloadStuck := true }) s) else s) s)

end Sys2Proof.Machine
end

