-- ==== Sys2Proof/Machine/RillOps.lean ====
section
/-! DEFINITION. Operations of the centre in flight on the Rill: how they are sent, what a stub answers, how replies combine
and what the centre does with them (02 R42 to R60, R76, R77). -/

namespace Sys2Proof.Machine

/-! Operations in flight -/

/-- The fields that an operation's tiles lie in. -/
def opFields (o : RillOp) : List Nat :=
  if o.multi then (List.range (o.set.y1 / 80 + 1 - o.set.y0 / 80)).flatMap (fun j =>
    (List.range (o.set.x1 / 96 + 1 - o.set.x0 / 96)).map (fun i => 8 * (o.set.y0 / 80 + j) + (o.set.x0 / 96 + i)))
  else [fieldOf o.target]

/-- The injection ports that an operation uses (02 R42, R43). -/
def opPorts (s : State) (o : RillOp) : List Nat := (opFields o).map (entryColumn s)

/-- The centre and express links on the way to a field. -/
def fieldLinks (s : State) (f : Nat) : List Nat := (pathTo s (cornerTile f 0)).filterMap (fun q => linkNo q.1 q.2)

/-- The centre and express links on the way to an operation's tiles. -/
def opLinks (s : State) (o : RillOp) : List Nat := (opFields o).flatMap (fieldLinks s)

/-- A link wakes on its next flit. -/
def wakeLinks (ls : List Nat) (s : State) : State := onRill (fun q => { q with gated := q.gated.filter (fun l => !ls.contains l) }) s

/-- Two operations use one injection port. -/
def sharePort (s : State) (a b : RillOp) : Bool := (opPorts s a).any (opPorts s b).contains

/-- The requests on VC0 that the centre has in flight beside `ops`: a staging under way and the still censuses due (02 R51; log
94). -/
def otherVc0 (s : State) : Nat := b2n (s.txn.tstate == 2) + s.root.confirm.length

/-- An operation is in flight when fewer than 24 older ones use one of its injection ports (02 R51). -/
def inFlight (s : State) (o : RillOp) : Bool :=
  decide (((s.rill.ops.takeWhile (fun a => a.tag != o.tag)).filter (sharePort s o)).length + otherVc0 s < 24)

def flightOp (s : State) (tag : Nat) : Option RillOp := (s.rill.ops.find? (fun o => o.tag == tag)).filter (inFlight s)

def onOp (tag : Nat) (f : RillOp → RillOp) (s : State) : State :=
  onRill (fun q => { q with ops := q.ops.map (fun o => if o.tag == tag then f o else o) }) s

/-- Sends an operation under a new tag. -/
def sendOp (o : RillOp) (s : State) : State :=
  let o := { o with tag := s.rill.nextTag, mapEpoch := s.mapEpoch, sentAt := now s, partials := [], counted := [], dropped := [], acted := [] }
  wakeLinks (opLinks s o)
    (onRill (fun q => { q with nextTag := (q.nextTag + 1) % 32768, ops := q.ops ++ [o] }) s)

/-- Forgets an operation and what the routers hold of it. -/
def dropOp (tag : Nat) (s : State) : State :=
  onRill (fun q => { q with
    ops := q.ops.filter (fun o => o.tag != tag)
    routers := mapAll {} (fun _ r => { r with
      mcast := r.mcast.filter (fun b => b.tag != tag)
      input := r.input.filter (fun g => g != tag)
      combiners := r.combiners.filter (fun c => c.tag != tag) }) q.routers }) s

/-- Ends an operation and answers its request. -/
def endOp (o : RillOp) (st : Status) (body : List Byte) (s : State) : State := respondOpt o.reply st body (dropOp o.tag s)

/-- Sends an operation again under a new tag; the old one is abandoned (02 R60). -/
def resendOp (o : RillOp) (s : State) : State := sendOp o (dropOp o.tag s)

/-- The operation's packet is addressed to the tile. -/
def addresses (s : State) (o : RillOp) (t : Nat) : Bool := if o.multi then inSet s o.set t else t == o.target

/-- The time at which a node's copy of an operation's packet left by a branch, if it has (02 R56). -/
def copyTime (s : State) (tag : Nat) (n : Node) (b : Nat) : Option Nat :=
  ((((mget {} s.rill.routers (nodeKey n)).combiners.find? (fun c => c.tag == tag)).map (·.copies)).getD []).findSome? (fun c =>
    if c.1 = b then some c.2 else none)

def copySent (s : State) (tag : Nat) (n : Node) (b : Nat) : Bool := (copyTime s tag n b).isSome

/-- When the packet reached the tile's stub: a multicast's copy, when its router sent it to its own stub; any other when it was
sent (02 R56; log 125). -/
def reachedAt (s : State) (o : RillOp) (t : Nat) : Option Nat := if o.multi then copyTime s o.tag (.router t) 0 else some o.sentAt

/-- The packet has reached the tile, and no router has dropped the copy for it (02 R56, R57, R60). -/
def reaches (s : State) (o : RillOp) (t : Nat) : Bool := !o.dropped.contains t && (reachedAt s o t).isSome

/-! Replies -/

/-- Puts a coordinate in its place of a rising list. -/
def insTile (t : Nat) : List Nat → List Nat
  | [] => [t]
  | u :: r => if t < u then t :: u :: r else u :: insTile t r

/-- Combines two replies field by field (02 R58). -/
def mergeMrsp (a b : Mrsp) : Mrsp :=
  let first := match a.firstNak, b.firstNak with
    | some t, some u => if u < t then (some u, b.firstReason) else (some t, a.firstReason)
    | none, some u => (some u, b.firstReason)
    | t, none => (t, a.firstReason)
  { origin := a.origin
    ok := a.ok + b.ok
    nak := a.nak + b.nak
    digest := a.digest ^^^ b.digest
    firstNak := first.1
    firstReason := first.2
    flags := a.flags ||| b.flags
    list := (b.list.foldl (fun l t => insTile t l) a.list).take 10
    data := a.data
    lost := a.lost + b.lost }

def mergeAll (at_ : Node) (ps : List Mrsp) : Mrsp := ps.foldl mergeMrsp { origin := at_ }

/-- The reply that counts tiles with one reason: BUFFER (1) and NOREPLY (9) members are lost (02 R57, R58, R60). -/
def nakMrsp (at_ : Node) (ts : List Nat) (reason : Nat) : Mrsp :=
  { origin := at_
    nak := ts.length
    firstNak := ts.head?
    firstReason := if ts = [] then 0 else reason
    lost := if reason = 1 || reason = 9 then ts.length else 0 }

/-- The eight words of an MRSP payload (02 R58). -/
def mrspBody (p : Mrsp) : List Byte :=
  le 8 (pack [(44, 20, p.ok), (24, 20, p.nak)]) ++ le 8 p.digest.toNat ++
  le 8 (pack [(45, 19, (p.firstNak.map rillCoord).getD 524287), (41, 4, p.firstReason), (0, 32, p.flags)]) ++
  (List.range 10).flatMap (fun i => le 4 ((p.list[i]?.map coord).getD 4294967295))

/-- Gathers a reply that counts the tiles of a list. -/
def addReply (tag : Nat) (p : Mrsp) (ts : List Nat) (s : State) : State :=
  onOp tag (fun o => { o with partials := o.partials ++ [p], counted := o.counted ++ ts }) s

/-! At a stub -/

/-- LCHK fails: the tile does not hold the LTN sent, or its map epoch differs; of a multicast, it holds no LTN or its map epoch
differs (02 R48). The centre sets LCHK where it addresses by LTN, and in a multicast with a logical filter. -/
def staleAt (o : RillOp) (x : Tile) : Bool :=
  if o.multi then o.set.lfilt && (!x.txn.ltnValid || x.txn.mapEpoch != o.mapEpoch)
  else match o.byLtn with
    | none => false
    | some l => !x.txn.ltnValid || x.txn.ltn != l || x.txn.mapEpoch != o.mapEpoch

/-- The operation needs the core: its registers, or tile SRAM (02 R76, 16 R490). -/
def coreOp (o : RillOp) : Bool := o.space == 3 || !stubOffset o.offset

/-- The tile lies in a declared still without stragglers (16 R496). -/
def tileStill (s : State) (t : Nat) : Bool :=
  (List.range 15).any (fun k => declared s k && inScope (tileOf s t) k)

/-- The reason a stub answers with, 0 where it carries the operation out (02 R48, R59, R76; 03 R94; 16 R490, R496). -/
def stubReason (s : State) (o : RillOp) (t : Nat) : Nat :=
  if staleAt o (tileOf s t) || (o.op == 5 && (tileOf s t).time.unset) then 3
  else if coreOp o && coreDark (tileOf s t) then 2
  else if o.op == 2 && o.space == 3 && !tileStill s t then 8
  else 0

/-- Bytes of one packet: a multicast carries all of them, a unicast those up to the next 64-byte boundary (02 R47, 16 R482). -/
def packetLen (o : RillOp) : Nat :=
  let n := if o.op = 1 then o.length else o.data.length
  if o.multi then n else min n (64 - o.offset % 64)

/-- A stub takes an operation: it answers a reason, or carries the operation out whole and answers (02 R60). DIGEST and flag
words of an operation other than STAGE and the still census are stated nowhere: they are free values (log 49). -/
def stubAct (op tile tag : Nat) (answer : RillOp → Mrsp) (effect : RillOp → State → State) (s : State) : State :=
  match flightOp s tag with
  | none => s
  | some o =>
    if o.op != op || !inService s || !decide (tile < numTiles) || !addresses s o tile || !reaches s o tile ||
        !(tileOf s tile).power.answers || o.acted.contains tile || o.counted.contains tile then s
    else
      let s := onOp tag (fun o => { o with acted := o.acted ++ [tile] }) s
      let r := stubReason s o tile
      if r != 0 then addReply tag (nakMrsp (.router tile) [tile] r) [tile] s
      else
        let k := s.boot.freeCount
        let p := { answer o with
          origin := .router tile
          digest := BitVec.ofNat 64 (Config.freeNat k (2 * tile))
          flags := Config.freeNat k (2 * tile + 1) % 2 ^ 32 }
        addReply tag p [tile] (effect o (drawFree s))

/-- What a READ returns. -/
def readTile (s : State) (t : Nat) (o : RillOp) : List Byte :=
  if o.space = 3 then bytesAt 0 (tileOf s t).engine.sram o.offset (packetLen o)
  else (regBytes (agentReg s t) o.offset (packetLen o)).getD []

/-- What a WRITE changes. -/
def writeTile (t : Nat) (o : RillOp) (s : State) : State :=
  let d := o.data.take (packetLen o)
  if o.space = 3 then onTile t (fun x => { x with engine := { x.engine with sram := storeBytes 0 x.engine.sram o.offset d } }) s
  else writeRegs (agentWrite t) o.offset d s

/-- STUB_READ. -/
def execStubRead (tile tag : Nat) (s : State) : Host.Outcome State Fault Refusal :=
  .next (stubAct 1 tile tag (fun o => { ok := 1, data := readTile s tile o }) (fun _ s => s) s)

/-- STUB_WRITE. -/
def execStubWrite (tile tag : Nat) (s : State) : Host.Outcome State Fault Refusal :=
  .next (stubAct 2 tile tag (fun _ => { ok := 1 }) (writeTile tile) s)

/-- The predicate of a census on the masked register, unsigned (13 R426). -/
def censusTest (test a b : Nat) : Bool :=
  match test with
  | 0 => a == b
  | 1 => a != b
  | 2 => decide (b < a)
  | 3 => decide (b ≤ a)
  | 4 => decide (a < b)
  | _ => decide (a ≤ b)

/-- A member meets a census. -/
def meetsCensus (s : State) (t : Nat) (o : RillOp) : Bool :=
  censusTest o.test (((agentReg s t o.offset).getD 0) &&& o.mask.toNat) o.value.toNat

/-- STUB_CENSUS: OK_COUNT counts matches and LIST names them (13 R426); a dark tile's stub answers for its own registers (02
R76). -/
def execStubCensus (tile tag : Nat) (s : State) : Host.Outcome State Fault Refusal :=
  .next (stubAct 5 tile tag
    (fun o => if meetsCensus s tile o then { ok := 1, list := [tile] } else {}) (fun _ s => s) s)

/-- CORE_TIMEOUT: the core has not answered within 1 µs of the request that the stub sent it, and the stub answers for it (02
R77). A packet that the stub itself refuses asks no core. -/
def execCoreTimeout (tile tag : Nat) (s : State) : Host.Outcome State Fault Refusal :=
  .next (match flightOp s tag with
    | none => s
    | some o =>
      if !inService s || !decide (tile < numTiles) || !addresses s o tile || !reaches s o tile ||
          !(tileOf s tile).power.answers || o.acted.contains tile || o.counted.contains tile || !coreOp o || stubReason s o tile != 0 then s
      else
        let s := elapse ((reachedAt s o tile).getD 0 + 1000) (onOp tag (fun o => { o with acted := o.acted ++ [tile] }) s)
        addReply tag (nakMrsp (.router tile) [tile] 6) [tile] s)

/-! At the centre -/

/-- A member set's missing replies are NOREPLY: their branch did not answer its combiner (02 R58). -/
def finalMrsp (s : State) (o : RillOp) : Mrsp :=
  let missing := (members s o.set).filter (fun t => !o.counted.contains t)
  mergeMrsp (mergeAll .centre o.partials) (nakMrsp .centre missing 9)

/-- A census that lost members is sent once more; otherwise the request gets the combined reply (02 R60, 13 R426). -/
def finishMulti (o : RillOp) (s : State) : State :=
  let p := finalMrsp s o
  if (o.op == 1 || o.op == 5) && p.lost != 0 && !o.resent then resendOp { o with resent := true } s
  else endOp o .ok (mrspBody p) s

/-- A stale LTN is resolved under the current map and the packet sent once more; the second time the request is STALE (06
R208). -/
def retryStale (o : RillOp) (s : State) : State :=
  match o.byLtn.bind (holderOf s) with
  | none => endOp o .refused (detail { reason := 0x12 }) s
  | some t => resendOp { o with target := t, staleResent := true, resent := false } s

/-- The next packet of a read or write that takes several, or the response (16 R482). -/
def nextPacket (o : RillOp) (p : Mrsp) (s : State) : State :=
  let n := packetLen o
  if o.op = 1 then
    let got := o.data ++ p.data
    if o.length ≤ n then endOp o .ok got s
    else resendOp { o with data := got, offset := o.offset + n, length := o.length - n, resent := false, staleResent := false } s
  else if o.data.length ≤ n then endOp o .ok [] s
  else resendOp { o with data := o.data.drop n, offset := o.offset + n, resent := false, staleResent := false } s

/-- RILL_REPLY (02 R60). A reply under a tag that has been abandoned is discarded and counted; one with a bad CRC is dropped and
counted, and the response timeout applies (R49). -/
def execRillReply (tag : Nat × Bool) (s : State) : Host.Outcome State Fault Refusal :=
  .next (when (inService s) (fun s =>
    if !tag.2 then
      onOp tag.1 (fun o => { o with partials := [], counted := [] }) (onRill (fun q => { q with crcBad := q.crcBad + 1 }) s)
    else
    match flightOp s tag.1 with
    | none => if s.rill.ops.any (fun o => o.tag == tag.1) then s else onRill (fun q => { q with stray := q.stray + 1 }) s
    | some o =>
      if o.multi then (if o.partials = [] then s else finishMulti o s)
      else
        match o.partials with
        | [] => s
        | p :: _ =>
          if p.nak = 0 then nextPacket o p s
          else if p.firstReason = 3 && !o.staleResent then retryStale o s
          else endOp o (reasonStatus p.firstReason) (detail (rillReason true p.firstReason o.target)) s) s)

/-- A partner of the centre that has failed two consecutive requests is lost (12 R368). -/
def shimFails (f : Nat) (s : State) : State :=
  if !decide (f < numFields) || (shimOf s f).lost then s
  else
    let s := onShim f (fun q => { q with fails := q.fails + 1, lost := decide (1 ≤ q.fails) }) s
    if (shimOf s f).lost then loseDie s else s

def edgeFails (d : Nat) (s : State) : State :=
  if !decide (d < numDies) || (edgeOf s d).lost then s
  else
    let s := onEdge d (fun e => { e with fails := e.fails + 1, lost := decide (1 ≤ e.fails) }) s
    if (edgeOf s d).lost then loseDie s else s

/-- RILL_RESPONSE_TIMEOUT. Kind 0: the operation under tag `arg` has no reply; a READ or CENSUS is sent once more, any other
completes with TIMEOUT (02 R60). 1: a still census has not completed after its resend (04 R135). 2 and 3: the shim of field
`arg`, or the edge agent of die `arg`, has failed a request (12 R368). 4: a staging reply is missing (06 R201). -/
def execRillResponseTimeout (kind arg : Nat) (s : State) : Host.Outcome State Fault Refusal :=
  .next (when (inService s) (fun s =>
    match kind with
    | 0 =>
      match flightOp s arg with
      | none => s
      | some o =>
        let s := elapse (o.sentAt + s.time.rillTmo * 1000) s
        if (o.op == 1 || o.op == 5) && !o.resent then resendOp { o with resent := true } s
        else endOp o .timeout (detail (if o.multi then { reason := 0x109 } else rillReason true 9 o.target)) s
    | 1 =>
      match s.root.confirm.find? (fun e => !e.failed) with
      | none => s
      | some e => failCensus e.act (elapse ((e.repeatAt.getD (e.act.tick + 1000)) + 2 * s.time.rillTmo * 1000) s)
    | 2 => shimFails arg s
    | 3 => edgeFails arg s
    | 4 =>
      match s.txn.active with
      | none => s
      | some x =>
        if s.txn.tstate = 2 then rinseTxn 4 (elapse (s.txn.d - x.tmo * 1000 + s.time.rillTmo * 1000) s) else s
    | _ => s) s)

end Sys2Proof.Machine
end

