-- ==== Sys2Proof/Machine/Memory.lean ====
section
/-! DEFINITION. Reads and writes of the address spaces, Spring erases, and multicast writes and censuses (13 R426; 16 R480
to R496; 14 R446; 11 R332; 09 R295; 10 R312). -/

namespace Sys2Proof.Machine

/-! Sizes and places -/

/-- A range that leaves a space of `size` bytes (16 R496). -/
def outside (size o n : Nat) : Bool := decide (size ≤ o) || decide (size < o + n)

/-- The pond, whether it is the field area, and the place within it, of a range of a tile's window that lies in an image
or in a field area (11 R332). -/
def pondPart (o n : Nat) : Option (Nat × Bool × Nat) :=
  if o + n ≤ 51200 then some (0, false, o)
  else if 0x10000000 ≤ o && o + n ≤ 0x10000000 + 51200 then some (1, false, o - 0x10000000)
  else if 0x20000000 ≤ o && o + n ≤ 0x20100000 then some (0, true, o - 0x20000000)
  else if 0x28000000 ≤ o && o + n ≤ 0x28100000 then some (1, true, o - 0x28000000)
  else none

/-- A pond that is TAKING or being restored answers no read (11 R332). -/
def pondClosed (s : State) (p : Nat) : Bool := (pondOf s p).state == 1 || (s.snap.restoring && s.snap.restorePond == p)

/-- The bytes of the frames allocated to a capture slot of a tile (09 R295). -/
def slotFrames (s : State) (t n : Nat) : List Byte :=
  match ltnOf s t with
  | none => []
  | some l => ((shimOf s (fieldOf t)).frames.filter (fun f => f.tile == l && f.slot == n)).flatMap frameBytes

/-- The partition of a tile (10 R312). -/
def partitionOf (s : State) (t : Nat) : Option Partition := (shimOf s (fieldOf t)).partitions.find? (fun p => p.tile == t)

/-- Byte i of a partition: the header, then the ring of C slots; a slot that holds no record has no stated content, a free
value (log 7). -/
def partByte (s : State) (p : Partition) (i : Nat) : Byte :=
  if i < 256 then (partHeader s p).getD i 0
  else
    let k := (i - 256) / 16
    let age := (k + p.cap - (p.wr + p.cap - p.held.length) % p.cap) % p.cap
    if age < p.held.length then (eddyBytes (p.held.getD age {})).getD ((i - 256) % 16) 0
    else BitVec.ofNat 8 (Config.freeNat s.boot.freeCount (2 * numTiles + i))

/-- The bytes of a tile's window of space 0x04, if every one of them can be read (09 R295, 10 R312, 11 R332, 16 R495). -/
def windowBytes (s : State) (t o n : Nat) : Option (List Byte) :=
  if o < 0x40000000 then
    match pondPart o n with
    | none => none
    | some (p, true, k) => some (fieldArea s p (fieldOf t) k n)
    | some (p, false, k) =>
      if (pondOf s p).images.any (fun i => i.1 == t) then some (((imageBytes t (imageOf s p t)).drop k).take n) else some (zeros n)
  else if o < 0x60000000 then
    let bs := slotFrames s t ((o - 0x40000000) / 0x1000000)
    let k := (o - 0x40000000) % 0x1000000
    if k + n ≤ bs.length then some ((bs.drop k).take n) else none
  else if o < 0x70000000 then
    match partitionOf s t with
    | none => none
    | some p => if o - 0x60000000 + n ≤ p.size then some ((List.range n).map (fun i => partByte s p (o - 0x60000000 + i))) else none
  else regBytes (shimReg s (fieldOf t)) o n

/-- The die of an address of space 0x08 (16 R494). -/
def addrDie (a : Nat) : Nat := bits 36 32 a

/-! Reads -/

/-- IDKEY may not be read in this state (14 R443). -/
def idkeyHidden (s : State) (o n : Nat) : Bool := (s.lc.code == 1 || s.lc.code == 2) && overlap o n 0x80 48

/-- A register read whose shape or offsets the map does not allow (16 R480, R482). A read of no bytes covers no offset; its
address must still be aligned and lie in the window. -/
def badRead (f : Nat → Option Nat) (size o n : Nat) : Bool :=
  o % 4 != 0 || outside size o n || (n != 0 && (!readShape o n || (regBytes f o n).isNone))

/-- The registers that a request names: those its bytes lie in or, where it has no bytes, the one its address lies in (00
R2, R13). -/
def namedRegs (o n : Nat) : List Nat := if n = 0 then [8 * (o / 8)] else touched o n

/-- PS_RES_CTL and PS_RES_STAT, which SK-S has not (15 R478, 16 R495). -/
def shimAbsent (s : State) (o : Nat) : Bool := s.cfg.skS && (o == 0x70000008 || o == 0x70000010)

/-- A partner that is lost answers nothing (02 R60). -/
def noPartner (bad : Bool) (t : Nat) : Check := { st := .timeout, bad := bad, reason := 0x109, place := coord t }

/-- What a read of each space is checked for (16 R480, R482, R496). -/
def readChecks (s : State) (a n : Nat) : List Check :=
  let o := addrOffset a
  let t := namedTile s a
  let f := fieldOf t
  match addrSpace a with
  | 0 => [badField (badRead (centreReg s) 0x1000 o n) 0]
  | 1 => [badField (outside 33554432 o n) 0]
  | 2 => [badField (badRead (agentReg s t) 0x5000 o n) 0, absent ((namedRegs o n).any (agentAbsent s)) 0]
  | 3 => [badField (outside 49152 o n) 0]
  | 4 =>
    [ badField (decide (0x70000018 ≤ o) || (decide (0x70000000 ≤ o) && badRead (shimReg s f) 0x70000018 o n)) 0,
      absent (decide (0x70000000 ≤ o) && (namedRegs o n).any (shimAbsent s)) 0,
      busy (decide (o < 0x40000000) && (pondPart o n).any (fun p => pondClosed s p.1)),
      refuse (decide (o < 0x70000000) && (windowBytes s t o n).isNone) 0, noPartner (shimOf s f).lost t ]
  | 5 => [badField (outside 16777216 o n) 0, { st := .timeout, bad := s.boot.wellAbsent }]
  | 6 => [badField (outside 67108864 o n) 0]
  | 7 => [badField (outside 4096 o n) 0, denied (idkeyHidden s o n)]
  | _ => [badField (badRead (edgeReg s (addrDie a)) 0x300 o n) 0, noPartner (edgeOf s (addrDie a)).lost 0]

/-- The bytes of a space that the centre reads by itself. What hub SRAM holds at which place is stated nowhere: free values
(log 7). -/
def readBytes (s : State) (a n : Nat) : List Byte :=
  let o := addrOffset a
  match addrSpace a with
  | 0 => (centreBytes s o n).getD []
  | 1 => (List.range n).map (fun i => BitVec.ofNat 8 (Config.freeNat s.boot.freeCount (o + i)))
  | 4 => (windowBytes s (namedTile s a) o n).getD []
  | 5 => wellRead s o n
  | 6 => springRead s o n
  | 7 => otpField s o n
  | _ => (regBytes (edgeReg s (addrDie a)) o n).getD []

/-- A request that a partner has answered (12 R368), over links that wake (15 R474). -/
def partnerAnswers (a : Nat) (s : State) : State :=
  match addrSpace a with
  | 4 =>
    let f := fieldOf (namedTile s a)
    onShim f (fun q => { q with fails := 0 }) (wakeLinks (f :: fieldLinks s f) s)
  | 8 =>
    let f := (edgeOf s (addrDie a)).field
    onEdge (addrDie a) (fun e => { e with fails := 0 }) (wakeLinks ((48 + addrDie a) :: fieldLinks s f) s)
  | _ => s

/-- The operation that a unicast of the tile spaces sends. -/
def tileOp (s : State) (a op : Nat) (h : ReqHdr) : RillOp :=
  { op := op
    target := namedTile s a
    byLtn := if addrPhys a then none else some (addrLtn a)
    space := addrSpace a
    offset := addrOffset a
    reply := some h }

/-- Reads of tile registers and SRAM go over the Rill in blocks of at most 64 bytes; the centre reads the rest itself. -/
def readMemory (a n : Nat) (h : ReqHdr) (s : State) : State :=
  if addrSpace a = 2 || addrSpace a = 3 then sendOp { tileOp s a 1 h with length := n } s
  else
    let bs := readBytes s a n
    let s := if addrSpace a = 0 then latchTime (addrOffset a) n s else partnerAnswers a s
    respond h .ok bs (if addrSpace a = 1 || addrSpace a = 4 then drawFree s else s)

/-- MEM_READ. -/
def execMemRead (h : ReqHdr) (addr length : Nat) (s : State) : Host.Outcome State Fault Refusal :=
  request { op := 0x10, classC := false, rom := addrSpace addr == 6 || addrSpace addr == 7 } h
    (fun _ s => badField (decide (8388608 < length)) 8 :: addrChecks s addr 0 ++
      (if addrBad addr then [] else readChecks s addr length) ++ [emptyIf (length == 0)])
    (readMemory addr length) s

/-! Writes -/

/-- The OTP fields that may be programmed in this state (14 R443, R445, R446). -/
def otpFields (s : State) : List Nat :=
  match s.lc.code with
  | 0 => [0xB0, 0x110, 0x170, 0x1A0]
  | 1 => [0xE0, 0x140, 0x1D0]
  | _ => []

/-- Some byte of the range lies in no field that may be programmed. -/
def otpBarred (s : State) (o n : Nat) : Bool :=
  (List.range n).any (fun i => !(otpFields s).any (fun f => decide (f ≤ o + i) && decide (o + i < f + 48)))

/-- The conditions of an OTP write (14 R446, 17 R512). -/
def otpChecks (s : State) (o n : Nat) : List Check :=
  [ badField (outside 4096 o n || overlap o n 0 0x20 || overlap o n 0x80 48) 0, denied (otpBarred s o n || (otpFields s).isEmpty),
    refuse (n != 0 && (!(otpFields s).contains o || n != 48 || !otpBlank s o 48)) 0,
    { st := .refused, bad := s.lc.junctionHot, reason := 0x10 } ]

/-- In FD a write to LC_EN or to a region register is DENIED (14 R443, 16 R485). -/
def fdBars (s : State) (region : Nat → Bool) (o : Nat) (data : List Byte) : Check :=
  denied (s.lc.code == 2 && (namedRegs o data.length).any region)

def centreRegion (o : Nat) : Bool := o == 0x900 || (decide (0x688 ≤ o) && decide (o < 0x700))

/-- The checks of a write to the agent window of a list of tiles (16 R478, R481, R485, R491); `base` is where the data lie
in the body. -/
def windowChecks (s : State) (ts : List Nat) (base o : Nat) (data : List Byte) : List Check :=
  writeCheck (agentReg s 0) agentResv agentRanges base o data ++
  [ fdBars s regionOffset o data, absent ((namedRegs o data.length).any (agentAbsent s)) base,
    refuse (ts.any (fun t => (writePairs o data).any (fun p => agentRefused (tileOf s t) p.1 p.2))) base ]

/-- What a write of each space is checked for (16 R481, R485, R491, R496). -/
def writeChecks (s : State) (a : Nat) (data : List Byte) : List Check :=
  let o := addrOffset a
  let n := data.length
  let t := namedTile s a
  match addrSpace a with
  | 0 => writeCheck (centreReg s) centreResv centreRanges 16 o data ++ [fdBars s centreRegion o data]
  | 1 => [badField (outside 33554432 o n) 0, denied true]
  | 2 => windowChecks s [t] 16 o data
  | 3 => [badField (outside 49152 o n) 0, rillReason (!tileStill s t && !coreDark (tileOf s t)) 8 t]
  | 4 =>
    if o < 0x70000000 then [denied true]
    else badField (decide (0x70000018 ≤ o)) 0 :: absent ((namedRegs o data.length).any (shimAbsent s)) 16 :: writeCheck (shimReg s (fieldOf t)) shimResv shimRanges 16 o data ++
      [noPartner (shimOf s (fieldOf t)).lost t]
  | 5 => [badField (outside 16777216 o n) 0]
  | 6 =>
    [ badField (outside 67108864 o n) 0, refuse (n != 0 && overlap o n (partOf s 1).offset (partOf s 1).size) 0,
      refuse ((springRead s o n).any (fun b => b != 0xFF)) 0 ]
  | 7 => otpChecks s o n
  | _ => writeCheck (edgeReg s (addrDie a)) edgeResv edgeRanges 16 o data ++ [noPartner (edgeOf s (addrDie a)).lost 0]

/-- The bits of the OTP that a write changes from 0 to 1; each takes 10 µs (14 R446). -/
def otpBits (o : Nat) (data : List Byte) (s : State) : Nat :=
  (List.zipWith (fun (a b : Byte) => ((List.range 8).filter (fun i => !a.getLsbD i && b.getLsbD i)).length) (otpField s o data.length) data).sum

/-- Programs an OTP field. Where the read-back does not match, the field stays as programmed, which bits of it is a free
value, and cannot be used (14 R446). -/
def writeOtp (o : Nat) (data : List Byte) (otpOk : Bool) (h : ReqHdr) (s : State) : State :=
  let s := elapse (now s + 10000 * otpBits o data s) s
  if otpOk then respond h .ok [] (otpProgram o data s)
  else
    let k := s.boot.freeCount
    let got := data.mapIdx (fun i b => b &&& BitVec.ofNat 8 (Config.freeNat k i))
    respond h .lost (detail { reason := 0x12 }) (drawFree (onXspi (fun x => { x with otpBad := x.otpBad ++ [o] }) (otpProgram o got s)))

/-- The effect of a write. FEC_EN takes effect after the response (13 R402). -/
def writeMemory (a : Nat) (data : List Byte) (otpOk : Bool) (h : ReqHdr) (s : State) : State :=
  let o := addrOffset a
  let ok := fun s => respond h .ok [] (partnerAnswers a s)
  match addrSpace a with
  | 0 => writeRegs centreWrite o data (respond h .ok [] s)
  | 2 => sendOp { tileOp s a 2 h with data := data } s
  | 3 => sendOp { tileOp s a 2 h with data := data } s
  | 4 => ok (writeRegs (shimWrite (fieldOf (namedTile s a))) o data s)
  | 5 =>
    if s.boot.wellAbsent then respond h .timeout (detail {}) (failWell s)
    else if wellBusy s then onXspi (fun x => { x with wellWaits := x.wellWaits ++ [⟨o, data, some h⟩] }) s
    else respond h .ok [] (wellPut o data s)
  | 6 => queueOps h (pagePrograms (pageBytes s) data.length o data) s
  | 7 => writeOtp o data otpOk h s
  | _ => ok (writeRegs (edgeWrite (addrDie a)) o data s)

/-- MEM_WRITE. `otpOk` says that the read-back of an OTP field matched. -/
def execMemWrite (h : ReqHdr) (addr : Nat) (data : List Byte) (otpOk : Bool) (s : State) : Host.Outcome State Fault Refusal :=
  request { op := 0x11, classC := true, need := if addrSpace addr = 6 then .spring else .intrusive } h
    (fun _ s => addrChecks s addr 0 ++ (if addrBad addr then [] else writeChecks s addr data) ++ [emptyIf data.isEmpty])
    (writeMemory addr data otpOk) s

/-- SPRING_ERASE: 64 KiB blocks. -/
def execSpringErase (h : ReqHdr) (offset length : Nat) (s : State) : Host.Outcome State Fault Refusal :=
  request { op := 0x12, classC := true, need := .spring } h
    (fun _ _ => [ badField (offset % 65536 != 0 || decide (67108864 ≤ offset)) 0,
      badField (length % 65536 != 0 || decide (67108864 < offset + length)) 4, emptyIf (length == 0) ])
    (fun h s => queueOps h (blockErases offset length) s) s

/-! Multicasts -/

/-- MCAST_WRITE: one packet of 8 to 64 bytes; the members' replies combine. -/
def execMcastWrite (h : ReqHdr) (set : TileSet) (space offset : Nat) (data : List Byte) (s : State) :
    Host.Outcome State Fault Refusal :=
  request { op := 0x13, classC := true, need := .intrusive } h
    (fun _ s =>
      [ badField (setBad set) 0, badField (space != 2 && space != 3) 16, badField (space == 3 && outside 49152 offset data.length) 20,
        { bad := decide (data.length < 8) || decide (64 < data.length), reason := 3 } ] ++
      (if space = 2 then windowChecks s (members s set) 24 offset data else []) ++ [emptyIf (members s set).isEmpty])
    (fun h s => sendOp { op := 2, multi := true, set := set, space := space, offset := offset, data := data, reply := some h } s) s

/-- CENSUS: a predicate on one register of the agent window. -/
def execCensus (h : ReqHdr) (set : TileSet) (offset : Nat) (mask value : Word) (test : Nat) (s : State) :
    Host.Outcome State Fault Refusal :=
  request { op := 0x14, classC := false } h
    (fun _ s =>
      [ badField (setBad set) 0, badField (offset % 8 != 0 || (agentReg s 0 offset).isNone) 20, badField (decide (5 < test)) 40,
        absent (agentAbsent s offset) 20, emptyIf (members s set).isEmpty ])
    (fun h s => sendOp { op := 5, multi := true, set := set, offset := offset, mask := mask, value := value, test := test,
                         reply := some h } s) s

end Sys2Proof.Machine
end

