-- ==== Sys2Proof/Machine/RillNet.lean ====
section
/-! DEFINITION. What routers, junctions, injection ports, weirs and agents do with whole packets: what is dropped, multicast
copies, combined replies, read merging, fetches, weirs and links (02 R45, R49, R54 to R62, R74; 15 R474; 05 R157). -/

namespace Sys2Proof.Machine

/-- The buffers of a node. -/
def routerOf (s : State) (n : Node) : RouterState := mget {} s.rill.routers (nodeKey n)
def onRouter (n : Node) (f : RouterState → RouterState) (s : State) : State :=
  onRill (fun q => { q with routers := mmod {} q.routers (nodeKey n) f }) s

/-! Multicast copies -/

/-- The members behind a branch of a node (02 R57). -/
def branchTiles (s : State) (o : RillOp) (n : Node) (b : Nat) : List Nat :=
  (members s o.set).filter (fun t => branchTo s n t == some b)

/-- The members behind a node. -/
def nodeMembers (s : State) (o : RillOp) (n : Node) : List Nat := (members s o.set).filter (onRoute s n)

/-- The branches of a node that lead to members: quadrants and the express link north of a junction, the centre link of an
injection port, the outputs and the own stub of a router (02 R56). -/
def treeBranches (s : State) (o : RillOp) (n : Node) : List Nat :=
  let ms := members s o.set
  (List.range 11).filter (fun b => ms.any (fun t => branchTo s n t == some b))

/-- The node above on the tree has sent its copy; the centre itself hands the copy to an injection port (02 R56). -/
def copyReached (s : State) (o : RillOp) (n : Node) : Bool :=
  (nodeMembers s o n).any (fun t =>
    match upstreamOf s n t with
    | none => true
    | some (m, b) => copySent s o.tag m b)

/-- The input port by which a node receives a multicast. -/
def inputPort (s : State) (o : RillOp) (n : Node) : Nat :=
  ((((nodeMembers s o n).head?.bind (upstreamOf s n)).bind (fun q => linkTo q.1 q.2)).map (·.2)).getD 1

/-- A router, which has two multicast buffers (02 R56). -/
def isRouter (n : Node) : Bool :=
  match n with
  | .router _ => true
  | _ => false

/-- Copies leave on the branches that have credit; a buffer whose branches are all served is free (02 R56). -/
def copyOut (tag t : Nat) (b : McastBuf) (credit : List Nat) (q : RouterState) : RouterState :=
  let go := b.branches.filter credit.contains
  let stay := b.branches.filter (fun d => !credit.contains d)
  let old := ((q.combiners.find? (fun c => c.tag == tag)).map (·.copies)).getD []
  { q with
    mcast := q.mcast.filter (fun c => c.tag != tag) ++ (if stay = [] then [] else [{ b with branches := stay }])
    input := q.input.filter (fun g => g != tag)
    combiners := q.combiners.filter (fun c => c.tag != tag) ++ [{ tag := tag, copies := old ++ go.map (fun d => (d, t)) }] }

/-- MCAST_COPY: a multicast that has reached a node is held, by a router in one of its two buffers or, while both are held, in
the input buffer, and its copies leave on the branches of `credit` (02 R56). One with a bad CRC is dropped (R49). -/
def execMcastCopy (node : Node) (tag : Nat) (credit : List Nat × Bool) (s : State) : Host.Outcome State Fault Refusal :=
  .next (match flightOp s tag with
    | none => s
    | some o =>
      let q := routerOf s node
      let bs := treeBranches s o node
      if !inService s || !o.multi || bs = [] || !copyReached s o node then s
      else
        match q.mcast.find? (fun b => b.tag == tag) with
        | some b => onRouter node (copyOut tag (now s) b credit.1) s
        | none =>
          if q.combiners.any (fun c => c.tag == tag) then s
          else if !credit.2 then
            badWhole node (inputPort s o node) 2 (onRouter node (fun q => { q with
              input := q.input.filter (fun g => g != tag)
              combiners := q.combiners ++ [{ tag := tag }] }) s)
          else if isRouter node && decide (2 ≤ q.mcast.length) then
            onRouter node (fun q => { q with input := if q.input.contains tag then q.input else q.input ++ [tag] }) s
          else onRouter node (copyOut tag (now s) { tag := tag, branches := bs, since := now s } credit.1) s)

/-- MCAST_BRANCH_TIMEOUT: the copy for a branch is dropped, its members are reported BUFFER, and the buffer is freed (02 R57). -/
def execMcastBranchTimeout (node : Node) (tag branch : Nat) (s : State) : Host.Outcome State Fault Refusal :=
  .next (match flightOp s tag, (routerOf s node).mcast.find? (fun b => b.tag == tag) with
    | some o, some b =>
      if !b.branches.contains branch then s
      else
        let s := elapse (b.since + 20000) s
        let ts := branchTiles s o node branch
        let s := onOp tag (fun o => { o with dropped := o.dropped ++ ts }) (addReply tag (nakMrsp node ts 1) ts s)
        onRouter node (fun q => { q with mcast := (q.mcast.map (fun c =>
          if c.tag == tag then { c with branches := c.branches.erase branch } else c)).filter (fun c => c.branches != []) }) s
    | _, _ => s)

/-- A tile behind the node at which a reply stands. -/
def replyTile (p : Mrsp) : Nat :=
  match p.origin with
  | .router t => t
  | .junction f => cornerTile f 0
  | .port k => cornerTile k 0
  | .centre => 0

/-- A reply stands at node `n` or behind it. -/
def behind (s : State) (n : Node) (p : Mrsp) : Bool := p.origin == n || onRoute s n (replyTile p)

/-- MRSP_COMBINE: every member behind a node that copied the packet is counted; their replies become one (02 R58). One that
reaches the next combiner with a bad CRC is dropped there, and its members are unanswered (R49). -/
def execMrspCombine (node : Node) (tag : Nat × Bool) (s : State) : Host.Outcome State Fault Refusal :=
  .next (match flightOp s tag.1 with
    | none => s
    | some o =>
      let c := (routerOf s node).combiners.any (fun c => c.tag == tag.1)
      let held := (routerOf s node).mcast.any (fun b => b.tag == tag.1)
      let ts := nodeMembers s o node
      if !c || held || ts = [] || !ts.all o.counted.contains then s
      else
        let ps := o.partials.filter (behind s node)
        let rest := o.partials.filter (fun p => !behind s node p)
        let s := onRouter node (fun q => { q with combiners := q.combiners.filter (fun c => c.tag != tag.1) }) s
        if tag.2 then onOp tag.1 (fun o => { o with partials := rest ++ [mergeAll node ps] }) s
        else
          let up := (ts.head?.bind (upstreamOf s node)).getD (.centre, 0)
          badWhole up.1 up.2 3 (onOp tag.1 (fun o => { o with
            partials := rest
            counted := o.counted.filter (fun t => !ts.contains t) }) s))

/-- COMBINER_TIMEOUT: a branch has not answered 24 µs after its copy left; all its members are counted NOREPLY (02 R58). -/
def execCombinerTimeout (node : Node) (tag branch : Nat) (s : State) : Host.Outcome State Fault Refusal :=
  .next (match flightOp s tag, (routerOf s node).combiners.find? (fun c => c.tag == tag) with
    | some o, some c =>
      let ts := branchTiles s o node branch
      match c.copies.find? (fun p => p.1 == branch) with
      | none => s
      | some p =>
        if ts.all o.counted.contains then s
        else
          let late := fun (m : Mrsp) => m.origin != node && branchTo s node (replyTile m) == some branch
          let s := onOp tag (fun o => { o with
            partials := o.partials.filter (fun m => !late m)
            counted := o.counted.filter (fun t => !ts.contains t) }) (elapse (p.2 + 24000) s)
          addReply tag (nakMrsp node ts 9) ts s
    | _, _ => s)

/-! Read merging and fetches -/

def sameKey (a b : MergeEntry) : Bool := a.address == b.address && a.length == b.length && a.plan == b.plan

/-- Whether an MREAD merges: it carries a plan identifier and a block of at most 256 bytes (02 R62). Identifier 0 is taken as
none, as ST_PLAN.WATCH_ID 0 is (DESIGN CHOICE, log 120). -/
def merges (e : MergeEntry) : Bool := e.plan != 0 && decide (e.length ≤ 256)

/-- What can ask at a holder, one bit of its requester set each (02 R62): the tiles of its field and the junction north at a
junction, its junction at an injection port, the eight ports at the hub SRAM port of the centre. -/
def mayAsk (holder sender : Node) : Bool :=
  match holder, sender with
  | .junction f, .router t => decide (f < numFields) && decide (t < numTiles) && fieldOf t == f
  | .junction f, .junction g => decide (g < numFields) && g == f + 8
  | .port k, .junction f => decide (k < 8) && f == k
  | .centre, .port k => decide (k < 8)
  | _, _ => false

/-- The port by which a sender's requests reach its holder. -/
def askPort (sender : Node) : Nat :=
  match sender with
  | .router t => quadOf t
  | .junction f => if f < 8 then 0 else 4
  | .port k => k
  | .centre => 0

/-- MREAD_ARRIVE: it joins the requesters of an open entry, or opens one of the 16 and goes on, or goes on unmerged (02
R61). -/
def execMreadArrive (holder sender : Node) (addr len : Nat) (plan : Nat × Bool) (s : State) : Host.Outcome State Fault Refusal :=
  .next (when (inService s && mayAsk holder sender) (fun s =>
    let e : MergeEntry := { address := addr, length := len, plan := plan.1, requesters := [sender] }
    if !plan.2 then badWhole holder (askPort sender) 6 s
    else if merges e && s.rill.merge.any (fun m => m.1 == holder && sameKey m.2 e) then
      onRill (fun q => { q with merge := q.merge.map (fun m => if m.1 == holder && sameKey m.2 e && !m.2.requesters.contains sender then
        (m.1, { m.2 with requesters := m.2.requesters ++ [sender] }) else m) }) s
    else
      let room := decide ((s.rill.merge.filter (fun m => m.1 == holder)).length < 16)
      onRill (fun q => { q with
        merge := if merges e && room then q.merge ++ [(holder, e)] else q.merge
        forwarded := q.forwarded ++ [(holder, e)] }) s) s)

/-- MDATA_RETURN: the data go to every requester, and the entry closes (02 R61). Data of an MREAD that did not merge go to
its sender. Data with a bad CRC are dropped, and the entry stays open (R49). -/
def execMdataReturn (holder : Node) (addr len plan : Nat) (data : List Word × Bool) (s : State) :
    Host.Outcome State Fault Refusal :=
  .next (when (inService s) (fun s =>
    if !data.2 then badWhole holder 8 7 s
    else
    let k : MergeEntry := { address := addr, length := len, plan := plan }
    match s.rill.forwarded.find? (fun m => m.1 == holder && sameKey m.2 k) with
    | none => s
    | some f =>
      let open_ := s.rill.merge.find? (fun m => m.1 == holder && sameKey m.2 k)
      let to_ := (open_.getD f).2.requesters
      onRill (fun q => { q with
        merge := q.merge.filter (fun m => !(m.1 == holder && sameKey m.2 k))
        forwarded := q.forwarded.erase f
        multicast := q.multicast ++ [(holder, to_, data.1)] }) s) s)

/-- FETCH: an agent fetches its blocks of the watch or counter plan being loaded; a restoring one, those of the active plans
(02 R61, 05 R177, 07 R219, 15 R476). -/
def execFetch (tile : Nat) (restore : Bool) (plan : Nat) (s : State) : Host.Outcome State Fault Refusal :=
  .next (when (inService s && decide (tile < numTiles)) (fun s =>
    if restore then fetchRestore tile s
    else if !fetches s tile || !(tileOf s tile).txn.ltnValid then s
    else
      match s.plans.watchNext, s.plans.cntNext with
      | some p, c =>
        if p.id = plan then fetchBank (some p) tile s
        else if c.any (fun c => c.id == plan) then fetchCnt c tile s else s
      | none, some c => if c.id = plan then fetchCnt (some c) tile s else s
      | none, none => if s.plans.watchRemoving && plan = 0 then fetchBank none tile s else s) s)

/-- COPYOUT: a stub streams tile SRAM as BULK packets; a dark core's does not (02 R47, R76). -/
def execCopyout (tile offset len : Nat) (s : State) : Host.Outcome State Fault Refusal :=
  .next (when (inService s && decide (tile < numTiles) && (tileOf s tile).power.answers && !coreDark (tileOf s tile) &&
      decide (offset + len ≤ 49152)) (fun s =>
    onRill (fun q => { q with bulk := q.bulk ++ [(tile, bytesAt 0 (tileOf s tile).engine.sram offset len)] }) s) s)

/-! Weirs and links. Weir 4 × tile + side is that of a mesh link where it enters the router of a tile, 4 × (368,640 + field)
+ side that of an express link where it enters a junction; sides: 0 N, 1 E, 2 S, 3 W. -/

def weirTile (w : Nat) : Nat := if w / 4 < numTiles then w / 4 else nodeTile (.junction (w / 4 - numTiles))

/-- The weir's link crosses a field seam. -/
def weirExists (w : Nat) : Bool :=
  let n := w / 4
  if n < numTiles then
    match w % 4 with
    | 0 => tileY n % 80 == 79 && tileY n != 479
    | 1 => tileX n % 96 == 95 && tileX n != 767
    | 2 => tileY n % 80 == 0 && tileY n != 0
    | _ => tileX n % 96 == 0 && tileX n != 0
  else
    let f := n - numTiles
    decide (f < numFields) && (match w % 4 with
      | 0 => decide (f / 8 < 5)
      | 1 => decide (f % 8 < 7)
      | 2 => decide (0 < f / 8)
      | _ => decide (0 < f % 8))

def weirOf (s : State) (w : Nat) : Weir := mget {} s.rill.weirs w
def onWeir (w : Nat) (f : Weir → Weir) (s : State) : State := onRill (fun q => { q with weirs := mmod {} q.weirs w f }) s

/-- LINK_GATE: in QUIET a 64-bit link gates its serialiser after 64 idle RCLK cycles (15 R474). -/
def execLinkGate (link : Nat) (s : State) : Host.Outcome State Fault Refusal :=
  .next (when (inService s && s.boot.quiet && decide (link < 170) && !s.rill.gated.contains link)
    (onRill (fun q => { q with gated := q.gated ++ [link] })) s)

/-- EDGE_LINK_DOWN: an edge agent drives class 6 for an optical link down or, with `overflow`, for an overflow of its log (05
R157). -/
def execEdgeLinkDown (die : Nat) (overflow : Bool) (s : State) : Host.Outcome State Fault Refusal :=
  .next (when (inService s && decide (die < numDies) && (!overflow || (edgeOf s die).cut)) (driveClass 6) s)

end Sys2Proof.Machine
end

