-- ==== Sys2Proof/Machine/Session.lean ====
section
/-! DEFINITION. Sessions, grants, hub information, status reads and the power state (13 R419 to R424, R426; 15 R474). -/

namespace Sys2Proof.Machine

/-! Closing -/

/-- A plan whose owner's session has closed has no owner (05 R179, 13 R420). -/
def disown (id : Nat) (s : State) : State :=
  onPlans (fun p => { p with
    watch := p.watch.map (fun w => if w.owner == some id then { w with owner := none } else w)
    watchNext := p.watchNext.map (fun w => if w.owner == some id then { w with owner := none } else w)
    fold := p.fold.map (fun w => if w.owner == some id then { w with owner := none } else w)
    cnt := p.cnt.map (fun w => if w.owner == some id then { w with owner := none } else w)
    cntNext := p.cntNext.map (fun w => if w.owner == some id then { w with owner := none } else w)
    trace := p.trace.map (fun w => if w.owner == some id then { w with owner := none } else w)
    traceNext := p.traceNext.map (fun w => if w.owner == some id then { w with owner := none } else w) }) s

/-- Ends a session: its uncommitted transaction ends, a staging one rinses with cause SESSION, its plans stay without an
owner, and stills stand (13 R420). The mailbox session stays, as an observer, until TAP reset (R440; log 15). -/
def closeSession (id : Nat) (s : State) : State :=
  let s := disown id (sessionTxn id s)
  if id = 65535 then
    onTap (fun t => { t with session := { t.session with intrusive := false, granted := false, rights := 0, nonce := none } }) s
  else onSess (fun q => { q with sessions := q.sessions.filter (fun x => x.id != id) }) s

/-- Closes every intrusive session but one (13 R422, TAKEOVER). -/
def takeOver (id : Nat) (s : State) : State :=
  let s := (s.sess.sessions.filter (fun x => x.intrusive && x.id != id)).foldl (fun s x => closeSession x.id s) s
  if s.tap.alive && s.tap.session.intrusive && id != 65535 then closeSession 65535 s else s

/-! Opening -/

/-- The next free identifier from 1 to 65,534 (13 R419): the first from `n` on that no open session has. -/
def freeId (used : List Nat) : Nat → Nat → Nat
  | 0, n => n
  | k + 1, n => if used.contains n then freeId used k (if n = 65534 then 1 else n + 1) else n

def openChecks (kind : Nat) (s : State) : List Check :=
  [ badField (decide (1 < kind)) 0,
    { st := .busy, bad := kind == 1 && anyIntrusive s, reason := 0x13 },
    busy (decide (4096 ≤ s.sess.sessions.length)) ]

/-- SESSION_OPEN through the mailbox: the session is 0xFFFF itself, which is all that a mailbox request can use; kind
intrusive makes it intrusive in MK, IN and RT, and in FD gives it a nonce (13 R421, R440; log 15). -/
def openMailbox (kind : Nat) (h : ReqHdr) (s : State) : State :=
  let fd := s.lc.code == 2
  let nonce := if kind = 1 && fd then some (Config.entropy s.sess.entropy) else none
  let s := onSess (fun q => { q with entropy := if nonce.isSome then q.entropy + 1 else q.entropy }) (onTap (fun t => { t with
    session := { t.session with
      intrusive := t.session.intrusive || (kind == 1 && !fd)
      rights := if kind = 1 && !fd then 7 else t.session.rights
      nonce := if nonce.isSome then nonce else t.session.nonce
      nonceAt := if nonce.isSome then now s else t.session.nonceAt } }) s)
  respond h .ok (le 2 65535 ++ le 1 (b2n nonce.isSome) ++ zeros 5 ++
    match nonce with
    | some n => le 16 n.toNat
    | none => zeros 16) s

/-- Opens a session: intrusive at once with every right in MK, IN and RT; in FD an observer with a nonce (13 R421). -/
def openSession (kind : Nat) (h : ReqHdr) (s : State) : State :=
  let id := freeId (s.sess.sessions.map (·.id)) 4096 s.sess.nextSession
  let fd := s.lc.code == 2
  let nonce := if kind = 1 && fd then some (Config.entropy s.sess.entropy) else none
  let x : Session :=
    { id := id
      intrusive := kind == 1 && !fd
      rights := if kind = 1 && !fd then 7 else 0
      nonce := nonce
      nonceAt := now s
      lastSeen := now s }
  let s := onSess (fun q => { q with
    sessions := q.sessions ++ [x]
    nextSession := if id = 65534 then 1 else id + 1
    entropy := if nonce.isSome then q.entropy + 1 else q.entropy }) s
  respond h .ok (le 2 id ++ le 1 (b2n nonce.isSome) ++ zeros 5 ++
    match nonce with
    | some n => le 16 n.toNat
    | none => zeros 16) s

/-- SESSION_OPEN. -/
def execSessionOpen (h : ReqHdr) (kind : Nat) (s : State) : Host.Outcome State Fault Refusal :=
  request { op := 0x01, classC := true, need := .zero, rom := true, wipe := true } h (fun _ s => openChecks kind s)
    (fun h s => if h.session = 65535 then openMailbox kind h s else openSession kind h s) s

/-! Grants -/

/-- The message a grant signs (13 R422). -/
def grantMessage (s : State) (nonce : BitVec 128) (rights session : Nat) : List Byte :=
  le 4 0x53474B31 ++ le 16 nonce.toNat ++ hubUid s ++ le 2 s.cfg.engine ++ le 4 rights ++ le 2 session

/-- The session's nonce is the one given, and it is less than 10 s old (13 R421). -/
def nonceOk (s : State) (id : Nat) (nonce : BitVec 128) : Bool :=
  match findSession s id with
  | some x => x.nonce == some nonce && decide (now s ≤ x.nonceAt + 10000000000)
  | none => false

def spendNonce (id : Nat) (s : State) : State := onSession id (fun x => { x with nonce := none }) s

/-- A grant's checks in the order of 13 R422, and its effect. -/
def grantAct (nonce : BitVec 128) (rights x y r sg : Nat) (h : ReqHdr) (s : State) : State :=
  if !nonceOk s h.session nonce then fail h { st := .denied, reason := 0xD } (spendNonce h.session s)
  else if !otpUsable s 0xE0 || keyDigest x y != otpField s 0xE0 48 then fail h { st := .denied, reason := 0xC } (spendNonce h.session s)
  else if otherIntrusive s h.session && !bit 2 rights then fail h { st := .busy, reason := 0x13 } s
  else if !ecdsaOk (sha384 (grantMessage s nonce rights h.session)) x y r sg then
    fail h { st := .denied, reason := 0xC } (spendNonce h.session s)
  else
    let s := spendNonce h.session (takeOver h.session s)
    respond h .ok [] (onSession h.session (fun q => { q with intrusive := true, granted := true, rights := rights }) s)

/-- GRANT. -/
def execGrant (h : ReqHdr) (nonce : BitVec 128) (rights x y r sg : Nat) (s : State) : Host.Outcome State Fault Refusal :=
  request { op := 0x02, classC := true, rom := true } h
    (fun _ _ => [badField (!bit 0 rights || decide (8 ≤ rights)) 16]) (grantAct nonce rights x y r sg) s

/-- SESSION_CLOSE. -/
def execSessionClose (h : ReqHdr) (s : State) : Host.Outcome State Fault Refusal :=
  request { op := 0x03, classC := true, rom := true, wipe := true } h (fun _ _ => [])
    (fun h s => closeSession h.session (respond h .ok [] s)) s

/-- SESSION_TIMEOUT: the session closes SESS_TMO seconds after its last request (13 R420). -/
def execSessionTimeout (session : Nat) (s : State) : Host.Outcome State Fault Refusal :=
  .next (match s.sess.sessions.find? (fun x => x.id == session) with
    | none => s
    | some x => closeSession session (elapse (x.lastSeen + s.port.sessTmo * 1000000000) s))

/-! Information and status -/

/-- The answer of HUB_INFO (13 R426). In INVALID, ENGINE reads 0xFFFF (14 R444). -/
def infoBody (s : State) : List Byte :=
  le 8 (skId s) ++ le 8 (skCap s) ++ hubUid s ++ le 2 (if s.lc.code = 0xFF then 0xFFFF else s.cfg.engine) ++ le 1 s.lc.code ++
    le 1 (b2n (inRom s)) ++ le 4 s.cfg.fwVersion

/-- HUB_INFO. -/
def execHubInfo (h : ReqHdr) (s : State) : Host.Outcome State Fault Refusal :=
  request { op := 0x04, classC := false, need := .zero, rom := true, wipe := true } h (fun _ _ => []) (okWith infoBody) s

/-- The answer of STATUS_READ (13 R426). -/
def statusBody (s : State) : List Byte := padTo 64 s.port.frame ++ le 8 s.port.events.toNat

/-- STATUS_READ. -/
def execStatusRead (h : ReqHdr) (s : State) : Host.Outcome State Fault Refusal :=
  request { op := 0x05, classC := false, rom := true, wipe := true } h (fun _ _ => []) (okWith statusBody) s

/-- STATUS_READ with OPT: the events it returns are cleared. -/
def execStatusReadClear (h : ReqHdr) (s : State) : Host.Outcome State Fault Refusal :=
  request { op := 0x05, classC := true, rom := true, wipe := true } h (fun _ _ => [])
    (fun h s => onPort (fun p => { p with events := p.events &&& BitVec.ofNat 16 (keptW1c s 0x020) }) (okWith statusBody h s)) s

/-- NOP. -/
def execNop (h : ReqHdr) (s : State) : Host.Outcome State Fault Refusal :=
  request { op := 0x06, classC := false, rom := true, wipe := true } h (fun _ _ => []) (okWith (fun _ => [])) s

/-! Power -/

/-- POWER_STATE: STATE 1 puts the hub in QUIET, STATE 0 returns it to ACTIVE (15 R474). Admitting the request has
already begun the return from a QUIET in force. -/
def execPowerState (h : ReqHdr) (state : Nat) (s : State) : Host.Outcome State Fault Refusal :=
  request { op := 0x08, classC := true, need := .intrusive } h (fun _ _ => [badField (decide (1 < state)) 0])
    (fun h s => respond h .ok [] (onBoot (fun b => { b with quiet := state == 1, waking := b.waking && state != 1 }) s)) s

/-- RETURN_TO_ACTIVE_DONE: WAKING clears (15 R474). -/
def execReturnToActiveDone (s : State) : Host.Outcome State Fault Refusal :=
  .next (onBoot (fun b => { b with waking := false }) s)

end Sys2Proof.Machine
end

