-- ==== Sys2Proof/Machine/Port.lean ====
section
/-! DEFINITION. The service port's link layer, the assembly of requests, status frames, and the TAP with its mailbox (13 R402
to R417, R423, R424, R436 to R440; 14 R449, R457). -/

namespace Sys2Proof.Machine

/-! Frames to the host -/

def satInc (n : Nat) : Nat := satAdd 16 n 1

/-- Sends a control frame: TYPE, REASON, GEN (13 R404). -/
def control (ty reason gen : Nat) (s : State) : State := onPort (fun p => { p with control := p.control ++ [(ty, reason, gen)] }) s

/-- The port can receive: it is open and the lane holds block lock. -/
def hears (s : State) : Bool := s.port.opened && s.port.blockLock

/-! Link resets -/

/-- The hub starts a link reset: LRESET with the next GEN (13 R410). -/
def startReset (s : State) : State :=
  if s.port.resetting.isSome then s
  else
    let g := (s.port.gen + 1) % 65536
    control 6 0 g (onPort (fun p => { p with resetting := some g, linkUp := false, lresetAt := now s }) s)

/-- More than 100 resets within 1 s make a storm, which lasts until 1 s passes without one (13 R436). -/
def noteReset (t : Nat) (p : PortState) : PortState :=
  let quiet := match p.resetTimes.getLast? with
    | none => true
    | some u => decide (u + 1000000000 ≤ t)
  let ts := p.resetTimes.filter (fun u => decide (t < u + 1000000000)) ++ [t]
  { p with resetTimes := ts, storm := (p.storm && !quiet) || decide (100 < ts.length) }

/-- A link reset is complete: the new GEN, numbers from 0, and nothing unacknowledged; every tag of a port session is free
(13 R410, R417). -/
def completeReset (g : Nat) (s : State) : State :=
  let s := onPort (fun p => noteReset (now s) { p with
    gen := g
    rxSeq := 0
    txSeq := 0
    nakSent := false
    unacked := []
    txWait := []
    timeouts := 0
    ackedAt := now s
    lastValid := now s
    resetting := none
    linkUp := true
    linkResets := satInc p.linkResets }) s
  event evLinkReset (onSess (fun q => { q with outstanding := q.outstanding.filter (fun o => o.session == 65535) }) s)

/-- Answers an LRESET; in a storm an acknowledgement waits 1 ms (13 R436). -/
def answerReset (g : Nat) (s : State) : State :=
  control 7 0 g (if s.port.storm then elapse (now s + 1000000) s else s)

/-- LRESET: of two resets started at once the greater GEN wins. An LRESET of the GEN in force is a repeat whose answer was
lost: it is only answered again (13 R410; log 50). -/
def execLreset (gen : Nat) (s : State) : Host.Outcome State Fault Refusal :=
  .next (when (hears s) (fun s =>
    let s := onPort (fun p => { p with lastValid := now s }) s
    match s.port.resetting with
    | some g => if gen < g then s else completeReset gen (answerReset gen s)
    | none => if gen = s.port.gen && s.port.linkUp then answerReset gen s else completeReset gen (answerReset gen s)) s)

/-- LRESET_ACK. -/
def execLresetAck (gen : Nat) (s : State) : Host.Outcome State Fault Refusal :=
  .next (when (hears s && s.port.resetting == some gen) (completeReset gen) s)

/-- LRESET_REPEAT. -/
def execLresetRepeat (s : State) : Host.Outcome State Fault Refusal :=
  .next (match s.port.resetting with
    | none => s
    | some g =>
      let s := elapse (s.port.lresetAt + 10000) s
      control 6 0 g (onPort (fun p => { p with lresetAt := now s }) s))

/-- HOST_SILENT_TIMEOUT (13 R409). -/
def execHostSilentTimeout (s : State) : Host.Outcome State Fault Refusal :=
  .next (when s.port.opened (fun s => startReset (elapse (s.port.lastValid + 1000000) s)) s)

/-- BLOCK_LOCK_LOST (13 R436). -/
def execBlockLockLost (s : State) : Host.Outcome State Fault Refusal :=
  .next (loseLock s)

/-- BLOCK_LOCK_REGAINED: after more than 1 µs without it the hub starts a link reset (13 R409). -/
def execBlockLockRegained (s : State) : Host.Outcome State Fault Refusal :=
  .next (when (!s.port.blockLock) (fun s =>
    let long := decide (s.port.lockLostAt + 1000 < now s)
    let s := regainLock s
    if long && s.port.opened then startReset s else s) s)

/-! Acknowledgement -/

/-- Frees the frames that ACK acknowledges; the oldest one left has waited since it was sent (13 R404, R407). -/
def takeAck (ack : Nat) (s : State) : State :=
  match s.port.unacked with
  | [] => s
  | f :: _ =>
    let n := (ack + 4096 - f.seq) % 4096
    if n = 0 || s.port.unacked.length < n then s
    else
      let l := s.port.unacked.drop n
      onPort (fun p => pump (now s) { p with unacked := l, timeouts := 0, ackedAt := (l.head?.map (·.sentAt)).getD (now s) }) s

/-- Goes back to the oldest unacknowledged frame (13 R407). -/
def resend (s : State) : State :=
  if s.port.unacked = [] then s else onPort (fun p => { p with
    resends := satInc p.resends
    unacked := p.unacked.map (fun f => { f with sentAt := now s })
    ackedAt := now s }) s

/-- A valid frame of the current GEN: it shows the link alive and acknowledges (13 R406, R409). -/
def validFrame (gen ack : Nat) (s : State) : State :=
  if hears s && gen == s.port.gen then takeAck ack (onPort (fun p => { p with lastValid := now s }) s) else s

/-- ACK_FRAME. -/
def execAckFrame (gen ack : Nat) (s : State) : Host.Outcome State Fault Refusal := .next (validFrame gen ack s)

/-- KEEPALIVE. -/
def execKeepalive (gen ack : Nat) (s : State) : Host.Outcome State Fault Refusal := .next (validFrame gen ack s)

/-- NAK_FRAME. The reason changes nothing at the hub. -/
def execNakFrame (gen ack _reason : Nat) (s : State) : Host.Outcome State Fault Refusal :=
  .next (when (hears s && gen == s.port.gen) (fun s => resend (validFrame gen ack s)) s)

/-- PORT_ACK_TIMEOUT: the oldest frame has gone unacknowledged for 200 µs; the sixteenth time in a row the hub starts a link
reset (13 R407). -/
def execPortAckTimeout (s : State) : Host.Outcome State Fault Refusal :=
  .next (when (s.port.unacked != []) (fun s =>
    let s := elapse (s.port.ackedAt + 200000) s
    let s := onPort (fun p => { p with timeouts := p.timeouts + 1 }) s
    if 16 ≤ s.port.timeouts then startReset s else resend s) s)

/-! Octets on the lane -/

/-- The link header of a frame as a number (13 R404). -/
def linkHeader (gen len ack seq reason ty : Nat) : Nat :=
  pack [(48, 16, gen), (32, 12, len), (20, 12, ack), (8, 12, seq), (4, 4, reason), (0, 4, ty)]

/-- The octets of a frame: link header, payload and CRC (13 R404, R405). -/
def frameOctets (gen ack seq reason ty : Nat) (payload : List Byte) : List Byte :=
  let b := le 8 (linkHeader gen payload.length ack seq reason ty) ++ payload
  b ++ le 4 (crc32 b)

/-- The octets of a DATA frame that the hub sends, with the ACK of the moment (13 R406, R412). -/
def txOctets (s : State) (f : TxFrame) : List Byte :=
  frameOctets s.port.gen s.port.rxSeq f.seq 0 1
    (respHeader f.response f.frag f.last f.response.body.length ++ f.response.body)

/-- The octets of a control frame or of a status frame (13 R404, R406). -/
def controlOctets (s : State) (ty reason gen : Nat) : List Byte := frameOctets gen s.port.rxSeq 0 reason ty []
def statusOctets (s : State) : List Byte := frameOctets s.port.gen s.port.rxSeq 0 0 2 s.port.frame

/-- The 64b/66b blocks of a frame (13 R403): a start block of type 0x78 with the first seven octets, data blocks of eight, with no
type of their own, and a terminate block whose type says how many octets, 0 to 7, it carries. -/
def frameBlocks (octets : List Byte) : List (Option Nat × List Byte) :=
  let r := octets.drop 7
  let n := r.length / 8
  (some 0x78, octets.take 7) :: (List.range n).map (fun i => (none, (r.drop (8 * i)).take 8)) ++
    [(some ([0x87, 0x99, 0xAA, 0xB4, 0xCC, 0xD2, 0xE1, 0xFF].getD (r.length % 8) 0), r.drop (8 * n))]

/-- What the sender sends after a frame: at least sixteen idle blocks (13 R403). -/
def frameGap : List (Option Nat × List Byte) := List.replicate 16 (some 0x1E, zeros 7)

/-- The fragment of a request that a transaction header and the LENGTH bytes after it spell (13 R411). -/
def fragmentOf (b : List Byte) : DataFrame :=
  let f := fun o n => unle ((b.drop o).take n)
  { opcode := f 0 1
    flags := f 1 1
    tag := f 2 2 % 1024
    hdrRsvd := f 2 2 / 1024 != 0
    bodyLength := f 4 2
    frag := f 6 2
    session := f 8 2
    reqId := f 10 6
    body := (b.drop 16).take (f 4 2) }

/-- The frame that octets spell: the link header, then the payload, then the CRC over both (13 R404, R405, R411). All the
bytes after the transaction header are the body's. -/
def parseFrame (octets : List Byte) : DataFrame :=
  let n := octets.length - 4
  let h := unle (octets.take 8)
  let p := (octets.take n).drop 8
  { fragmentOf p with
    crcOk := decide (12 ≤ octets.length) && unle (octets.drop n) == crc32 (octets.take n)
    gen := bits 63 48 h
    length := bits 43 32 h
    rxLength := p.length
    seq := bits 19 8 h
    ack := bits 31 20 h
    ty := bits 3 0 h
    linkRsvd := bits 47 44 h != 0
    body := p.drop 16 }

/-! Requests -/

/-- The assigned opcodes (13 R426 to R433). -/
def knownOpcode (o : Nat) : Bool :=
  (decide (1 ≤ o) && decide (o ≤ 8)) || (decide (0x10 ≤ o) && decide (o ≤ 0x15)) || (decide (0x20 ≤ o) && decide (o ≤ 0x22)) ||
  (decide (0x30 ≤ o) && decide (o ≤ 0x36)) || (decide (0x40 ≤ o) && decide (o ≤ 0x48)) || (decide (0x50 ≤ o) && decide (o ≤ 0x54)) ||
  (decide (0x60 ≤ o) && decide (o ≤ 0x67)) || (decide (0x70 ≤ o) && decide (o ≤ 0x75)) || (decide (0x80 ≤ o) && decide (o ≤ 0x86)) ||
  (decide (0x90 ≤ o) && decide (o ≤ 0x93)) || (decide (0xA0 ≤ o) && decide (o ≤ 0xA2))

/-- The header of the request that a fragment belongs to. -/
def fragHeader (f : DataFrame) : ReqHdr :=
  { opcode := f.opcode, session := f.session, tag := f.tag, reqId := f.reqId, atEarliest := bit 0 f.flags, opt := bit 1 f.flags }

/-- Bytes held in the request buffer. -/
def buffered (s : State) : Nat := (s.sess.assembling.map (·.body.length)).sum

def sameRequest (f : DataFrame) (a : Assembly) : Bool := a.session == f.session && a.reqId == f.reqId

def onAssembling (g : List Assembly → List Assembly) (s : State) : State :=
  onSess (fun q => { q with assembling := g q.assembling }) s

/-- Drops what is held of a request. -/
def dropAssembly (f : DataFrame) (s : State) : State := onAssembling (List.filter (fun a => !(sameRequest f a && !a.complete))) s

/-- Refuses a fragment: the request completes with this outcome and what is held of it is discarded (13 R415, R436). -/
def badFragment (c : Check) (f : DataFrame) (s : State) : State := turnAway (fragHeader f) c (dropAssembly f s)

/-- The fragment continues the request being assembled. -/
def continues (f : DataFrame) (a : Assembly) : Bool :=
  a.opcode == f.opcode && a.flags % 128 == f.flags % 128 && a.tag == f.tag && a.nextFrag == f.frag

/-- Takes a fragment into the request buffer. The complete request waits there for the hub to act on it, which is the
request's own command (13 R415; log 51). -/
def takeFragment (f : DataFrame) (s : State) : State :=
  let more := bit 7 f.flags
  let old := s.sess.assembling.find? (fun a => sameRequest f a && !a.complete)
  if f.frag != 0 && old.any (fun a => a.spoiled) then (if more then s else dropAssembly f s)
  else if !knownOpcode f.opcode then badFragment { bad := true, reason := 1 } f s
  else if f.hdrRsvd || bits 6 2 f.flags != 0 then badFragment { bad := true, reason := 2 } f s
  else if f.bodyLength != f.body.length then badFragment { bad := true, reason := 3 } f s
  else if (more && f.body.length != 2032) || (f.frag != 0 && !old.any (continues f)) then badFragment { bad := true, reason := 4 } f s
  else
    let a : Assembly := if f.frag = 0 then
      { opcode := f.opcode, flags := f.flags, tag := f.tag, session := f.session, reqId := f.reqId } else old.getD {}
    let s := dropAssembly f s
    if 8388608 < buffered s + a.body.length + f.body.length then
      let s := turnAway (fragHeader f) { st := .busy, bad := true, reason := 7 } s
      if more then onAssembling (fun l => l ++ [{ a with body := [], spoiled := true, nextFrag := f.frag + 1 }]) s else s
    else onAssembling (fun l => l ++ [{ a with body := a.body ++ f.body, nextFrag := f.frag + 1, complete := !more }]) s

/-- Sends one NAK for the expected number (13 R408). -/
def sendNak (reason : Nat) (s : State) : State :=
  if s.port.nakSent then s else control 4 reason s.port.gen (onPort (fun p => { p with nakSent := true }) s)

/-- Counts a frame dropped for its CRC or an abort. -/
def countCrc (s : State) : State := onPort (fun p => { p with crcErr := satInc p.crcErr }) s

/-- DATA_FRAME (13 R408, R411): the octets between a start and a terminate, which the sender may have aborted. The port
carries no request of session 0xFFFF, which is the mailbox's (R419); a frame of another assigned TYPE is its own row's (log 105). -/
def execDataFrame (octets : List Byte) (aborted : Bool) (s : State) : Host.Outcome State Fault Refusal :=
  .next (when (hears s) (fun s =>
    let f := parseFrame octets
    if aborted then sendNak 5 (countCrc s)
    else if !f.crcOk then sendNak 1 (countCrc s)
    else if f.gen != s.port.gen then s
    else if f.ty = 0 || 7 < f.ty || f.linkRsvd then sendNak 4 s
    else if f.ty != 1 then s
    else if 2048 < f.length || f.length != f.rxLength then sendNak 3 s
    else
      let s := validFrame f.gen f.ack s
      if f.seq != s.port.rxSeq then sendNak 2 s
      else
        let s := control 3 0 s.port.gen (onPort (fun p => { p with rxSeq := (p.rxSeq + 1) % 4096, nakSent := false }) s)
        if f.session = 65535 then portSend (mkResponse (fragHeader f) .denied (detail { reason := 8 })) s
        else takeFragment f s) s)

/-! Status frames -/

/-- A condition of the watch plan whose fold no plan holds is idle (05 R174). -/
def condIdle (s : State) : Bool := s.plans.conditions.any (fun c => (foldInfo s c.foldId).isNone)

/-- FLAGS (13 R424). -/
def frameFlags (s : State) : Nat :=
  pack [(0, 2, s.time.align), (2, 2, s.time.flock), (4, 1, b2n s.time.steering), (5, 1, b2n s.time.holdover),
    (6, 1, b2n !(detoured s).isEmpty), (7, 1, b2n !s.rill.overLat.isEmpty), (8, 1, b2n (condIdle s)), (9, 1, b2n s.boot.quiet),
    (10, 1, b2n (inRom s)), (11, 1, b2n (anyIntrusive s)), (12, 1, b2n s.recov.defectPending)]

/-- The 64 bytes of a status frame (13 R423; 14 R449). -/
def frameBody (s : State) : List Byte :=
  padTo 64 (le 4 s.port.frameSeq ++ le 2 (if s.lc.code = 0xFF then 0xFFFF else s.cfg.engine) ++ le 2 (frameFlags s) ++ le 8 (now s) ++
    le 2 s.alarm.raised.toNat ++ le 2 s.alarm.disarmed.toNat ++ le 2 s.port.newEvents.toNat ++ le 2 (recReg s) ++ le 8 (stillReg s) ++
    le 8 s.root.stillT ++ le 8 (snapReg s) ++ le 4 (pack [(0, 20, s.root.okCount), (20, 7, s.root.flagsOr)]) ++
    le 4 (pack [(0, 16, s.txn.id), (16, 4, s.txn.tstate), (20, 4, s.txn.cause)]) ++
    le 6 (maskOf 48 (fun f => (detoured s).contains f || s.rill.overLat.contains f)) ++ le 1 s.folds.latest)

/-- STATUS_FRAME: sent at the next multiple of 10,000 ns, whether or not a link reset is in progress; the hub keeps the last
64 for crash records (13 R423, 12 R379; SEQ counts the frame itself, log 135). -/
def execStatusFrame (s : State) : Host.Outcome State Fault Refusal :=
  .next (when s.port.opened (fun s =>
    let s := elapse s.port.frameDue s
    let s := onPort (fun p => { p with frameSeq := (p.frameSeq + 1) % 2 ^ 32 }) s
    let b := frameBody s
    let s := onPort (fun p => { p with frame := b, newEvents := 0, frameDue := (now s / 10000 + 1) * 10000 }) s
    onRec (fun r => { r with frames := (r.frames ++ [b]).drop (r.frames.length + 1 - 64) }) s) s)

/-! The TAP -/

/-- IDLE (13 R439). -/
def mboxIdle (t : TapState) : Bool := !t.busy && t.respBuf.isEmpty && t.respWait.isEmpty

/-- The status word of MBOX_CTL (13 R439). -/
def mboxStatus (t : TapState) : Nat :=
  pack [(0, 1, b2n (mboxIdle t)), (1, 1, b2n !t.respBuf.isEmpty), (2, 1, b2n t.overflow), (16, 12, t.respBuf.length)]

/-- The session a TAP reset leaves: intrusive with every right in MK, IN and RT unless a port session is intrusive (13 R440). -/
def freshMailbox (s : State) : Session :=
  let all := (s.lc.code == 0 || s.lc.code == 1 || s.lc.code == 3) && !s.sess.sessions.any (fun x => x.intrusive)
  { id := 65535, intrusive := all, rights := if all then 7 else 0, lastSeen := now s }

/-- TAP_RESET: IDCODE is selected; the mailbox session ends as a session does and a new one begins (13 R437, R440; log 52). -/
def execTapReset (s : State) : Host.Outcome State Fault Refusal :=
  let s := if s.tap.alive then closeSession 65535 s else s
  let s := onSess (fun q => { q with
    outstanding := q.outstanding.filter (fun o => o.session != 65535)
    assembling := q.assembling.filter (fun a => a.session != 65535)
    cache := q.cache.filter (fun e => e.session != 65535) }) s
  .next (onTap (fun t => { capture := t.capture, session := freshMailbox s, alive := true }) s)

/-- The instruction that a code selects in the present life-cycle state: 0xFF is BYPASS (13 R437; 14 R443, R457). -/
def tapSelect (s : State) (code : Nat) : Nat :=
  let few := s.lc.code == 4 || s.lc.code == 0xFF
  match code with
  | 0x00 => if few || s.lc.code == 2 then 0xFF else 0
  | 0x01 => 1
  | 0x02 => 2
  | 0x10 => if few then 0xFF else 0x10
  | 0x11 => if few then 0xFF else 0x11
  | 0x12 => 0x12
  | _ => 0xFF

/-- What the selected data register captures; MBOX_DATA has commands of its own, and the content of the boundary-scan chain
is a free value (log 7). -/
def tapCapture (s : State) (ir : Nat) : Nat :=
  match ir with
  | 0x01 => idcode s
  | 0x10 => mboxStatus s.tap
  | 0x11 => s.tap.capture
  | 0x12 => lcReg s % 2 ^ 32
  | 0xFF => 0
  | _ => Config.freeNat s.boot.freeCount 0 % 2 ^ 64

/-- TAP_INSTRUCTION. -/
def execTapInstruction (code : Nat) (s : State) : Host.Outcome State Fault Refusal :=
  let ir := tapSelect s code
  let v := tapCapture s ir
  .next (onTap (fun t => { t with ir := ir, capture := v }) (if ir = 0 || ir = 2 then drawFree s else s))

/-- MBOX_DATA_WRITE. A word beyond 2,048 bytes sets OVERFLOW (13 R439). -/
def execMboxDataWrite (w : Word) (s : State) : Host.Outcome State Fault Refusal :=
  .next (when (s.tap.ir == 0x11 && mboxIdle s.tap) (onTap (fun t =>
    if t.reqBuf.length < 256 then { t with reqBuf := t.reqBuf ++ [w] } else { t with overflow := true })) s)

/-- MBOX_DATA_READ: the next fragment of a response follows the one before (13 R439). -/
def execMboxDataRead (s : State) : Host.Outcome State Fault Refusal :=
  .next (when (s.tap.ir == 0x11) (onTap (fun t =>
    match t.respBuf with
    | [] => { t with capture := 0 }
    | w :: r =>
      if r.isEmpty then { t with capture := w.toNat, respBuf := t.respWait.headD [], respWait := t.respWait.tail }
      else { t with capture := w.toNat, respBuf := r })) s)

/-- The fragment that the request buffer spells (13 R439). -/
def mboxFragment (ws : List Word) : DataFrame := fragmentOf (wordBytes ws)

/-- MBOX_GO: an overflown request is discarded; any other goes to the hub under session 0xFFFF (13 R439, R440). -/
def execMboxGo (s : State) : Host.Outcome State Fault Refusal :=
  .next (when (s.tap.ir == 0x10 && mboxIdle s.tap && s.tap.alive) (fun s =>
    let ws := s.tap.reqBuf
    let over_ := s.tap.overflow
    let s := onTap (fun t => { t with reqBuf := [], overflow := false }) s
    if over_ || ws.length < 2 then s
    else
      let f := mboxFragment ws
      if f.session != 65535 then mboxSend (mkResponse (fragHeader f) .denied (detail { reason := 8 })) s
      else
        let s := takeFragment f s
        onTap (fun t => { t with busy := s.sess.assembling.any (fun a => a.complete && sameRequest f a) }) s) s)

/-- MBOX_ABORT: both buffers are empty; a request in progress goes on and its response is discarded (13 R439). -/
def execMboxAbort (s : State) : Host.Outcome State Fault Refusal :=
  .next (when (s.tap.ir == 0x10) (onTap (fun t => { t with
    reqBuf := []
    respBuf := []
    respWait := []
    overflow := false
    discard := t.discard || t.busy })) s)

end Sys2Proof.Machine
end

