-- ==== Sys2Proof/Machine/RillLink.lean ====
section
/-! DEFINITION. How packets pass the Rill's links: input buffers and credits per virtual channel, arbitration, worms, weirs, the
drop of malformed packets and what a packet does where it leaves (02 R41 to R53, R74). One call of `rillCycle` is one RCLK
cycle. An element's latency in RCLK cycles is left out: a flit passes a node in one cycle (log 125). -/

namespace Sys2Proof.Machine

/-! Buffers -/

/-- Flits that a packet has: two header words, the further ones, the payload, and the CRC (02, Packets). -/
def pktFlits (p : Packet) : Nat := 4 * (2 + p.ext.length + p.len) + 1

/-- What an input port holds per virtual channel: 8 flits at a router, 8 words at a junction (02 R52), and as much at an
injection port (log 125). -/
def bufCap (n : Node) : Nat :=
  match n with
  | .router _ => 8
  | _ => 32

def flowVc (f : Flow) : Nat := kindVc f.pkt.kind

/-- The flow stands in the buffer of a port and virtual channel. -/
def inBuf (n : Node) (p vc : Nat) (f : Flow) : Bool := f.node == n && f.port == p && flowVc f == vc

/-- Flits in an input buffer. -/
def bufUsed (s : State) (n : Node) (p vc : Nat) : Nat := ((s.rill.flows.filter (inBuf n p vc)).map (fun f => f.got - f.gone)).sum

/-- Changes the part of a packet that stands at a node; one whose flits have all gone on leaves the buffer. -/
def onFlow (id : Nat) (n : Node) (f : Flow → Flow) (s : State) : State :=
  onRill (fun q => { q with flows := (q.flows.map (fun g => if g.id == id && g.node == n then f g else g)).filter (fun g =>
    g.gone != pktFlits g.pkt) }) s

/-! Weirs (02 R74). -/

/-- The weir through which a port's link comes in, where the link crosses a seam. -/
def weirInto (n : Node) (p : Nat) : Option Nat :=
  let w := match n with
    | .router t => if 1 ≤ p && p ≤ 4 then some (4 * t + (p - 1)) else none
    | .junction f =>
      match p with
      | 4 => some (4 * (numTiles + f))
      | 9 => some (4 * (numTiles + f) + 1)
      | 8 => some (4 * (numTiles + f) + 2)
      | 10 => some (4 * (numTiles + f) + 3)
      | _ => none
    | _ => none
  w.filter weirExists

/-- The node and the port that a weir leads to. -/
def weirEnd (w : Nat) : Node × Nat :=
  if w / 4 < numTiles then (.router (w / 4), w % 4 + 1)
  else (.junction (w / 4 - numTiles), match w % 4 with
    | 0 => 4
    | 1 => 9
    | 2 => 8
    | _ => 10)

/-- Writes into the newest entry of a weir. -/
def onLast (f : WeirSlot → WeirSlot) : List WeirSlot → List WeirSlot
  | [] => []
  | [a] => [f a]
  | a :: r => a :: onLast f r

/-- The credit that a sender has for a virtual channel of an output port (02 R52); a weir that retrains withholds it (R75). A
port that leaves the Rill always takes a flit. -/
def creditFor (s : State) (n : Node) (o vc : Nat) : Nat :=
  match linkTo n o with
  | none => 4
  | some (m, p) =>
    match weirInto m p with
    | none => bufCap m - bufUsed s m p vc
    | some w => if (weirOf s w).retraining then 0 else bufCap m - mget 0 (weirOf s w).used vc

/-- Credits of an input buffer go back over the reverse direction of its link, through the weir of that direction (02 R52, R74). -/
def returnCredit (n : Node) (p vc k : Nat) (s : State) : State :=
  match weirInto n p, linkTo n p with
  | some _, some (u, q) =>
    match weirInto u q with
    | some w => onWeir w (fun v => { v with slots := onLast (fun e => { e with credit := e.credit ++ [(vc, k)] }) v.slots }) s
    | none => s
  | _, _ => s

/-! Where packets leave -/

/-- A reply of a stub that carries nothing out: the request's OP and LTN and the stub's epochs, with REASON (02 R46, R47; log
118). -/
def reasonRsp (s : State) (r reason : Nat) (p : Packet) : Packet :=
  let x := tileOf s r
  { kind := 1
    dest := portCoord (entryColumn s (fieldOf r)) 8
    src := rillCoord r
    tag := p.tag
    word1 := BitVec.ofNat 64 (pack [(48, 16, x.txn.mapEpoch), (40, 8, x.txn.ctxEpoch), (21, 19, pktLtn p), (11, 8, pktOp p),
      (7, 4, reason)]) }

/-- Why a stub carries a unicast request's packet out no further: STALE_MAP, STALE_CTX or BADOP (02 R47, R48;
log 118). -/
def pktRefusal (x : Tile) (p : Packet) : Nat :=
  if pktLchk p && (!x.txn.ltnValid || x.txn.ltn != pktLtn p || x.txn.mapEpoch != pktMapEpoch p) then 3
  else if pktCchk p && x.txn.ctxEpoch != pktCtxEpoch p then 4
  else if pktOp p = 0 || 9 < pktOp p then 7
  else 0

/-- A packet enters a node's input port with no flit yet. -/
def enterFlow (n : Node) (port : Nat) (p : Packet) (s : State) : State :=
  onRill (fun q => { q with
    flows := q.flows ++ [{ id := q.nextPkt, node := n, port := port, pkt := p, feed := true }]
    nextPkt := q.nextPkt + 1 }) s

def addDelivered (n : Node) (o : Nat) (p : Packet) (s : State) : State :=
  onRill (fun q => { q with delivered := q.delivered ++ [(n, o, p)] }) s

/-- A whole packet has left the Rill or reached a point that holds it whole. A bad CRC is counted there and the packet dropped
(02 R49); a stub answers a request that it refuses (R47, R48); anything else stands for the rows that act on it (log
119). -/
def deliver (n : Node) (port o : Nat) (p : Packet) (s : State) : State :=
  if !p.crcOk then
    match n with
    | .router r => dropPacket r port 2 p s
    | .junction f => if o = 15 then dropPacket (cornerTile f 0) port 2 p s else s
    | _ => onRill (fun q => { q with crcBad := q.crcBad + 1 }) s
  else
    match n with
    | .router r =>
      let k := pktRefusal (tileOf s r) p
      if o = 0 && p.kind = 0 && k != 0 then
        (if (tileOf s r).power.answers then enterFlow n 0 (reasonRsp s r k p) s else s)
      else addDelivered n o p s
    | _ => addDelivered n o p s

/-! One RCLK cycle -/

/-- The node takes the whole packet: a multicast or its reply at every node, a FOLD where the fold has a slot, an MREAD at a
junction or an injection port (02 R49, R56, R58, R61, R67). -/
def takesWhole (s : State) (n : Node) (p : Packet) : Bool :=
  match p.kind with
  | 2 => true
  | 3 => true
  | 4 =>
    match foldInfo s (pktFoldId p) with
    | none => false
    | some i => decide (2 ≤ (expectedOf s i n).length)
  | 6 => match n with
    | .router _ => false
    | _ => true
  | _ => false

/-- The output port of a flow: 15 stands for the node's own holder of whole packets. -/
def flowOut (s : State) (f : Flow) : Nat :=
  if f.gone != 0 then f.out else if takesWhole s f.node f.pkt then 15 else outPort s f.node f.pkt

/-- Both multicast buffers of a router are held (02 R56). -/
def buffersHeld (s : State) (n : Node) : Bool :=
  match n with
  | .router t => decide (2 ≤ (mget {} s.rill.routers t).mcast.length)
  | _ => false

/-- The link behind an output port is marked down: no new packet takes it (02 R75). -/
def linkDown (s : State) (n : Node) (o : Nat) : Bool :=
  match linkTo n o with
  | none => false
  | some (m, p) => (weirInto m p).any (fun w => (weirOf s w).down)

/-- A flow may send a flit: it heads its buffer, has a flit, is not held back, and no other packet's worm has its output. -/
def flowReady (s : State) (f : Flow) : Bool :=
  let o := flowOut s f
  ((s.rill.flows.find? (inBuf f.node f.port (flowVc f))).any (fun g => g.id == f.id)) && !f.drop && decide (f.gone < f.got) &&
  !(flowVc f == 1 && linkHeld s f.node f.port) && !(o == 15 && f.pkt.kind == 2 && buffersHeld s f.node) &&
  !(f.gone == 0 && linkDown s f.node o) && decide (0 < creditFor s f.node o (flowVc f)) &&
  !s.rill.flows.any (fun g => g.node == f.node && g.id != f.id && flowVc g == flowVc f && g.gone != 0 && !g.drop && g.out == o)

/-- The virtual channel that an output port grants in the cycle of an index: the reserved one where it is ready, else the first
ready one (02 R50). -/
def grantVc (index : Nat) (ready : Nat → Bool) : Option Nat :=
  let reserved := if index % 16 = 5 then 1 else if index % 16 = 10 then 2 else if index % 16 = 15 then 3 else 4
  if ready reserved then some reserved else (List.range 4).find? ready

/-- The flow that an output port serves: that of the granted channel from the lowest input port (log 125). -/
def served (s : State) (fs : List Flow) (o : Nat) : Option Flow :=
  let cs := fs.filter (fun f => flowOut s f == o)
  match grantVc (now s / 2) (fun v => cs.any (fun f => flowVc f == v)) with
  | none => none
  | some v => (List.range 11).findSome? (fun p => cs.find? (fun f => flowVc f == v && f.port == p))

/-- What moves in this cycle: flow, output port and number of flits. -/
def moves (s : State) : List (Flow × Nat × Nat) :=
  let ready := s.rill.flows.filter (flowReady s)
  ((ready.map (·.node)).eraseDups).flatMap (fun n =>
    (List.range 16).filterMap (fun o => (served s (ready.filter (fun f => f.node == n)) o).map (fun f =>
      (f, o, min (if o = 15 then 4 else linkRate n o) (min (f.got - f.gone) (creditFor s n o (flowVc f)))))))

/-- Why a router drops a packet as soon as it comes: a reserved KIND, 0, or a LEN above the kind's limit, 1 (02 R45). -/
def shapeBad (n : Node) (p : Packet) : Option Nat :=
  match n with
  | .router _ =>
    match largestLen p.kind with
    | none => some 0
    | some m => if m < p.len then some 1 else none
  | _ => none

/-- Flits of a packet come into an input port. The first brings the header: a router then drops a malformed packet. -/
def flowIn (id : Nat) (n : Node) (port : Nat) (p : Packet) (k : Nat) (s : State) : State :=
  match s.rill.flows.find? (fun g => g.id == id && g.node == n) with
  | some _ => onFlow id n (fun g => { g with got := g.got + k }) s
  | none =>
    let bad := shapeBad n p
    let s := onRill (fun q => { q with flows := q.flows ++ [{ id := id, node := n, port := port, pkt := p, got := k, drop := bad.isSome }] }) s
    match bad, n with
    | some b, .router r => dropPacket r port b p s
    | _, _ => s

/-- Flits of a flow go on: over a link, through a weir, or out of the Rill. -/
def moveFlits (m : Flow × Nat × Nat) (s : State) : State :=
  let f := m.1
  let s := returnCredit f.node f.port (flowVc f) m.2.2
    (onFlow f.id f.node (fun g => { g with gone := g.gone + m.2.2, out := m.2.1 }) s)
  match linkTo f.node m.2.1 with
  | none => if f.gone + m.2.2 = pktFlits f.pkt then deliver f.node f.port m.2.1 f.pkt s else s
  | some (n, p) =>
    let s := wakeLinks (linkNo f.node m.2.1).toList s
    match weirInto n p with
    | none => flowIn f.id n p f.pkt m.2.2 s
    | some w => onWeir w (fun v => { v with
        slots := onLast (fun e => { e with flit := some (f.id, f.pkt, m.2.2) }) v.slots
        used := mmod 0 v.used (flowVc f) (· + m.2.2) }) s

/-- What a weir's entry brings to its far end: flits, and credits for the link of the opposite direction. -/
def takeSlot (w : Nat) (e : WeirSlot) (s : State) : State :=
  let d := weirEnd w
  let s := match linkTo d.1 d.2 with
    | none => s
    | some (u, q) =>
      match weirInto u q with
      | none => s
      | some v => if e.credit = [] then s
        else onWeir v (fun x => { x with used := e.credit.foldl (fun m c => mmod 0 m c.1 (· - c.2)) x.used }) s
  match e.flit with
  | none => s
  | some (id, p, k) => flowIn id d.1 d.2 p k s

/-- A weir that holds anything. -/
def weirBusy (v : Weir) : Bool := v.slots.any (fun e => e.flit.isSome || e.credit != [])

/-- Each busy weir's oldest entry is read and a new one is begun. -/
def turnWeirs (s : State) : State :=
  (s.rill.weirs.filter (fun v => weirBusy v.2)).foldl (fun s v =>
    takeSlot v.1 (v.2.slots.headD {}) (onWeir v.1 (fun x => { x with slots := x.slots.drop 1 ++ [{}] }) s)) s

/-- Flits that come from outside the Rill take the room of their buffer; the packet's predecessors go first. -/
def feedFlow (f : Flow) (s : State) : State :=
  let ahead := (s.rill.flows.takeWhile (fun g => !(g.id == f.id && g.node == f.node))).any (fun g =>
    inBuf f.node f.port (flowVc f) g && g.feed && decide (g.got < pktFlits g.pkt))
  let room := bufCap f.node - bufUsed s f.node f.port (flowVc f)
  if !f.feed || ahead then s
  else onFlow f.id f.node (fun g => { g with got := g.got + min (linkRate f.node f.port) (min (pktFlits f.pkt - f.got) room) }) s

/-- The flits of a dropped packet leave its buffer. -/
def drainFlow (f : Flow) (s : State) : State :=
  if f.drop && decide (f.gone < f.got) then
    returnCredit f.node f.port (flowVc f) (f.got - f.gone) (onFlow f.id f.node (fun g => { g with gone := f.got }) s)
  else s

/-- One RCLK cycle of the Rill: the weirs turn, flits come in, dropped ones leave, and each output port moves what it grants. -/
def rillCycle (s : State) : State :=
  let s := turnWeirs s
  let s := s.rill.flows.foldl (fun s f => feedFlow f s) s
  let s := s.rill.flows.foldl (fun s f => drainFlow f s) s
  (moves s).foldl (fun s m => moveFlits m s) s

/-- An RCLK edge at hub time: the Rill's part of one HCLK cycle (01 R35). A Rill that holds nothing stays as it is. -/
def rillTick (s : State) : State :=
  if inService s && s.time.running && now s % 2 = 0 && (s.rill.flows != [] || s.rill.weirs.any (fun v => weirBusy v.2)) then rillCycle s
  else s

/-- The destination of a packet is a place of this engine. -/
def destExists (p : Packet) : Bool :=
  if pktUp p then
    decide (p.dest / 512 < 1008) || (decide (p.dest / 512 < 1016) && decide (p.dest % 512 / 16 < 6) && hasPort (.junction 0) (p.dest % 16))
  else decide (p.dest / 512 < 768) && decide (p.dest % 512 < 480)

/-- RILL_PACKET_ARRIVE: a packet enters a port from outside the Rill; a router drops one of a reserved KIND or too long (02
R45). What the centre sends carries its SRC (R44). -/
def execRillPacketArrive (node : Node) (port : Nat) (pkt : Packet) (s : State) : Host.Outcome State Fault Refusal :=
  .next (when (inService s && nodeExists node && hasPort node port && destExists pkt) (fun s =>
    let p := match node with
      | .port _ => if port = 1 then { pkt with src := centreSrc } else pkt
      | _ => pkt
    match shapeBad node p, node with
    | some k, .router r => dropPacket r port k p s
    | _, _ => enterFlow node port p s) s)

/-- WEIR_SLIP: the weir records the slip, withholds credit and retrains; the third slip within 1 s marks the link down, and
the centre detours (02 R75, 10 R304). A separation of 2 has read two entries too early, one of 6 has two idle ones more. -/
def execWeirSlip (weir separation : Nat) (s : State) : Host.Outcome State Fault Refusal :=
  .next (when (inService s && weirExists weir && (separation == 2 || separation == 6) && !(weirOf s weir).down) (fun s =>
    let v := weirOf s weir
    let ts := v.slipTimes.filter (fun t => decide (now s < t + 1000000000)) ++ [now s]
    let down := decide (3 ≤ ts.length)
    let early := if separation = 2 then v.slots.take (v.slots.length - 2) else []
    let s := onWeir weir (fun v => { v with
      separation := separation
      slots := v.slots.drop early.length ++ List.replicate (separation - v.slots.length) {}
      retraining := true
      slipTimes := ts
      down := down }) s
    let s := early.foldl (fun s e => takeSlot weir e s) s
    let t := weirTile weir
    let s := recordKind t 0x12 2 (weir % 4 * 2 ^ 62) (onTile t (fun x => { x with hang := { x.hang with slips := x.hang.slips + 1 } }) s)
    let d := weirEnd weir
    if down then onRill (fun q => { q with badLinks := q.badLinks ++ ((linkNo d.1 d.2).toList.filter (fun l => !q.badLinks.contains l)) }) s
    else s) s)

/-- WEIR_RETRAIN_DONE: the weir has drained, no flit lost; its pointers are 4 apart again and credits are restored. It takes at
most 1 µs from the slip (02 R75). -/
def execWeirRetrainDone (weir : Nat) (s : State) : Host.Outcome State Fault Refusal :=
  .next (when (weirOf s weir).retraining (fun s =>
    let v := weirOf s weir
    v.slots.foldl (fun s e => takeSlot weir e s) (onWeir weir (fun v => { v with
      separation := 4
      slots := List.replicate 4 {}
      retraining := false }) s)) s)

end Sys2Proof.Machine
end

