-- ==== Sys2Proof/Machine/Start.lean ====
section
/-! DEFINITION. The cold reset and the start sequence (15 R459, R469, R470). -/

namespace Sys2Proof.Machine

/-- COLD_RESET. Causes: 0 HUB_RESET_N low for `lowNs`, 1 a supply out of range, 2 a completed transition, 3 FW_COMMIT. A
pulse below 100 ns is ignored; whether one of 100 ns to 1 µs resets is not specified: a free value (17 R504). -/
def execColdReset (cause lowNs : Nat) (s : State) : Host.Outcome State Fault Refusal :=
  .next (if cause = 0 && decide (lowNs < 100) then s
    else if cause = 0 && decide (lowNs < 1000) then
      (if Config.freeNat s.boot.freeCount 0 % 2 = 0 then drawFree s else coldReset (drawFree s))
    else coldReset s)

/-- START: HUB_RESET_N is high, the supplies are in range and REFCLK is stable (15 R459). -/
def execStart (s : State) : Host.Outcome State Fault Refusal :=
  .next (when s.boot.inReset (onBoot (fun b => { b with inReset := false, phase := 0 })) s)

def toPhase (n : Nat) (s : State) : State := onBoot (fun b => { b with phase := n }) s

/-! The phases of the boot ROM -/

/-- RESET: the PLL has locked and hub time starts at zero (03 R85). -/
def resetDone (s : State) : State := toPhase 1 (onTime (fun t => { t with running := true, hub := 0 }) s)

/-- OTP: the state is decoded, intents are completed, and the identity is generated; SC, INVALID and a wipe that is not
complete keep the hub in the ROM (14 R447 to R454). -/
def otpDone (r : PhaseReport) (s : State) : State :=
  let s := identity (completeIntents r.wipeOk (redecode s))
  if s.lc.code = 4 then romMode 11 s
  else if s.lc.code = 0xFF then romMode 12 s
  else if wipePending s then romMode 9 s
  else toPhase 2 s

/-- What the ROM uses when Spring's SFDP table fails: instructions 0x13 and 0xDC and 256-byte pages (15 R462). -/
def fallbackReg (size : Nat) : Word := BitVec.ofNat 64 (pack [(0, 16, size), (16, 8, 8), (24, 8, 0xDC), (40, 8, 0x13)])

/-- SPRING: both devices' SFDP tables and the partition table (15 R461 to R463). -/
def springDone (r : PhaseReport) (s : State) : State :=
  let s := onXspi (fun x => { x with
    quad := r.springSfdpOk
    addr4 := true
    sckMhz := if r.springSfdpOk then 104 else 25
    springReg := if r.springSfdpOk then r.springReg else fallbackReg (r.springReg.toNat % 65536)
    wellReg := if r.wellSfdpOk then r.wellReg else 0
    eraseMaxUs := r.eraseMaxUs
    progMaxUs := r.progMaxUs }) s
  let s := onBoot (fun b => { b with sfdpFallback := !r.springSfdpOk, wellAbsent := !r.wellSfdpOk }) s
  if !r.springSfdpOk then romMode 1 s else if !tableValid s then romMode 2 s else toPhase 3 s

/-- IMAGE: the firmware image is loaded and checked (15 R464). -/
def imageDone (s : State) : State :=
  let c := imageCode s
  if c != 0 then romMode (2 + c) s
  else toPhase 4 (onCfg (fun k => { k with fwVersion := unle (springRead s ((partOf s 1).offset + 12) 4) }) s)

/-! The phases of the firmware -/

/-- CONFIG: configuration blocks, defect records and the Well's header; RILL begins at once, or, where PF_WARN_N is low then, once
it has been high for 1 ms (15 R466, R467, R470, R471). -/
def configDone (s : State) : State :=
  let s := if s.cfg.loaded then (if pfWarnLow s then s else elapse (s.alarm.pfRoseAt + 1000000) s)
    else
      let r := (cfgBlocks s).foldl cfgStep ([], s)
      let s := onCfg (fun c => { c with loaded := true }) r.2
      if !(List.range 5).all (fun i => r.1.contains (i + 1)) then romMode 7 s
      else
        let s := onEveryShim (fun _ q => { q with lowSlots := s.cfg.lowSlots }) s
        let s := onBoot (fun b => { b with defectTiles := defectTiles s }) s
        let s := checkWell s
        onRec (fun q => { q with defectPending := !s.boot.wellAbsent && !(pendingSlots s).isEmpty }) s
  if inRom s || pfWarnLow s then s else toPhase 5 s

/-- RILL: the Rill is in service, detours are set, and stubs that do not answer are missing (15 R469, R470). -/
def rillDone (r : PhaseReport) (s : State) : State :=
  if r.unreachable then romMode 8 s
  else
    let s := onTiles r.missing (fun _ x => onPower (fun p => { p with answers := false }) x) s
    let s := onRill (fun q => { q with inService := true, badLinks := r.badLinks, badJunctions := r.badJunctions }) s
    toPhase 6 (onBoot (fun b => { b with rillFault := !r.missing.isEmpty }) s)

/-- A record a start phase writes at every stub (10 R304). -/
def recordStart (s : State) (old time code data : Nat) (x : Tile) : Tile :=
  let e : Eddy := ⟨time, code, eddyFlags x, 0, BitVec.ofNat 64 (data + old)⟩
  { x with eddy := wqPass (ringDepth s) (now s / 2) (ownTime x (now s)) e x.eddy }

/-- The mark of start at a stub: its counter takes hub time, with no offset (03 R94; log 46). -/
def markTile (s : State) (t : Nat) (x : Tile) : Tile :=
  let d := mget 0 s.time.fieldDelay (fieldOf t)
  let old := ts40 ((8 * now s + x.time.off8) % 2 ^ 67 / 8)
  if !x.power.answers then x
  else
    let x := { x with
      time := { x.time with
        off8 := 0
        unset := false
        hi := now s / 2 ^ 32 % 2 ^ 32
        comp := d
        compAtMark := d }
      power := { x.power with darkReady := false, ready := x.power.pwrOk, cwdtSince := now s } }
    recordStart s old (ts40 (now s)) 0x0E 0 x

/-- TREES: delays and L_still are measured, the stubs take the time mark, ALIGN is WAFER, the system classes take their
bindings, and the alarm root is enabled; over-latency fields raise class 7 (15 R469, R470). -/
def treesDone (r : PhaseReport) (s : State) : State :=
  let s := measure r.echo s
  let s := onEveryTile (markTile s) s
  let s := onTime (fun t => { t with align := 1 }) s
  let s := onAlarm (fun a => { a with
    enabled := true
    classes := (List.range 8).foldl (fun m c => mput {} m c (mget {} s.cfg.bindings c)) a.classes }) s
  let s := toPhase 7 s
  if s.rill.overLat.isEmpty then s else raiseClass 7 s

/-- The logical position of a tile when just the tiles of a list are retired (12 R383). -/
def startLtn (dead : List Nat) (t : Nat) : Option Nat :=
  if dead.contains t then none
  else
    let i := tileX t % 16 - (dead.filter (fun u => decide (u < t) && u / 16 == t / 16)).length
    if i < 15 then some (ltnAt (15 * segGroup t + i) (segRow t)) else none

/-- A segment holds two or more of the retired tiles. -/
def crowdedSegment (dead : List Nat) : Bool :=
  dead.any (fun t => decide (2 ≤ (dead.filter (fun u => u / 16 == t / 16)).length))

/-- The transaction of MAP is pressed at a stub: IDENT and EPOCH 0x0001 (15 R469, 06 R199). -/
def mapTile (s : State) (dead : List Nat) (id t : Nat) (x : Tile) : Tile :=
  if !x.power.answers then x
  else
    let l := startLtn dead t
    recordStart s 0 (ts40 (now s)) 0x08 (id * 2 ^ 48 + 5 * 2 ^ 45) { x with txn := { x.txn with
      id := id
      tstate := 5
      mapEpoch := 1
      ltnValid := l.isSome
      ltn := l.getD 0 } }

/-- MAP: the tiles of the defect records are retired, positions are assigned, and one transaction presses them; one that
rinses is staged once more, and a second rinse keeps the hub in the ROM (15 R470). -/
def mapDone (r : PhaseReport) (s : State) : State :=
  let dead := s.boot.defectTiles
  let s := dead.foldl (fun s t => retireTile t s) s
  let s := onBoot (fun b => { b with narrowed := crowdedSegment dead }) s
  let n := numTiles - (s.tiles.filter (fun p => !p.2.power.answers)).length
  let id := if r.mapRetried || r.mapRinsed then 2 else 1
  let s := onTxn (fun q => { q with
    id := id
    lastId := id
    targets := n
    centre := true
    cause := if r.mapRinsed then r.mapCause % 16 else 0 }) s
  if r.mapRinsed then romMode 13 s
  else
    let s := onEveryTile (mapTile s dead id) { s with mapEpoch := 1 }
    toPhase 8 (event evTxn (onTxn (fun q => { q with t := now s, okCount := n }) s))

/-- CENSUS: counters run, the hang watchdog is loaded, and the light census and the ledger start (15 R469, 10 R320). -/
def serviceTile (s : State) (x : Tile) : Tile :=
  if !x.power.answers then x
  else
    { x with
      power := { x.power with cwdtSince := ownTime x (now s) }
      hang := { x.hang with en := true, limitUs := s.cfg.limitUs, thrMult := s.cfg.thrMult, since := ownTime x (now s) }
      core := if coreUp x then { x.core with count := { x.core.count with run := true } } else x.core }

/-- The census is up and the port opens: the time to service ends (15 R469). -/
def censusDone (r : PhaseReport) (s : State) : State :=
  let s := onEveryTile (fun _ x => serviceTile s x) s
  let s := startPeriods (markLoaded 3 <| onCensus (fun c => { c with lcEn := true }) s)
  openPort (toPhase 9 (onBoot (fun b => { b with startUs := min r.elapsedUs (2 ^ 24 - 1) }) s))

/-- START_PHASE_DONE: the phase in progress has done its work on what the report says it found (15 R469). -/
def execStartPhaseDone (r : PhaseReport) (s : State) : Host.Outcome State Fault Refusal :=
  .next (if s.boot.inReset || inRom s then s
    else
      match s.boot.phase with
      | 0 => resetDone s
      | 1 => otpDone r s
      | 2 => springDone r s
      | 3 => imageDone s
      | 4 => configDone s
      | 5 => rillDone r s
      | 6 => treesDone r s
      | 7 => mapDone r s
      | 8 => censusDone r s
      | _ => s)

end Sys2Proof.Machine
end

