-- ==== Sys2Proof/Machine/Dispatch.lean ====
section
/-! DEFINITION. The meaning of each command: one direct call of its definition. -/

namespace Sys2Proof.Machine

/-- The effect of a command on everything but the queue. -/
def exec (i : Instr) (s : State) : Host.Outcome State Fault Refusal :=
  match i with
  | .sessionOpen h kind => Sys2Proof.Machine.execSessionOpen h kind s
  | .grant h nonce rights x y r sg => Sys2Proof.Machine.execGrant h nonce rights x y r sg s
  | .sessionClose h => Sys2Proof.Machine.execSessionClose h s
  | .sessionTimeout session => Sys2Proof.Machine.execSessionTimeout session s
  | .hubInfo h => Sys2Proof.Machine.execHubInfo h s
  | .statusRead h => Sys2Proof.Machine.execStatusRead h s
  | .statusReadClear h => Sys2Proof.Machine.execStatusReadClear h s
  | .nop h => Sys2Proof.Machine.execNop h s
  | .centreReset h copyOk => Sys2Proof.Machine.execCentreReset h copyOk s
  | .powerState h state => Sys2Proof.Machine.execPowerState h state s
  | .memRead h addr length => Sys2Proof.Machine.execMemRead h addr length s
  | .memWrite h addr data otpOk => Sys2Proof.Machine.execMemWrite h addr data otpOk s
  | .springErase h offset length => Sys2Proof.Machine.execSpringErase h offset length s
  | .mcastWrite h set space offset data => Sys2Proof.Machine.execMcastWrite h set space offset data s
  | .census h set offset mask value test => Sys2Proof.Machine.execCensus h set offset mask value test s
  | .agentReset h addr => Sys2Proof.Machine.execAgentReset h addr s
  | .timeExchange h rxAt txAt => Sys2Proof.Machine.execTimeExchange h rxAt txAt s
  | .timeAdjust h c => Sys2Proof.Machine.execTimeAdjust h c s
  | .steerDone => Sys2Proof.Machine.execSteerDone s
  | .measureTime h echo => Sys2Proof.Machine.execMeasureTime h echo s
  | .measureTimeRemark h echo => Sys2Proof.Machine.execMeasureTimeRemark h echo s
  | .timeMarkLaunch => Sys2Proof.Machine.execTimeMarkLaunch s
  | .timeMark tile word parity => Sys2Proof.Machine.execTimeMark tile word parity s
  | .stillAt h tick scope => Sys2Proof.Machine.execStillAt h tick scope s
  | .releaseAt h tick scope => Sys2Proof.Machine.execReleaseAt h tick scope s
  | .stepTick h tick scope n => Sys2Proof.Machine.execStepTick h tick scope n s
  | .stepCmd h tick scope k limit => Sys2Proof.Machine.execStepCmd h tick scope k limit s
  | .actionCancel h tick scope kind => Sys2Proof.Machine.execActionCancel h tick scope kind s
  | .regionSet h region valid lx0 lx1 ly0 ly1 => Sys2Proof.Machine.execRegionSet h region valid lx0 lx1 ly0 ly1 s
  | .stillQuery h => Sys2Proof.Machine.execStillQuery h s
  | .stillQueryRefresh h => Sys2Proof.Machine.execStillQueryRefresh h s
  | .actionLaunch => Sys2Proof.Machine.execActionLaunch s
  | .stillWordCapture tile head tickLo p0 p1 => Sys2Proof.Machine.execStillWordCapture tile head tickLo p0 p1 s
  | .stillAct tile cycles vpend => Sys2Proof.Machine.execStillAct tile cycles vpend s
  | .releaseAct tile idle => Sys2Proof.Machine.execReleaseAct tile idle s
  | .pressAct tile => Sys2Proof.Machine.execPressAct tile s
  | .pressApplyDone tile => Sys2Proof.Machine.execPressApplyDone tile s
  | .edgeStillAct die action tick => Sys2Proof.Machine.execEdgeStillAct die action tick s
  | .stubStillNoClock tile => Sys2Proof.Machine.execStubStillNoClock tile s
  | .freezeSettled tile => Sys2Proof.Machine.execFreezeSettled tile s
  | .freezeNoack tile frzAck rfrzAck => Sys2Proof.Machine.execFreezeNoack tile frzAck rfrzAck s
  | .stillCensus => Sys2Proof.Machine.execStillCensus s
  | .stillCensusRepeat => Sys2Proof.Machine.execStillCensusRepeat s
  | .autoRelease => Sys2Proof.Machine.execAutoRelease s
  | .alarmAccept classes => Sys2Proof.Machine.execAlarmAccept classes s
  | .alarmRearm h classes => Sys2Proof.Machine.execAlarmRearm h classes s
  | .sramWrite tile w => Sys2Proof.Machine.execSramWrite tile w s
  | .descArrive tile d => Sys2Proof.Machine.execDescArrive tile d s
  | .lineDiscard tile => Sys2Proof.Machine.execLineDiscard tile s
  | .descClose tile tag => Sys2Proof.Machine.execDescClose tile tag s
  | .dipAccClose tile slot => Sys2Proof.Machine.execDipAccClose tile slot s
  | .commandStart tile cmd cyc => Sys2Proof.Machine.execCommandStart tile cmd cyc s
  | .commandEnd tile cyc => Sys2Proof.Machine.execCommandEnd tile cyc s
  | .contextSwitch tile old new => Sys2Proof.Machine.execContextSwitch tile old new s
  | .contextLoad tile => Sys2Proof.Machine.execContextLoad tile s
  | .tileErrorEvent tile index line port => Sys2Proof.Machine.execTileErrorEvent tile index line port s
  | .waitDescriptor tile e d => Sys2Proof.Machine.execWaitDescriptor tile e d s
  | .hang tile => Sys2Proof.Machine.execHang tile s
  | .cwdtExpiry tile => Sys2Proof.Machine.execCwdtExpiry tile s
  | .stillCopyHoldEnd tile slot acked => Sys2Proof.Machine.execStillCopyHoldEnd tile slot acked s
  | .snoopFrameClose tile slot => Sys2Proof.Machine.execSnoopFrameClose tile slot s
  | .watchLoad h id activate entries => Sys2Proof.Machine.execWatchLoad h id activate entries s
  | .watchRemove h => Sys2Proof.Machine.execWatchRemove h s
  | .foldLoad h id entries => Sys2Proof.Machine.execFoldLoad h id entries s
  | .foldRead h foldId count => Sys2Proof.Machine.execFoldRead h foldId count s
  | .foldContrib tile foldId epoch => Sys2Proof.Machine.execFoldContrib tile foldId epoch s
  | .foldArrival node child foldId epoch p => Sys2Proof.Machine.execFoldArrival node child foldId epoch p s
  | .foldEpochClose node foldId => Sys2Proof.Machine.execFoldEpochClose node foldId s
  | .foldResultStore foldId => Sys2Proof.Machine.execFoldResultStore foldId s
  | .cntLoad h id entries => Sys2Proof.Machine.execCntLoad h id entries s
  | .cntFold h step => Sys2Proof.Machine.execCntFold h step s
  | .stepDesc h step tokens => Sys2Proof.Machine.execStepDesc h step tokens s
  | .lcRead h count => Sys2Proof.Machine.execLcRead h count s
  | .ledgerRead h count => Sys2Proof.Machine.execLedgerRead h count s
  | .lcBoundary => Sys2Proof.Machine.execLcBoundary s
  | .pmbusDone data pecOk => Sys2Proof.Machine.execPmbusDone data pecOk s
  | .pmbusTimeout => Sys2Proof.Machine.execPmbusTimeout s
  | .paceRefill die liveLanes => Sys2Proof.Machine.execPaceRefill die liveLanes s
  | .txnOpen h mapEpoch tmo => Sys2Proof.Machine.execTxnOpen h mapEpoch tmo s
  | .txnAdd h txn entries => Sys2Proof.Machine.execTxnAdd h txn entries s
  | .txnCommit h txn tick => Sys2Proof.Machine.execTxnCommit h txn tick s
  | .txnRinse h txn => Sys2Proof.Machine.execTxnRinse h txn s
  | .txnQuery h => Sys2Proof.Machine.execTxnQuery h s
  | .stage tile p => Sys2Proof.Machine.execStage tile p s
  | .txnCheck => Sys2Proof.Machine.execTxnCheck s
  | .rinse tile txn => Sys2Proof.Machine.execRinse tile txn s
  | .stageDeadline tile => Sys2Proof.Machine.execStageDeadline tile s
  | .fenceEnd => Sys2Proof.Machine.execFenceEnd s
  | .pressConfirm => Sys2Proof.Machine.execPressConfirm s
  | .pressRecount => Sys2Proof.Machine.execPressRecount s
  | .fpRead h group count tensor => Sys2Proof.Machine.execFpRead h group count tensor s
  | .fpCompare h group tensor step peers => Sys2Proof.Machine.execFpCompare h group tensor step peers s
  | .symLoad h build recs => Sys2Proof.Machine.execSymLoad h build recs s
  | .pmapLoad h build recs => Sys2Proof.Machine.execPmapLoad h build recs s
  | .watchStatus h => Sys2Proof.Machine.execWatchStatus h s
  | .watchReset h entry => Sys2Proof.Machine.execWatchReset h entry s
  | .watchDrain h entry set dest => Sys2Proof.Machine.execWatchDrain h entry set dest s
  | .captureNow h entry => Sys2Proof.Machine.execCaptureNow h entry s
  | .eddyRead h set addrs count => Sys2Proof.Machine.execEddyRead h set addrs count s
  | .eddyFreezeTimeout tile => Sys2Proof.Machine.execEddyFreezeTimeout tile s
  | .eddyGap tile => Sys2Proof.Machine.execEddyGap tile s
  | .traceLoad h id entries => Sys2Proof.Machine.execTraceLoad h id entries s
  | .traceRemove h => Sys2Proof.Machine.execTraceRemove h s
  | .traceRearm h => Sys2Proof.Machine.execTraceRearm h s
  | .traceDrain h set => Sys2Proof.Machine.execTraceDrain h set s
  | .traceStatus h first count => Sys2Proof.Machine.execTraceStatus h first count s
  | .streamChunkSend tile flush => Sys2Proof.Machine.execStreamChunkSend tile flush s
  | .eddyChunkArrive tile recs => Sys2Proof.Machine.execEddyChunkArrive tile recs s
  | .stillOnFullRaise tile => Sys2Proof.Machine.execStillOnFullRaise tile s
  | .traceDrainRelease => Sys2Proof.Machine.execTraceDrainRelease s
  | .wfgBuild h => Sys2Proof.Machine.execWfgBuild h s
  | .snapTake h id autoRel tick => Sys2Proof.Machine.execSnapTake h id autoRel tick s
  | .snapGo => Sys2Proof.Machine.execSnapGo s
  | .cowAck field => Sys2Proof.Machine.execCowAck field s
  | .cowAckTimeout field nak => Sys2Proof.Machine.execCowAckTimeout field nak s
  | .imageCopyDone tile => Sys2Proof.Machine.execImageCopyDone tile s
  | .shimDone field => Sys2Proof.Machine.execShimDone field s
  | .snapCopyTimeout => Sys2Proof.Machine.execSnapCopyTimeout s
  | .slotReq field granule write => Sys2Proof.Machine.execSlotReq field granule write s
  | .copyDone field granule answer => Sys2Proof.Machine.execCopyDone field granule answer s
  | .ingCopy die srcEngine srcDie unit => Sys2Proof.Machine.execIngCopy die srcEngine srcDie unit s
  | .mkSeen die engine peerDie snapId kind => Sys2Proof.Machine.execMkSeen die engine peerDie snapId kind s
  | .logWritten die => Sys2Proof.Machine.execLogWritten die s
  | .markerTimeout die => Sys2Proof.Machine.execMarkerTimeout die s
  | .egFrozenTimeout die => Sys2Proof.Machine.execEgFrozenTimeout die s
  | .egFrozenFall die => Sys2Proof.Machine.execEgFrozenFall die s
  | .snapRestore h id memKept tr => Sys2Proof.Machine.execSnapRestore h id memKept tr s
  | .cbDone field granule answer => Sys2Proof.Machine.execCbDone field granule answer s
  | .snapDrain h id full dest => Sys2Proof.Machine.execSnapDrain h id full dest s
  | .asofData field ok => Sys2Proof.Machine.execAsofData field ok s
  | .drainDone => Sys2Proof.Machine.execDrainDone s
  | .snapPlan h p0 period k baseId forceNext => Sys2Proof.Machine.execSnapPlan h p0 period k baseId forceNext s
  | .snapPlanStop h => Sys2Proof.Machine.execSnapPlanStop h s
  | .snapPlanPoint => Sys2Proof.Machine.execSnapPlanPoint s
  | .peerSet h die cut entries => Sys2Proof.Machine.execPeerSet h die cut entries s
  | .snapDrop h id => Sys2Proof.Machine.execSnapDrop h id s
  | .snapQuery h => Sys2Proof.Machine.execSnapQuery h s
  | .crashList h count => Sys2Proof.Machine.execCrashList h count s
  | .recPolicy h cls action image => Sys2Proof.Machine.execRecPolicy h cls action image s
  | .mendNow h tile => Sys2Proof.Machine.execMendNow h tile s
  | .defectFlush h => Sys2Proof.Machine.execDefectFlush h s
  | .recoveryStart => Sys2Proof.Machine.execRecoveryStart s
  | .recoveryReady => Sys2Proof.Machine.execRecoveryReady s
  | .wellWriteDone => Sys2Proof.Machine.execWellWriteDone s
  | .defectRecordWrite ok => Sys2Proof.Machine.execDefectRecordWrite ok s
  | .recOverrun => Sys2Proof.Machine.execRecOverrun s
  | .wellBurstTimeout => Sys2Proof.Machine.execWellBurstTimeout s
  | .springProgramTimeout => Sys2Proof.Machine.execSpringProgramTimeout s
  | .lastGasp lowCycles => Sys2Proof.Machine.execLastGasp lowCycles s
  | .pfWarnRise => Sys2Proof.Machine.execPfWarnRise s
  | .lcTransition h target token => Sys2Proof.Machine.execLcTransition h target token s
  | .lcTransitionDone wipeOk pfFell => Sys2Proof.Machine.execLcTransitionDone wipeOk pfFell s
  | .fwWrite h offset data => Sys2Proof.Machine.execFwWrite h offset data s
  | .fwCommit h length => Sys2Proof.Machine.execFwCommit h length s
  | .coldReset cause lowNs => Sys2Proof.Machine.execColdReset cause lowNs s
  | .start => Sys2Proof.Machine.execStart s
  | .startPhaseDone r => Sys2Proof.Machine.execStartPhaseDone r s
  | .warmReset cause copyOk => Sys2Proof.Machine.execWarmReset cause copyOk s
  | .hubWatchdogExpiry copyOk => Sys2Proof.Machine.execHubWatchdogExpiry copyOk s
  | .engineReset => Sys2Proof.Machine.execEngineReset s
  | .darkPendingRise tile savedOk => Sys2Proof.Machine.execDarkPendingRise tile savedOk s
  | .darkPendingFall tile => Sys2Proof.Machine.execDarkPendingFall tile s
  | .darkSaveTimeout tile => Sys2Proof.Machine.execDarkSaveTimeout tile s
  | .corePwrFall tile => Sys2Proof.Machine.execCorePwrFall tile s
  | .corePwrRise tile => Sys2Proof.Machine.execCorePwrRise tile s
  | .coreTimeRebuilt tile => Sys2Proof.Machine.execCoreTimeRebuilt tile s
  | .thrRegionChange tile high stopped => Sys2Proof.Machine.execThrRegionChange tile high stopped s
  | .tclkResume tile => Sys2Proof.Machine.execTclkResume tile s
  | .planRestore tile ok => Sys2Proof.Machine.execPlanRestore tile ok s
  | .refclkLoss => Sys2Proof.Machine.execRefclkLoss s
  | .refclkReturn => Sys2Proof.Machine.execRefclkReturn s
  | .flockHold => Sys2Proof.Machine.execFlockHold s
  | .flockHoldTimeout => Sys2Proof.Machine.execFlockHoldTimeout s
  | .flockLocked => Sys2Proof.Machine.execFlockLocked s
  | .rillPacketArrive node port pkt => Sys2Proof.Machine.execRillPacketArrive node port pkt s
  | .mcastCopy node tag credit => Sys2Proof.Machine.execMcastCopy node tag credit s
  | .mcastBranchTimeout node tag branch => Sys2Proof.Machine.execMcastBranchTimeout node tag branch s
  | .mrspCombine node tag => Sys2Proof.Machine.execMrspCombine node tag s
  | .combinerTimeout node tag branch => Sys2Proof.Machine.execCombinerTimeout node tag branch s
  | .rillReply tag => Sys2Proof.Machine.execRillReply tag s
  | .rillResponseTimeout kind arg => Sys2Proof.Machine.execRillResponseTimeout kind arg s
  | .stubRead tile tag => Sys2Proof.Machine.execStubRead tile tag s
  | .stubWrite tile tag => Sys2Proof.Machine.execStubWrite tile tag s
  | .stubCensus tile tag => Sys2Proof.Machine.execStubCensus tile tag s
  | .fetch tile restore plan => Sys2Proof.Machine.execFetch tile restore plan s
  | .copyout tile offset len => Sys2Proof.Machine.execCopyout tile offset len s
  | .closeEpoch router foldId => Sys2Proof.Machine.execCloseEpoch router foldId s
  | .coreTimeout tile tag => Sys2Proof.Machine.execCoreTimeout tile tag s
  | .mreadArrive holder sender addr len plan => Sys2Proof.Machine.execMreadArrive holder sender addr len plan s
  | .mdataReturn holder addr len plan data => Sys2Proof.Machine.execMdataReturn holder addr len plan data s
  | .weirSlip weir separation => Sys2Proof.Machine.execWeirSlip weir separation s
  | .weirRetrainDone weir => Sys2Proof.Machine.execWeirRetrainDone weir s
  | .linkGate link => Sys2Proof.Machine.execLinkGate link s
  | .edgeLinkDown die overflow => Sys2Proof.Machine.execEdgeLinkDown die overflow s
  | .statusFrame => Sys2Proof.Machine.execStatusFrame s
  | .dataFrame octets aborted => Sys2Proof.Machine.execDataFrame octets aborted s
  | .ackFrame gen ack => Sys2Proof.Machine.execAckFrame gen ack s
  | .nakFrame gen ack reason => Sys2Proof.Machine.execNakFrame gen ack reason s
  | .keepalive gen ack => Sys2Proof.Machine.execKeepalive gen ack s
  | .portAckTimeout => Sys2Proof.Machine.execPortAckTimeout s
  | .hostSilentTimeout => Sys2Proof.Machine.execHostSilentTimeout s
  | .blockLockLost => Sys2Proof.Machine.execBlockLockLost s
  | .blockLockRegained => Sys2Proof.Machine.execBlockLockRegained s
  | .lreset gen => Sys2Proof.Machine.execLreset gen s
  | .lresetAck gen => Sys2Proof.Machine.execLresetAck gen s
  | .lresetRepeat => Sys2Proof.Machine.execLresetRepeat s
  | .tapReset => Sys2Proof.Machine.execTapReset s
  | .mboxGo => Sys2Proof.Machine.execMboxGo s
  | .mboxAbort => Sys2Proof.Machine.execMboxAbort s
  | .mboxDataWrite w => Sys2Proof.Machine.execMboxDataWrite w s
  | .mboxDataRead => Sys2Proof.Machine.execMboxDataRead s
  | .tapInstruction code => Sys2Proof.Machine.execTapInstruction code s
  | .vpendFall tile => Sys2Proof.Machine.execVpendFall tile s
  | .egFrozenRise die => Sys2Proof.Machine.execEgFrozenRise die s
  | .controllerFatalState field => Sys2Proof.Machine.execControllerFatalState field s
  | .vddAonFall => Sys2Proof.Machine.execVddAonFall s
  | .pressPlaceTimeout => Sys2Proof.Machine.execPressPlaceTimeout s
  | .returnToActiveDone => Sys2Proof.Machine.execReturnToActiveDone s
  | .springOperationDone => Sys2Proof.Machine.execSpringOperationDone s

end Sys2Proof.Machine
end

