-- ==== Sys2Proof/Safety.lean ====
section
/-! DEFINITION. The terms in which statements about the block are made: canonical collections, what the host has been
sent, when a request is admitted, and what an answered request leaves as it was. -/

namespace Sys2Proof.Machine

/-- The sparse collections of the block's tiles, dies and shims are in canonical form: keys strictly rising and no entry
equal to the default. -/
def mapsWf (s : State) : Prop := mwf {} s.tiles = true ∧ mwf {} s.edges = true ∧ mwf {} s.shims = true

/-- The responses the hub has sent on the port and the host has not acknowledged, oldest first (13 R407). -/
def sent (s : State) : List Response := (s.port.unacked ++ s.port.txWait).map (·.response)

/-- A response as the port sends it: fragments of at most 2,032 body bytes (13 R411, R414). -/
def fragmentsOf (r : Response) : List Response := (pieces 2032 r.body).map (fun b => { r with body := b })

/-- A session without the two fields that every request moves on: its last request's time and the next REQ_ID. -/
def unstamped (x : Session) : Session := { x with lastSeen := 0, maxReqId := 0 }

/-- A port request meets the conditions that are common to all requests, whatever its session may do: the port is open, the
hub runs its firmware, is ACTIVE and is in none of SC, INVALID and a life-cycle transition, the encoding has no defect, the
tag is free, there is room, and the request is no repeat (13 R402, R414, R416, R421, R433). -/
structure Ready (s : State) (h : ReqHdr) : Prop where
  opened : s.port.opened = true
  notMailbox : h.session ≠ 65535
  encoded : h.defect = 0
  notScrap : s.lc.code ≠ 4
  valid : s.lc.code ≠ 255
  settled : s.lc.phase = 0
  firmware : s.boot.romReason = 0
  active : s.boot.quiet = false
  tagFree : ∀ o ∈ s.sess.outstanding, o.session = h.session → o.tag ≠ h.tag
  room : s.sess.outstanding.length < 256
  fresh : ∀ e ∈ s.sess.cache, e.session = h.session → e.reqId ≠ h.reqId
  inOrder : highReq s h.session ≤ h.reqId

/-- The request names an open session (13 R419). -/
def InSession (s : State) (h : ReqHdr) : Prop :=
  h.session ≠ 0 ∧ (s.sess.sessions.find? (fun x => x.id == h.session)).isSome = true

/-- A ready request of an open session: what an observer may send. -/
def AsObserver (s : State) (h : ReqHdr) : Prop := Ready s h ∧ InSession s h

/-- A ready request of the intrusive session (13 R419, R425). -/
def AsIntrusive (s : State) (h : ReqHdr) : Prop := AsObserver s h ∧ isIntrusive s h.session = true

/-- A ready request of the intrusive session that holds the right SPRING (13 R422, R425). -/
def WithSpring (s : State) (h : ReqHdr) : Prop := AsIntrusive s h ∧ hasRight s h.session 1 = true

/-- A ready request of an open session or of SESSION 0, which needs none (13 R419). -/
def AsAnyone (s : State) (h : ReqHdr) : Prop := Ready s h ∧ (h.session = 0 ∨ InSession s h)

/-- `t` is `u` but for the port's transmit queue and the bookkeeping of requests: fragments, the class C cache, REQ_IDs and
the sessions' times. -/
def SameButAnswers (u t : State) : Prop :=
  t = { u with
    port := { u.port with
      unacked := t.port.unacked
      txWait := t.port.txWait
      txSeq := t.port.txSeq
      ackedAt := t.port.ackedAt }
    sess := { u.sess with
      sessions := t.sess.sessions
      outstanding := t.sess.outstanding
      assembling := t.sess.assembling
      cache := t.sess.cache
      maxReqId0 := t.sess.maxReqId0 } } ∧
  t.sess.sessions.map unstamped = u.sess.sessions.map unstamped

/-- The request with opcode `op` and header `h` has completed with this status and body: its fragments are the last that
were sent, its tag is free again, and otherwise `t` is `u`. -/
def Answered (u t : State) (op : Nat) (h : ReqHdr) (st : Status) (body : List Byte) : Prop :=
  sent t = sent u ++ fragmentsOf (mkResponse { h with opcode := op } st body) ∧
  t.sess.outstanding = u.sess.outstanding ∧ SameButAnswers u t

/-- The request has been taken and waits for its answer: nothing is sent, its tag is outstanding, and otherwise `t` is
`u`. -/
def Waits (u t : State) (op : Nat) (h : ReqHdr) : Prop :=
  sent t = sent u ∧ t.sess.outstanding = u.sess.outstanding ++ [{ h with opcode := op }] ∧ SameButAnswers u t

/-- `t` is `s` but for tile `k`. -/
def OnlyTile (s t : State) (k : Nat) : Prop := { t with tiles := s.tiles } = s ∧ ∀ u, u ≠ k → tileOf t u = tileOf s u

/-- `t` is `s` but for the edge agent of die `d`. -/
def OnlyEdge (s t : State) (d : Nat) : Prop := { t with edges := s.edges } = s ∧ ∀ u, u ≠ d → edgeOf t u = edgeOf s u

/-- `t` is `s` but for the pond shim of field `f`. -/
def OnlyShim (s t : State) (f : Nat) : Prop := { t with shims := s.shims } = s ∧ ∀ u, u ≠ f → shimOf t u = shimOf s u

/-- Tile `k`'s stub takes a record of any class into its ring at once: it is in service, its ring is neither frozen nor in
stream mode, and its write queue is empty (10 R301, R304 to R308). -/
def EddyReady (s : State) (k : Nat) : Prop :=
  s.rill.inService = true ∧ (tileOf s k).eddy.freeze = false ∧ (tileOf s k).eddy.stream = false ∧
  (tileOf s k).eddy.wq = 0 ∧ (tileOf s k).eddy.burst = 0 ∧ (tileOf s k).eddy.lostQ = 0 ∧ (tileOf s k).eddy.mask = 0xFF ∧ (tileOf s k).eddy.head < ringDepth s

/-- Tile `k`'s ring has taken one record, in its next slot and with its next SEQ; every other slot is as it was. -/
def Recorded (s t : State) (k time code flags : Nat) (data : Word) : Prop :=
  let a := (tileOf s k).eddy
  let b := (tileOf t k).eddy
  mget {} b.ring a.head = { time := time, code := code, flags := flags, seq := a.seq, data := data } ∧
  (∀ i, i ≠ a.head → mget {} b.ring i = mget {} a.ring i) ∧ b.head = (a.head + 1) % ringDepth s ∧
  b.seq = (a.seq + 1) % 256

/-- No watch plan is active on tile `k`'s core (05 R171). -/
def NoBank (s : State) (k : Nat) : Prop := activeBank (tileOf s k).core = []

/-- A request that is outstanding has been answered: from `u` to `t` its fragments are what was sent. -/
def Replied (u t : State) (h : ReqHdr) (st : Status) (body : List Byte) : Prop :=
  h ∈ u.sess.outstanding → h.session ≠ 65535 → sent t = sent u ++ fragmentsOf (mkResponse h st body)

/-- Snapshot `k`, which was being taken in `u`, has broken with a cause: its pond is BROKEN and the other one and CURRENT are
as they were, no tile is held awake for it, and its request is answered (11 R338, R352). -/
def SnapBroke (u t : State) (k : SnapTake) (cause : Nat) : Prop :=
  t.snap.take = none ∧ t.snap.cause = cause ∧ t.snap.broke = true ∧
  (∀ p, pondOf t p = if p = k.pond then { pondOf u p with state := 4, cause := cause } else pondOf u p) ∧
  t.snap.curValid = u.snap.curValid ∧ t.snap.curId = u.snap.curId ∧
  (∀ x, tileOf t x = { tileOf u x with power := { (tileOf u x).power with holdSnap := false } }) ∧
  (∀ h, k.reply = some h → Replied u t h .broken (detail { reason := 0x12, index := cause }))

/-- From `e` to `t` class `c` has been driven on the alarm tree, for 4 RCLK cycles, and no other class (02 R78). -/
def Driven (e t : State) (c : Nat) : Prop :=
  t.alarm = { e.alarm with wires := t.alarm.wires } ∧ (mget {} t.alarm.wires c).until_ = now e + 8 ∧
  ∀ b, b ≠ c → mget {} t.alarm.wires b = mget {} e.alarm.wires b

/-- The state in which the alarm root acts on classes `cs` that it accepts: their wires have been high for 2 RCLK cycles, and
their pulses count as accepted (02 R78). -/
def accepting (s : State) (cs : BitVec 16) : State :=
  onAlarm (fun a => { a with wires := mapAll {} (fun c w => if cs.getLsbD c then { w with taken := true } else w) a.wires })
    (elapse (acceptTime s cs) s)

/-- The header of a port request; none for an event (13 R411). -/
def requestHdr : Instr → Option ReqHdr
  | .sessionOpen h _ => some h
  | .grant h _ _ _ _ _ _ => some h
  | .sessionClose h => some h
  | .hubInfo h => some h
  | .statusRead h => some h
  | .statusReadClear h => some h
  | .nop h => some h
  | .centreReset h _ => some h
  | .powerState h _ => some h
  | .memRead h _ _ => some h
  | .memWrite h _ _ _ => some h
  | .springErase h _ _ => some h
  | .mcastWrite h _ _ _ _ => some h
  | .census h _ _ _ _ _ => some h
  | .agentReset h _ => some h
  | .timeExchange h _ _ => some h
  | .timeAdjust h _ => some h
  | .measureTime h _ => some h
  | .measureTimeRemark h _ => some h
  | .stillAt h _ _ => some h
  | .releaseAt h _ _ => some h
  | .stepTick h _ _ _ => some h
  | .stepCmd h _ _ _ _ => some h
  | .actionCancel h _ _ _ => some h
  | .regionSet h _ _ _ _ _ _ => some h
  | .stillQuery h => some h
  | .stillQueryRefresh h => some h
  | .alarmRearm h _ => some h
  | .watchLoad h _ _ _ => some h
  | .watchRemove h => some h
  | .foldLoad h _ _ => some h
  | .foldRead h _ _ => some h
  | .cntLoad h _ _ => some h
  | .cntFold h _ => some h
  | .stepDesc h _ _ => some h
  | .lcRead h _ => some h
  | .ledgerRead h _ => some h
  | .txnOpen h _ _ => some h
  | .txnAdd h _ _ => some h
  | .txnCommit h _ _ => some h
  | .txnRinse h _ => some h
  | .txnQuery h => some h
  | .fpRead h _ _ _ => some h
  | .fpCompare h _ _ _ _ => some h
  | .symLoad h _ _ => some h
  | .pmapLoad h _ _ => some h
  | .watchStatus h => some h
  | .watchReset h _ => some h
  | .watchDrain h _ _ _ => some h
  | .captureNow h _ => some h
  | .eddyRead h _ _ _ => some h
  | .traceLoad h _ _ => some h
  | .traceRemove h => some h
  | .traceRearm h => some h
  | .traceDrain h _ => some h
  | .traceStatus h _ _ => some h
  | .wfgBuild h => some h
  | .snapTake h _ _ _ => some h
  | .snapRestore h _ _ _ => some h
  | .snapDrain h _ _ _ => some h
  | .snapPlan h _ _ _ _ _ => some h
  | .snapPlanStop h => some h
  | .peerSet h _ _ _ => some h
  | .snapDrop h _ => some h
  | .snapQuery h => some h
  | .crashList h _ => some h
  | .recPolicy h _ _ _ => some h
  | .mendNow h _ => some h
  | .defectFlush h => some h
  | .lcTransition h _ _ => some h
  | .fwWrite h _ _ => some h
  | .fwCommit h _ => some h
  | _ => none

/-- The tile at which an event happens; none for a request and for an event elsewhere. -/
def eventTile : Instr → Option Nat
  | .timeMark tile _ _ => some tile
  | .stillWordCapture tile _ _ _ _ => some tile
  | .stillAct tile _ _ => some tile
  | .releaseAct tile _ => some tile
  | .pressAct tile => some tile
  | .pressApplyDone tile => some tile
  | .stubStillNoClock tile => some tile.1
  | .freezeSettled tile => some tile
  | .freezeNoack tile _ _ => some tile
  | .sramWrite tile _ => some tile
  | .descArrive tile _ => some tile
  | .lineDiscard tile => some tile
  | .descClose tile _ => some tile
  | .dipAccClose tile _ => some tile
  | .commandStart tile _ _ => some tile
  | .commandEnd tile _ => some tile
  | .contextSwitch tile _ _ => some tile
  | .contextLoad tile => some tile
  | .tileErrorEvent tile _ _ _ => some tile
  | .waitDescriptor tile _ _ => some tile
  | .hang tile => some tile
  | .cwdtExpiry tile => some tile
  | .stillCopyHoldEnd tile _ _ => some tile
  | .snoopFrameClose tile _ => some tile
  | .foldContrib tile _ _ => some tile
  | .stage tile _ => some tile
  | .rinse tile _ => some tile
  | .stageDeadline tile => some tile
  | .eddyFreezeTimeout tile => some tile
  | .eddyGap tile => some tile
  | .streamChunkSend tile _ => some tile
  | .eddyChunkArrive tile _ => some tile
  | .stillOnFullRaise tile => some tile
  | .imageCopyDone tile => some tile.1
  | .darkPendingRise tile _ => some tile
  | .darkPendingFall tile => some tile
  | .darkSaveTimeout tile => some tile
  | .corePwrFall tile => some tile
  | .corePwrRise tile => some tile
  | .coreTimeRebuilt tile => some tile.1
  | .thrRegionChange tile _ _ => some tile
  | .tclkResume tile => some tile.1
  | .planRestore tile _ => some tile
  | .stubRead tile _ => some tile
  | .stubWrite tile _ => some tile
  | .stubCensus tile _ => some tile
  | .fetch tile _ _ => some tile
  | .copyout tile _ _ => some tile
  | .coreTimeout tile _ => some tile
  | .vpendFall tile => some tile
  | _ => none

/-- Every addressed collection of the block is in canonical form: tiles, edge dies and shims, Spring, the Well and the OTP,
each with the value its unlisted entries read as (log 5). -/
def Canonical (s : State) : Prop :=
  mapsWf s ∧ mwf 0xFF s.xspi.spring = true ∧ mwf wellBlank s.xspi.well = true ∧ mwf 0 s.xspi.otp = true

/-- The sessions are as 13 R419 and R440 say: each of the port's has an identifier of its own from 1 to 65,534, the
mailbox's is 0xFFFF, and at most one session is intrusive. -/
def SessionsSound (s : State) : Prop :=
  (s.sess.sessions.map (·.id)).Nodup ∧ (∀ x ∈ s.sess.sessions, 1 ≤ x.id ∧ x.id ≤ 65534) ∧ s.sess.sessions.length ≤ 4096 ∧
  1 ≤ s.sess.nextSession ∧ s.sess.nextSession ≤ 65534 ∧ s.tap.session.id = 65535 ∧
  (s.sess.sessions.filter (·.intrusive)).length + (if s.tap.alive ∧ s.tap.session.intrusive = true then 1 else 0) ≤ 1

end Sys2Proof.Machine
end

