-- ==== Sys2Proof/Certificates/Slice0/Obligations.lean ====
section
/-! DEFINITION. The statements about the block that its proofs are to show. -/

open Sys2Proof Sys2Proof.Machine

/-! Sessions and hub requests -/

/-- 13 R419, R421. The order in which identifiers are tried is the model's (DESIGN CHOICE, log 55).
13 R419: the table's bound and the single intrusive session. -/
def Obligations.SessionOpenAnswers : Prop :=
  (∀ (s : State) (h : ReqHdr) (kind : Nat), AsAnyone s h → kind ≤ 1 → s.sess.sessions.length < 4096 →
     (kind = 1 → anyIntrusive s = false) →
     ∃ t x, exec (.sessionOpen h kind) s = .next t ∧ (∀ y ∈ s.sess.sessions, y.id ≠ x.id) ∧
       x.intrusive = decide (kind = 1 ∧ s.lc.code ≠ 2) ∧ x.granted = false ∧
       x.rights = (if kind = 1 ∧ s.lc.code ≠ 2 then 7 else 0) ∧
       x.nonce = (if kind = 1 ∧ s.lc.code = 2 then some (Config.entropy s.sess.entropy) else none) ∧
       x.nonceAt = now s ∧ x.lastSeen = now s ∧
       Answered { s with sess := { s.sess with
           sessions := s.sess.sessions ++ [x]
           nextSession := t.sess.nextSession
           entropy := if kind = 1 ∧ s.lc.code = 2 then s.sess.entropy + 1 else s.sess.entropy } } t 0x01 h .ok
         (le 2 x.id ++ (if kind = 1 ∧ s.lc.code = 2 then [1] else [0]) ++ zeros 5 ++
           (if kind = 1 ∧ s.lc.code = 2 then le 16 (Config.entropy s.sess.entropy).toNat else zeros 16))) ∧
  ((∀ (s : State) (h : ReqHdr), AsAnyone s h → 4096 ≤ s.sess.sessions.length →
     ∃ t, exec (.sessionOpen h 0) s = .next t ∧ Answered s t 0x01 h .busy (detail {})) ∧
   (∀ (s : State) (h : ReqHdr), AsAnyone s h → anyIntrusive s = true →
     ∃ t, exec (.sessionOpen h 1) s = .next t ∧ Answered s t 0x01 h .busy (detail { reason := 0x13 })))

/-- 13 R422. The signature check and the key digest are the model's functions `ecdsaOk`, `sha384` and `keyDigest` (log 12).
13 R420: what closing a session ends and what it leaves. -/
def Obligations.GrantsAndEndsOfSessions : Prop :=
  ((∀ (s : State) (h : ReqHdr) (nonce : BitVec 128) (rights x y r sg : Nat), AsObserver s h → rights % 2 = 1 → rights < 8 →
     nonceOk s h.session nonce = true → otpUsable s 0xE0 = true → keyDigest x y = otpField s 0xE0 48 →
     ecdsaOk (sha384 (grantMessage s nonce rights h.session)) x y r sg = true →
     (otherIntrusive s h.session = false →
       ∃ t, exec (.grant h nonce rights x y r sg) s = .next t ∧
         Answered { s with sess := { s.sess with sessions := s.sess.sessions.map (fun q =>
           if q.id = h.session then { q with intrusive := true, granted := true, rights := rights, nonce := none } else q) } }
           t 0x02 h .ok []) ∧
     (4 ≤ rights → s.txn.host = none → s.tap.alive = false → ∃ t, exec (.grant h nonce rights x y r sg) s = .next t ∧
       (∀ q ∈ t.sess.sessions, q.intrusive = true → q.id = h.session) ∧
       (∃ q ∈ t.sess.sessions, q.id = h.session ∧ q.intrusive = true ∧ q.granted = true ∧ q.rights = rights)) ∧
     (otherIntrusive s h.session = true → rights < 4 →
       ∃ t, exec (.grant h nonce rights x y r sg) s = .next t ∧ Answered s t 0x02 h .busy (detail { reason := 0x13 }))) ∧
   (∀ (s : State) (h : ReqHdr) (nonce : BitVec 128) (rights x y r sg : Nat), AsObserver s h → rights % 2 = 1 → rights < 8 →
     nonceOk s h.session nonce = false →
     ∃ t, exec (.grant h nonce rights x y r sg) s = .next t ∧
       Answered { s with sess := { s.sess with sessions := s.sess.sessions.map (fun q =>
         if q.id = h.session then { q with nonce := none } else q) } } t 0x02 h .denied (detail { reason := 0xD }))) ∧
  ((∀ (s : State) (h : ReqHdr), AsObserver s h →
     (∀ x, s.txn.host = some x → x.owner = h.session → x.committed = false) →
     ∃ t, exec (.sessionClose h) s = .next t ∧
       t.sess.sessions.map unstamped = (s.sess.sessions.filter (fun x => x.id != h.session)).map unstamped ∧
       sent t = sent s ++ fragmentsOf (mkResponse { h with opcode := 0x03 } .ok []) ∧
       (∀ x, t.txn.host = some x → x.owner ≠ h.session ∧ s.txn.host = some x) ∧
       { t with port := s.port, sess := s.sess, txn := s.txn, plans := s.plans } = s ∧ t.plans = (disown h.session s).plans) ∧
   (∀ (s : State) (n : Nat) (x : Session), s.sess.sessions.find? (fun y => y.id == n) = some x → n ≠ 65535 →
     (∀ y, s.txn.host = some y → y.owner = n → y.committed = false) → s.txn.pressed = false →
     ∃ t, exec (.sessionTimeout n) s = .next t ∧
       t.sess = { s.sess with sessions := s.sess.sessions.filter (fun y => y.id != n) } ∧
       (∀ y, t.txn.host = some y → y.owner ≠ n ∧ s.txn.host = some y) ∧
       { t with sess := s.sess, txn := s.txn, plans := s.plans, time := s.time } = s ∧ t.plans = (disown n s).plans ∧
       t.time = { s.time with hub := if s.time.running ∧ now s < x.lastSeen + s.port.sessTmo * 1000000000
         then (x.lastSeen + s.port.sessTmo * 1000000000) % 2 ^ 64 else s.time.hub }) ∧
   (∀ (s : State) (n : Nat) (p : WatchPlan), s.plans.watch = some p → (disown n s).plans.watch = some
     { p with owner := if p.owner = some n then none else p.owner }))

/-- 13 R426; 00 R11.
15 R474. -/
def Obligations.HubRequestsAnswer : Prop :=
  ((∀ (s : State) (h : ReqHdr), AsAnyone s h → ∃ t, exec (.hubInfo h) s = .next t ∧ Answered s t 0x04 h .ok
     (le 8 (skId s) ++ le 8 (skCap s) ++ hubUid s ++ le 2 s.cfg.engine ++ le 1 s.lc.code ++ le 1 0 ++ le 4 s.cfg.fwVersion)) ∧
   (∀ (s : State) (h : ReqHdr), AsObserver s h →
     (∃ t, exec (.statusRead h) s = .next t ∧
       Answered s t 0x05 h .ok (padTo 64 s.port.frame ++ le 8 s.port.events.toNat)) ∧
     (∃ t, exec (.statusReadClear h) s = .next t ∧
       Answered { s with port := { s.port with events := s.port.events &&& BitVec.ofNat 16 (keptW1c s 0x020) } } t 0x05 h .ok (padTo 64 s.port.frame ++ le 8 s.port.events.toNat)) ∧
     (∃ t, exec (.nop h) s = .next t ∧ Answered s t 0x06 h .ok []))) ∧
  ((∀ (s : State) (h : ReqHdr), AsIntrusive s h →
     (∃ t, exec (.powerState h 1) s = .next t ∧ Answered { s with boot := { s.boot with quiet := true, waking := false } } t 0x08 h .ok []) ∧
     (∃ t, exec (.powerState h 0) s = .next t ∧ Answered s t 0x08 h .ok []) ∧
     (∀ n, 1 < n → ∃ t, exec (.powerState h n) s = .next t ∧ Answered s t 0x08 h .malformed (detail { reason := 0x10 }))) ∧
   (∀ s : State, exec .returnToActiveDone s = .next { s with boot := { s.boot with waking := false } }))

/-! Reads and writes of the address spaces -/

/-- 16 R480, R496; 03 R87; 14 R443: what reads that the centre carries out itself answer.
16 R480, R482; 02 R60: how the requests to the tile spaces go out. -/
def Obligations.ReadsAnswerOrGoOut : Prop :=
  ((∀ (s : State) (h : ReqHdr) (o v : Nat), AsObserver s h → o % 8 = 0 → o < 0x1000 →
     centreReg { s with sess := { s.sess with outstanding := s.sess.outstanding ++ [{ h with opcode := 0x10 }] } } o = some v →
     ∃ t, exec (.memRead h o 8) s = .next t ∧ Answered s t 0x10 h .ok (le 8 v)) ∧
   (∀ (s : State) (h : ReqHdr), AsObserver s h →
     (∃ t, exec (.memRead h 0x100 4) s = .next t ∧
       Answered { s with time := { s.time with latch := now s / 2 ^ 32 } } t 0x10 h .ok (le 4 (now s))) ∧
     (∃ t, exec (.memRead h 0x104 4) s = .next t ∧ Answered s t 0x10 h .ok (le 4 s.time.latch))) ∧
   (∀ (s : State) (h : ReqHdr) (o n : Nat), AsObserver s h → 0 < n → n ≤ 8388608 →
     (o + n ≤ 67108864 → ∃ t, exec (.memRead h (6 * 2 ^ 56 + o) n) s = .next t ∧ Answered s t 0x10 h .ok (springRead s o n)) ∧
     (o + n ≤ 4096 → idkeyHidden s o n = false →
       ∃ t, exec (.memRead h (7 * 2 ^ 56 + o) n) s = .next t ∧ Answered s t 0x10 h .ok (otpField s o n)) ∧
     (o + n ≤ 4096 → idkeyHidden s o n = true →
       ∃ t, exec (.memRead h (7 * 2 ^ 56 + o) n) s = .next t ∧ Answered s t 0x10 h .denied (detail {})) ∧
     (o + n ≤ 16777216 → s.boot.wellAbsent = false →
       ∃ t, exec (.memRead h (5 * 2 ^ 56 + o) n) s = .next t ∧ Answered s t 0x10 h .ok (wellRead s o n)) ∧
     (o + n ≤ 16777216 → s.boot.wellAbsent = true →
       ∃ t, exec (.memRead h (5 * 2 ^ 56 + o) n) s = .next t ∧ Answered s t 0x10 h .timeout (detail {}))) ∧
   (∀ (s : State) (h : ReqHdr), AsObserver s h →
     ∃ t, exec (.memRead h (6 * 2 ^ 56) 0) s = .next t ∧ Answered s t 0x10 h .empty [])) ∧
  (∀ (s : State) (h : ReqHdr) (x y o : Nat), x < 768 → y < 480 →
     let a := fun sp => sp * 2 ^ 56 + 2 ^ 51 + x * 2 ^ 41 + y * 2 ^ 32 + o
     let op : RillOp := { tag := s.rill.nextTag, target := tileAt x y, offset := o, mapEpoch := s.mapEpoch, sentAt := now s }
     let sends := fun (t : State) (p : RillOp) =>
       t.rill = { s.rill with ops := s.rill.ops ++ [p], nextTag := (s.rill.nextTag + 1) % 32768, gated := t.rill.gated }
     (AsObserver s h → o % 8 = 0 → o < 0x5000 → (agentReg s (tileAt x y) o).isSome = true → agentAbsent s o = false →
       ∃ t, exec (.memRead h (a 2) 8) s = .next t ∧ Waits { s with rill := t.rill } t 0x10 h ∧
         sends t { op with op := 1, space := 2, length := 8, reply := some { h with opcode := 0x10 } }) ∧
     (∀ n, AsObserver s h → 0 < n → o + n ≤ 49152 →
       ∃ t, exec (.memRead h (a 3) n) s = .next t ∧ Waits { s with rill := t.rill } t 0x10 h ∧
         sends t { op with op := 1, space := 3, length := n, reply := some { h with opcode := 0x10 } }) ∧
     (∀ data ok, AsIntrusive s h → data ≠ [] → o + data.length ≤ 49152 → tileStill s (tileAt x y) = true →
       ∃ t, exec (.memWrite h (a 3) data ok) s = .next t ∧ Waits { s with rill := t.rill } t 0x11 h ∧
         sends t { op with op := 2, space := 3, data := data, reply := some { h with opcode := 0x11 } }))

/-- 16 R481, R487, R488; 13 R424; 14 R446; 00 R11.
16 R488: Spring operations. That a program clears bits and sets none is the model's (PRESUMED, log 47). -/
def Obligations.WritesAndSpringOperations : Prop :=
  (∀ (s : State) (h : ReqHdr), AsIntrusive s h →
     (∀ v ok, v < 2 ^ 16 → ∃ t, exec (.memWrite h 0x020 (le 8 v) ok) s = .next t ∧
       Answered { s with port := { s.port with events := s.port.events &&& ~~~(BitVec.ofNat 16 (v - (v &&& keptW1c s 0x020))) } } t 0x11 h .ok []) ∧
     (∀ v ok, 30 ≤ v → v ≤ 10000 → ∃ t, exec (.memWrite h 0x128 (le 8 v) ok) s = .next t ∧
       Answered { s with time := { s.time with rillTmo := v } } t 0x11 h .ok []) ∧
     (∀ v ok, 20 ≤ v → v ≤ 10000 → ∃ t, exec (.memWrite h 0x708 (le 8 v) ok) s = .next t ∧
       Answered { s with txn := { s.txn with stageTmo := v } } t 0x11 h .ok []) ∧
     (∀ v ok, v < 2 ^ 31 → ∃ t, exec (.memWrite h 0x808 (le 8 v) ok) s = .next t ∧
       Answered { s with snap := { s.snap with auto := v } } t 0x11 h .ok []) ∧
     (∀ v ok, 2 ^ 16 ≤ v → v < 2 ^ 24 → 30 ≤ v % 2 ^ 16 → v % 2 ^ 16 ≤ 10000 →
       ∃ t, exec (.memWrite h 0x128 (le 8 v) ok) s = .next t ∧
         Answered s t 0x11 h .malformed (detail { reason := 0x10, index := 18 })) ∧
     (∀ o data ok, data ≠ [] → o + data.length ≤ 16777216 → wellBusy s = true →
       ∃ t, exec (.memWrite h (5 * 2 ^ 56 + o) data ok) s = .next t ∧
         Waits { s with xspi := { s.xspi with
           wellWaits := s.xspi.wellWaits ++ [{ offset := o, bytes := data, reply := some { h with opcode := 0x11 } }] } } t 0x11 h) ∧
     (∀ o data ok, data ≠ [] → o + data.length ≤ 16777216 → s.boot.wellAbsent = false → wellBusy s = false →
       ∃ t, exec (.memWrite h (5 * 2 ^ 56 + o) data ok) s = .next t ∧ Answered { s with xspi := t.xspi } t 0x11 h .ok [] ∧
         t.xspi = { s.xspi with well := t.xspi.well } ∧
         (∀ i, i < data.length → wellRead t (o + i) 1 = [data.getD i 0]) ∧
         (∀ i, i < o ∨ o + data.length ≤ i → wellRead t i 1 = wellRead s i 1)) ∧
     (∀ o data, o ∈ otpFields s → data.length = 48 → otpBlank s o 48 = true → s.lc.junctionHot = false →
       ∃ t, exec (.memWrite h (7 * 2 ^ 56 + o) data true) s = .next t ∧
         Answered { elapse (now s + 10000 * otpBits o data s) s with xspi := t.xspi } t 0x11 h .ok [] ∧
         t.xspi = { s.xspi with otp := t.xspi.otp } ∧ otpField t o 48 = data ∧
         (∀ i, i < o ∨ o + 48 ≤ i → otpField t i 1 = otpField s i 1))) ∧
  ((∀ (s : State) (h : ReqHdr) (a n : Nat), WithSpring s h → a % 65536 = 0 → n % 65536 = 0 → 0 < n → a + n ≤ 67108864 →
     ∃ t, exec (.springErase h a n) s = .next t ∧ Waits { s with xspi := t.xspi } t 0x12 h ∧
       t.xspi = { s.xspi with pending := t.xspi.pending, owner := if wellBusy s then s.xspi.owner else 1 } ∧
       t.xspi.pending.map (fun p => (p.erase, p.offset)) = s.xspi.pending.map (fun p => (p.erase, p.offset)) ++
         (List.range (n / 65536)).map (fun i => (true, a + 65536 * i)) ∧
       t.xspi.pending.getLast?.bind (·.reply) = some { h with opcode := 0x12 }) ∧
   (∀ (s : State) (h : ReqHdr) (a : Nat) (data : List Byte) (ok : Bool), WithSpring s h → data ≠ [] → a + data.length ≤ 67108864 →
     overlap a data.length (partOf s 1).offset (partOf s 1).size = false → (∀ b ∈ springRead s a data.length, b = 0xFF) →
     a % pageBytes s + data.length ≤ pageBytes s →
     ∃ t, exec (.memWrite h (6 * 2 ^ 56 + a) data ok) s = .next t ∧ Waits { s with xspi := t.xspi } t 0x11 h ∧
       t.xspi = { s.xspi with
         pending := s.xspi.pending ++ [{ offset := a, bytes := data, last := true, reply := some { h with opcode := 0x11 } }]
         owner := if wellBusy s then s.xspi.owner else 1 }) ∧
   (∀ (s : State) (p : SpringOp) (r : List SpringOp), s.xspi.pending = p :: r → s.xspi.owner = 1 → p.reply = none →
     s.xspi.wellWaits = [] →
     ∃ t, exec .springOperationDone s = .next t ∧ { t with xspi := s.xspi } = s ∧
       t.xspi = { s.xspi with pending := r, owner := if wellBusy s ∨ r = [] then 0 else 1, spring := t.xspi.spring } ∧
       (p.erase = true → (∀ i, p.offset ≤ i → i < p.offset + 65536 → springRead t i 1 = [0xFF]) ∧
         (∀ i, i < p.offset ∨ p.offset + 65536 ≤ i → springRead t i 1 = springRead s i 1)) ∧
       (p.erase = false → (∀ i, i < p.bytes.length →
           springRead t (p.offset + i) 1 = (springRead s (p.offset + i) 1).map (fun b => b &&& p.bytes.getD i 0)) ∧
         (∀ i, i < p.offset ∨ p.offset + p.bytes.length ≤ i → springRead t i 1 = springRead s i 1))) ∧
   (∀ (s : State) (p : SpringOp) (h : ReqHdr) (l : List ReqHdr), s.xspi.pending = [p] → s.xspi.owner = 1 →
     s.xspi.wellWaits = [] → p.reply = some h → h.session ≠ 65535 → s.sess.outstanding = l ++ [h] → (∀ o ∈ l, o.session = h.session → o.tag ≠ h.tag) →
     ∃ t, exec .springOperationDone s = .next t ∧ sent t = sent s ++ fragmentsOf (mkResponse h .ok []) ∧
       t.sess.outstanding = l ∧ t.xspi.pending = [] ∧ t.xspi.owner = 0) ∧
   (∀ (s : State) (p : SpringOp) (r : List SpringOp) (w : WellWait), s.xspi.pending = p :: r → s.xspi.owner = 1 → p.reply = none →
     wellBusy s = false → s.boot.wellAbsent = false → s.xspi.wellWaits = [w] →
     ∃ t, exec .springOperationDone s = .next t ∧ t.xspi.pending = r ∧ t.xspi.wellWaits = [] ∧
       (∀ i, i < w.bytes.length → wellRead t (w.offset + i) 1 = [w.bytes.getD i 0]) ∧
       (∀ h, w.reply = some h → Replied s t h .ok [])) ∧
   (∀ s : State, s.xspi.pending = [] ∨ s.xspi.owner ≠ 1 → exec .springOperationDone s = .next s))

/-- 13 R426; 15 R472. -/
def Obligations.MulticastAndAgentReset : Prop :=
  (∀ (s : State) (h : ReqHdr) (d : TileSet) (o : Nat) (data : List Byte), AsIntrusive s h → setBad d = false →
    members s d ≠ [] → 8 ≤ data.length → data.length ≤ 64 → o + data.length ≤ 49152 →
    ∃ t, exec (.mcastWrite h d 3 o data) s = .next t ∧ Waits { s with rill := t.rill } t 0x13 h ∧
      t.rill = { s.rill with
        nextTag := (s.rill.nextTag + 1) % 32768
        gated := t.rill.gated
        ops := s.rill.ops ++ [{
          tag := s.rill.nextTag
          op := 2
          multi := true
          set := d
          space := 3
          offset := o
          data := data
          mapEpoch := s.mapEpoch
          sentAt := now s
          reply := some { h with opcode := 0x13 } }] }) ∧
  (∀ (s : State) (h : ReqHdr) (d : TileSet) (o test : Nat) (mask value : Word), AsObserver s h → setBad d = false →
    members s d ≠ [] → o % 8 = 0 → (agentReg s 0 o).isSome = true → agentAbsent s o = false → test ≤ 5 →
    ∃ t, exec (.census h d o mask value test) s = .next t ∧ Waits { s with rill := t.rill } t 0x14 h ∧
      t.rill = { s.rill with
        nextTag := (s.rill.nextTag + 1) % 32768
        gated := t.rill.gated
        ops := s.rill.ops ++ [{
          tag := s.rill.nextTag
          op := 5
          multi := true
          set := d
          offset := o
          mask := mask
          value := value
          test := test
          mapEpoch := s.mapEpoch
          sentAt := now s
          reply := some { h with opcode := 0x14 } }] }) ∧
  (∀ (s : State) (h : ReqHdr) (x y : Nat), AsIntrusive s h → x < 768 → y < 480 →
    let c := tileOf s (tileAt x y)
    c.power.answers = true → coreDark c = false →
    (stagedHeld c = false → ∃ t, exec (.agentReset h (2 * 2 ^ 56 + 2 ^ 51 + x * 2 ^ 41 + y * 2 ^ 32)) s = .next t ∧
      sent t = sent s ++ fragmentsOf (mkResponse { h with opcode := 0x15 } .ok []) ∧
      (tileOf t (tileAt x y)).core = {
        cmd := c.core.cmd
        cmdSeq := c.core.cmdSeq
        cmdBusy := c.core.cmdBusy
        dip := { maxStep := c.core.dip.maxStep }
        count := { run := c.core.count.run, cleared := true } } ∧
      (tileOf t (tileAt x y)).power = { c.power with ready := false } ∧
      (tileOf t (tileAt x y)).plan.reload = (c.plan.reload || takesPlan c) ∧
      (c.still.heldRel = [] → (tileOf t (tileAt x y)).still.frz = (c.still.mask != 0)) ∧ (tileOf t (tileAt x y)).txn = { c.txn with void := c.txn.void || c.txn.hold } ∧
      (tileOf t (tileAt x y)).engine = c.engine ∧ (∀ u, u ≠ tileAt x y → tileOf t u = tileOf s u)) ∧
    (stagedHeld c = true → ∃ t, exec (.agentReset h (2 * 2 ^ 56 + 2 ^ 51 + x * 2 ^ 41 + y * 2 ^ 32)) s = .next t ∧
      Answered s t 0x15 h .busy (detail {})))

/-! Hub time, alignment and clock sources -/

/-- 03 R84. That an empty queue is one HCLK cycle, and that a command carries the time it stands for, is the model's (DESIGN
CHOICE, logs 1 and 2).
03 R94.
03 R88 to R90. `raiseClass 7` is the acceptance of class 7 by the alarm root, which AlarmAccepts states. -/
def Obligations.TimeMoves : Prop :=
  ((∀ s : State, s.pending = [] → ∃ t, step s = .next t ∧
     now t = if s.time.running then (now s + 1) % 2 ^ 64 else now s) ∧
   (∀ s : State, s.txn.pressed = false ∨ s.txn.centreDone = true → s.pending = [] → s.rill.flows = [] →
     (∀ w ∈ s.rill.weirs, weirBusy w.2 = false) →
     step s = .next (if s.time.running then { s with time := { s.time with hub := (s.time.hub + 1) % 2 ^ 64 } } else s)) ∧
   (∀ (s : State) (n : Nat), s.txn.pressed = false ∨ s.txn.centreDone = true →
     elapse n s = if s.time.running ∧ now s < n then { s with time := { s.time with hub := n % 2 ^ 64 } } else s) ∧
   (∀ (s : State) (n : Nat), n < 2 ^ 64 → s.time.running = true → now (elapse n s) = max (now s) n) ∧
   (∀ (s : State) (n : Nat), let t := elapse n s
     t.tiles = s.tiles ∧ t.sess = s.sess ∧ t.snap = s.snap ∧ t.root = s.root ∧ t.recov = s.recov ∧ t.xspi = s.xspi ∧
       t.rill = s.rill ∧ t.shims = s.shims ∧ t.edges = s.edges ∧ t.pending = s.pending ∧ sent t = sent s)) ∧
  ((∀ (s : State) (m : Nat), s.time.markTick = some m → ∃ t, exec .timeMarkLaunch s = .next t ∧
     (let e := elapse m s
      t = { e with time := { e.time with markTick := none, markAt := m }, root := { e.root with lastLaunch := m } })) ∧
   (∀ s : State, s.time.markTick = none → exec .timeMarkLaunch s = .next s) ∧
   (∀ (s : State) (k word : Nat) (p0 p1 : Bool), s.rill.inService = true → k < numTiles →
     let d := mget 0 s.time.fieldDelay (fieldOf k)
     let e := elapse (s.time.markAt + (d + 7) / 8) s
     let x := tileOf s k
     let parity := parityOk (word % 2 ^ 48) p0 p1
     let ok := parity && x.time.armedHi && x.time.armedComp
     ∃ t, exec (.timeMark k word (p0, p1)) s = .next t ∧ { t with tiles := e.tiles } = e ∧
       (∀ u, u ≠ k → tileOf t u = tileOf s u) ∧
       (tileOf t k).time = { x.time with
         off8 := if ok then ((8 * (x.time.hi * 2 ^ 32 + word % 2 ^ 32 : Int) + x.time.comp - (8 * s.time.markAt + d)) %
           (2 ^ 67 : Int)).toNat else x.time.off8
         unset := !ok
         compAtMark := if ok then x.time.comp else x.time.compAtMark
         armedHi := false
         armedComp := false
         marking := false } ∧
       { tileOf t k with time := x.time, still := x.still, eddy := x.eddy, hang := x.hang } = x ∧
       (tileOf t k).hang = { x.hang with elapsed := (tileOf t k).hang.elapsed, since := (tileOf t k).hang.since } ∧
       (tileOf t k).still = { x.still with missed := !parity })) ∧
  ((∀ s : State, s.time.flockEn = true → s.time.flock = 1 ∨ s.time.flock = 3 →
     exec .flockLocked s = .next { s with time := { s.time with flock := 2, holdSince := none } }) ∧
   (∀ s : State, s.time.flockEn = false ∨ (s.time.flock ≠ 1 ∧ s.time.flock ≠ 3) → exec .flockLocked s = .next s) ∧
   (∀ s : State, s.time.flock = 2 →
     exec .flockHold s = .next { s with
       time := { s.time with flock := 3, holdSince := some s.time.hub }
       port := if s.port.blockLock then { s.port with blockLock := false, lockLostAt := s.time.hub } else s.port }) ∧
   (∀ s : State, s.time.flock ≠ 2 → exec .flockHold s = .next s) ∧
   (∀ (s : State) (n : Nat), s.time.holdSince = some n → s.time.flock = 3 →
     (s.time.align ≠ 2 → ∃ e, e = elapse (n + 1000001) s ∧
       exec .flockHoldTimeout s = .next { e with time := { e.time with holdSince := none } }) ∧
     (s.time.align = 2 → ∃ e r, e = elapse (n + 1000001) s ∧ r = raiseClass 7 { e with time := { e.time with align := 3 } } ∧
       exec .flockHoldTimeout s = .next { r with time := { r.time with holdSince := none } })) ∧
   (∀ s : State, exec .refclkLoss s =
     .next (raiseClass 7 { s with time := { s.time with holdover := true, align := if s.time.align = 2 then 3 else s.time.align } })) ∧
   (∀ s : State, exec .refclkReturn s = .next { s with time := { s.time with holdover := false } }))

/-- 03 R99, R101. That a latency of the PORT block is in eighths of a nanosecond and rounds to the nearest is the model's (log
108).
03 R92, R93, R103. -/
def Obligations.TimeIsAdjustedAndMeasured : Prop :=
  ((∀ (s : State) (h : ReqHdr) (rx tx : Nat), AsObserver s h → ∃ t, exec (.timeExchange h rx tx) s = .next t ∧
     Answered (elapse tx s) t 0x20 h .ok (le 8 (min rx (now s) - portLatency (if s.port.fecActive then s.cfg.rxFec else s.cfg.rxNoFec)) ++
       le 8 (now (elapse tx s) + portLatency (if s.port.fecActive then s.cfg.txFec else s.cfg.txNoFec)))) ∧
   (∀ (s : State) (h : ReqHdr) (c : Int), AsIntrusive s h → c ≠ 0 → s.time.steering = false →
     (mayStep s = true → ∃ t, exec (.timeAdjust h c) s = .next t ∧
       sent t = sent s ++ fragmentsOf (mkResponse { h with opcode := 0x21 } .ok [0]) ∧
       t.time = { s.time with hub := ((s.time.hub + c) % (2 ^ 64 : Int)).toNat, stepped := true, align := 2, markTick := t.time.markTick } ∧
       t.time.markTick.isSome = true ∧
       (∀ k, k < numTiles → stub8 t k = stub8 s k ∧
         { tileOf t k with time := (tileOf s k).time, plan := { (tileOf t k).plan with lcBase := (tileOf s k).plan.lcBase } } =
           tileOf s k) ∧
       { t with time := s.time, tiles := s.tiles, census := s.census, port := s.port, sess := s.sess } = s) ∧
     (mayStep s = false → c.natAbs ≤ 100000 → ∃ t, exec (.timeAdjust h c) s = .next t ∧
       Answered { s with time := { s.time with steering := true, steerRemain := c, steerFrom := s.time.hub, steerAcc := 0 } } t 0x21 h .ok [1]) ∧
     (mayStep s = false → 100000 < c.natAbs → ∃ t, exec (.timeAdjust h c) s = .next t ∧
       Answered s t 0x21 h .refused (detail { reason := 0x12 }))) ∧
   (∀ (s : State) (h : ReqHdr) (c : Int), AsIntrusive s h → s.time.steering = true → ∃ t, exec (.timeAdjust h c) s = .next t ∧
     Answered s t 0x21 h .busy (detail {})) ∧
   (∀ s : State, s.time.steering = true → ∃ t, exec .steerDone s = .next t ∧
     (let e := elapse (s.time.steerFrom +
        (s.time.steerRemain.natAbs * 1000000 - s.time.steerAcc + s.time.steerPpm - 1) / s.time.steerPpm) s
      t = { e with time := { e.time with steering := false, steerRemain := 0, steerAcc := 0, align := 2 } })) ∧
   (∀ s : State, s.time.steering = false → exec .steerDone s = .next s)) ∧
  (∀ (s : State) (h : ReqHdr) (echo : List (Nat × Nat)), AsIntrusive s h →
     let ns := fun f => (echo.filter (fun e => e.1 == f)).map (·.2)
     let d := fun f => if ns f = [] then mget 0 s.time.fieldDelay f else (2 * median2 (ns f) + mget 0 s.cfg.fanout f) % 65536
     let ds := (List.range 48).map d
     let ls := 8 * ((ds.foldl max 0 + 64 + 63) / 64)
     let answer := le 4 ls ++ ds.flatMap (le 4)
     ((∀ f, f < 48 → d f ≤ 720) → ∃ t, exec (.measureTime h echo) s = .next t ∧
       Answered { s with time := t.time, rill := { s.rill with overLat := [] }, port := { s.port with w1c := t.port.w1c, w1cAt := t.port.w1cAt } } t 0x22 h .ok answer ∧
       t.time = { s.time with fieldDelay := t.time.fieldDelay, lstill := ls, drift := t.time.drift } ∧
       (∀ f, f < 48 → mget 0 t.time.fieldDelay f = d f)) ∧
     ((s.root.wstate ≠ 3 ∨ s.root.queue ≠ []) → ∃ t, exec (.measureTimeRemark h echo) s = .next t ∧
       Answered s t 0x22 h .refused (detail { reason := 0x12 })) ∧
     (s.root.wstate = 3 → s.root.queue = [] → (∀ f, f < 48 → d f ≤ 720) →
       ∃ t, exec (.measureTimeRemark h echo) s = .next t ∧
         sent t = sent s ++ fragmentsOf (mkResponse { h with opcode := 0x22 } .ok answer) ∧ t.time.lstill = ls ∧
         t.time.markTick.isSome = true ∧ (∀ f, f < 48 → mget 0 t.time.fieldDelay f = d f) ∧
         (∀ k, k < numTiles → (tileOf s k).power.answers = true →
           (tileOf t k).time.armedHi = true ∧ (tileOf t k).time.armedComp = true ∧ (tileOf t k).time.comp = d (fieldOf k)) ∧
         (∀ k, k < numTiles → { tileOf t k with time := (tileOf s k).time } = tileOf s k) ∧
         { t with time := s.time, tiles := s.tiles, rill := s.rill, port := s.port, sess := s.sess } = s))

/-! Stilling and stepping -/

/-- 04 R113 to R121.
04 R115, R118; 03 R94. -/
def Obligations.StillAndReleaseQueue : Prop :=
  (∀ (s : State) (h : ReqHdr) (tick scope : Nat), AsIntrusive s h →
     (scope = 0 ∨ (scope < 15 ∧ regionState s = true ∧ (regionOf s scope).valid = true)) →
     s.root.queue.length < 64 → s.root.stepKind = 0 → recBusy s = false →
     let lo := now s + s.time.lstill
     let free := fun kind n => n ≤ now s + 2 ^ 40 ∧ crowded s n = false ∧ conflicts s kind scope n = false
     let queued := fun kind n (t : State) =>
       Answered { s with root := { s.root with
         queue := insertAction { kind := kind, scope := scope, tick := n, launchAt := n - s.time.lstill, origin := 0 } s.root.queue
         wstate := if kind = 1 ∧ scope = 0 ∧ s.root.wstate = 0 then 1 else s.root.wstate } } t (0x2F + kind) h .ok (le 8 n)
     (inForce s scope = false → queuedStill s scope = false →
       (lo ≤ tick → free 1 tick → ∃ t, exec (.stillAt h tick scope) s = .next t ∧ queued 1 tick t) ∧
       (tick < lo → h.atEarliest = true → free 1 lo → ∃ t, exec (.stillAt h tick scope) s = .next t ∧ queued 1 lo t) ∧
       (tick < lo → h.atEarliest = false → ∃ t, exec (.stillAt h tick scope) s = .next t ∧ Answered s t 0x30 h .late (detail {}))) ∧
     ((inForce s scope = true ∨ queuedStill s scope = true) → holdsStill s scope = false →
       (lo ≤ tick → free 2 tick → laterStill s scope tick = false →
         ∃ t, exec (.releaseAt h tick scope) s = .next t ∧ queued 2 tick t) ∧
       (tick < lo → h.atEarliest = true → free 2 lo → laterStill s scope lo = false →
         ∃ t, exec (.releaseAt h tick scope) s = .next t ∧ queued 2 lo t) ∧
       (tick < lo → h.atEarliest = false →
         ∃ t, exec (.releaseAt h tick scope) s = .next t ∧ Answered s t 0x31 h .late (detail {})))) ∧
  (∀ (s : State) (lo : Nat), s.root.queue.length ≤ 64 → s.time.lstill ≤ lo →
     let n := firstTick s lo
     lo ≤ n ∧ (∀ a ∈ s.root.queue, n + 8 ≤ a.tick ∨ a.tick + 8 ≤ n) ∧
     (∀ m, s.time.markTick = some m → n - s.time.lstill + 8 ≤ m ∨ m + 8 ≤ n - s.time.lstill) ∧
     (∀ k, lo ≤ k → k < n → (∃ a ∈ s.root.queue, a.tick < k + 8 ∧ k < a.tick + 8) ∨
       (∃ m, s.time.markTick = some m ∧ m < k - s.time.lstill + 8 ∧ k - s.time.lstill < m + 8)))

/-- 04 R145 to R148. -/
def Obligations.StepsQueue : Prop :=
  ∀ (s : State) (h : ReqHdr) (tick scope n k limit : Nat), AsIntrusive s h →
    (scope = 0 ∨ (scope < 15 ∧ regionState s = true ∧ (regionOf s scope).valid = true)) →
    s.root.queue.length < 63 → s.root.stepKind = 0 → recBusy s = false → holdsStill s scope = false → declared s scope = true →
    queuedStill s scope = false →
    let free := fun gap => tick + gap ≤ now s + 2 ^ 40 ∧ crowded s tick = false ∧ crowded s (tick + gap) = false ∧
      conflicts s 2 scope tick = false ∧ conflicts s 1 scope (tick + gap) = false
    let rel : StillAction := { kind := 2, scope := scope, tick := tick, launchAt := tick - s.time.lstill, origin := 2 }
    let still := fun gap =>
      ({ kind := 1, scope := scope, tick := tick + gap, launchAt := tick + gap - s.time.lstill, origin := 2 } : StillAction)
    let stepped := fun kind gap k => { s.root with
      queue := insertAction (still gap) (insertAction rel s.root.queue)
      wstate := if scope = 0 ∧ s.root.wstate = 0 then 1 else s.root.wstate
      stepKind := kind
      stepScope := scope
      stepReleased := false
      stepClose := tick + gap
      stepK := k }
    (n % 2 = 0 → 8 ≤ n → n ≤ 2147483646 → now s + s.time.lstill ≤ tick → free n →
      ∃ t, exec (.stepTick h tick scope n) s = .next t ∧
        Answered { s with root := stepped 1 n 0 } t 0x32 h .ok (le 8 tick ++ le 8 (tick + n))) ∧
    (1 ≤ k → k ≤ 255 → 1 ≤ limit → limit ≤ 1000000 → now s + 20000 ≤ tick → free (limit * 1000) →
      ((∀ u ∈ scopeTiles s scope, (tileOf s u).power.answers = true ∧ (tileOf s u).time.unset = false) → ∃ t, exec (.stepCmd h tick scope k limit) s = .next t ∧
        Answered { s with root := stepped 2 (limit * 1000) k, tiles := t.tiles } t 0x33 h .ok
          (le 8 tick ++ le 8 (tick + limit * 1000)) ∧
        (∀ u, u < numTiles → tileOf t u = if u ∈ scopeTiles s scope
          then { tileOf s u with still := { (tileOf s u).still with stepK := k } } else tileOf s u)) ∧
      ((∃ u ∈ scopeTiles s scope, counts (tileOf s u) = false) → ∃ t, exec (.stepCmd h tick scope k limit) s = .next t ∧
        Answered { s with tiles := t.tiles } t 0x33 h .timeout (detail {})))

/-- 04 R117, R118. That the centre's own actions wait for room is the model's (DESIGN CHOICE, log 110), as is STEP_K's end
(log 80).
04 R110, R112; 13 R427. -/
def Obligations.CancelsRegionsAndQueries : Prop :=
  (∀ (s : State) (h : ReqHdr) (tick scope kind : Nat), AsIntrusive s h → kind = 1 ∨ kind = 2 →
     (scope = 0 ∨ (scope < 15 ∧ regionState s = true ∧ (regionOf s scope).valid = true)) →
     let named := s.root.queue.find? (fun a => a.kind == kind && a.scope == scope && a.tick == tick)
     let wst := fun (q : List StillAction) =>
       if s.root.wstate = 1 ∧ q.any (fun b => b.kind == 1 && b.scope == 0) = false then 0 else s.root.wstate
     (∀ a, named = some a → a.origin ≠ 2 → ∃ t q, exec (.actionCancel h tick scope kind) s = .next t ∧
       q = s.root.queue.filter (fun b => b != a) ∧
       Answered (pumpOwn { s with root := { s.root with queue := q, wstate := wst q } }) t 0x34 h .ok []) ∧
     (∀ a, named = some a → a.origin = 2 → mapsWf s → kind = 2 → s.root.stepReleased = false →
       ∃ t q, exec (.actionCancel h tick scope kind) s = .next t ∧ q = s.root.queue.filter (fun b => b.origin != 2) ∧
         Answered (pumpOwn { s with tiles := t.tiles, root := { s.root with queue := q, wstate := wst q, stepKind := 0 } }) t 0x34 h .ok [] ∧
         (∀ k, tileOf t k = if s.root.stepKind = 2 ∧ (tileOf s k).power.answers = true
           then { tileOf s k with still := { (tileOf s k).still with stepK := 0 } } else tileOf s k)) ∧
     (∀ a, named = some a → a.origin = 2 → kind = 1 ∨ s.root.stepReleased = true →
       ∃ t, exec (.actionCancel h tick scope kind) s = .next t ∧ Answered s t 0x34 h .refused (detail { reason := 0x12 })) ∧
     (named = none → ∃ t, exec (.actionCancel h tick scope kind) s = .next t ∧
       Answered s t 0x34 h .refused (detail { reason := 0x12 }))) ∧
  ((∀ (s : State) (h : ReqHdr) (n a b c d : Nat) (valid : Bool), AsIntrusive s h → mapsWf s → 1 ≤ n → n ≤ 14 → a ≤ b → c ≤ d →
     b ≤ 719 → d ≤ 479 →
     (regionState s = true → inForce s n = false → queuedStill s n = false → s.root.stepKind = 0 → holdsIdent s = false →
       let r : Region := { valid := valid, lx0 := a, lx1 := b, ly0 := c, ly1 := d }
       let member := fun (x : Tile) => valid && x.txn.ltnValid && inRect r x.txn.ltn
       let bits := fun (x : Tile) =>
         if member x then x.still.region ||| (1 <<< n) else x.still.region &&& ~~~((1 : BitVec 16) <<< n)
       let set := fun (x : Tile) =>
         if x.power.answers = true then { x with still := { x.still with region := bits x } } else x
       (valid = false ∨ (s.tiles.filter (fun p => counts p.2 && (set p.2).still.region.getLsbD n)).length = rectCount r →
         ∃ t, exec (.regionSet h n valid a b c d) s = .next t ∧
           Answered { s with tiles := t.tiles, root := { s.root with regions := t.root.regions } } t 0x35 h .ok [] ∧
           (∀ k, tileOf t k = set (tileOf s k)) ∧
           (∀ m, regionOf t m = if m = n then (if valid then r else {}) else regionOf s m))) ∧
     (regionState s = false → ∃ t, exec (.regionSet h n valid a b c d) s = .next t ∧ Answered s t 0x35 h .denied (detail {}))) ∧
   (∀ (s : State) (h : ReqHdr), AsObserver s h →
     let r := s.root
     let body := le 8 (stillReg s) ++ le 8 r.stillT ++ le 4 r.selfStilled ++ le 4 r.blocked ++ le 4 r.idle ++
       le 4 r.stragglers.length ++ r.stragglers.flatMap (stragBytes s) ++ le 4 r.discarded.length ++
       r.discarded.flatMap (fun a => padTo 16 (le 8 a.tick ++ le 1 a.kind ++ le 1 a.scope))
     (∃ t, exec (.stillQuery h) s = .next t ∧ Answered s t 0x36 h .ok body) ∧
     (s.root.confirm = [] → s.root.wstate ≠ 3 → s.root.wstate ≠ 4 →
       ∃ t, exec (.stillQueryRefresh h) s = .next t ∧ Answered s t 0x36 h .ok body)))

/-- 04 R118, R129, R138; 02 R80. That a RELEASE takes its effect at the centre at launch is the model's (DESIGN CHOICE, log
17), as is what waits for room (log 110). -/
def Obligations.ActionsLaunch : Prop :=
  (∀ s : State, s.root.queue = [] → exec .actionLaunch s = .next s) ∧
  (∀ (s : State) (a : StillAction) (q : List StillAction), s.root.queue = a :: q → s.txn.tstate ≠ 3 → s.txn.pressed = false →
    let e := elapse (edgeUp (max a.launchAt (s.root.lastLaunch + 4))) s
    (a.kind = 1 → a.origin ≠ 4 → ∃ t, exec .actionLaunch s = .next (pumpOwn t) ∧
      { t with root := e.root, alarm := e.alarm } = e ∧ t.root.queue = q ∧ t.root.waiting = s.root.waiting ∧
      t.alarm = (if a.origin = 1 then s.alarm else { s.alarm with running := s.alarm.running.map (fun r =>
        if r.scope = a.scope then { r with issued := false } else r) }) ∧
      t.root.lastLaunch = now e ∧ t.root.confirm = s.root.confirm ++ [{ act := { a with launchAt := now e } }] ∧
      { a with launchAt := now e } ∈ t.root.launched ∧ t.root.wstate = (if a.scope = 0 then 2 else s.root.wstate) ∧
      t.root.regionsStill = s.root.regionsStill ∧ t.root.stragglers = s.root.stragglers ∧ t.root.regions = s.root.regions) ∧
    (a.kind = 3 → ∃ t, exec .actionLaunch s = .next (pumpOwn t) ∧ { t with root := e.root, txn := e.txn } = e ∧ t.root.queue = q ∧
      t.root.waiting = s.root.waiting ∧ t.txn = { e.txn with pressed := true, tstate := 4, t := a.tick } ∧ t.root.wstate = s.root.wstate) ∧
    (a.kind = 2 → a.scope = 0 → a.origin ≠ 2 → s.snap.take = none → s.recov.phase ≠ 5 →
      ∃ t, exec .actionLaunch s = .next (pumpOwn t) ∧ t.root.queue = q ∧ t.root.waiting = s.root.waiting ∧ t.root.wstate = 0 ∧ t.root.regionsStill = 0 ∧
        t.root.stragglers = [] ∧ t.root.confirm = [] ∧ t.port.events.getLsbD 1 = true ∧ sent t = sent s ∧
        { t with root := e.root, port := e.port, alarm := e.alarm } = e ∧
        t.alarm = { s.alarm with running := t.alarm.running, next := t.alarm.next })) ∧
  (∀ s : State, s.root.waiting = [] ∨ 64 ≤ s.root.queue.length → pumpOwn s = s) ∧
  (∀ (s : State) (w : StillAction) (r : List StillAction), s.root.waiting = w :: r → s.root.queue.length < 64 →
    let n := firstTick s (max w.tick (now s + s.time.lstill))
    pumpOwn s = { s with root := { s.root with
      waiting := r
      queue := insertAction { kind := w.kind, scope := w.scope, tick := n, launchAt := n - s.time.lstill, origin := w.origin } s.root.queue
      wstate := if w.kind = 1 ∧ w.scope = 0 ∧ s.root.wstate = 0 then 1 else s.root.wstate } })

/-- 02 R80, R81; 04 R155; 06 R199.
04 R108, R122, R140, R141. -/
def Obligations.StillsReachTheTile : Prop :=
  (∀ (s : State) (k head lo : Nat) (p0 p1 : Bool), s.rill.inService = true → k < numTiles →
     let word := wireWord head lo
     let action := word % 2 ^ 48 / 2 ^ 45
     let scope := word % 2 ^ 45 / 2 ^ 41
     let sound := parityOk (word % 2 ^ 48) p0 p1
     let e := elapse (arrival s k action scope (word % 2 ^ 32)) s
     let x := tileOf s k
     let n := widen32 (stubNow e k) (word % 2 ^ 32)
     let arrived := fun (t : State) => OnlyTile e t k ∧
       { tileOf t k with still := x.still, txn := x.txn, eddy := x.eddy } = x
     let act : StillAction := { kind := action, scope := scope, tick := n, late := decide (n < stubNow e k) }
     (sound = false → ∃ t, exec (.stillWordCapture k head lo p0 p1) s = .next t ∧ arrived t ∧
       (tileOf t k).still = { x.still with missed := true } ∧ (tileOf t k).txn = x.txn) ∧
     (sound = true → inScope x scope = true → action = 1 ∨ action = 2 → ∃ t, exec (.stillWordCapture k head lo p0 p1) s = .next t ∧
       arrived t ∧ (tileOf t k).txn = x.txn ∧
       (tileOf t k).still = { x.still with
         missed := false
         state := if action = 1 ∧ x.still.state = 0 then 1 else x.still.state
         pending := x.still.pending ++ [act] }) ∧
     (sound = true → inScope x scope = true → action = 3 → x.txn.tstate = 2 →
       ∃ t, exec (.stillWordCapture k head lo p0 p1) s = .next t ∧
       arrived t ∧ (tileOf t k).txn = { x.txn with tstate := 3 } ∧
       (tileOf t k).still = { x.still with missed := false, pending := x.still.pending ++ [act] }) ∧
     (sound = true → inScope x scope = false ∨ (action = 3 ∧ x.txn.tstate ≠ 2) →
       exec (.stillWordCapture k head lo p0 p1) s = .next e)) ∧
  ((∀ (s : State) (k cycles : Nat) (vp : Bool), takeAction 1 (tileOf s k) = none ∨ mayAct (tileOf s k) = false →
     exec (.stillAct k cycles vp) s = .next s) ∧
   (∀ (s : State) (k cycles : Nat),
     stubAction 1 (tileOf s k) = none ∨ (tileOf s k).power.pwrOk = false ∨ (tileOf s k).power.noClock = false →
     exec (.stubStillNoClock (k, cycles)) s = .next s) ∧
   (∀ (s : State) (k cycles : Nat) (a : StillAction), k < numTiles →
     let e := elapse (reachAt s k a.tick) s
     let x := tileOf s k
     let cyc := if x.still.stepping ∧ x.still.stepK = 0 then min cycles 65535 else x.still.stepCyc
     let rest := fun (t : State) => OnlyTile e t k ∧ { tileOf t k with still := x.still, eddy := x.eddy, hang := x.hang } = x ∧
       (tileOf t k).hang = { x.hang with elapsed := (tileOf t k).hang.elapsed, since := (tileOf t k).hang.since }
     (takeAction 1 x = some a → mayAct x = true → ∀ vp, ∃ t, exec (.stillAct k cycles vp) s = .next t ∧ rest t ∧
       (tileOf t k).still.mask = x.still.mask ||| (1 <<< a.scope) ∧ (tileOf t k).still.actTick = a.tick ∧
       (tileOf t k).still.pending = x.still.pending.erase a ∧ (tileOf t k).still.stepping = false ∧
       (x.power.pwrOk = true → x.still.mask = 0 → (tileOf t k).still.state = 2 ∧ (tileOf t k).still.frz = true ∧
         (tileOf t k).still.frzAck = false ∧ (tileOf t k).still.rfrzAck = false ∧ (tileOf t k).still.vpend = vp ∧
         (tileOf t k).still.edgeAt = now e ∧ (tileOf t k).still.stepCyc = cyc ∧
         (tileOf t k).still.lateFrz = decide (a.tick + 1000 < (8 * now e + x.time.off8) % 2 ^ 67 / 8)) ∧
       (x.power.pwrOk = true → x.still.mask ≠ 0 → (tileOf t k).still.state = x.still.state ∧ (tileOf t k).still.frz = x.still.frz ∧
         (tileOf t k).still.vpend = vp) ∧
       (x.power.pwrOk = false → (tileOf t k).still.state = 6)) ∧
     (stubAction 1 x = some a → x.power.pwrOk = true → x.power.noClock = true →
       ∃ t, exec (.stubStillNoClock (k, cycles)) s = .next t ∧ rest t ∧
       (tileOf t k).still = { x.still with
         pending := x.still.pending.erase a
         mask := x.still.mask ||| (1 <<< a.scope)
         actTick := a.tick
         stepCyc := if x.still.mask = 0 then cyc else x.still.stepCyc
         stepping := false
         state := if x.still.frz ∧ x.still.mask ≠ 0 then x.still.state else 2 })))

/-- 04 R124, R125, R134.
04 R108, R127, R138. -/
def Obligations.FreezesSettleAndRelease : Prop :=
  (∀ (s : State) (k : Nat), k < numTiles →
     let x := tileOf s k
     (x.still.frz = true → x.still.state = 2 ∨ x.still.state = 7 →
       ∃ t, exec (.freezeSettled k) s = .next t ∧ { t with tiles := s.tiles, root := s.root } = s ∧
         (∀ u, u ≠ k → tileOf t u = tileOf s u) ∧
         tileOf t k = { x with still := { x.still with state := 3, frzAck := true, rfrzAck := true, frzTs := edgeTs x } } ∧
         t.root = { s.root with stragglers := s.root.stragglers.erase k, wstate := t.root.wstate, regionsStill := t.root.regionsStill } ∧
         (k ∉ s.root.stragglers → t.root = s.root) ∧
         (s.root.stragglers = [k] → s.root.stragScope = 0 → s.root.wstate = 4 → t.root.wstate = 3)) ∧
     (x.still.frz = true → x.still.state = 2 → ∀ f r, (f && r) = false →
       ∃ t, exec (.freezeNoack k f r) s = .next t ∧ OnlyTile (elapse (x.still.edgeAt + 1000) s) t k ∧
         (tileOf t k).still = { x.still with state := 7, frzAck := f, rfrzAck := r } ∧
         { tileOf t k with still := x.still, eddy := x.eddy } = x) ∧
     (x.still.frz = false → exec (.freezeSettled k) s = .next s ∧ ∀ f r, exec (.freezeNoack k f r) s = .next s)) ∧
  ((∀ (s : State) (k : Nat) (idle : Bool) (a : StillAction), k < numTiles →
     let e := elapse (reachAt s k a.tick) s
     let x := tileOf s k
     (if x.power.noClock then stubAction 2 x else takeAction 2 x) = some a → mayAct x = true ∨ x.power.noClock = true →
     let left : BitVec 16 := if a.scope = 0 then 0 else x.still.mask &&& ~~~((1 : BitVec 16) <<< a.scope)
     let step := decide (s.root.stepKind ≠ 0 ∧ s.root.stepReleased = true ∧ a.scope = s.root.stepScope)
     ∃ t, exec (.releaseAct k idle) s = .next t ∧ OnlyTile e t k ∧
       { tileOf t k with still := x.still, hang := x.hang, eddy := x.eddy } = x ∧
       (copyHolds x = true → tileOf t k = { x with still := { x.still with
         pending := x.still.pending.erase a
         heldRel := x.still.heldRel ++ [{ scope := a.scope, idle := idle, step := step }] } }) ∧
       (copyHolds x = false → left ≠ 0 → (tileOf t k).still = { x.still with mask := left, pending := x.still.pending.erase a } ∧
         (tileOf t k).hang = x.hang) ∧
       (copyHolds x = false → left = 0 → (tileOf t k).still = { x.still with
           mask := 0
           pending := x.still.pending.erase a
           frz := false
           frzAck := false
           rfrzAck := false
           idle := idle
           stepRun := if step ∧ x.still.stepK ≠ 0 then 0 else x.still.stepRun
           stepping := step
           state := if x.power.pwrOk = false then 5 else if step then 4 else 0 } ∧
         (tileOf t k).hang = { x.hang with elapsed := 0, since := stubNow e k })) ∧
   (∀ (s : State) (k : Nat) (idle : Bool), (tileOf s k).power.noClock = false →
     takeAction 2 (tileOf s k) = none ∨ mayAct (tileOf s k) = false → exec (.releaseAct k idle) s = .next s) ∧
   (∀ (s : State) (d tick : Nat), s.rill.inService = true → d < numDies →
     ((∀ k, s.snap.take = some k → k.ownStill = false ∨ k.sealing = true ∨ k.t ≠ tick) →
       ∃ t, exec (.edgeStillAct d 1 tick) s = .next t ∧ OnlyEdge (elapse tick s) t d ∧ (edgeOf t d).egFreeze = true ∧
       (edgeOf t d).egFreezeAt = (if (edgeOf s d).egFreeze then (edgeOf s d).egFreezeAt else now (elapse tick s))) ∧
     (∀ k, s.snap.take = some k → k.ownStill = true → k.sealing = false → k.t = tick →
       ∃ t, exec (.edgeStillAct d 1 tick) s = .next t ∧ (edgeOf t d).egFreeze = true ∧
         (∀ u, u ≠ d → edgeOf t u = edgeOf s u) ∧ (d ∈ (pondOf t k.pond).cutDies ↔ (edgeOf s d).cut = true)) ∧
     (∃ t, exec (.edgeStillAct d 2 tick) s = .next t ∧ OnlyEdge (elapse tick s) t d ∧ (edgeOf t d).egFreeze = false ∧
       (edgeOf t d).egFrozen = false ∧ (edgeOf t d).releasedAt = now (elapse tick s))))

/-- 04 R129 to R133, R135. What a region's stragglers show is the model's (DESIGN CHOICE, log 112), as is that a census of which no
member answers has failed (log 113). -/
def Obligations.StillCensuses : Prop :=
  (∀ s : State, s.root.confirm = [] → exec .stillCensus s = .next s ∧ exec .stillCensusRepeat s = .next s) ∧
  (∀ (s : State) (a : StillAction) (r : List Confirm), s.root.confirm = { act := a, repeatAt := none } :: r → mapsWf s →
    a.origin ≠ 2 → s.root.stepKind = 0 → s.alarm.running = none → s.alarm.next = none → s.plans.trace = none →
    (notStill s a.scope = [] → ∃ t, exec .stillCensus s = .next t ∧ t.root.stillT = a.tick ∧ t.root.stragCount = 0 ∧
      (a.scope = 0 ∨ waferStrag s = false → t.root.stragglers = []) ∧ t.root.nakCount = 0 ∧ t.root.okCount = (scopeTiles s a.scope).length ∧
      t.root.wstate = (if a.scope = 0 then 3 else if s.root.wstate = 4 ∧ s.root.stragScope ≠ 0 then 0 else s.root.wstate) ∧
      t.root.regionsStill = (if a.scope = 0 then s.root.regionsStill else s.root.regionsStill ||| (1 <<< a.scope)) ∧
      t.port.events.getLsbD 0 = true ∧ (∀ k, (tileOf t k).still.region = (tileOf s k).still.region &&& 0x7FFF) ∧
      (∀ k, { tileOf t k with still := (tileOf s k).still } = tileOf s k) ∧
      { t with
        root := s.root
        port := s.port
        tiles := s.tiles
        time := s.time
        txn := s.txn
        plans := s.plans
        alarm := s.alarm
        mapEpoch := s.mapEpoch
        folds := s.folds
        census := s.census } = s) ∧
    (censusDead s a.scope = true → ∃ u, exec .stillCensus s = .next (raiseClass 7 u) ∧
      { u with root := s.root, port := s.port } = { elapse (a.tick + 1000) s with root := s.root, port := s.port } ∧
      u.root = { s.root with censusFail := true, confirm := u.root.confirm } ∧
      { act := a, failed := true } ∈ u.root.confirm) ∧
    (notStill s a.scope ≠ [] → censusDead s a.scope = false →
      ∃ t, exec .stillCensus s = .next t ∧ t.root.stragCount = (notStill s a.scope).length ∧
      (a.scope = 0 ∨ waferStrag s = false → t.root.stragglers = nameStragglers (notStill s a.scope) ∧ t.root.stragScope = a.scope) ∧
      t.port.events.getLsbD 2 = true ∧ (∃ n, { act := a, repeatAt := some n } ∈ t.root.confirm) ∧
      t.root.stillT = s.root.stillT ∧ t.root.wstate = s.root.wstate)) ∧
  (∀ (s : State) (a : StillAction) (n : Nat) (r : List Confirm), s.root.confirm = { act := a, repeatAt := some n } :: r →
    a.origin ≠ 2 → a.scope = 0 → s.root.stepKind = 0 → s.alarm.running = none → s.alarm.next = none → s.plans.trace = none →
    notStill s 0 ≠ [] → censusDead s 0 = false → (∀ k ∈ nameStragglers (notStill s 0), (tileOf s k).still.state ≠ 7) →
    ∃ t, exec .stillCensusRepeat s = .next t ∧ t.root.stillT = a.tick ∧ t.root.wstate = 4 ∧
      t.root.stragCount = (notStill s 0).length ∧ t.port.events.getLsbD 0 = true ∧ t.port.events.getLsbD 2 = true)

/-! Alarm classes -/

/-- 02 R78; 05 R158 to R162; 04 R119. The alarm tree's latency is left out (DESIGN CHOICE, log 14).
05 R160, R161; 06 R206. Against which now R114 is taken is the model's (DESIGN CHOICE, log 115), as is the wait for room
(log 110). -/
def Obligations.AlarmsActAndRearm : Prop :=
  ((∀ (s : State) (w : BitVec 16), s.rill.inService = false ∨ w &&& drivenClasses s = 0 → exec (.alarmAccept w) s = .next s) ∧
   (∀ (s : State) (w : BitVec 16), s.rill.inService = true → w &&& drivenClasses s ≠ 0 → s.alarm.enabled = false →
     exec (.alarmAccept w) s = .next (accepting s (w &&& drivenClasses s))) ∧
   (∀ (s : State) (w : BitVec 16), let cs := w &&& drivenClasses s
     let u := accepting s cs
     s.rill.inService = true → cs ≠ 0 → s.alarm.enabled = true → u.plans.trace = none → s.recov.phase = 0 →
     (∀ c, c < 16 → cs.getLsbD c = true → actionNow u c = 0) →
     let a := { u.alarm with raised := u.alarm.raised ||| cs }
     ((∀ c, 1 ≤ c → c ≤ 6 → cs.getLsbD c = false) → ∃ t, exec (.alarmAccept w) s = .next t ∧
       t = { u with alarm := a, port := { u.port with w1c := t.port.w1c, w1cAt := t.port.w1cAt } }) ∧
     (∀ c, 1 ≤ c → c ≤ 6 → cs.getLsbD c = true → (∀ b, 1 ≤ b → b < c → cs.getLsbD b = false) →
       ∃ t, exec (.alarmAccept w) s = .next t ∧ t = { u with
         alarm := a
         recov := { u.recov with cls := c, outcome := 1, elapsedUs := 0 }
         port := { u.port with
           events := u.port.events ||| (1 <<< 7)
           newEvents := u.port.newEvents ||| (1 <<< 7)
           w1c := t.port.w1c
           w1cAt := t.port.w1cAt } })) ∧
   (∀ (s : State) (w : BitVec 16) (c : Nat), c < 16 → w &&& drivenClasses s = 1 <<< c →
     let u := accepting s (1 <<< c)
     s.rill.inService = true → s.alarm.enabled = true → u.plans.trace = none → s.recov.phase = 0 → s.boot.quiet = false →
     s.alarm.running = none → s.time.markTick = none → waferHeld s = false →
     (∀ b ∈ s.root.queue ++ s.root.launched, b.kind ≠ 2) → actionNow u c = 1 →
     let b := classOf u c
     let used := min 255 (b.used + 1)
     let l := rclkNow u + 2
     let still : StillAction := { kind := 1, scope := 0, tick := l + s.time.lstill, launchAt := l, origin := 1 }
     ∃ t, exec (.alarmAccept w) s = .next t ∧ t = { u with
       port := { u.port with w1c := t.port.w1c, w1cAt := t.port.w1cAt }
       alarm := { u.alarm with
         raised := u.alarm.raised ||| (1 <<< c)
         classes := mput {} u.alarm.classes c { b with used := used }
         disarmed := if b.limit ≠ 0 ∧ b.limit ≤ used then u.alarm.disarmed ||| (1 <<< c) else u.alarm.disarmed
         running := some { action := 1, cls := c, scope := 0, tick := l + s.time.lstill, accepted := now u, hold := b.hold } }
       root := { s.root with
         queue := s.root.queue.filter (fun q => !(q.kind == 1 && q.scope == 0 && (edgeUp q.launchAt == l || edgeUp q.launchAt == l + 2)))
         launched := s.root.launched ++ [still]
         lastLaunch := l
         confirm := s.root.confirm ++ [{ act := still }]
         retried := false
         wstate := 2 } })) ∧
  ((∀ (s : State) (h : ReqHdr) (cs : BitVec 16), AsIntrusive s h → cs ≠ 0 → mwf {} s.alarm.classes = true →
     ∃ t, exec (.alarmRearm h cs) s = .next t ∧
       Answered { s with alarm := { s.alarm with classes := t.alarm.classes, disarmed := s.alarm.disarmed &&& ~~~cs } } t 0x41 h .ok [] ∧
       (∀ c, classOf t c = if cs.getLsbD c then { classOf s c with used := 0 } else classOf s c)) ∧
   (∀ (s : State) (r : AlarmAction) (d : Nat), s.alarm.running = some r → r.declaredAt = some d →
     s.txn.pressed = false ∨ s.txn.centreDone = true → 1 ≤ r.action → r.action ≤ 3 → r.hold ≠ 0 →
     r.snapWait = false →
     let e := elapse (d + r.hold * 1000 - s.time.lstill) s
     let done := { e.alarm with running := none }
     let lo := max (now e + s.time.lstill) (d + r.hold * 1000)
     let n := firstTick e lo
     let rel : StillAction := { kind := 2, scope := r.scope, tick := n, launchAt := n - s.time.lstill, origin := 1 }
     (holdsStill e r.scope = true → exec .autoRelease s = .next e) ∧
     (holdsStill e r.scope = false → releaseBarred r e = true → exec .autoRelease s = .next { e with alarm := done }) ∧
     (holdsStill e r.scope = false → releaseBarred r e = false → s.root.queue.length < 64 → exec .autoRelease s = .next
       { e with alarm := done, root := { s.root with queue := insertAction rel s.root.queue } }) ∧
     (holdsStill e r.scope = false → releaseBarred r e = false → 64 ≤ s.root.queue.length → exec .autoRelease s = .next
       { e with alarm := done, root := { s.root with
         waiting := s.root.waiting ++ [{ kind := 2, scope := r.scope, tick := lo, origin := 1 }] } })) ∧
   (∀ s : State, (∀ r, s.alarm.running = some r → r.declaredAt = none ∨ r.hold = 0 ∨ r.snapWait = true) → exec .autoRelease s = .next s))

/-! What the tile reports to its agent -/

/-- 10 R301 to R308; `record` is the operation by which every command records an event. -/
def Obligations.EddiesAreRecorded : Prop :=
  ∀ (s : State) (k code data : Nat), k < numTiles →
    let x := tileOf s k
    let t := record k code data s
    (EddyReady s k → OnlyTile s t k ∧ { tileOf t k with eddy := x.eddy } = x ∧
      Recorded s t k (ts40 (stubNow s k)) code (eddyFlags x) (BitVec.ofNat 64 data)) ∧
    (s.rill.inService = true → x.eddy.freeze = true → x.eddy.lostQ = 0 → wqNow x.eddy (now s / 2) < 8 → x.eddy.mask = 0xFF →
      OnlyTile s t k ∧ (tileOf t k).eddy.ring = x.eddy.ring ∧ (tileOf t k).eddy.head = x.eddy.head ∧
        (tileOf t k).eddy.held = satAdd 32 x.eddy.held 1) ∧
    (s.rill.inService = true → 8 ≤ wqNow x.eddy (now s / 2) → x.eddy.mask = 0xFF →
      OnlyTile s t k ∧ (tileOf t k).eddy.ring = x.eddy.ring ∧ (tileOf t k).eddy.lostQ = satAdd 32 x.eddy.lostQ 1) ∧
    (∀ c, eddyClass code = some c → x.eddy.mask = 0 →
      if c = 0 ∨ c = 1 ∨ c = 6 then (EddyReady { s with tiles := mput {} s.tiles k { x with eddy := { x.eddy with mask := 0xFF } } } k →
        (tileOf t k).eddy.seq = (x.eddy.seq + 1) % 256) else ∀ u, tileOf t u = tileOf s u)

/-- 06 R209; 05 R165; 04 R123.
07 R214, R216 to R221; 10 R320.
07 R217; 08 R268; 10 R304, R320; 04 R149. -/
def Obligations.CommandsRun : Prop :=
  (∀ (s : State) (k : Nat), k < numTiles →
     let x := tileOf s k
     (coreRuns s k = true → ∃ t, exec (.contextLoad k) s = .next t ∧ OnlyTile s t k ∧
       tileOf t k = { x with txn := { x.txn with ctxEpoch := (x.txn.ctxEpoch + 1) % 256 } }) ∧
     (coreRuns s k = false → exec (.contextLoad k) s = .next s) ∧
     (∀ a b, coreRuns s k = true → NoBank s k → ∃ t, exec (.contextSwitch k a b) s = .next t ∧ OnlyTile s t k ∧
       tileOf t k = { x with engine := { x.engine with ctxSel := b } }) ∧
     (∀ a b, coreRuns s k = false → exec (.contextSwitch k a b) s = .next s)) ∧
  (∀ (s : State) (k : Nat) (cmd : Command) (cy : Cycles), k < numTiles → coreRuns s k = true → NoBank s k →
     let x := tileOf s k
     let c := x.core.count
     let b := { c.cmdo with tail := satAdd 32 c.cmdo.tail (cycTotal cy) }
     let dtab := mmod {} c.dtab (deltaIndex c b) (addDelta b false (devThrottled b))
     ∃ t, exec (.commandStart k cmd cy) s = .next t ∧ OnlyTile s t k ∧
       (let y := tileOf t k
        y.core.cmd = cmd ∧ y.core.cmdBusy = true ∧ y.core.cmdSeq = x.core.cmdSeq + 1 ∧ y.core.count.cmdOpen = true ∧
        y.core.count.cmdo = { layer := cmd.layer, oper := cmd.oper, step := cmd.step, thrSeen := x.power.thr } ∧ y.core.count.curStep = cmd.step ∧
        y.hang.elapsed = 0 ∧ y.hang.fired = false ∧ y.still = x.still ∧ y.txn = x.txn ∧ y.engine = x.engine ∧
        y.power = { x.power with cwdtHeld := false, cwdtSince := ownTime x (now s) } ∧
        y.core.dip = { x.core.dip with maxStep := max x.core.dip.maxStep cmd.step } ∧
        (∀ i, i < 36 → mget 0 y.core.count.cnt i =
          if c.run then (mget 0 c.cnt i + cyc cy i) % 2 ^ 48 else mget 0 c.cnt i) ∧
        (∀ i, 36 ≤ i → mget 0 y.core.count.cnt i = mget 0 c.cnt i) ∧
        (c.anyCmd = false → y.core.count.dtab = c.dtab ∧ y.core.count.cmdl = c.cmdl ∧ y.plan.closedStep = x.plan.closedStep) ∧
        (c.anyCmd = true → c.cmdOpen = false → c.dplan = [] → y.core.count.cmdl = b ∧
          (cmd.step ≤ c.curStep → y.core.count.dtab = dtab ∧ y.core.count.dcls = c.dcls ∧ y.plan.closedStep = x.plan.closedStep) ∧
          (c.curStep < cmd.step → y.core.count.dtab = [] ∧ y.core.count.tabStep = b.step ∧ y.core.count.folded = false ∧
            y.plan.closedStep = cmd.step - 1 ∧ y.plan.overrun = (x.plan.overrun || !c.folded) ∧
            (c.folded = true → y.core.count.dcls = dtab))))) ∧
  (∀ (s : State) (k : Nat) (cy : Cycles) (vp : Bool), k < numTiles →
     let x := tileOf s k
     let c := x.core.count
     let step := x.still.stepping = true ∧ x.still.stepK ≠ 0
     let n := min 255 (x.still.stepRun + 1)
     (coreRuns s k = true → c.cmdOpen = true → NoBank s k → EddyReady s k → ∃ t, exec (.commandEnd k (cy, vp)) s = .next t ∧
       OnlyTile s t k ∧
       (let y := tileOf t k
        y.core.cmdBusy = false ∧ y.core.count.cmdOpen = false ∧ y.hang.elapsed = 0 ∧ y.hang.fired = false ∧
        y.core.dip = { x.core.dip with descs := x.core.dip.descs.filter (fun q => q.cmdSeq != x.core.cmdSeq) } ∧
        y.core.count.cmdo.cyc = satAdd 32 c.cmdo.cyc (cycTotal cy - cycStill cy) ∧
        y.core.count.cmdo.stillCyc = satAdd 32 c.cmdo.stillCyc (cycStill cy) ∧
        y.core.count.cmdo.abusy = satAdd 32 c.cmdo.abusy (cyc cy 0) ∧
        y.core.count.cmdo.thrSeen = (c.cmdo.thrSeen || sawThrottle cy || x.power.thr) ∧
        y.txn = x.txn ∧ y.engine = x.engine ∧
        y.power = { x.power with cwdtHeld := false, cwdtSince := ownTime x (now s) } ∧
        (¬ step → y.still = x.still ∧ Recorded s t k (ts40 (stubNow s k)) 0x01 (eddyFlags x)
          (BitVec.ofNat 64 (x.core.cmd.layer * 2 ^ 48 + x.core.cmd.oper * 2 ^ 32 + x.core.cmd.step))) ∧
        (step → n < x.still.stepK → y.still = { x.still with stepRun := n }) ∧
        (step → x.still.stepK ≤ n → x.still.mask = 0 → y.still.mask = 1 <<< s.root.stepScope ∧ y.still.frz = true ∧
          y.still.state = 2 ∧ y.still.stepRun = n ∧ y.still.stepping = false ∧ y.still.vpend = vp ∧
          y.still.actTick = ownTime x (now s)))) ∧
     (c.cmdOpen = false → exec (.commandEnd k (cy, vp)) s = .next s))

/-- 08 R245, R266 to R268; 07 R213; 04 R123. -/
def Obligations.WritesMatchDescriptors : Prop :=
  ∀ (s : State) (k : Nat), k < numTiles →
    let x := tileOf s k
    let d := x.core.dip
    (coreRuns s k = false → ∀ w e n, exec (.sramWrite k w) s = .next s ∧ exec (.descArrive k e) s = .next s ∧
      exec (.descClose k n) s = .next s ∧ exec (.lineDiscard k) s = .next s) ∧
    (coreRuns s k = true → NoBank s k →
      (∀ w : SnoopLine, d.waitq.length < 16 → ∃ t, exec (.sramWrite k w) s = .next t ∧ OnlyTile s t k ∧
        (let y := tileOf t k
         (∀ a, mget 0 y.engine.sram a = if 64 * w.line ≤ a ∧ a < 64 * w.line + 64 ∧ w.be.getLsbD (a - 64 * w.line) = true
           then w.data.extractLsb' (8 * (a - 64 * w.line)) 8 else mget 0 x.engine.sram a) ∧
         { y with engine := x.engine, core := x.core } = x ∧ y.core = { x.core with dip := y.core.dip } ∧
         (w.tag = 0 → y.core = x.core) ∧
         (w.tag ≠ 0 → descOf x.core w.tag = none → y.core.dip = { d with
           waitq := d.waitq ++ [w]
           queuePeak := max d.queuePeak (d.waitq.length + 1) }) ∧
         (w.tag ≠ 0 → (descOf x.core w.tag).isSome = true → y.core = countLines w.tag 1 x.core))) ∧
      (∀ e : DescIn, e.tag ≠ 0 → (∀ l ∈ d.waitq, l.tag ≠ e.tag) → 1 ≤ e.lines → (∀ q ∈ d.descs, q.matched < q.lines) →
        ∃ t, exec (.descArrive k e) s = .next t ∧ OnlyTile s t k ∧ tileOf t k = { x with core := enterDesc e x.core } ∧
          (descOf (tileOf t k).core e.tag).isSome = true) ∧
      (∀ e l r, e.tag ≠ 0 → d.waitq = l :: r → l.tag = e.tag → (∀ m ∈ r, m.tag ≠ e.tag) → 2 ≤ e.lines →
        ∃ t q, exec (.descArrive k e) s = .next t ∧ OnlyTile s t k ∧ (tileOf t k).core.dip.waitq = r ∧
          descOf (tileOf t k).core e.tag = some q ∧ q.tensor = e.tensor ∧ q.matched = 1) ∧
      (∀ n, ∃ t, exec (.descClose k n) s = .next t ∧ OnlyTile s t k ∧
        tileOf t k = { x with core := { x.core with dip := { d with descs := d.descs.filter (fun q => q.tag != n) } } }) ∧
      (∀ l r, d.waitq = l :: r → ∃ t, exec (.lineDiscard k) s = .next t ∧ OnlyTile s t k ∧
        (tileOf t k).core.dip.waitq = r ∧ (tileOf t k).core.dip.descs = d.descs ∧
        (x.core.count.run = true → mget 0 (tileOf t k).core.count.cnt 40 = (mget 0 x.core.count.cnt 40 + 1) % 2 ^ 48)))

/-- 08 R250; 09 R284 to R293. -/
def Obligations.AccumulationsAndFramesClose : Prop :=
  ∀ (s : State) (k n : Nat), k < numTiles → n < 4 →
    let x := tileOf s k
    (∀ (old : Bool) (a : Acc), coreUp x = true → accOf old (dipSlotOf s k n) = some a → stepDone x.core a.step = true →
      ∃ u, exec (.dipAccClose k (n, old)) s = .next (sendAcc k (dipCfg x.core n) { a with closed := true } u) ∧
        OnlyTile s u k ∧ { tileOf u k with core := x.core } = x ∧ { (tileOf u k).core with dip := x.core.dip } = x.core ∧
        dipSlotOf u k n = { dipSlotOf s k n with
          last := { a with closed := true }
          older := if old then none else (dipSlotOf s k n).older
          cur := if old then (dipSlotOf s k n).cur else none } ∧
        (∀ m, m ≠ n → dipSlotOf u k m = dipSlotOf s k m) ∧
        ((dipCfg x.core n).foldSel = 0 → exec (.dipAccClose k (n, old)) s = .next u)) ∧
    (∀ old, coreUp x = false ∨ (∀ a, accOf old (dipSlotOf s k n) = some a → stepDone x.core a.step = false) →
      exec (.dipAccClose k (n, old)) s = .next s) ∧
    (∀ (old : Bool) (p : OpenFrame), coreUp x = true → frameOf old (capOf s k n) = some p →
      let d := capCfg x.core n
      let u := drainLines k 64 s
      let c := capOf u k n
      d.still = false → frameDone x.core d p = true →
      ∃ t o, exec (.snoopFrameClose k (n, old)) s = .next t ∧ frameOf old c = some o ∧ o.step = p.step ∧ o.frame = p.frame ∧
        { t with tiles := s.tiles, shims := s.shims } = s ∧
        (∀ v, v ≠ k → tileOf t v = tileOf s v) ∧ (∀ v, v ≠ fieldOf k → shimOf t v = shimOf s v) ∧
        { tileOf t k with core := x.core } = x ∧
        capOf t k n = { c with
          open_ := if old then c.open_ else c.older
          older := none
          framesDone := satAdd 16 c.framesDone 1
          taken := c.taken + 1
          seq := (c.seq + 1) % 2 ^ 32
          next := if d.frames = 0 then 0 else (c.next + 1) % d.frames } ∧
        (∀ l, ltnOf s k = some l → (shimOf t (fieldOf k)).frames = (shimOf u (fieldOf k)).frames.map (fun f =>
          if f.slot = n ∧ f.tile = l ∧ f.index = o.frame then { f with
            step := o.step
            tok := o.tok
            mapEpoch := x.txn.mapEpoch
            seq := (c.seq + 1) % 2 ^ 32
            closeTs := ts40 (stubNow s k)
            flags := closeFlags d o 0
            lost := o.lost
            lineMap := o.lines } else f))) ∧
    (∀ old, coreUp x = false ∨ (capCfg x.core n).still = true ∨
        (∀ p, frameOf old (capOf s k n) = some p → frameDone x.core (capCfg x.core n) p = false) →
      exec (.snoopFrameClose k (n, old)) s = .next s) ∧
    ((capOf s k n).holding = false → ∀ b, exec (.stillCopyHoldEnd k n b) s = .next s) ∧
    (∀ acked : Bool, (capOf s k n).holding = true →
      let e := if acked then s else elapse ((capOf s k n).holdFrom + (capCfg x.core n).holdMax * 1000) s
      ∃ t, exec (.stillCopyHoldEnd k n acked) s = .next t ∧
        { t with tiles := e.tiles, shims := e.shims, boot := e.boot } = e ∧
        t.boot = { e.boot with freeCount := e.boot.freeCount + if acked then 0 else 1 } ∧
        (∀ v, v ≠ k → tileOf t v = tileOf s v) ∧ (∀ v, v ≠ fieldOf k → shimOf t v = shimOf s v) ∧
        { tileOf t k with core := x.core, still := x.still, hang := x.hang, eddy := x.eddy } = x ∧
        { (tileOf t k).core with dip := x.core.dip } = x.core ∧
        (capOf t k n).holding = false ∧ (capOf t k n).open_ = none ∧ (capOf t k n).older = none ∧
        ((∀ m, m ≠ n → (capOf s k m).holding = false) → mwf {} x.core.dip.caps = true → x.still.heldRel = [] →
          (tileOf t k).still = { x.still with frz := x.still.frz && x.still.mask != 0 }) ∧
        (∀ m, m ≠ n → (capOf s k m).holding = true → (tileOf t k).still = x.still) ∧
        (∀ o l, (capOf s k n).open_ = some o → (capOf s k n).older = none → ltnOf s k = some l →
          ∀ f ∈ (shimOf t (fieldOf k)).frames, f.slot = n → f.tile = l → f.index = o.frame →
            f.step = o.step ∧ f.seq = ((capOf s k n).seq + 1) % 2 ^ 32 ∧ f.flags.getLsbD 0 = true ∧
            (acked = false → f.flags.getLsbD 2 = true)))

/-- 07 R213, R228; 10 R320, R321; 12 R369; 05 R157; 02 R78. -/
def Obligations.ErrorsAndWatchdogs : Prop :=
  ∀ (s : State) (k : Nat), k < numTiles →
    let x := tileOf s k
    (coreUp x = false → ∀ i l p, exec (.tileErrorEvent k i l p) s = .next s ∧ exec (.hang k) s = .next s ∧
      exec (.cwdtExpiry k) s = .next s) ∧
    (coreUp x = true → NoBank s k → EddyReady s k →
      (∀ i l p, i = 37 ∨ i = 39 → ∃ t, exec (.tileErrorEvent k i l p) s = .next t ∧
        OnlyTile { s with alarm := t.alarm } t k ∧
        { tileOf t k with core := x.core, plan := x.plan, eddy := x.eddy } = x ∧
        (∀ j, mget 0 (tileOf t k).core.count.cnt j = if x.core.count.run = true ∧ j = i
          then (mget 0 x.core.count.cnt j + 1) % 2 ^ 48 else mget 0 x.core.count.cnt j) ∧
        (∀ j, mget 0 (tileOf t k).plan.lc j = if j = 5 + (i - 36) then (mget 0 x.plan.lc j + 1) % 2 ^ 48 else mget 0 x.plan.lc j) ∧
        (i = 37 → Driven s t 1) ∧
        (i = 39 → t.alarm = s.alarm ∧
          Recorded s t k (ts40 (stubNow s k)) 0x10 (eddyFlags x) (BitVec.ofNat 64 (3 * 2 ^ 61 + p % 65536)))) ∧
      (∀ l p, ∃ t, exec (.tileErrorEvent k 41 l p) s = .next t ∧ OnlyTile { s with alarm := t.alarm } t k ∧
        { tileOf t k with eddy := x.eddy } = x ∧ Driven s t 1) ∧
      (∀ e d, coreRuns s k = true → e < 4 → ∃ t, exec (.waitDescriptor k e d) s = .next t ∧ OnlyTile s t k ∧
        (tileOf t k).hang = { x.hang with wait := mput 0 x.hang.wait e d } ∧
        { tileOf t k with hang := x.hang, eddy := x.eddy } = x ∧
        (d.getLsbD 63 = true → (mget 0 x.hang.wait e).getLsbD 63 = false →
          Recorded s t k (ts40 (stubNow s k)) 0x02 (eddyFlags x) d)) ∧
      (hangCounts x = true → let e := elapse (now s + (hangLimit x - hangCount (stubNow s k) x)) s
        ∃ t, exec (.hang k) s = .next t ∧ OnlyTile { e with alarm := t.alarm } t k ∧
        { tileOf t k with hang := x.hang, eddy := x.eddy } = x ∧
        (tileOf t k).hang = { x.hang with
          fired := true
          elapsed := hangCount (stubNow e k) x
          since := stubNow e k
          episodes := satAdd 16 x.hang.episodes 1 } ∧ Driven e t 3 ∧
        Recorded s t k (ts40 (stubNow e k)) 0x05 (eddyFlags x)
          (BitVec.ofNat 64 (x.core.cmd.layer * 2 ^ 48 + x.core.cmd.oper * 2 ^ 32 + x.core.cmd.step))) ∧
      (x.power.ready = true → x.power.thr = false → x.power.cwdtHeld = false →
        let e := elapse (now s + (x.power.cwdtSince + 100000 - stubNow s k)) s
        ∃ t, exec (.cwdtExpiry k) s = .next t ∧
          OnlyTile { e with alarm := t.alarm, port := { e.port with w1c := t.port.w1c, w1cAt := t.port.w1cAt } } t k ∧
          { tileOf t k with power := x.power, eddy := x.eddy } = x ∧
          (tileOf t k).power = { x.power with cwdtFired := true, cwdtHeld := true } ∧ Driven e t 2 ∧
          Recorded s t k (ts40 (stubNow e k)) 0x04 (eddyFlags x) (BitVec.ofNat 64 (2 * 2 ^ 60 + cmdStep x)))) ∧
    (hangCounts x = false → exec (.hang k) s = .next s)

/-! Debug transactions -/

/-- 06 R188, R189, R192.
06 R190, R195, R210. -/
def Obligations.TransactionsOpenAndCommit : Prop :=
  ((∀ (s : State) (h : ReqHdr) (epoch tmo : Nat), AsIntrusive s h →
     let id := if (s.txn.lastId + 1) % 65536 = 0 then 1 else (s.txn.lastId + 1) % 65536
     (s.txn.host = none → tmo = 0 ∨ (20 ≤ tmo ∧ tmo ≤ 10000) → ∃ t, exec (.txnOpen h epoch tmo) s = .next t ∧
       Answered { s with txn := t.txn } t 0x50 h .ok (le 2 id) ∧ t.txn.lastId = id ∧
       t.txn.host = some { id := id, mapEpoch := epoch, tmo := if tmo = 0 then s.txn.stageTmo else tmo, owner := h.session } ∧
       { t.txn with host := s.txn.host, lastId := s.txn.lastId, id := s.txn.id, centre := s.txn.centre, targets := s.txn.targets, tstate := s.txn.tstate } = s.txn ∧
       (s.txn.active = none → s.txn.tstate ≠ 6 → t.txn.tstate = 1 ∧ t.txn.id = id ∧ t.txn.centre = false ∧ t.txn.targets = 0)) ∧
     (s.txn.host ≠ none → tmo = 0 → ∃ t, exec (.txnOpen h epoch tmo) s = .next t ∧ Answered s t 0x50 h .busy (detail {})) ∧
     (tmo ≠ 0 → tmo < 20 ∨ 10000 < tmo → ∃ t, exec (.txnOpen h epoch tmo) s = .next t ∧
       Answered s t 0x50 h .malformed (detail { reason := 0x10, index := 2 }))) ∧
   (∀ (s : State) (h : ReqHdr) (x : Txn) (es : List TxnEntry), AsIntrusive s h → s.txn.host = some x → x.committed = false →
     es ≠ [] → (∀ e ∈ es, entryBad e = false ∧ (e.isSet = true ∨ (entryTile s e).isSome = true) ∧
       (∀ i ∈ e.items, itemBad e.cchk i = false ∧ i.kind < 5)) →
     bufferBytes (x.entries ++ es) ≤ 4194304 → overFull s (x.entries ++ es) = false →
     ∃ t, exec (.txnAdd h x.id es) s = .next t ∧
       Answered { s with txn := { s.txn with host := some { x with entries := x.entries ++ es } } } t 0x51 h .ok []) ∧
   (∀ (s : State) (h : ReqHdr) (x : Txn), AsIntrusive s h → s.txn.host = some x → x.committed = false →
     ∃ t, exec (.txnRinse h x.id) s = .next t ∧
       Answered (event 4 { s with txn := { s.txn with host := none, tstate := if s.txn.tstate = 1 then 0 else s.txn.tstate } }) t 0x53 h .ok []) ∧
   (∀ (s : State) (h : ReqHdr), AsIntrusive s h → ∃ t, exec (.txnQuery h) s = .next t ∧ Answered s t 0x54 h .ok (txnBody s))) ∧
  (∀ (s : State) (h : ReqHdr) (x : Txn), AsIntrusive s h → s.txn.host = some x → x.committed = false → x.centre = false →
     stageBusy s = false → recBusy s = false → snapRuns s = false → s.snap.restoring = false →
     (x.entries = [] → ∃ t, exec (.txnCommit h x.id 0) s = .next t ∧
       Answered { s with txn := { s.txn with host := none, tstate := 0 } } t 0x52 h .empty []) ∧
     (x.entries ≠ [] → x.mapEpoch = s.mapEpoch ∨ x.entries.any entryPhys = false →
       (∀ e ∈ x.entries, aregExcluded e = false ∧ (e.isSet = true ∨ (entryTile s e).isSome = true) ∧ uncovered s e = false) →
       let y : Txn := { x with committed := true, tick := 0, atEarliest := h.atEarliest, reply := some { h with opcode := 0x52 } }
       ∃ t, exec (.txnCommit h x.id 0) s = .next t ∧ Waits { s with txn := t.txn } t 0x52 h ∧ t.txn.active = some y ∧
         t.txn.host = some y ∧ t.txn.tstate = 2 ∧ t.txn.targets = (txnTargets s x).length ∧
         t.txn.d = now s + x.tmo * 1000 ∧ t.txn.okCount = 0 ∧ t.txn.nakCount = 0 ∧ t.txn.digestXor = 0 ∧ t.txn.answered = [] ∧
         t.txn.pressed = false ∧ t.txn.cause = 0 ∧ t.txn.waiting = s.txn.waiting) ∧
     (x.mapEpoch ≠ s.mapEpoch → x.entries.any entryPhys = true →
       ∃ t, exec (.txnCommit h x.id 0) s = .next t ∧ Answered s t 0x52 h .stale (detail {})))

/-- 06 R194 to R197, R204; 02 R48. -/
def Obligations.StubsStageAndRinse : Prop :=
  ∀ (s : State) (k : Nat), k < numTiles → s.rill.inService = true → (tileOf s k).power.answers = true →
    let x := tileOf s k
    let mine := fun (p : StagePkt) => s.txn.tstate = 2 ∧ ∃ a, s.txn.active = some a ∧ a.id = p.txn
    let noted := fun (p : StagePkt) => s.txn.answered ++ [{ tile := k, offset := p.offset, words := p.words.length, final := p.final }]
    (∀ p : StagePkt, sendsPacket s k p = true → x.txn.tstate ≠ 3 → x.txn.tstate ≠ 4 → (holdsStaged x = true → x.txn.id = p.txn) →
      let inPkt := fun i => p.offset ≤ i ∧ i < p.offset + p.words.length
      (stageReason x p = 0 → ∃ t, exec (.stage k p) s = .next t ∧ OnlyTile { s with txn := t.txn } t k ∧
        (let y := (tileOf t k).txn
         y.id = p.txn ∧ y.tstate = (if p.final then 2 else 1) ∧ y.void = false ∧
         (∀ i, i < p.words.length → mget 0 y.staged (p.offset + i) = p.words.getD i 0) ∧
         (∀ i, ¬ inPkt i → mget 0 y.staged i = if holdsStaged x = true then mget 0 x.txn.staged i else 0) ∧
         (∀ i, i ∈ y.written ↔ i < 512 ∧ (inPkt i ∨ (holdsStaged x = true ∧ i ∈ x.txn.written))) ∧
         y.words = wordCount y.written ∧ y.deadline = widen32 (stubNow s k) p.deadlineLo ∧
         (p.final = true → y.digest = ownDigest (tileOf t k) k ∧ y.hold = (heldItems (tileOf t k)).any coreBound) ∧
         { tileOf t k with txn := x.txn } = x ∧
         (mine p → p.final = true → t.txn =
           { s.txn with answered := noted p, okCount := s.txn.okCount + 1, digestXor := s.txn.digestXor ^^^ y.digest }) ∧
         (mine p → p.final = false → t.txn = { s.txn with answered := noted p }) ∧
         (¬ mine p → t.txn = s.txn))) ∧
      (stageReason x p ≠ 0 → ∃ t, exec (.stage k p) s = .next t ∧ OnlyTile { s with txn := t.txn } t k ∧
        (tileOf t k).txn = { x.txn with id := p.txn, tstate := 0, words := 0, staged := [], written := [], hold := false, void := false } ∧
        (mine p → t.txn.nakCount = s.txn.nakCount + 1 ∧ t.txn.answered = noted p ∧ t.txn.okCount = s.txn.okCount ∧
          (s.txn.firstNak = none → t.txn.firstNak = some k ∧ t.txn.firstReason = stageReason x p) ∧
          (∀ u, s.txn.firstNak = some u → t.txn.firstNak = some (min k u) ∧
            t.txn.firstReason = if k < u then stageReason x p else s.txn.firstReason)) ∧
        (¬ mine p → t.txn = s.txn)) ∧
      (p.lchk = true → x.txn.ltnValid = false → stageReason x p = 3) ∧
      (p.lchk = false → p.cchk = true → x.txn.ctxEpoch ≠ p.ctxEpoch → stageReason x p = 4) ∧
      (p.lchk = false → p.cchk = false → 512 < p.offset + p.words.length → stageReason x p = 5)) ∧
    (∀ id, x.txn.tstate = 1 ∨ x.txn.tstate = 2 →
      let emptied := { x.txn with tstate := 0, words := 0, staged := [], written := [], hold := false, void := false }
      (x.txn.id = id → ∃ t, exec (.rinse k id) s = .next t ∧ OnlyTile s t k ∧ (tileOf t k).txn = emptied) ∧
      (x.txn.id ≠ id → exec (.rinse k id) s = .next s) ∧
      (∃ t, exec (.stageDeadline k) s = .next t ∧ OnlyTile (elapse (reachAt s k x.txn.deadline) s) t k ∧
        (tileOf t k).txn = emptied)) ∧
    (x.txn.tstate = 3 → ∀ p id, exec (.stage k p) s = .next s ∧ exec (.rinse k id) s = .next s ∧
      (x.txn.hold = false → exec (.stageDeadline k) s = .next s) ∧
      (x.txn.hold = true → ∃ t, exec (.stageDeadline k) s = .next t ∧ OnlyTile (elapse (reachAt s k x.txn.deadline) s) t k ∧
        tileOf t k = { x with txn := { x.txn with hold := false } }))

/-- 06 R197, R198, R201, R203. -/
def Obligations.ChecksPressOrRinse : Prop :=
  (∀ s : State, (s.txn.active = none ∨ s.txn.tstate ≠ 2 → exec .txnCheck s = .next s) ∧
    (s.txn.tstate ≠ 3 → exec .pressPlaceTimeout s = .next s) ∧ (s.txn.tstate ≠ 6 → exec .fenceEnd s = .next s)) ∧
  (∀ (s : State) (x : Txn), s.txn.active = some x → s.txn.tstate = 2 → s.txn.waiting = [] → x.centre = false → x.purpose = 0 →
    s.txn.pressed = false →
    let rinsed := fun (cause : Nat) (t : State) => t.txn.cause = cause ∧ t.txn.active = none ∧ t.txn.host = none ∧
      t.txn.tstate = (if now s < s.txn.d ∧ ∃ k ∈ txnTargets s x, counts (tileOf t k) = false ∨
        ((tileOf t k).txn.id = x.id ∧ (tileOf t k).txn.tstate ≠ 0 ∧ (tileOf t k).txn.tstate ≠ 5) then 6 else 0) ∧
      (∀ h, x.reply = some h → Replied s t h (causeStatus s cause) (causeBody s cause)) ∧
      (∀ k ∈ txnTargets s x, k < numTiles → (tileOf s k).power.answers = true → (tileOf t k).txn.id = x.id →
        (tileOf t k).txn.tstate ≠ 1 ∧ (tileOf t k).txn.tstate ≠ 2) ∧
      (∀ k, k ∉ txnTargets s x → tileOf t k = tileOf s k) ∧ t.root.queue.any (fun a => a.kind == 3 && a.origin == 5) = false ∧
      { t with txn := s.txn, tiles := s.tiles, root := s.root, port := s.port, sess := s.sess, tap := s.tap } = s
    let n := firstTick s (now s + s.time.lstill)
    (s.txn.nakCount ≠ 0 → (s.txn.firstReason ≠ 3 ∨ x.restaged = true ∨ x.entries.any entryPhys = true) → ∃ t, exec .txnCheck s = .next t ∧ rinsed 1 t) ∧
    (s.txn.nakCount = 0 → s.txn.okCount ≠ s.txn.targets → ∃ t, exec .txnCheck s = .next t ∧ rinsed 2 t) ∧
    (s.txn.nakCount = 0 → s.txn.okCount = s.txn.targets → s.txn.digestXor ≠ expectXor s x →
      ∃ t, exec .txnCheck s = .next t ∧ rinsed 3 t) ∧
    (s.txn.nakCount = 0 → s.txn.okCount = s.txn.targets → s.txn.digestXor = expectXor s x → x.tick = 0 →
      s.root.queue.length < 64 → s.root.queue.any (fun a => a.kind == 3) = false → n + 1000 ≤ s.txn.d →
      exec .txnCheck s = .next { s with txn := { s.txn with tstate := 3 }, root := { s.root with queue := insertAction { kind := 3, scope := 0, tick := n, launchAt := n - s.time.lstill, origin := 5, txn := x.id } s.root.queue } })) ∧
  (∀ (s : State) (x : Txn), s.txn.active = some x → s.txn.tstate = 3 → s.txn.waiting = [] → x.centre = false → x.purpose = 0 →
    s.txn.pressed = false → s.root.queue.any (fun a => a.kind == 3) = false →
    ∃ t, exec .pressPlaceTimeout s = .next t ∧ t.txn.cause = 4 ∧ t.txn.active = none ∧ t.txn.host = none ∧
      t.time = (elapse (s.txn.d - 1000) s).time) ∧
  (∀ s : State, s.txn.tstate = 6 → s.txn.waiting = [] → s.txn.pressed = false →
    ∃ t, exec .fenceEnd s = .next t ∧ (let e := elapse s.txn.d s
      t = { e with txn := { e.txn with tstate := if s.txn.host.isSome then 1 else 0 } }))

/-- 06 R185, R199, R205; 01 R28.
06 R200, R201. -/
def Obligations.PressesApplyAndConfirm : Prop :=
  ((∀ (s : State) (k : Nat), takeAction 3 (tileOf s k) = none ∨ mayAct (tileOf s k) = false → exec (.pressAct k) s = .next s) ∧
   (∀ (s : State) (k : Nat), (tileOf s k).txn.tstate ≠ 4 → exec (.pressApplyDone k) s = .next s) ∧
   (∀ (s : State) (k : Nat) (a : StillAction), k < numTiles → takeAction 3 (tileOf s k) = some a → mayAct (tileOf s k) = true →
     let e := elapse (reachAt s k a.tick) s
     let x := tileOf s k
     let still := { x.still with pending := x.still.pending.erase a }
     let done := { x.txn with tstate := 5, words := 0, staged := [], written := [], hold := false }
     (x.txn.tstate ≠ 3 → ∃ t, exec (.pressAct k) s = .next t ∧ OnlyTile e t k ∧ tileOf t k = { x with still := still }) ∧
     (∀ i, x.txn.tstate = 3 → x.txn.void = false → heldItems x = [i] →
       (i.kind = 6 → ∃ t, exec (.pressAct k) s = .next t ∧ OnlyTile e t k ∧
         (tileOf t k).txn = { done with mapEpoch := (i.data.headD 0).toNat % 65536 } ∧ (tileOf t k).core = x.core ∧
         (tileOf t k).still = still ∧ (tileOf t k).engine = x.engine) ∧
       (i.kind = 5 → ∃ t, exec (.pressAct k) s = .next t ∧ OnlyTile { e with plans := t.plans } t k ∧
         { t.plans with moved := e.plans.moved } = e.plans ∧
         (tileOf t k).txn = { done with ltnValid := (i.data.headD 0).getLsbD 63, ltn := bits 50 32 (i.data.headD 0).toNat } ∧
         (tileOf t k).still.region = BitVec.ofNat 16 ((i.data.headD 0).toNat % 65536 / 2 * 2) ∧ (tileOf t k).engine = x.engine) ∧
       (i.kind = 4 → ∃ t, exec (.pressAct k) s = .next t ∧ OnlyTile e t k ∧
         (tileOf t k).txn = { done with ctxEpoch := (x.txn.ctxEpoch + 1) % 256 } ∧
         (tileOf t k).engine = { x.engine with ctxSel := (i.data.headD 0).toNat % 4 }) ∧
       (i.kind = 2 ∨ i.kind = 3 → (∀ m, (capOf s k m).holding = false) → ∃ t, exec (.pressAct k) s = .next t ∧ OnlyTile e t k ∧
         (tileOf t k).txn.tstate = 4 ∧ (tileOf t k).txn.staged = x.txn.staged ∧ (tileOf t k).engine = x.engine))) ∧
   (∀ (s : State) (k : Nat), k < numTiles → (tileOf s k).txn.tstate = 4 →
     let x := tileOf s k
     let done := { x.txn with tstate := 5, words := 0, staged := [], written := [], hold := false }
     (x.txn.void = true → ∃ t, exec (.pressApplyDone k) s = .next t ∧ OnlyTile s t k ∧
       (tileOf t k).txn = { done with tstate := 6 } ∧ (tileOf t k).engine = x.engine) ∧
     (∀ i, x.txn.void = false → heldItems x = [i] →
       (i.kind = 2 → ∃ t, exec (.pressApplyDone k) s = .next t ∧ OnlyTile s t k ∧ (tileOf t k).txn = done ∧
         (∀ b, b < 8 * i.data.length → mget 0 (tileOf t k).engine.sram (i.addr + b) = (wordBytes i.data).getD b 0) ∧
         (∀ b, b < i.addr ∨ i.addr + 8 * i.data.length ≤ b → mget 0 (tileOf t k).engine.sram b = mget 0 x.engine.sram b) ∧
         { (tileOf t k).engine with sram := x.engine.sram } = x.engine) ∧
       (i.kind = 3 → ∃ t, exec (.pressApplyDone k) s = .next t ∧ OnlyTile s t k ∧ (tileOf t k).txn = done ∧
         (∀ j, j < i.data.length → mget 0 (tileOf t k).engine.route (i.addr + j) = i.data.getD j 0) ∧
         (∀ j, j < i.addr ∨ i.addr + i.data.length ≤ j → mget 0 (tileOf t k).engine.route j = mget 0 x.engine.route j) ∧
         { (tileOf t k).engine with route := x.engine.route } = x.engine)))) ∧
  ((∀ s : State, s.txn.active = none ∨ s.txn.pressed = false → exec .pressConfirm s = .next s ∧ exec .pressRecount s = .next s) ∧
   (∀ (s : State) (x : Txn) (h : ReqHdr), s.txn.active = some x → s.txn.pressed = true → s.txn.centreDone = true → x.centre = false →
     x.purpose = 0 → s.txn.waiting = [] → x.reply = some h → h.session ≠ 65535 → h ∈ s.sess.outstanding →
     (∀ o ∈ s.sess.outstanding, o.session = h.session → o.tag = h.tag → o = h) →
     let e := fun n => elapse (s.txn.t + n) s
     let lost := notApplied s x
     let ended := fun (e t : State) =>
       t.txn.active = none ∧ t.txn.host = none ∧ t.txn.pressed = false ∧ t.txn.tstate = 0 ∧
       t.txn.lost = lost.take 256 ∧ t.txn.lostSeen = (s.txn.lostSeen || !lost.isEmpty) ∧ t.port.events.getLsbD 4 = true ∧
       sent t = sent s ++ fragmentsOf (mkResponse h (if lost = [] then .ok else .lost) (if lost = []
         then padTo 8 (le 2 x.id) ++ le 8 s.txn.t ++ le 4 (txnTargets s x).length
         else detail { place := (lost.head?.map coord).getD 4294967295 })) ∧
       t.sess.outstanding = s.sess.outstanding.erase h ∧
       { t with txn := e.txn, port := e.port, sess := e.sess } = e
     s.txn.tstate = 4 →
     (s.txn.recount = false → stillApplying s x = false → ∃ t, exec .pressConfirm s = .next t ∧ ended (e 5000) t) ∧
     (s.txn.recount = false → stillApplying s x = true →
       exec .pressConfirm s = .next { e 5000 with txn := { (e 5000).txn with recount := true } }) ∧
     (s.txn.recount = true → ∃ t, exec .pressRecount s = .next t ∧ ended (e 1000000) t)))

/-! Watch plans, fingerprints, symbols and frames -/

/-- 05 R171 to R179; 06 R185. The whole exchange of blocks is one step (DESIGN CHOICE, log 8). -/
def Obligations.WatchPlansLoad : Prop :=
  (∀ (s : State) (h : ReqHdr) (id : Nat) (es : List WatchEntry), AsObserver s h → mapsWf s → s.txn.active = none →
    s.txn.waiting = [] → s.txn.tstate ≠ 6 →
    let plan : WatchPlan :=
      { id := id, entries := es, owner := some h.session, intrusiveOwner := isIntrusive s h.session, mapEpoch := s.mapEpoch }
    let taken := fun (p : Option WatchPlan) (t : State) =>
      (∀ k, { tileOf t k with core := (tileOf s k).core } = tileOf s k ∧ activeBank (tileOf t k).core = activeBank (tileOf s k).core ∧
        (tileOf t k).core.active = (tileOf s k).core.active ∧
        (if canFetch (tileOf s k) = true ∧ (tileOf s k).txn.ltnValid = true
         then inactiveBank (tileOf t k).core = bankMap (bankWords s p k) else tileOf t k = tileOf s k)) ∧
      t.txn.tstate = 2 ∧ t.txn.centre = true ∧ t.txn.host = s.txn.host ∧
      (∃ x, t.txn.active = some x ∧ x.purpose = 1 ∧ x.centre = true ∧ x.entries = [centreEntry 1] ∧
        x.reply = some { h with opcode := 0x40 })
    (es ≠ [] → (∀ c ∈ watchChecks 0 es { h with opcode := 0x40 } s, c.bad = false) → ∃ t, exec (.watchLoad h id 0 es) s = .next t ∧
      Waits { s with plans := { s.plans with watchNext := some plan }, tiles := t.tiles, txn := t.txn } t 0x40 h ∧
      taken (some plan) t) ∧
    (∀ w, s.plans.watch = some w → watchOwned h s = false → (w.entries.any needsIntrusive = true → isIntrusive s h.session = true) →
      watchBusy s = false → ∃ t, exec (.watchRemove h) s = .next t ∧
        Waits { s with plans := { s.plans with watchNext := none, watchRemoving := true }, tiles := t.tiles, txn := t.txn } t 0x40 h ∧
        taken none t) ∧
    (s.plans.watch = none → watchBusy s = false → ∃ t, exec (.watchRemove h) s = .next t ∧ Answered s t 0x40 h .empty [])) ∧
  (∀ (s : State) (h : ReqHdr) (id c act r hold lim : Nat), AsObserver s h → c < 8 → h.opt = false →
    ∃ t, exec (.watchLoad h id 0 [.binding c act r hold lim]) s = .next t ∧
      Answered s t 0x40 h .malformed (detail { reason := 0xF, index := 0 })) ∧
  (∀ (s : State) (h : ReqHdr) (id c act r hold lim : Nat), AsObserver s h → isIntrusive s h.session = false → h.opt = false → 8 ≤ c →
    c ≤ 15 → act = 1 ∨ act = 3 ∨ act = 4 → ∃ t, exec (.watchLoad h id 0 [.binding c act r hold lim]) s = .next t ∧
      Answered s t 0x40 h .denied (detail { reason := 0xF, index := 0 })) ∧
  (∀ (s : State) (k : Nat) (i : Item), k < numTiles → coreDark (tileOf s k) = false → i.kind = 7 →
    let t := pressItem k s i
    (tileOf t k).core.active = bit 8 i.addr ∧ (tileOf t k).core.cmps = [] ∧ (tileOf t k).core.bank0 = (tileOf s k).core.bank0 ∧
      (tileOf t k).core.bank1 = (tileOf s k).core.bank1 ∧ (tileOf t k).plan.watchId = i.addr % 256 ∧
      (tileOf t k).plan.digest = i.data.headD 0 ∧ (∀ u, u ≠ k → tileOf t u = tileOf s u))

/-- 08 R263 to R265.
09 R276 to R279. -/
def Obligations.FingerprintsAndSymbols : Prop :=
  ((∀ (s : State) (h : ReqHdr) (g n tensor : Nat), AsObserver s h →
     (s.cfg.skS = false → n ≠ 0 → ∃ t, exec (.fpRead h g n tensor) s = .next t ∧ Answered s t 0x60 h .ok
       ((lastN n (s.census.fpRing.filter (fun r => r.group == g && (tensor == 0 || r.tensor == tensor)))).flatMap fpBytes)) ∧
     (s.cfg.skS = true → ∃ t, exec (.fpRead h g n tensor) s = .next t ∧ Answered s t 0x60 h .absent (detail {}))) ∧
   (∀ (s : State) (h : ReqHdr) (g tensor step : Nat) (peers : List FpRecord) (own : FpRecord), AsObserver s h →
     s.cfg.skS = false → peers ≠ [] → peers.length ≤ 63 → ownFp s g tensor step = some own →
     let o := fpOutcome own peers
     let u := { s with recov := { s.recov with
       sdcKey := some (own.group, own.tensor, own.step)
       sdcValues := own.fingerprint :: ((peers.filter (fpCounts own)).map (·.fingerprint)).filter (fun v => v != own.fingerprint) } }
     ((o ≠ 2 ∧ o ≠ 3) ∨ isIntrusive s h.session = false → ∃ t, exec (.fpCompare h g tensor step peers) s = .next t ∧
       Answered s t 0x61 h .ok (compareBody own peers)) ∧
     (o = 2 ∨ o = 3 → ∃ b, compareBody own peers = b ++ (padTo 4 (le 2 own.group) ++ le 4 own.tensor ++ padTo 8 (le 4 own.step) ++
       (((peers.filter (fpCounts own)).map (·.fingerprint)).filter (fun v => v != own.fingerprint)).flatMap (fun v => le 8 v.toNat))) ∧
     (o = 2 ∨ o = 3 → isIntrusive s h.session = true → ∃ t v, exec (.fpCompare h g tensor step peers) s = .next t ∧
       t = raiseClass 5 v ∧ Answered u v 0x61 h .ok (compareBody own peers))) ∧
   (∀ (own : FpRecord) (peers : List FpRecord),
     let ps := (peers.filter (fpCounts own)).map (·.fingerprint)
     (fpComplete own = false → fpOutcome own peers = 4) ∧
     (fpComplete own = true → (∀ v ∈ ps, v = own.fingerprint) → fpOutcome own peers = 0) ∧
     (fpComplete own = true → (∃ v ∈ ps, v ≠ own.fingerprint) →
       (∀ v, ps.length + 1 < 2 * ((own.fingerprint :: ps).filter (fun w => w == v)).length →
         fpOutcome own peers = if v = own.fingerprint then 1 else 2) ∧
       ((∀ v, 2 * ((own.fingerprint :: ps).filter (fun w => w == v)).length ≤ ps.length + 1) → fpOutcome own peers = 3)))) ∧
  (∀ (s : State) (h : ReqHdr) (b : Nat), AsObserver s h →
     let syms := if b = s.plans.build then s.plans.symbols else []
     let pmap := if b = s.plans.build then s.plans.pmap else []
     (∀ r : SymRecord, r.fmt ≤ 12 →
       (capturing s = false → syms.length < 16384 → ∃ t l, exec (.symLoad h b [r]) s = .next t ∧
         Answered { s with plans := { s.plans with build := b, symbols := l, pmap := pmap } } t 0x62 h .ok [] ∧ r ∈ l ∧
         (∀ q, q.tensor ≠ r.tensor → (q ∈ l ↔ q ∈ syms)) ∧ l.length = syms.length + if syms.any (fun q => q.tensor == r.tensor) then 0 else 1) ∧
       (capturing s = true → ∃ t, exec (.symLoad h b [r]) s = .next t ∧ Answered s t 0x62 h .busy (detail {}))) ∧
     (∀ r : MapRecord, sliceBad r.slice = false → r.ltn < 345600 →
       (capturing s = false → syms.any (fun q => q.tensor == r.tensor) = true → pmap.length < 209715 →
         ∃ t l, exec (.pmapLoad h b [r]) s = .next t ∧
           Answered { s with plans := { s.plans with build := b, symbols := syms, pmap := l } } t 0x63 h .ok [] ∧ r ∈ l ∧
           (∀ q, (q.tensor, q.ltn) ≠ (r.tensor, r.ltn) → (q ∈ l ↔ q ∈ pmap))) ∧
       (capturing s = true → ∃ t, exec (.pmapLoad h b [r]) s = .next t ∧ Answered s t 0x63 h .busy (detail {})) ∧
       (capturing s = false → syms.any (fun q => q.tensor == r.tensor) = false → ∃ t, exec (.pmapLoad h b [r]) s = .next t ∧
         Answered s t 0x63 h .refused (detail { reason := 0x12 }))))

/-- 09 R289, R294 to R297. -/
def Obligations.FramesAreManaged : Prop :=
  ∀ (s : State) (h : ReqHdr) (e : Nat), AsObserver s h → mapsWf s →
    (∃ t, exec (.watchStatus h) s = .next t ∧ Answered s t 0x64 h .ok (le 4 s.cfg.watchMib ++ le 4 (activeCaps s).length ++
      (List.range numFields).flatMap (fun f => le 8 (watchFree s f)) ++
      (List.range (activeCaps s).length).flatMap (entryTotals s))) ∧
    (watchOwned h s = false → e < (activeCaps s).length →
      (∃ t, exec (.watchReset h e) s = .next t ∧ Answered { s with tiles := t.tiles, shims := t.shims } t 0x65 h .ok [] ∧
        (∀ f, shimOf t f = { shimOf s f with frames := (shimOf s f).frames.map (fun r => if r.entry = e then { r with flags := 0 } else r) }) ∧
        (∀ k, { tileOf t k with core := (tileOf s k).core } = tileOf s k ∧
          { (tileOf t k).core with dip := (tileOf s k).core.dip } = (tileOf s k).core ∧
          (∀ n, capOf t k n = if (tileOf s k).power.answers = true ∧ n ∈ entrySlots (tileOf s k) e
            then { capOf s k n with next := 0, fullSkips := 0, taken := 0, skipKey := none } else capOf s k n))) ∧
      (∀ d, drainFrames s e none ≠ [] → ((drainFrames s e none).map (fun f => frameSize f.sliceLen)).sum ≤ d.limit →
        ∃ t, exec (.watchDrain h e none d) s = .next t ∧
          Answered { s with snap := { s.snap with drains := s.snap.drains ++ [⟨d, 0, (drainFrames s e none).flatMap frameBytes⟩] } }
            t 0x66 h .ok []) ∧
      (∀ d, drainFrames s e none = [] → ∃ t, exec (.watchDrain h e none d) s = .next t ∧ Answered s t 0x66 h .empty []) ∧
      (s.txn.host = none → regionStands s = false → s.root.wstate = 3 → ∃ t, exec (.captureNow h e) s = .next t ∧
        Answered { s with tiles := t.tiles, shims := t.shims, boot := { s.boot with freeCount := t.boot.freeCount } } t 0x67 h .ok [] ∧
        (∀ k, entrySlots (tileOf s k) e = [] → tileOf t k = tileOf s k) ∧
        (∀ k n, entrySlots (tileOf s k) e = [n] → k < numTiles → (tileOf s k).power.answers = true → coreUp (tileOf s k) = true →
          (capOf s k n).open_ = none → (capOf s k n).older = none → copyHolds (tileOf s k) = false → (tileOf s k).core.dip.capq = [] →
          let d := capCfg (tileOf s k).core n
          capFull d (capOf s k n) = false →
          capOf t k n = { capOf s k n with
            framesDone := satAdd 16 (capOf s k n).framesDone 1
            taken := (capOf s k n).taken + 1
            seq := ((capOf s k n).seq + 1) % 2 ^ 32
            next := if d.frames = 0 then 0 else ((capOf s k n).next + 1) % d.frames })))

/-! Folds -/

/-- 02 R63, R72; 13 R428.
02 R63 to R66. -/
def Obligations.FoldPlansAndOrder : Prop :=
  (∀ (s : State) (h : ReqHdr), AsObserver s h →
     (∀ (id : Nat) (es : List FoldEntry), (∀ c ∈ foldChecks es { h with opcode := 0x42 } s, c.bad = false) →
       let ids := optList s.plans.fold (fun p => p.entries.map (·.foldId)) ++ es.map (·.foldId)
       ∃ t, exec (.foldLoad h id es) s = .next t ∧ Answered { s with
           plans := { s.plans with
             fold := some { id := id, entries := es, owner := some h.session, intrusiveOwner := isIntrusive s h.session }
             moved := s.plans.moved.filter (fun m => m.plan != 0) }
           folds := { s.folds with
             slots := s.folds.slots.filter (fun x => !ids.contains x.foldId)
             upward := s.folds.upward.filter (fun u => !ids.contains u.foldId) } } t 0x42 h .ok []) ∧
     (∀ id, s.plans.fold = none → ∃ t, exec (.foldLoad h id []) s = .next t ∧ Answered s t 0x42 h .empty []) ∧
     (∀ id e, 0xF8 ≤ e.foldId ∨ e.vlen = 0 → ∃ t, exec (.foldLoad h id [e]) s = .next t ∧
       Answered s t 0x42 h .malformed (detail { reason := 0xF, index := 0 })) ∧
     (∀ id n, 1 ≤ n → n ≤ 16 → ∃ t, exec (.foldRead h id n) s = .next t ∧
       Answered s t 0x43 h .ok ((lastN n (s.folds.results.filter (fun r => r.foldId == id))).flatMap resultBytes)) ∧
     (∀ id n, n = 0 ∨ 16 < n → ∃ t, exec (.foldRead h id n) s = .next t ∧
       Answered s t 0x43 h .malformed (detail { reason := 0x10, index := 1 }))) ∧
  ((∀ (i : FoldInfo) (a b : List (Nat × FoldPartial)), a.Perm b → (a.map (·.1)).Nodup → combineAll i a = combineAll i b) ∧
   (∀ (a b c : Nat), (combineElem 0 0 a b).1 = (a + b) % 2 ^ 64 ∧ (combineElem 0 0 a b).2 = false ∧
     (combineElem 4 4 a b) = (min (a + b) (2 ^ 48 - 1), decide (2 ^ 48 ≤ a + b)) ∧ (combineElem 1 0 a b).1 = max a b ∧
     (combineElem 2 0 a b).1 = min a b ∧ (combineElem 3 0 a b).1 = a ||| b ∧
     (combineElem 0 0 (combineElem 0 0 a b).1 c).1 = (combineElem 0 0 a (combineElem 0 0 b c).1).1) ∧
   (∀ (i : FoldInfo) (p q : FoldPartial), (combine i p q).count = (p.count + q.count) % 2 ^ 20 ∧
     (combine i p q).darkSeen = (p.darkSeen || q.darkSeen) ∧ (combine i p q).missCount = min 255 (p.missCount + q.missCount) ∧
     (combine i p q).missAt = min p.missAt q.missAt) ∧
   (∀ (i : FoldInfo) (g : List (Nat × FoldPartial)), i.op = 1 ∨ i.op = 2 → ∀ v ∈ (combineAll i g).data, isNan i.ty v = true →
     v = if i.ty = 2 then nan64 else nan32))

/-- 02 R49, R65 to R68, R72, R76. What a child that the slot does not expect, or a second contribution of one, does is the model's
choice (log 123).
02 R47, R69, R71; 05 R174. -/
def Obligations.FoldsTravelAndClose : Prop :=
  (∀ (s : State) (i : FoldInfo), s.rill.inService = true → foldInfo s i.id = some i →
     (∀ k e, foldMember s i k = false → exec (.foldContrib k i.id e) s = .next s) ∧
     (∀ k e c, foldMember s i k = true → i.all = false →
       (optList s.plans.fold (fun p => p.entries)).find? (fun q => q.foldId == i.id) = some c →
       exec (.foldContrib k i.id e) s = .next { s with folds := { s.folds with upward := s.folds.upward ++
         [⟨.router k, 0, i.id, e % 65536,
           if coreDark (tileOf s k) then identityPartial i true else planContribution s k i c⟩] } }) ∧
     (∀ (n : Node) (c e : Nat) (p : FoldPartial) (ok : Bool), linkHeld s n c = true → exec (.foldArrival n c i.id e (p, ok)) s = .next s) ∧
     (∀ (n : Node) (c e : Nat) (p : FoldPartial), linkHeld s n c = false → ∃ t, exec (.foldArrival n c i.id e (p, false)) s = .next t ∧
       t.folds = { s.folds with upward := s.folds.upward.erase ⟨n, c, i.id, e, p⟩ }) ∧
     (∀ (n : Node) (c e : Nat) (p : FoldPartial), e < 65536 → linkHeld s n c = false →
       let left := s.folds.upward.erase ⟨n, c, i.id, e, p⟩
       let ex := expectedOf s i n
       (ex = [c] → ∀ m b, parentOf n = some (m, b) → exec (.foldArrival n c i.id e (p, true)) s =
         .next { s with folds := { s.folds with upward := left ++ [⟨m, b, i.id, e, p⟩] } }) ∧
       (c ∉ ex → exec (.foldArrival n c i.id e (p, true)) s = .next { s with folds := { s.folds with upward := left } }) ∧
       (∀ x, findSlot s n i.id = some x → 2 ≤ ex.length ∨ n = .centre → c ∈ ex →
         let y := { x with
           got := x.got ++ [(c, p)]
           firstAt := match x.firstAt with
             | none => some (now s)
             | some t => some t }
         let others := s.folds.slots.filter (fun q => !(q.node == n && q.foldId == i.id))
         (e = x.epoch → (∀ g ∈ x.got, g.1 ≠ c) → slotFull y = false ∨ n = .centre → exec (.foldArrival n c i.id e (p, true)) s =
           .next { s with folds := { s.folds with upward := left, slots := others ++ [y] } }) ∧
         (e = x.epoch → (∀ g ∈ x.got, g.1 ≠ c) → slotFull y = true → slotFull (nextEpochSlot (now s) y) = false →
           ∀ m b, parentOf n = some (m, b) → exec (.foldArrival n c i.id e (p, true)) s = .next { s with folds := { s.folds with
             upward := left ++ [⟨m, b, i.id, e, slotPartial i y⟩]
             slots := others ++ [nextEpochSlot (now s) y] } }) ∧
         (e = (x.epoch + 1) % 65536 → e ≠ x.epoch → exec (.foldArrival n c i.id e (p, true)) s =
           .next { s with folds := { s.folds with upward := left, slots := others ++ [{ x with held := x.held ++ [(c, p)] }] } }) ∧
         ((e = x.epoch ∧ ∃ g ∈ x.got, g.1 = c) ∨ (e ≠ x.epoch ∧ e ≠ (x.epoch + 1) % 65536) → ∃ t, exec (.foldArrival n c i.id e (p, true)) s = .next t ∧
           { t with tiles := s.tiles } = { s with folds := { s.folds with upward := left } } ∧
           (∀ k, k ≠ nodeStub n → tileOf t k = tileOf s k) ∧
           (nodeStub n < numTiles → (tileOf t (nodeStub n)).hang.foldLate = (tileOf s (nodeStub n)).hang.foldLate + 1))))) ∧
  ((∀ (s : State) (n : Node) (id r : Nat), findSlot s n id = none →
     exec (.foldEpochClose n id) s = .next s ∧ (n = .router r → exec (.closeEpoch r id) s = .next s) ∧
     (n = .centre → exec (.foldResultStore id) s = .next s)) ∧
   (∀ (s : State) (i : FoldInfo) (x : FoldSlot) (m : Node) (b : Nat), foldInfo s i.id = some i →
     s.txn.pressed = false → findSlot s x.node i.id = some x → x.node ≠ .centre → parentOf x.node = some (m, b) → slotFull x = false →
     slotFull { x with got := x.held } = false →
     let closed := fun (e : State) => { e with folds := { e.folds with
       upward := e.folds.upward ++ [⟨m, b, i.id, x.epoch, slotPartial i x⟩]
       slots := e.folds.slots.filter (fun q => !(q.node == x.node && q.foldId == i.id)) ++ [nextEpochSlot (now e) x] } }
     (∀ d, x.firstAt = some d →
       exec (.foldEpochClose x.node i.id) s = .next (closed (elapse (d + i.epochTmo * 1000 + x.height * 200) s))) ∧
     (x.firstAt = none → exec (.foldEpochClose x.node i.id) s = .next s) ∧
     (∀ r, x.node = .router r → exec (.closeEpoch r i.id) s = .next (closed s)) ∧
     (slotPartial i x).missCount = min 255 ((combineAll i x.got).missCount + 1)) ∧
   (∀ (s : State) (i : FoldInfo) (x : FoldSlot) (d : Nat), foldInfo s i.id = some i → findSlot s .centre i.id = some x →
     x.firstAt = some d → slotFull x = true → i.all = false → replicaOf s i.id = none →
     (∀ c ∈ s.plans.conditions, c.foldId ≠ i.id) →
     let p := slotPartial i x
     ∃ t r, exec (.foldResultStore i.id) s = .next t ∧ r ∈ t.folds.results ∧ r.foldId = i.id ∧ r.epoch = x.epoch ∧
       r.count = p.count ∧ r.data = p.data ∧ r.stored = now s ∧
       r.incomplete = (p.missCount != 0 || decide (p.count < memberCount s i)) ∧ t.folds.latest = i.id ∧
       (∀ q, q.foldId ≠ i.id → (q ∈ t.folds.results ↔ q ∈ s.folds.results)) ∧
       (t.folds.results.filter (fun q => q.foldId == i.id)).length ≤ 16 ∧
       findSlot t .centre i.id = some (nextEpochSlot (now s) x) ∧ t.port.events.getLsbD 3 = true ∧
       { t with folds := s.folds, port := s.port } = s))

/-! Counter plans, the light census, the energy ledger and pacing -/

/-- 07 R219 to R239. A forced close takes the last light census boundary (DESIGN CHOICE, log 25). -/
def Obligations.CountersAndStepsAnswer : Prop :=
  ∀ (s : State) (h : ReqHdr), AsObserver s h →
    (∀ (id : Nat) (e : CntEntry), mapsWf s → (∀ c ∈ cntChecks id [e] { h with opcode := 0x44 } s, c.bad = false) →
      let p := cntPlanOf id e { h with opcode := 0x44 } s
      let fetched := fun (t : State) => ∀ k, tileOf t k = if canFetch (tileOf s k) = true ∧ (tileOf s k).txn.ltnValid = true
        then takeCnt (some p) s k (tileOf s k) else tileOf s k
      (s.txn.active = none → s.txn.waiting = [] → s.txn.tstate ≠ 6 → (∀ k ∈ ltnMembers s p.set, canFetch (tileOf s k) = true) →
        ∃ t, exec (.cntLoad h id [e]) s = .next t ∧
          Waits { s with plans := { s.plans with cntNext := some p }, tiles := t.tiles, txn := t.txn } t 0x44 h ∧ fetched t ∧
          t.txn.tstate = 2 ∧ (∃ x, t.txn.active = some x ∧ x.purpose = 2 ∧ x.centre = true ∧ x.reply = some { h with opcode := 0x44 })) ∧
      ((∃ k ∈ ltnMembers s p.set, canFetch (tileOf s k) = false) → ∃ t, exec (.cntLoad h id [e]) s = .next t ∧
        Answered { s with tiles := t.tiles } t 0x44 h .malformed (detail { reason := 0x12 }) ∧ fetched t)) ∧
    (∀ (n : Nat) (p : CntPlan) (cur : Nat × Nat × Bool), s.plans.cnt = some p → n ∉ s.folds.stepFolded → stepClosed s n = false →
      s.census.curStep = some cur → ∃ t, exec (.cntFold h n) s = .next t ∧
        sent t = sent s ++ fragmentsOf (mkResponse { h with opcode := 0x45 } .ok []) ∧
        t.folds.stepFolded = s.folds.stepFolded ++ [n] ∧
        t.folds.upward.length = s.folds.upward.length + 3 * ((ltnMembers s p.set).filter (fun k => (tileOf s k).power.answers)).length ∧
        t.census.curStep = some (n + 1, lastBoundary s, false) ∧ t.census.curPartial = false ∧ stepClosed t n = true ∧
        (∃ r, t.census.ledger.getLast? = some r ∧ r.step = n ∧ r.forced = true ∧ r.start = cur.2.1 ∧ r.end_ = lastBoundary s ∧
          r.first = cur.2.2) ∧ t.port.events.getLsbD 12 = true) ∧
    (∀ n, s.plans.cnt = none → ∃ t, exec (.cntFold h n) s = .next t ∧ Answered s t 0x45 h .refused (detail { reason := 0x12 })) ∧
    (∀ n k, stepClosed s n = false → k ≠ 0 → ∃ t, exec (.stepDesc h n k) s = .next t ∧
      Answered { s with census := { s.census with tokens := s.census.tokens.filter (fun p => p.1 != n) ++ [(n, k)] } } t 0x46 h .ok []) ∧
    (∀ n k, stepClosed s n = true → ∃ t, exec (.stepDesc h n k) s = .next t ∧ Answered s t 0x46 h .refused (detail { reason := 0x12 })) ∧
    (∀ n, 1 ≤ n → n ≤ 4096 →
      (∃ t, exec (.lcRead h n) s = .next t ∧ Answered s t 0x47 h .ok ((lastN n s.census.ring).flatMap lcBytes)) ∧
      (∃ t, exec (.ledgerRead h n) s = .next t ∧ Answered s t 0x48 h .ok ((lastN n s.census.ledger).flatMap ledgerBytes)))

/-- 07 R228 to R238. The command codes are those of PMBus 1.3 (PRESUMED, log 27). -/
def Obligations.CensusAndPowerRun : Prop :=
  (∀ s : State, s.census.lcEn = true → s.rill.inService = true → s.boot.romReason = 0 → s.txn.pressed = false → mapsWf s →
    (∀ k, (tileOf s k).plan.reload = false) →
    let b := s.census.p0 + s.census.nextK * 1000000
    let e := elapse b s
    ∃ t, exec .lcBoundary s = .next t ∧ { t with tiles := e.tiles, folds := e.folds, census := e.census } = e ∧
      t.folds = { s.folds with upward := s.folds.upward ++ allTiles.flatMap (lcContribs e (s.census.nextK % 65536)) } ∧
      (∀ k, tileOf t k = if (tileOf s k).power.answers = true
        then { tileOf s k with plan := { (tileOf s k).plan with lc := [] } } else tileOf s k) ∧
      t.census.nextK = s.census.nextK + 1 ∧
      t.census.ring = lastN 4096 (s.census.ring ++ [{ boundary := b, period := s.census.nextK % 2 ^ 32 }]) ∧
      (s.census.busy = none → s.census.queued = [] → t.census.busy = some (0x86, b, b) ∧
        t.census.queued = [(pmRotation s.census.rotation, b)]) ∧
      (s.census.busy ≠ none → t.census.busy = s.census.busy)) ∧
  (∀ s : State, s.census.lcEn = false → exec .lcBoundary s = .next s) ∧
  (∀ (s : State) (data : List Byte) (ok : Bool), s.census.busy = none →
    exec (.pmbusDone data ok) s = .next s ∧ exec .pmbusTimeout s = .next s) ∧
  (∀ (s : State) (data : List Byte) (ok : Bool) (cmd from_ b : Nat), s.census.busy = some (cmd, from_, b) → s.census.queued = [] →
    let c := s.census
    (cmd = 0x88 → (c.pecEn = false ∨ ok = true) → exec (.pmbusDone data ok) s =
      .next { s with census := { c with busy := none, readValid := true, vin := unle (data.take 2) } }) ∧
    (cmd = 0x79 → (c.pecEn = false ∨ ok = true) → exec (.pmbusDone data ok) s =
      .next { s with census := { c with busy := none, readValid := true, statusWord := unle (data.take 2) } }) ∧
    (cmd ≠ 0x86 → c.pecEn = true → ok = false → exec (.pmbusDone data ok) s =
      .next { s with census := { c with busy := none, pecCount := satAdd 16 c.pecCount 1 } }) ∧
    (cmd = 0x86 → c.lastEin = none → (c.pecEn = false ∨ ok = true) → exec (.pmbusDone data ok) s =
      .next { s with census := { c with busy := none, readValid := true, lastEin := some (einOf data from_ b) } }) ∧
    (s.txn.pressed = false → ∃ t, exec .pmbusTimeout s = .next t ∧ (let e := elapse (from_ + 5000000) s
      t = { e with census := { c with busy := none, tmoCount := satAdd 16 c.tmoCount 1 } }))) ∧
  (∀ (s : State) (d lanes : Nat), s.rill.inService = true → d < numDies → s.snap.drains = [] → drainsAlways s = false →
    ∃ t, exec (.paceRefill d lanes) s = .next t ∧ OnlyEdge s t d ∧ edgeOf t d = { edgeOf s d with
      liveLanes := lanes
      bucket := min 65536000 ((edgeOf s d).bucket + lanes * 25000 * (edgeOf s d).permille) })

/-! Eddy rings and traces -/

/-- 10 R306 to R308. The freeze, the read and the thaw are one step (DESIGN CHOICE, log 8).
10 R310, R311, R316, R318, R324. The free-value counter is the model's (DESIGN CHOICE, log 7). -/
def Obligations.RingsAndTracePlans : Prop :=
  ((∀ (s : State) (h : ReqHdr) (a k n : Nat), AsObserver s h → tileAddrBad a = false → addrTile s a = some k → k < numTiles →
     (tileOf s k).power.answers = true → (tileOf s k).eddy.head < ringDepth s →
     (1 ≤ n → n ≤ 64 → ∃ t, exec (.eddyRead h none [a] n) s = .next t ∧
       Answered { s with tiles := t.tiles } t 0x70 h .ok (ringBytes s n k) ∧ (∀ u, u ≠ k → tileOf t u = tileOf s u) ∧
       (tileOf t k).eddy.freeze = false ∧ (tileOf t k).eddy.held = 0 ∧ { tileOf t k with eddy := (tileOf s k).eddy } = tileOf s k ∧
       Recorded s t k (ts40 (stubNow s k)) 0x16 (eddyFlags (tileOf s k)) (BitVec.ofNat 64 (tileOf s k).eddy.held)) ∧
     (64 < n → ∃ t, exec (.eddyRead h none [a] n) s = .next t ∧
       Answered s t 0x70 h .malformed (detail { reason := 0x10, index := 1 }))) ∧
   (∀ (s : State) (k : Nat), k < numTiles → (tileOf s k).eddy.head < ringDepth s →
     let x := tileOf s k
     (x.eddy.freeze = false → exec (.eddyFreezeTimeout k) s = .next s) ∧
     (x.eddy.freeze = true → ∃ t, exec (.eddyFreezeTimeout k) s = .next t ∧
       (let e := elapse (x.eddy.freezeAt + 100000) s
        OnlyTile (setW1c (agentKey k 0x80) (2 ^ 9) e) t k ∧ (tileOf t k).eddy.freeze = false ∧ { tileOf t k with eddy := x.eddy } = x ∧
        Recorded e t k (ts40 (stubNow e k)) 0x16 (eddyFlags x) (BitVec.ofNat 64 x.eddy.held))) ∧
     (x.eddy.lostQ = 0 → exec (.eddyGap k) s = .next s) ∧
     (s.rill.inService = true → x.eddy.lostQ ≠ 0 → x.eddy.freeze = false → x.eddy.wqCycle + (x.eddy.wq - 7) ≤ now s / 2 →
       ∃ t, exec (.eddyGap k) s = .next t ∧ OnlyTile s t k ∧ (tileOf t k).eddy.lostQ = 0 ∧ { tileOf t k with eddy := x.eddy } = x ∧
         Recorded s t k (ts40 (stubNow s k - 2 * (now s / 2 - (x.eddy.wqCycle + (x.eddy.wq - 7))))) 0x16 (eddyFlags x)
           (BitVec.ofNat 64 x.eddy.lostQ)))) ∧
  (∀ (s : State) (h : ReqHdr), AsObserver s h →
     let staged := fun (t : State) => t.txn.tstate = 2 ∧ ∃ x, t.txn.active = some x ∧ x.purpose = 3 ∧ x.centre = true ∧
       x.entries = [centreEntry 5] ∧ x.reply = some { h with opcode := 0x71 }
     (s.txn.active = none → s.txn.waiting = [] → s.txn.tstate ≠ 6 →
       (∀ (id : Nat) (e : TraceEntry), (∀ c ∈ traceChecks [e] { h with opcode := 0x71 } s, c.bad = false) →
         let p : TracePlan := { id := id, cfg := e, owner := some h.session, intrusiveOwner := isIntrusive s h.session }
         ∃ t, exec (.traceLoad h id [e]) s = .next t ∧
           Waits { s with plans := { s.plans with traceNext := some p }, txn := t.txn } t 0x71 h ∧ staged t) ∧
       (∀ p, s.plans.trace = some p → traceOwned h s = false → (p.cfg.policy = 3 → isIntrusive s h.session = true) → traceBusy s = false →
         ∃ t, exec (.traceRemove h) s = .next t ∧
           Waits { s with plans := { s.plans with traceNext := none, traceRemoving := true }, txn := t.txn } t 0x71 h ∧ staged t)) ∧
     (s.plans.trace = none → traceBusy s = false → ∃ t, exec (.traceRemove h) s = .next t ∧ Answered s t 0x71 h .empty []) ∧
     (∀ p, s.plans.trace = some p →
       let mayRearm := p.owner = some h.session ∨ (p.owner = none ∧ isIntrusive s h.session = true)
       (mayRearm → p.cfg.policy = 2 → mapsWf s → ∃ t, exec (.traceRearm h) s = .next t ∧
         Answered { s with plans := { s.plans with trace := some { p with triggered := none } }, shims := t.shims } t 0x72 h .ok [] ∧
         (∀ f, shimOf t f = { shimOf s f with partitions := (shimOf s f).partitions.map emptied })) ∧
       (mayRearm → p.cfg.policy ≠ 2 → ∃ t, exec (.traceRearm h) s = .next t ∧
         Answered s t 0x72 h .refused (detail { reason := 0x12 })) ∧
       (¬ mayRearm → ∃ t, exec (.traceRearm h) s = .next t ∧ Answered s t 0x72 h .denied (detail {})) ∧
       (p.cfg.policy ≠ 3 → ((allPartitions s).map (·.held.length)).sum ≠ 0 →
         16 * ((allPartitions s).map (·.held.length)).sum ≤ p.cfg.dest.limit → ∃ t, exec (.traceDrain h none) s = .next t ∧
           Answered { s with snap := { s.snap with drains := s.snap.drains ++
             [⟨p.cfg.dest, 0, (allPartitions s).flatMap (fun q => q.held.flatMap eddyBytes)⟩] } } t 0x73 h .ok []) ∧
       (∀ i n, i < (allPartitions s).length → n ≤ 65000 → (((allPartitions s).drop i).take n).all (·.held.isEmpty) = true →
         ∃ t, exec (.traceStatus h i n) s = .next t ∧ Answered s t 0x74 h .empty []) ∧
       (∀ i n, i < (allPartitions s).length → n ≤ 65000 → (((allPartitions s).drop i).take n).all (·.held.isEmpty) = false → ∃ t, exec (.traceStatus h i n) s = .next t ∧
         Answered { s with boot := { s.boot with freeCount := s.boot.freeCount + 1 } } t 0x74 h .ok
           ((List.range numFields).flatMap (fun f => le 4 (partSize s f)) ++ le 4 (allPartitions s).length ++
             le 4 (((allPartitions s).drop i).take n).length ++ (((allPartitions s).drop i).take n).flatMap (partHeader s)))))

/-- 10 R313 to R317, R322 to R324. -/
def Obligations.StreamsAndGraphs : Prop :=
  (∀ (s : State) (k : Nat) (flush : Bool), s.rill.inService = true → k < numTiles →
    let x := tileOf s k
    let credit := withholds s (fieldOf k)
    (x.eddy.stream = true → credit = false → x.eddy.streamGap = 0 → 16 ≤ x.eddy.streamQ.length →
      ∃ t, exec (.streamChunkSend k flush) s = .next t ∧
        OnlyTile { s with rill := { s.rill with bulk := s.rill.bulk ++ [(k, chunkBytes (x.eddy.streamQ.take 16))] } } t k ∧
        (tileOf t k).eddy.streamQ = x.eddy.streamQ.drop 16 ∧ (tileOf t k).eddy.unsent = (x.eddy.streamQ.drop 16).length ∧
        (tileOf t k).eddy.ring = x.eddy.ring ∧ { tileOf t k with eddy := x.eddy } = x) ∧
    (x.eddy.stream = false ∨ credit = true ∨ (flush = false ∧ x.eddy.streamQ.length < 16) →
      exec (.streamChunkSend k flush) s = .next s) ∧
    (x.eddy.stream = true → x.eddy.policy = 3 → x.eddy.fullDriven = false → fullMark s ≤ x.eddy.streamQ.length →
      ∃ t u, exec (.stillOnFullRaise k) s = .next t ∧ t = driveClass x.eddy.fullClass u ∧ OnlyTile s u k ∧
        tileOf u k = { x with eddy := { x.eddy with fullDriven := true } }) ∧
    (x.eddy.streamQ.length < fullMark s ∨ x.eddy.fullDriven = true → exec (.stillOnFullRaise k) s = .next s)) ∧
  (∀ (s : State) (k : Nat) (r : Eddy) (p : TracePlan) (a b : List Partition) (q : Partition), s.rill.inService = true → k < numTiles →
    s.plans.trace = some p → p.cfg.policy ≤ 1 → mapsWf s → r.code ≠ 0 → (shimOf s (fieldOf k)).partitions = a ++ q :: b → q.tile = k →
    (∀ y ∈ a ++ b, y.tile ≠ k) →
    ∃ t z, exec (.eddyChunkArrive k [r]) s = .next t ∧ t.rill.bulk = s.rill.bulk.erase (k, chunkBytes [r]) ∧
      (shimOf t (fieldOf k)).partitions = a ++ z :: b ∧ (∀ f, f ≠ fieldOf k → (shimOf t f).partitions = (shimOf s f).partitions) ∧
      { t with shims := s.shims, rill := s.rill } = s ∧ z.tile = k ∧
      (q.held.length < q.cap → z.held = q.held ++ [r] ∧ z.headGap = q.headGap ∧ z.tailGap = q.tailGap) ∧
      (q.cap ≤ q.held.length → p.cfg.policy = 0 → z.held = q.held.drop 1 ++ [r] ∧ z.headGap = satAdd 32 q.headGap 1) ∧
      (q.cap ≤ q.held.length → p.cfg.policy = 1 → z.held = q.held ∧ z.tailGap = satAdd 32 q.tailGap 1 ∧ z.state = 3)) ∧
  (∀ (s : State) (p : TracePlan) (d : Nat), s.plans.trace = some p → p.drainFrom = some d → mapsWf s →
    (allPartitions s).all (fun q => q.held.isEmpty) = true → s.root.queue.length < 64 →
    let n := firstTick s (now s + s.time.lstill)
    let rel : StillAction := { kind := 2, scope := 0, tick := n, launchAt := n - s.time.lstill, origin := 7 }
    ∃ t, exec .traceDrainRelease s = .next t ∧ t.plans = { s.plans with trace := some { p with drainFrom := none } } ∧
      (∀ f, (shimOf t f).partitions = (shimOf s f).partitions.map (fun q => if q.state = 4 then { q with state := 0 } else q)) ∧
      (hostRelease s = false → inForce s 0 = true → t.root = { s.root with queue := insertAction rel s.root.queue }) ∧
      (hostRelease s = true ∨ inForce s 0 = false → t.root = s.root) ∧
      { t with plans := s.plans, shims := s.shims, root := s.root } = s) ∧
  (∀ s : State, s.plans.trace = none → exec .traceDrainRelease s = .next s) ∧
  (∀ (s : State) (h : ReqHdr), AsObserver s h →
    (s.root.wstate = 3 ∨ waferStrag s = true → ∃ t, exec (.wfgBuild h) s = .next t ∧ Answered s t 0x75 h .ok (graphReport s)) ∧
    (s.root.wstate ≠ 3 → waferStrag s = false → ∃ t, exec (.wfgBuild h) s = .next t ∧
      Answered s t 0x75 h .refused (detail { reason := 0x12 })))

/-! Snapshots -/

/-- 11 R330, R333 to R337, R345, R360, R361. A point is launched L_still ahead (DESIGN CHOICE, log 60). -/
def Obligations.SnapshotsAreTaken : Prop :=
  (∀ (s : State) (h : ReqHdr) (id tick : Nat) (auto : Bool), AsIntrusive s h → mapsWf s →
    (∀ c ∈ takeChecks id tick h s, c.bad = false) →
    let own := !(declared s 0 && tick == 0)
    let at0 := if own then takeTick s tick else s.root.stillT
    let p := targetPond s
    ∃ t, exec (.snapTake h id auto tick) s = .next t ∧
      Waits { s with snap := t.snap, shims := t.shims, edges := t.edges, root := t.root } t 0x80 h ∧
      t.snap.take = some { id := id, pond := p, autoRel := auto, ownStill := own, t := at0, reply := some { h with opcode := 0x80 } } ∧
      (pondOf t p).state = 1 ∧ (pondOf t p).snapId = id ∧ (pondOf t p).t = at0 ∧ (pondOf t p).images = (pondOf s p).images ∧
      (∀ q, q ≠ p → (pondOf t q).state = (pondOf s q).state ∧ (pondOf t q).snapId = (pondOf s q).snapId) ∧
      (own = true → t.edges = s.edges ∧ t.root = { s.root with
        queue := insertAction { kind := 1, scope := 0, tick := at0, launchAt := at0 - s.time.lstill, origin := 3 } s.root.queue
        wstate := 1 }) ∧
      (own = false → t.root = s.root ∧ ∀ d, edgeOf t d = beginLog id (edgeOf s d))) ∧
  (∀ (s : State) (h : ReqHdr) (p0 period k base : Nat) (force : Bool), AsIntrusive s h → s.snap.take = none →
    (1000 ≤ period → period ≤ 60000000 → 1 ≤ k → k ≤ 255 → base < 2 ^ 31 → cutDies s = [] →
      ∃ t, exec (.snapPlan h p0 period k base force) s = .next t ∧
        Answered { s with plans := { s.plans with
          snap := some { p0 := p0, period := period, k := k, baseId := base, forceNext := force } } } t 0x83 h .ok []) ∧
    (∃ t, exec (.snapPlanStop h) s = .next t ∧ Answered { s with plans := { s.plans with snap := none } } t 0x83 h .ok [])) ∧
  (∀ s : State, s.plans.snap = none → exec .snapPlanPoint s = .next s) ∧
  (∀ (s : State) (p : SnapPlan), s.plans.snap = some p → s.boot.romReason = 0 →
    let n := duePoint s p
    let e0 := elapse (p.p0 + n * p.period * 1000 - s.time.lstill) s
    let e := { e0 with plans := { e0.plans with snap := some { p with lastPoint := some n } } }
    (pointBarred e = true → exec .snapPlanPoint s = .next { e with snap := { e.snap with skipped := satAdd 8 e.snap.skipped 1 } }) ∧
    (pointBarred e = false → ∃ t m, exec .snapPlanPoint s = .next t ∧ max (p.p0 + n * p.period * 1000) (now e + s.time.lstill) ≤ m ∧
      t.snap.take = some (⟨pointId p.baseId n, targetPond s, 1, true, true, m, none, false,
        p.forceNext && s.snap.resLow && n % p.k != 0, false, [], none⟩ : SnapTake) ∧
      t.root = { s.root with
        queue := insertAction { kind := 1, scope := 0, tick := m, launchAt := m - s.time.lstill, origin := 3 } s.root.queue
        wstate := 1 } ∧
      { t with snap := e.snap, shims := e.shims, root := e.root, port := { t.port with w1c := e.port.w1c, w1cAt := e.port.w1cAt } } = e)) ∧
  (∀ s : State, s.snap.take = none → exec .snapGo s = .next s ∧ exec .snapCopyTimeout s = .next s ∧
    (∀ u b, exec (.imageCopyDone (u, b)) s = .next s) ∧ ∀ f, exec (.shimDone f) s = .next s) ∧
  (∀ (s : State) (k : SnapTake), s.snap.take = some k → k.sealing = false →
    (k.goAt = none → s.root.wstate = 3 → s.cfg.skS = false → ∃ t, exec .snapGo s = .next t ∧
      { t with snap := s.snap, shims := s.shims, tiles := s.tiles } = s ∧
      t.snap.take = some { k with goAt := some (now s) } ∧ t.snap.nextEpoch = s.snap.nextEpoch + 1 ∧
      pondOf t k.pond = { pondOf s k.pond with epoch := s.snap.nextEpoch, mapEpoch := s.mapEpoch } ∧
      (∀ f, f < numFields → shimOf t f = { shimOf s f with
        done := false
        epoch := some s.snap.nextEpoch
        written := []
        cowAcked := false
        cowSentAt := now s }) ∧
      (∀ u, u < numTiles → tileOf t u = { tileOf s u with power := { (tileOf s u).power with holdSnap := true } })) ∧
    (s.root.wstate ≠ 3 → k.goAt = none → exec .snapGo s = .next s) ∧
    (k.goAt.isSome = true → ∀ u, u < numTiles → (tileOf s u).power.holdSnap = true → copyHolds (tileOf s u) = false →
      ((tileOf s u).still.vpend = true → ∀ b, exec (.imageCopyDone (u, b)) s = .next { s with snap := { s.snap with
        take := some { k with deferred := if u ∈ k.deferred then k.deferred else k.deferred ++ [u] } } }) ∧
      ((tileOf s u).still.vpend = false → ∀ b, ∃ t, exec (.imageCopyDone (u, b)) s = .next t ∧
        { t with snap := s.snap, tiles := s.tiles } = s ∧ t.snap = { s.snap with ponds := t.snap.ponds } ∧
        (∀ v, tileOf t v = if v = u then { tileOf s u with power := { (tileOf s u).power with holdSnap := false } } else tileOf s v) ∧
        (∀ v, v ≠ u → imageOf t k.pond v = imageOf s k.pond v) ∧
        (let i := imageOf t k.pond u
         let dark := (tileOf s u).still.state == 6 || (tileOf s u).power.retired
         i.snapId = k.id ∧ i.ltn = (tileOf s u).txn.ltn ∧ i.mapEpoch = (tileOf s u).txn.mapEpoch ∧ i.dark = dark ∧
           i.vpendWaited = k.deferred.contains u ∧ i.lateFrz = (tileOf s u).still.lateFrz ∧ i.frzTs = (tileOf s u).still.frzTs ∧
           i.state = (if dark then {} else (tileOf s u).engine) ∧ i.digest = imageDigest u i ∧ i.bad = b))) ∧
    (k.goAt.isSome = true → ∀ f, f < numFields → (shimOf s f).done = false →
      ((∃ u ∈ uncopied s f, (tileOf s u).still.vpend = true ∨ copyHolds (tileOf s u) = true) → exec (.shimDone f) s = .next s) ∧
      ((∀ u ∈ uncopied s f, (tileOf s u).still.vpend = false ∧ copyHolds (tileOf s u) = false) → ∃ t, exec (.shimDone f) s = .next t ∧
        (∀ g, shimOf t g = if g = f then { shimOf s f with done := true } else shimOf s g) ∧
        (∀ u ∈ uncopied s f, (tileOf t u).power.holdSnap = false ∧ imageOf t k.pond u = makeImage s u k.id (k.deferred.contains u)) ∧
        (∀ u, u ∉ uncopied s f → tileOf t u = tileOf s u) ∧
        ((∃ g, g < numFields ∧ g ≠ f ∧ (shimOf s g).done = false) → { t with snap := s.snap, shims := s.shims, tiles := s.tiles } = s) ∧
        ((∀ g, g < numFields → g ≠ f → (shimOf s g).done = true) → k.kind = 0 → k.autoRel = true → s.root.queue.length < 64 → t.root = { s.root with
          queue := insertAction { kind := 2, scope := 0, tick := soonest s, launchAt := soonest s - s.time.lstill, origin := 3 }
            s.root.queue }))) ∧
    (mapsWf s → k.ownStill = true → k.rerun = false → k.goAt = none → ∃ t, exec .snapCopyTimeout s = .next t ∧
      SnapBroke (elapse (k.t + 245000) s) t k 5 ∧
      (k.kind = 1 → s.root.queue.length < 64 → s.root.queue.any (fun a => a.kind == 1 && a.origin == 3) = false → ∃ a ∈ t.root.queue, a.kind = 2 ∧ a.scope = 0 ∧ a.origin = 3))) ∧
  (∀ (s : State) (k : Nat), k < numTiles → ∃ t, exec (.vpendFall k) s = .next t ∧ OnlyTile s t k ∧
    tileOf t k = { tileOf s k with still := { (tileOf s k).still with vpend := false } })

/-- 11 R338 to R349. -/
def Obligations.SlotsAndLogsAreKept : Prop :=
  (∀ (s : State) (f g : Nat) (w : List (Nat × Byte)), f < numFields → (g + 1) * 65536 ≤ tierBytes s →
    let q := shimOf s f
    let wrote := fun (t : State) => { t with shims := s.shims, snap := s.snap } = s ∧
      t.snap = { s.snap with resLow := t.snap.resLow } ∧ ∀ u, u ≠ f → shimOf t u = shimOf s u
    (q.epoch = none ∨ g ∈ q.written → ∃ t, exec (.slotReq f g w) s = .next t ∧ wrote t ∧
      shimOf t f = { q with tier := tierWrite g w q.tier }) ∧
    (∀ e, q.epoch = some e → g ∉ q.written →
      (needing s f g = [] → ∃ t, exec (.slotReq f g w) s = .next t ∧ wrote t ∧
        shimOf t f = { q with tier := tierWrite g w q.tier, written := q.written ++ [g] }) ∧
      (needing s f g ≠ [] → 0 < slotFree s f → ∃ t, exec (.slotReq f g w) s = .next t ∧ wrote t ∧
        shimOf t f = { q with
          slots := q.slots ++ [{ granule := g, epoch := e, content := granuleCells q g }]
          tier := tierWrite g w q.tier
          written := q.written ++ [g] }) ∧
      (∀ p, needing s f g = [p] → slotFree s f = 0 → mapsWf s → s.snap.take = none → (pondOf s p).state = 3 →
        s.alarm.enabled = false → ∃ t, exec (.slotReq f g w) s = .next t ∧ (shimOf t f).faults = satAdd 14 q.faults 1 ∧ (pondOf t p).state = 4 ∧ (pondOf t p).cause = 1 ∧
          (shimOf t f).tier = tierWrite g w q.tier ∧ (shimOf t f).written = q.written ++ [g]))) ∧
  (∀ (s : State) (f g a : Nat), f < numFields →
    (a = 0 → exec (.copyDone f g a) s = .next s) ∧
    (∀ x ∈ (shimOf s f).slots, a ≠ 0 → x.granule = g → (shimOf s f).epoch = some x.epoch → mapsWf s →
      s.snap.take = none → (∀ p ∈ onSlot s f g, (pondOf s p).state = 3) → ∃ t, exec (.copyDone f g a) s = .next t ∧
        (shimOf t f).faults = satAdd 14 (shimOf s f).faults 1 ∧ (shimOf t f).tier = (shimOf s f).tier ∧
        (∀ p ∈ onSlot s f g, (pondOf t p).state = 4 ∧ (pondOf t p).cause = 4))) ∧
  (∀ (s : State) (f : Nat), (awaitsAck s f = false → exec (.cowAck f) s = .next s ∧ ∀ n, exec (.cowAckTimeout f n) s = .next s) ∧
    (awaitsAck s f = true → (∃ t, exec (.cowAck f) s = .next t ∧ OnlyShim s t f ∧ shimOf t f = { shimOf s f with cowAcked := true }) ∧
      (∀ k, s.snap.take = some k → mapsWf s →
        (∃ t, exec (.cowAckTimeout f true) s = .next t ∧ SnapBroke (shimFault f 0 0 0 s) t k 4) ∧
        (∃ t, exec (.cowAckTimeout f false) s = .next t ∧
          SnapBroke (shimFault f 0 1 0 (elapse ((shimOf s f).cowSentAt + 10000) s)) t k 4)))) ∧
  (∀ (s : State) (d src sd i : Nat) (unit : List Byte), d < numDies →
    let e := edgeOf s d
    let r := logRecord src sd unit
    (flowFrom e src sd = none → exec (.ingCopy d src sd unit) s = .next s) ∧
    (flowFrom e src sd = some i → i ∈ e.openFlows → e.state = 1 → 1 ≤ unit.length → unit.length ≤ 512 →
      (e.log.length + r.length ≤ 262144 → ∃ t, exec (.ingCopy d src sd unit) s = .next t ∧ OnlyEdge s t d ∧
        edgeOf t d = { e with log := e.log ++ r }) ∧
      (262144 < e.log.length + r.length → ∀ k, s.snap.take = some k → mapsWf s →
        ∃ t, exec (.ingCopy d src sd unit) s = .next t ∧ (edgeOf t d).log = e.log ∧ (edgeOf t d).state = 3 ∧
          SnapBroke (onEdge d (fun e => { e with state := 3 }) s) t k 2)) ∧
    (∀ id, (flowFrom e src sd = none ∨ e.snapId ≠ id) → ∀ kind, ∃ t, exec (.mkSeen d src sd id kind) s = .next t ∧ OnlyEdge s t d ∧
      edgeOf t d = { e with badMarkers := e.badMarkers + 1 }) ∧
    (flowFrom e src sd = some i → i ∈ e.openFlows → s.snap.restoreReply = none →
      (e.state = 1 → ∃ t, exec (.mkSeen d src sd e.snapId 0) s = .next t ∧ OnlyEdge s t d ∧
        edgeOf t d = { e with openFlows := e.openFlows.erase i, ingDiscard := e.ingDiscard.erase i, state := if e.openFlows.erase i = [] then 2 else 1 }) ∧
      (e.state = 5 → ∃ t, exec (.mkSeen d src sd e.snapId 1) s = .next t ∧ OnlyEdge s t d ∧
        edgeOf t d = { e with openFlows := e.openFlows.erase i, ingDiscard := e.ingDiscard.erase i, state := if e.openFlows.erase i = [] then 0 else 5 }))) ∧
  (∀ (s : State) (d : Nat) (k : SnapTake), d < numDies → s.snap.take = some k → (edgeOf s d).snapId = k.id →
    let e := edgeOf s d
    (e.state = 2 → k.sealing = false → ∃ t, exec (.logWritten d) s = .next t ∧ OnlyEdge { s with snap := t.snap } t d ∧
      edgeOf t d = { e with logWritten := true } ∧ t.snap = { s.snap with ponds := t.snap.ponds } ∧
      pondOf t k.pond = { pondOf s k.pond with logs := mput [] (pondOf s k.pond).logs d e.log, logged := (pondOf s k.pond).logged ++ [d] } ∧
      (∀ p, p ≠ k.pond → pondOf t p = pondOf s p)) ∧
    (e.state = 2 → k.sealing = true → mapsWf s → (∀ u ∈ (pondOf s k.pond).cutDies, u ≠ d → u ∈ (pondOf s k.pond).logged) →
      ∃ t, exec (.logWritten d) s = .next t ∧ t.snap.take = none ∧ t.snap.curValid = true ∧ t.snap.curId = k.id ∧
        t.snap.curPond = k.pond ∧ (pondOf t k.pond).state = 3 ∧ (pondOf t k.pond).commitTs = now s ∧
        mget [] (pondOf t k.pond).logs d = e.log ∧ (s.snap.curValid = true → (pondOf t s.snap.curPond).previous = true) ∧
        (∀ h, k.reply = some h → Replied s t h .ok (le 4 k.id ++ le 1 0 ++ zeros 3 ++ le 8 k.t ++ le 8 (now s)))) ∧
    (e.state = 1 → k.sealing = true → mapsWf s → ∃ t, exec (.markerTimeout (d, false)) s = .next t ∧
      SnapBroke (elapse (e.releasedAt + e.markerTmo * 1000) s) t k 3) ∧
    (e.state = 1 → mapsWf s → ∃ t, exec (.markerTimeout (d, true)) s = .next t ∧ SnapBroke s t k 3)) ∧
  (∀ (s : State) (d : Nat), d < numDies →
    ((edgeOf s d).egFreeze = true → ∃ t, exec (.egFrozenRise d) s = .next t ∧ OnlyEdge s t d ∧
      edgeOf t d = { edgeOf s d with egFrozen := true }) ∧
    ((edgeOf s d).egFreeze = false → exec (.egFrozenRise d) s = .next s ∧ exec (.egFrozenFall d) s = .next s ∧
      exec (.egFrozenTimeout d) s = .next s) ∧
    ((edgeOf s d).egFreeze = true → (edgeOf s d).egFrozen = true →
      let u := onEdge d (fun e => { e with egFrozen := false, egFalls := e.egFalls + 1 }) s
      (s.snap.take = none → exec (.egFrozenFall d) s = .next u) ∧
      (∀ k, s.snap.take = some k → k.sealing = false → mapsWf s → ∃ t, exec (.egFrozenFall d) s = .next t ∧ SnapBroke u t k 5)) ∧
    ((edgeOf s d).egFreeze = true → (edgeOf s d).egFrozen = false →
      let u := onEdge d (fun e => { e with flagged := true }) (elapse ((edgeOf s d).egFreezeAt + 1000) s)
      (s.snap.take = none → exec (.egFrozenTimeout d) s = .next u) ∧
      (∀ k, s.snap.take = some k → k.sealing = false → mapsWf s → ∃ t, exec (.egFrozenTimeout d) s = .next t ∧ SnapBroke u t k 5))) ∧
  (∀ (s : State) (h : ReqHdr) (d : Nat) (cut : Bool) (es : List (Nat × Nat)), AsIntrusive s h → d < numDies →
    es.length ≤ 64 → (∀ p ∈ es, p.2 < numDies) → s.plans.snap = none →
    (s.snap.take = none → (cut = true → es ≠ []) → ∃ t, exec (.peerSet h d cut es) s = .next t ∧
      Answered { s with edges := t.edges } t 0x84 h .ok [] ∧
      (∀ u, u ≠ d → edgeOf t u = edgeOf s u) ∧
      edgeOf t d = { edgeOf s d with cut := cut, peers := (edgeOf t d).peers } ∧
      (∀ i p, es[i]? = some p → mget (0, 0) (edgeOf t d).peers i = (p.1 + 1, p.2)) ∧ (edgeOf t d).peers.length = es.length) ∧
    (es = [] → ∃ t, exec (.peerSet h d true es) s = .next t ∧
      Answered s t 0x84 h .malformed (detail { reason := 0x10, index := 2 })) ∧
    (s.snap.take.isSome = true → (cut = true → es ≠ []) → ∃ t, exec (.peerSet h d cut es) s = .next t ∧
      Answered s t 0x84 h .busy (detail {})))

/-- 11 R340, R353, R354, R356; 12 R387. -/
def Obligations.SnapshotsRestore : Prop :=
  (∀ (s : State) (h : ReqHdr) (id p : Nat), AsIntrusive s h → mapsWf s → (∀ c ∈ restoreChecks id true s, c.bad = false) →
    validPond s id = some p → s.snap.draining = false → (∀ d, (edgeOf s d).cut = false) →
    (imagesOk s p = true → (∀ f, (shimOf s f).copyback = []) → s.root.queue.length < 64 → ∃ t, exec (.snapRestore h id true 0) s = .next t ∧
      sent t = sent s ++ fragmentsOf (mkResponse { h with opcode := 0x81 } .ok (le 8 (soonest s) ++ zeros 8)) ∧
      t.root = { s.root with
        queue := insertAction { kind := 2, scope := 0, tick := soonest s, launchAt := soonest s - s.time.lstill, origin := 6 }
          s.root.queue } ∧
      t.snap.restoring = false ∧ t.snap.curValid = true ∧ t.snap.curPond = p ∧ t.snap.curId = (pondOf s p).snapId ∧
      (pondOf t (1 - p)).state = 0 ∧ (pondOf t p).state = 3 ∧
      (s.cfg.skS = false → ∀ f, f < numFields → (shimOf t f).slots = [] ∧ (shimOf t f).epoch = some s.snap.nextEpoch) ∧
      (∀ q ∈ (pondOf s p).images, ∀ u, imageTarget s q.1 q.2 = some u → u < numTiles → q.2.dark = false →
        (∀ r ∈ (pondOf s p).images, imageTarget s r.1 r.2 = some u → r = q) →
        (tileOf t u).engine = { q.2.state with
          route := if mendedSince s (pondOf s p).mapEpoch u then (tileOf s u).engine.route else q.2.state.route }) ∧
      (∀ u, (∀ q ∈ (pondOf s p).images, imageTarget s q.1 q.2 = some u → q.2.dark = true) → (tileOf t u).engine = (tileOf s u).engine) ∧
      (∀ u, { tileOf t u with engine := (tileOf s u).engine, core := { (tileOf t u).core with dip := (tileOf s u).core.dip } } = tileOf s u)) ∧
    (imagesOk s p = false → ∃ t, exec (.snapRestore h id true 0) s = .next t ∧
      sent t = sent s ++ fragmentsOf (mkResponse { h with opcode := 0x81 } .broken (detail { reason := 0x12, index := 8 })) ∧
      t.root = s.root ∧ (pondOf t p).state = 4 ∧ (pondOf t p).cause = 8 ∧ t.snap.restoring = false)) ∧
  (∀ (s : State) (f g a : Nat), g ∉ (shimOf s f).copyback → exec (.cbDone f g a) s = .next s) ∧
  (∀ (s : State) (f g a : Nat), f < numFields → s.snap.restoring = true → g ∈ (shimOf s f).copyback → mapsWf s →
    let e := (pondOf s s.snap.restorePond).epoch
    ((∃ k, (shimOf s k).copyback ≠ [] ∧ (k = f → (shimOf s f).copyback.erase g ≠ [])) →
      ∃ t, exec (.cbDone f g 0) s = .next t ∧ OnlyShim s t f ∧
        shimOf t f = { shimOf s f with
          copyback := (shimOf s f).copyback.erase g
          tier := storeBytes 0 (shimOf s f).tier (g * 65536) (asOf (shimOf s f) e g) }) ∧
    ((∀ k, (if k = f then (shimOf s f).copyback.erase g else (shimOf s k).copyback) = []) → s.snap.restoreRec = true →
      ∃ t, exec (.cbDone f g 0) s = .next t ∧ t.snap.restoring = false ∧ t.snap.curValid = true ∧
        t.snap.curPond = s.snap.restorePond ∧ t.root = s.root ∧ sent t = sent s ∧
        (shimOf t f).tier = storeBytes 0 (shimOf s f).tier (g * 65536) (asOf (shimOf s f) e g)) ∧
    (a ≠ 0 → s.snap.take = none → s.snap.draining = false → s.snap.restoreRec = false → (pondOf s s.snap.restorePond).state = 3 →
      ∃ t, exec (.cbDone f g a) s = .next t ∧ t.snap.restoring = false ∧ (pondOf t s.snap.restorePond).state = 4 ∧
        (pondOf t s.snap.restorePond).cause = 4 ∧ (∀ k, (shimOf t k).copyback = []) ∧ t.root = s.root ∧
        ∀ h, s.snap.restoreReply = some h → Replied s t h .broken (detail { reason := 0x12, index := 4 })))

/-- 11 R351, R357 to R359, R363; 12 R371; 13 R432. -/
def Obligations.SnapshotsDrainAndDrop : Prop :=
  (∀ (s : State) (h : ReqHdr) (id p : Nat) (full : Bool) (d : Dest), AsObserver s h → mapsWf s → validPond s id = some p →
    (full = true → s.cfg.skS = false) → s.snap.draining = false → imagesOk s p = true → drainSize s full ≤ d.limit →
    ∃ t, exec (.snapDrain h id full d) s = .next t ∧ Waits { s with snap := t.snap, shims := t.shims } t 0x82 h ∧
      t.snap = { s.snap with
        ponds := t.snap.ponds
        draining := true
        drainPond := p
        drainFull := full
        drainReply := some { h with opcode := 0x82 }
        drainDest := d
        drains := s.snap.drains ++ ⟨d, 0, drainHeader s p full⟩ ::
          (List.range 48).map (fun f => ⟨d, 4096 + f * pondBytes, drainField s p f⟩) } ∧
      (∀ q, pondOf t q = if q = p then { pondOf s p with draining := true } else pondOf s q) ∧
      (∀ f, shimOf t f = { shimOf s f with asof := 0 })) ∧
  (∀ (s : State) (h : ReqHdr) (id p : Nat) (full : Bool) (d : Dest), AsObserver s h → validPond s id = some p →
    (full = true → s.cfg.skS = false) → s.snap.draining = false → imagesOk s p = false → drainSize s full ≤ d.limit →
    s.snap.take = none → ∃ t, exec (.snapDrain h id full d) s = .next t ∧
      sent t = sent s ++ fragmentsOf (mkResponse { h with opcode := 0x82 } .broken (detail { reason := 0x12, index := 8 })) ∧
      (pondOf t p).state = 4 ∧ (pondOf t p).cause = 8 ∧ t.snap.draining = false ∧ t.tiles = s.tiles) ∧
  (∀ (s : State) (f : Nat), s.snap.draining = true → s.snap.drainFull = true → f < numFields →
    (shimOf s f).asof < tierGranules s → mapsWf s →
    (∃ t, exec (.asofData f true) s = .next t ∧ OnlyShim { s with snap := t.snap } t f ∧
      (shimOf t f) = { shimOf s f with asof := (shimOf s f).asof + 1 } ∧
      t.snap = { s.snap with drains := s.snap.drains ++ [⟨s.snap.drainDest,
        4096 + 48 * pondBytes + f * tierBytes s + (shimOf s f).asof * 65536,
        asOf (shimOf s f) (pondOf s s.snap.drainPond).epoch (shimOf s f).asof⟩] }) ∧
    (∃ t, exec (.asofData f false) s = .next t ∧ t.snap.draining = false ∧ (shimOf t f).faults = satAdd 14 (shimOf s f).faults 1 ∧
      ∀ h, s.snap.drainReply = some h → Replied s t h .timeout (detail {}))) ∧
  (∀ s : State, (drainOver s = false → exec .drainDone s = .next s) ∧
    (∀ h, drainOver s = true → s.snap.drainReply = some h → ∃ t, exec .drainDone s = .next t ∧ t.snap.draining = false ∧
      t.snap.drainReply = none ∧ (pondOf t s.snap.drainPond).draining = false ∧ t.tiles = s.tiles ∧ t.root = s.root ∧
      Replied s t h .ok [])) ∧
  (∀ (s : State) (h : ReqHdr) (id : Nat), AsIntrusive s h → id ≠ 0 → s.snap.take = none →
    (∀ p, dropPond s id = some p → s.snap.draining = false → ∃ t, exec (.snapDrop h id) s = .next t ∧
      Answered { s with snap := t.snap, shims := t.shims } t 0x85 h .ok [] ∧
      pondOf t p = { images := (pondOf s p).images, logs := (pondOf s p).logs } ∧
      (∀ q, q ≠ p → pondOf t q = { pondOf s q with previous := (pondOf t q).previous }) ∧
      (s.snap.curValid = true → s.snap.curPond ≠ p → (pondOf s s.snap.curPond).state = 3 →
        t.snap.curValid = true ∧ t.snap.curId = s.snap.curId)) ∧
    (dropPond s id = none → ∃ t, exec (.snapDrop h id) s = .next t ∧ Answered s t 0x85 h .refused (detail { reason := 0x12 }))) ∧
  (∀ (s : State) (h : ReqHdr), AsObserver s h → ∃ t, exec (.snapQuery h) s = .next t ∧ Answered s t 0x86 h .ok (snapBody s)) ∧
  (∀ (s : State) (f : Nat),
    (s.rill.inService = false → exec (.controllerFatalState f) s = .next s) ∧
    (s.rill.inService = true → f < numFields → ∃ t u, exec (.controllerFatalState f) s = .next t ∧
      t = (let v := raiseClass 7 u; if recRuns v then v else { v with recov := { v.recov with dieLoss := false } }) ∧
      OnlyShim { s with recov := { s.recov with dieLoss := true } } u f ∧ shimOf u f = { shimOf s f with lost := true }))

/-! Recoveries, mends and records -/

/-- 12 R371 to R375, R382, R389, R391, R396, R398. -/
def Obligations.RecoveriesDecide : Prop :=
  (∀ s : State, (s.alarm.running = none ∨ s.recov.phase ≠ 1 → exec .recoveryStart s = .next s) ∧
    (s.recov.phase ≠ 4 ∨ s.snap.restoring = true → exec .recoveryReady s = .next s) ∧
    (recBusy s = false → exec .recOverrun s = .next s) ∧
    (recBusy s = true → let e := elapse (s.recov.start + 50000000) s
      exec .recOverrun s = .next (setW1c 0xA00 (2 ^ 19) { e with recov := { e.recov with overrun := true } }))) ∧
  (∀ (s : State) (a : AlarmAction), s.alarm.running = some a → a.action = 4 → a.declaredAt.isSome = true → s.recov.phase = 1 →
    mendRuns s = false →
    let us := nameSuspects s a.tick
    let c := s.recov.cls
    let ended := fun (n : Nat) (t : State) => t.recov.outcome = n ∧ t.recov.phase = 6 ∧ t.recov.suspects = us ∧
      t.alarm.running = none ∧ t.port.events.getLsbD 7 = true ∧ t.root.queue = s.root.queue ∧ t.root.wstate = s.root.wstate ∧
      t.snap = s.snap ∧ ∀ k, { tileOf t k with eddy := (tileOf s k).eddy } = tileOf s k
    (c = 7 → s.recov.dieLoss = true → ∃ t, exec .recoveryStart s = .next t ∧ ended 6 t) ∧
    (c < 7 → s.recov.dieLoss = false → (policyOf s c).rollback = false → ∃ t, exec .recoveryStart s = .next t ∧ ended 8 t) ∧
    (c < 7 → s.recov.dieLoss = false → (policyOf s c).rollback = true → isRepeat s c us = false → deadTiles s us = [] →
      s.recov.dead = [] → s.recov.mending = [] → s.root.confirm = [] →
      s.root.wstate = 3 → notStill s 0 = [] →
      let o := recOnset s us (recClasses s)
      (o.bind (usablePond s) = none → ∃ t, exec .recoveryStart s = .next t ∧ ended 5 t) ∧
      (∀ p, o.bind (usablePond s) = some p → mapsWf s → s.cfg.skS = false → imagesOk s p = true → regionStands s = false →
        s.snap.draining = false → ∃ t, exec .recoveryStart s = .next t ∧ t.recov.phase = 4 ∧ t.recov.snapId = (pondOf s p).snapId ∧
          t.recov.onset = o ∧ t.recov.suspects = us ∧ t.root.wstate = 3 ∧ t.root.queue = s.root.queue ∧
          t.snap.restorePond = p ∧ t.snap.restoreRec = true) ∧
      (∀ p, o.bind (usablePond s) = some p → imagesOk s p = false → (pondOf s p).state = 3 → s.snap.take = none →
        regionStands s = false → s.snap.draining = false → ∃ t, exec .recoveryStart s = .next t ∧ t.recov.outcome = 5 ∧
          t.recov.phase = 6 ∧ (pondOf t p).state = 4 ∧ (pondOf t p).cause = 8))) ∧
  (∀ s : State, s.recov.phase = 4 → s.snap.restoring = false → ∃ t, exec .recoveryReady s = .next t ∧ t.recov.phase = 5 ∧
    t.recov.outcome = (if s.recov.dead.any (fun u => !spareCol (tileX u)) then 3 else 2) ∧ t.tiles = s.tiles ∧
    ((policyOf s s.recov.cls).resume = 1 → cutDies s = [] → s.root.queue.length < 64 → t.root = { s.root with
      queue := insertAction { kind := 2, scope := 0, tick := soonest s, launchAt := soonest s - s.time.lstill, origin := 6 }
        s.root.queue }) ∧
    ((policyOf s s.recov.cls).resume ≠ 1 ∨ cutDies s ≠ [] → t.root = s.root)) ∧
  (∀ (s : State) (h : ReqHdr) (c a v : Nat), AsIntrusive s h → 1 ≤ c → c ≤ 5 → a = 0 ∨ a = 1 ∨ a = 4 → policyBad v = false →
    (recBusy s = false → ∃ t, exec (.recPolicy h c a v) s = .next t ∧
      Answered { s with
        recov := { s.recov with policies := mput {} s.recov.policies c (policyImage v) }
        alarm := { s.alarm with
          classes := mput {} s.alarm.classes c { classOf s c with action := a, used := 0 }
          disarmed := s.alarm.disarmed &&& ~~~((1 : BitVec 16) <<< c) } } t 0x91 h .ok []) ∧
    (recBusy s = true → ∃ t, exec (.recPolicy h c a v) s = .next t ∧ Answered s t 0x91 h .busy (detail {}))) ∧
  (∀ (s : State) (h : ReqHdr) (k : Nat), AsIntrusive s h → mapsWf s → (∀ c ∈ mendChecks k s, c.bad = false) →
    (ltnOf s k = none → ∃ t, exec (.mendNow h k) s = .next t ∧
      Answered { s with tiles := t.tiles, recov := t.recov } t 0x92 h .ok [] ∧
      (∀ u, tileOf t u = if u = k then { tileOf s k with power := { (tileOf s k).power with retired := true } } else tileOf s u) ∧
      (∃ d, t.recov.defects = s.recov.defects ++ [d] ∧ d.kind = 2 ∧ d.tile = k ∧ d.deadPos = tileX k % 16) ∧
      { t.recov with defects := s.recov.defects, deadX := s.recov.deadX, deadY := s.recov.deadY } = s.recov) ∧
    ((ltnOf s k).isSome = true → s.txn.active = none → s.txn.waiting = [] → s.txn.tstate ≠ 6 →
      ∃ t, exec (.mendNow h k) s = .next t ∧ Waits { s with tiles := t.tiles, recov := t.recov, txn := t.txn } t 0x92 h ∧
        (tileOf t k).power.retired = true ∧ (∀ u, (tileOf t u).engine = (tileOf s u).engine) ∧
        t.recov.mendRequest = some { h with opcode := 0x92 } ∧ t.recov.mendTile = k ∧ t.txn.tstate = 2 ∧
        (∃ x, t.txn.active = some x ∧ x.purpose = 4 ∧ x.centre = true))) ∧
  (∀ (s : State) (h : ReqHdr) (k : Nat), AsIntrusive s h → k < numTiles → s.lc.code = 2 →
    ∃ t, exec (.mendNow h k) s = .next t ∧ Answered s t 0x92 h .denied (detail {}))

/-- 12 R377 to R380, R388, R392 to R396; 13 R432. That the defect records left by a full Spring make the request time out is the
model's (DESIGN CHOICE, log 42). -/
def Obligations.RecordsAreWritten : Prop :=
  (∀ s : State, wellNext s = none →
    exec .wellWriteDone s = .next s ∧ exec .wellBurstTimeout s = .next s) ∧
  (∀ (s : State) (w : CrashWrite), s.boot.wellAbsent = false → 4096 ≤ w.offset → 256 ≤ w.bytes.length →
    let put := fun (t : State) (hdr : Nat → Bool) =>
      { t with xspi := { t.xspi with well := s.xspi.well, owner := s.xspi.owner }, recov := s.recov } = s ∧
      (∀ i, i < w.bytes.length → i < 252 ∨ 256 ≤ i → mget 0xFF t.xspi.well (w.offset + i) = w.bytes.getD i 0) ∧
      wellRead t (w.offset + 252) 4 = le 4 1 ∧
      (∀ a, a < w.offset ∨ w.offset + w.bytes.length ≤ a → hdr a = false → mget 0xFF t.xspi.well a = mget 0xFF s.xspi.well a)
    let header := fun (t : State) =>
      wellRead t 8 8 = le 4 ((w.offset + w.bytes.length + 4095) / 4096 * 4096) ++ le 4 (wellWord s 12 + 1)
    s.xspi.wellWaits = [] →
    (wellNext s = some (0, w) → sequencing s = false →
      (s.txn.owed = none → ∃ t, exec .wellWriteDone s = .next t ∧ t.recov = { s.recov with lastGasp := none } ∧
        put t (fun a => decide (16 ≤ a) && decide (a < 20)) ∧ wellRead t 16 4 = le 4 (wellWord s 16 + 1)) ∧
      (∀ h, s.txn.owed = some h → ∃ t, exec .wellWriteDone s = .next t ∧ t.txn = { s.txn with owed := none } ∧
        Replied s t h .refused (detail { reason := 0x12, index := 7 }))) ∧
    (wellNext s = some (1, w) → s.xspi.owner ≠ 1 → ∃ t, exec .wellWriteDone s = .next t ∧
      { t.recov with older := s.recov.older } = s.recov ∧ t.recov.older.length + 1 = s.recov.older.length ∧
      put t (fun a => w.ended && decide (8 ≤ a) && decide (a < 24)) ∧ (w.ended = true → header t)) ∧
    (wellNext s = some (2, w) → s.xspi.owner ≠ 1 → ∃ t n, exec .wellWriteDone s = .next t ∧
      t.recov = { s.recov with crash := some { w with written := true, lost := n } } ∧
      put t (fun a => w.ended && decide (8 ≤ a) && decide (a < 24)) ∧ (w.ended = true → header t))) ∧
  (∀ (s : State) (w : CrashWrite), wellNext s = some (0, w) → s.xspi.wellWaits = [] →
    let same := fun (t : State) => { t with xspi := s.xspi, recov := s.recov, port := s.port } = s ∧ t.xspi.well = s.xspi.well ∧
      t.xspi.spring = s.xspi.spring ∧ sent t = sent s
    let failed := { s.recov with wellFail := true, lastGasp := some { w with failed := true } }
    (s.boot.wellAbsent = true → ∃ t, exec .wellWriteDone s = .next t ∧ same t ∧ t.recov = failed) ∧
    (sequencing s = false → ∃ t, exec .wellBurstTimeout s = .next t ∧ same t ∧ t.xspi.wellTmo = satAdd 16 s.xspi.wellTmo 1 ∧
      t.recov = if w.retried then failed else { s.recov with lastGasp := some { w with retried := true } })) ∧
  (∀ s : State, s.recov.defects = [] → exec (.defectRecordWrite true) s = .next s ∧
    (s.xspi.pending = [] → exec .springProgramTimeout s = .next s)) ∧
  (∀ (s : State) (d : DefectRec) (r : List DefectRec), s.recov.defects = d :: r →
    (wellBusy s = true ∨ s.xspi.owner = 1 → ∀ ok, exec (.defectRecordWrite ok) s = .next s) ∧
    (wellBusy s = false → s.xspi.owner ≠ 1 →
    (∀ a, springFree s = some a → ∃ t, exec (.defectRecordWrite true) s = .next t ∧
      { t with xspi := { t.xspi with spring := s.xspi.spring }, recov := s.recov } = s ∧ t.recov = { s.recov with defects := r } ∧
      springRead t a 64 = defectBytes d ∧
      (∀ b, b < a ∨ a + 64 ≤ b → mget 0xFF t.xspi.spring b = mget 0xFF s.xspi.spring b)) ∧
    (∀ i, pendingFree s = some i → ∃ t, exec (.defectRecordWrite false) s = .next t ∧
      { t with xspi := { t.xspi with well := s.xspi.well }, recov := s.recov } = s ∧
      t.recov = { s.recov with defectPending := true, defects := r } ∧ wellRead t (0x21000 + 64 * i) 64 = defectBytes d))) ∧
  (∀ (s : State) (p : SpringOp) (h : ReqHdr), s.xspi.pending = [p] → p.erase = false → p.last = true → p.reply = some h →
    s.xspi.owner = 1 → s.xspi.wellWaits = [] → ∃ t, exec .springProgramTimeout s = .next t ∧ t.xspi = { s.xspi with
      springTmo := satAdd 16 s.xspi.springTmo 1
      pending := []
      owner := 0 } ∧ Replied s t h .timeout (detail {})) ∧
  (∀ (s : State) (n : Nat),
    (n < 32 → exec (.lastGasp n) s = .next { s with recov := { s.recov with pfGlitch := satAdd 4 s.recov.pfGlitch 1 } }) ∧
    (32 ≤ n → s.alarm.enabled = false → exec (.lastGasp n) s = .next { s with alarm := { s.alarm with pfWarn := true, pfLow := n } }) ∧
    (32 ≤ n → s.alarm.enabled = true → s.boot.romReason = 0 → (classOf s 0).action = 5 → sequencing s = false →
      ∃ t, exec (.lastGasp n) s = .next t ∧ t.recov.phase = 7 ∧ t.recov.lastGasp.isSome = true ∧
        t.alarm.raised.getLsbD 0 = true ∧ (∃ a, t.alarm.running = some a ∧ a.action = 5 ∧ a.scope = 0))) ∧
  (∀ s : State, exec .pfWarnRise s = .next { s with alarm := { s.alarm with pfWarn := false, pfLow := 0, pfRoseAt := now s } }) ∧
  (∀ (s : State) (h : ReqHdr), AsObserver s h →
    (∃ t, exec (.crashList h 0) s = .next t ∧ Answered s t 0x90 h .empty []) ∧
    (∀ n, n ≠ 0 → ∃ t, exec (.crashList h n) s = .next t ∧
      Answered s t 0x90 h .ok ((newestCrashes s n ++ [0x1000, 0x11000]).flatMap (crashEntry s)))) ∧
  (∀ (s : State) (h : ReqHdr), AsIntrusive s h →
    (pendingSlots s = [] → ∃ t, exec (.defectFlush h) s = .next t ∧ Answered s t 0x93 h .empty []) ∧
    (∀ i a, pendingSlots s = [i] → springFree s = some a → ∃ t, exec (.defectFlush h) s = .next t ∧
      Answered { s with
        xspi := { s.xspi with well := t.xspi.well, spring := t.xspi.spring }
        recov := { s.recov with defectPending := false } } t 0x93 h .ok [] ∧
      springRead t a 64 = wellRead s (0x21000 + 64 * i) 64 ∧ wellRead t (0x21000 + 64 * i) 64 = List.replicate 64 0xFF) ∧
    (pendingSlots s ≠ [] → springFree s = none → ∃ t, exec (.defectFlush h) s = .next t ∧
      Answered { s with recov := { s.recov with defectPending := true } } t 0x93 h .timeout (detail {})))

/-! The life cycle, start, resets and power -/

/-- 14 R446 to R453; 15 R465. That PHASE keeps COPY3 until the cold reset that follows is the model's (DESIGN CHOICE, log 57). -/
def Obligations.LifeCycleMoves : Prop :=
  (∀ (s : State) (h : ReqHdr) (n : Nat) (k : BitVec 256), AsObserver s h → 1 ≤ n → n ≤ 4 →
    (tokenOk s n k = true → n = s.lc.code → ∃ t, exec (.lcTransition h n k) s = .next t ∧ Answered s t 0xA0 h .ok (le 1 n)) ∧
    (tokenOk s n k = false → openFields s n ≠ [] → ∃ t, exec (.lcTransition h n k) s = .next t ∧
      Answered s t 0xA0 h .denied (detail { reason := 0xC })) ∧
    (tokenOk s n k = true → n ≠ s.lc.code → transitionBusy s = false →
      (transition s.lc.code n = true → fieldMissing s n = false → s.alarm.pfWarn = false → s.lc.junctionHot = false →
        ∃ t, exec (.lcTransition h n k) s = .next t ∧
          Waits { s with lc := { s.lc with phase := 1, target := n, since := now s, reply := some { h with opcode := 0xA0 } } } t 0xA0 h) ∧
      (transition s.lc.code n = false → ∃ t, exec (.lcTransition h n k) s = .next t ∧
        Answered s t 0xA0 h .refused (detail { reason := 0x12 })))) ∧
  (∀ (s : State) (w f : Bool), s.lc.phase = 0 ∨ s.lc.phase = 5 → exec (.lcTransitionDone w f) s = .next s) ∧
  (∀ (s : State) (w f : Bool) (n : Nat), s.lc.phase = 1 → s.lc.target = n →
    (n = 1 ∨ n = 2 ∨ n = 4 → s.alarm.pfWarn = false → ∃ t, exec (.lcTransitionDone w f) s = .next t ∧
      otpByte t (n - 1) = 0xFF ∧ otpByte t (3 + n) = 0xFF ∧ otpByte t (7 + n) = 0xFF ∧ otpByte t (11 + n) = 0xFF ∧
      (∀ a, a ≠ n - 1 → a ≠ 3 + n → a ≠ 7 + n → a ≠ 11 + n → otpByte t a = otpByte s a) ∧
      t.xspi.spring = s.xspi.spring ∧ t.xspi.well = s.xspi.well ∧ t.lc.code = decodeLc t ∧ (n = 4 → t.lc.code = 4) ∧
      t.lc.phase = 5 ∧ t.tiles = s.tiles ∧ ∀ h, s.lc.reply = some h → Replied s t h .ok (le 1 (decodeLc t))) ∧
    (n = 1 ∨ n = 2 ∨ n = 4 → s.alarm.pfWarn = true → ∃ t, exec (.lcTransitionDone w f) s = .next t ∧
      otpByte t (11 + n) = 0xFF ∧ { t with xspi := { t.xspi with otp := s.xspi.otp } } = s ∧
      ∀ a, a ≠ 11 + n → otpByte t a = otpByte s a) ∧
    (n = 3 → s.alarm.pfWarn = false → ∃ t, exec (.lcTransitionDone true false) s = .next t ∧ t.lc.code = decodeLc t ∧
      t.lc.phase = 5 ∧ otpByte t 2 = 0xFF ∧ otpByte t 6 = 0xFF ∧ otpByte t 10 = 0xFF ∧
      (∀ i, i < 48 → otpByte t (0x80 + i) = 0xFF ∧ otpByte t (0xE0 + i) = 0xFF) ∧
      (∀ a, a < 2 ^ 24 → mget 0xFF t.xspi.well a = 0) ∧
      (∀ p ∈ tableParts s, p.kind = 3 → ∀ a, p.offset ≤ a → a < p.offset + p.size → mget 0xFF t.xspi.spring a = 0xFF) ∧
      (∀ a, (∀ p ∈ tableParts s, p.kind = 3 → a < p.offset ∨ p.offset + p.size ≤ a) →
        mget 0xFF t.xspi.spring a = mget 0xFF s.xspi.spring a)) ∧
    (n = 3 → w = false ∨ f = true ∨ s.alarm.pfWarn = true → ∃ t, exec (.lcTransitionDone w f) s = .next t ∧ t.boot.romReason = 9 ∧ t.lc.phase = 0 ∧ t.lc.code = s.lc.code ∧
      (∀ i, i < 48 → otpByte t (0x80 + i) = 0xFF ∧ otpByte t (0xE0 + i) = 0xFF) ∧
      ∀ h, s.lc.reply = some h → Replied s t h .timeout (detail {}))) ∧
  (∀ (s : State) (h : ReqHdr) (o : Nat) (d : List Byte), WithSpring s h →
    (d ≠ [] → o + d.length ≤ (partOf s 1).size → o = 0 ∨ fwProgrammed s o d.length = false →
      ∃ t, exec (.fwWrite h o d) s = .next t ∧ Waits { s with xspi := t.xspi } t 0xA1 h ∧
        t.xspi.spring = s.xspi.spring ∧ t.xspi.well = s.xspi.well ∧ t.xspi.otp = s.xspi.otp ∧
        t.xspi.pending = s.xspi.pending ++ closeOps { h with opcode := 0xA1 }
          ((if o = 0 then blockErases (partOf s 1).offset (partOf s 1).size else []) ++
            pagePrograms (pageBytes s) d.length ((partOf s 1).offset + o) d)) ∧
    (o ≠ 0 → o + d.length ≤ (partOf s 1).size → fwProgrammed s o d.length = true → ∃ t, exec (.fwWrite h o d) s = .next t ∧
      Answered s t 0xA1 h .refused (detail { reason := 0x12 })) ∧
    (∀ n, n ≠ 0 → ∃ t, exec (.fwCommit h n) s = .next t ∧
      Answered s t 0xA2 h .ok (le 4 (if n ≠ 512 + imageLength s then 1 else imageCode s))) ∧
    (∃ t, exec (.fwCommit h 0) s = .next t ∧ Answered s t 0xA2 h .empty []))

/-- 15 R459 to R473; 03 R85, R94; 12 R383; 17 R504. What a cold reset leaves of the parts it does not hold is the model's reading
(DESIGN CHOICE, log 45); the time mark of start is applied in one step (log 46). -/
def Obligations.StartRuns : Prop :=
  (∀ (s : State) (c n : Nat), (c = 0 → n < 100 → exec (.coldReset c n) s = .next s) ∧
    (c = 0 → 100 ≤ n → n < 1000 → exec (.coldReset c n) s = .next (drawFree s) ∨
      exec (.coldReset c n) s = .next (coldReset (drawFree s))) ∧
    (c ≠ 0 ∨ 1000 ≤ n → sequencing s = true → ∃ t, exec (.coldReset c n) s = .next t ∧ t.lc.phase = 0 ∧ t.lc.code = decodeLc t ∧
      ∀ a, otpByte t a ||| otpByte s a = otpByte t a) ∧
    (c ≠ 0 ∨ 1000 ≤ n → sequencing s = false → mapsWf s → ∃ t, exec (.coldReset c n) s = .next t ∧ t.pending = s.pending ∧ t.lc.code = decodeLc s ∧
      t.xspi = { State.reset.xspi with
        spring := s.xspi.spring
        well := s.xspi.well
        otp := s.xspi.otp
        otpBad := s.xspi.otpBad } ∧
      (∀ k, tileOf t k = coldTile (tileOf s k)) ∧ (∀ f, (shimOf t f).tier = (shimOf s f).tier ∧ (shimOf t f).slots = []) ∧
      { t with
        pending := State.reset.pending
        tiles := State.reset.tiles
        edges := State.reset.edges
        shims := State.reset.shims
        cfg := State.reset.cfg
        lc := State.reset.lc
        alarm := State.reset.alarm
        sess := State.reset.sess
        boot := State.reset.boot
        xspi := State.reset.xspi } = State.reset)) ∧
  (∀ s : State, (s.boot.inReset = true → exec .start s = .next { s with boot := { s.boot with inReset := false, phase := 0 } }) ∧
    (s.boot.inReset = false → exec .start s = .next s)) ∧
  (∀ (s : State) (r : PhaseReport), s.boot.inReset = true ∨ s.boot.romReason ≠ 0 ∨ 9 ≤ s.boot.phase →
    exec (.startPhaseDone r) s = .next s) ∧
  (∀ (s : State) (r : PhaseReport), s.boot.inReset = false → s.boot.romReason = 0 →
    (s.boot.phase = 0 → exec (.startPhaseDone r) s = .next { s with
      boot := { s.boot with phase := 1 }
      time := { s.time with running := true, hub := 0 } }) ∧
    (s.boot.phase = 1 → ∃ t, exec (.startPhaseDone r) s = .next t ∧ t.tiles = s.tiles ∧
      (t.lc.code = 4 → t.boot.romReason = 11 ∧ t.port.opened = true) ∧
      (t.lc.code = 255 → t.boot.romReason = 12 ∧ t.port.opened = true) ∧
      (wipePending t = true → t.boot.romReason = 9 ∧ t.port.opened = true) ∧
      (t.lc.code ≠ 4 → t.lc.code ≠ 255 → wipePending t = false → t.boot.romReason = 0 ∧ t.boot.phase = 2 ∧ t.port = s.port)) ∧
    (s.boot.phase = 2 → ∃ t, exec (.startPhaseDone r) s = .next t ∧ t.boot.wellAbsent = !r.wellSfdpOk ∧
      (r.springSfdpOk = false → t.boot.romReason = 1) ∧ (r.springSfdpOk = true → tableValid s = false → t.boot.romReason = 2) ∧
      (r.springSfdpOk = true → tableValid s = true → t.boot.romReason = 0 ∧ t.boot.phase = 3 ∧ t.xspi.sckMhz = 104 ∧
        t.xspi.springReg = r.springReg)) ∧
    (s.boot.phase = 3 → ∃ t, exec (.startPhaseDone r) s = .next t ∧ (imageCode s ≠ 0 → t.boot.romReason = 2 + imageCode s) ∧
      (imageCode s = 0 → t.boot.romReason = 0 ∧ t.boot.phase = 4)) ∧
    (s.boot.phase = 4 → ∃ t, exec (.startPhaseDone r) s = .next t ∧ t.cfg.loaded = true ∧
      (t.boot.romReason = 7 ∨ t.boot.romReason = 0 ∧ t.boot.phase = if s.alarm.pfWarn then 4 else 5)) ∧
    (s.boot.phase = 5 → ∃ t, exec (.startPhaseDone r) s = .next t ∧
      (r.unreachable = true → t.boot.romReason = 8 ∧ t.rill.inService = s.rill.inService) ∧
      (r.unreachable = false → t.boot.phase = 6 ∧ t.rill.inService = true ∧ t.rill.badLinks = r.badLinks ∧
        t.rill.badJunctions = r.badJunctions ∧
        ∀ k, k < numTiles → (tileOf t k).power.answers = ((tileOf s k).power.answers && !r.missing.contains k))) ∧
    (s.boot.phase = 6 → (measure r.echo s).rill.overLat = [] → ∃ t, exec (.startPhaseDone r) s = .next t ∧ t.boot.phase = 7 ∧
      t.time.align = 1 ∧ t.time.lstill = (measure r.echo s).time.lstill ∧ t.alarm.enabled = true ∧
      (∀ c, c < 8 → classOf t c = mget {} s.cfg.bindings c) ∧
      (∀ k, k < numTiles → (tileOf s k).power.answers = true → (tileOf t k).time.off8 = 0 ∧ (tileOf t k).time.unset = false) ∧
      (∀ k, k < numTiles → (tileOf s k).power.answers = false → tileOf t k = tileOf s k)) ∧
    (s.boot.phase = 7 → ∃ t, exec (.startPhaseDone r) s = .next t ∧
      (∀ k ∈ s.boot.defectTiles, k < numTiles → (tileOf t k).power.retired = true) ∧
      (r.mapRinsed = true → t.boot.romReason = 13) ∧
      (r.mapRinsed = false → t.boot.phase = 8 ∧ t.mapEpoch = 1 ∧ ∀ k, k < numTiles → (tileOf s k).power.answers = true →
        (tileOf t k).txn.mapEpoch = 1 ∧ ltnOf t k = startLtn s.boot.defectTiles k)) ∧
    (s.boot.phase = 8 → ∃ t, exec (.startPhaseDone r) s = .next t ∧ t.boot.phase = 9 ∧ t.port.opened = true ∧ t.census.lcEn = true ∧
      (∀ k, k < numTiles → (tileOf s k).power.answers = true → (tileOf t k).hang.en = true ∧
        (tileOf t k).hang.limitUs = s.cfg.limitUs)))

/-- 15 R472, R473, R476; 13 R417, R426. That PLAN_RESTORE closes open work as a press does is the model's (DESIGN CHOICE, log 128). -/
def Obligations.ResetsSpareTheRest : Prop :=
  (∀ s : State, firmwareRuns s = false → (∀ c k, exec (.warmReset c k) s = .next s) ∧ ∀ k, exec (.hubWatchdogExpiry k) s = .next s) ∧
  (∀ (s : State), firmwareRuns s = true → s.txn.active = none → s.txn.waiting = [] → s.snap.take = none → s.snap.restoring = false →
    s.alarm.running = none → s.recov.phase = 0 → s.root.queue = [] → s.root.confirm = [] → s.root.wstate ≠ 3 → s.root.wstate ≠ 4 →
    let warmed := fun (cause : Nat) (copyOk : Bool) (t : State) =>
      t.boot.warmCount = satAdd 8 s.boot.warmCount 1 ∧ t.boot.lastWarm = cause % 16 ∧ t.alarm.raised = 0 ∧ t.rill.ops = [] ∧
      t.port.events.getLsbD 9 = true ∧ (∀ n, n ≠ 9 → t.port.events.getLsbD n = false) ∧ t.sess.outstanding = [] ∧
      t.tiles = s.tiles ∧ t.shims = s.shims ∧ t.edges = s.edges ∧ t.time.hub = s.time.hub ∧ t.port.opened = s.port.opened ∧
      t.boot.romReason = if copyOk then 0 else 10
    (s.sess.outstanding = [] → (∀ c k, ∃ t, exec (.warmReset c k) s = .next t ∧ warmed c k t ∧ sent t = sent s) ∧
      (∀ k, ∃ t, exec (.hubWatchdogExpiry k) s = .next t ∧ warmed 1 k t ∧ sent t = sent s)) ∧
    (∀ h, s.sess.outstanding = [h] → h.session ≠ 65535 → ∀ c k, ∃ t, exec (.warmReset c k) s = .next t ∧ warmed c k t ∧
      sent t = sent s ++ fragmentsOf (mkResponse h .timeout (detail { reason := 0xE }))) ∧
    (∀ (h : ReqHdr) (k : Bool), AsIntrusive s h → s.sess.outstanding = [] → ∃ t, exec (.centreReset h k) s = .next t ∧
      warmed 2 k t ∧ sent t = sent s ++ fragmentsOf (mkResponse { h with opcode := 0x07 } .ok []))) ∧
  (∀ s : State, s.rill.inService = false → exec .engineReset s = .next s) ∧
  (∀ s : State, s.rill.inService = true → mapsWf s → ∃ t, exec .engineReset s = .next t ∧
    { t with tiles := s.tiles, port := s.port } = s ∧ t.port = { s.port with w1c := t.port.w1c, w1cAt := t.port.w1cAt } ∧
    ∀ k, k < numTiles →
      let x := tileOf s k
      (x.power.pwrOk = false → tileOf t k = x) ∧
      (x.power.pwrOk = true → (tileOf t k).core = {
          cmd := x.core.cmd
          cmdSeq := x.core.cmdSeq
          cmdBusy := false
          dip := { maxStep := x.core.dip.maxStep }
          count := { run := x.core.count.run, cleared := true } } ∧
        (tileOf t k).txn = { x.txn with void := x.txn.void || x.txn.hold || x.txn.tstate == 4 } ∧
        (tileOf t k).plan = { x.plan with reload := x.plan.reload || takesPlan x } ∧
        (x.still.heldRel = [] → (tileOf t k).still = { x.still with frz := x.still.mask != 0 }) ∧
        { tileOf t k with
          core := x.core
          eddy := x.eddy
          power := { (tileOf t k).power with ready := x.power.ready }
          plan := x.plan
          hang := x.hang
          still := x.still
          txn := x.txn } = x)) ∧
  (∀ (s : State) (k : Nat), k < numTiles → s.rill.inService = true → fetches s k = true → (tileOf s k).txn.ltnValid = true →
    ((tileOf s k).plan.reload = false → ∀ ok, exec (.planRestore k ok) s = .next s) ∧
    ((tileOf s k).plan.reload = true →
      let x := tileOf s k
      (bankDigest (bankList (inactiveBank x.core)) = x.plan.digest → fetchedCnt s k = x.plan.cntId →
        ∃ t, exec (.planRestore k true) s = .next t ∧ (tileOf t k).plan = { x.plan with reload := false, fails := 0 } ∧
          (tileOf t k).core.active = !x.core.active ∧ (tileOf t k).core.count.planId = x.plan.cntId ∧
          (x.core.dip.slots = [] → x.core.dip.caps = [] → x.core.dip.capq = [] → OnlyTile s t k ∧
            { tileOf t k with core := x.core, plan := x.plan } = x)) ∧
      (∃ t, exec (.planRestore k false) s = .next t ∧
        tileOf t k = { x with plan := { x.plan with fails := min 3 (x.plan.fails + 1) } } ∧ (∀ u, u ≠ k → tileOf t u = tileOf s u) ∧
        { t with tiles := s.tiles, boot := s.boot, port := s.port } = s ∧
        t.boot = if 2 ≤ x.plan.fails then { s.boot with reloadStuck := true } else s.boot)))

/-- 07 R224 to R226; 04 R140, R141; 15 R475; 03 R98; 17 R502. That VDD_AON's fall sets CENSUS_FAIL at once is the model's
(DESIGN CHOICE, log 56). -/
def Obligations.TilesLoseAndRegainPower : Prop :=
  (∀ (s : State) (k : Nat),
    ((tileOf s k).power.pwrOk = false → exec (.corePwrFall k) s = .next s ∧ (∀ b, exec (.darkPendingRise k b) s = .next s) ∧
      exec (.darkSaveTimeout k) s = .next s ∧ ∀ v, exec (.coreTimeRebuilt (k, v)) s = .next s) ∧
    ((tileOf s k).power.pwrOk = true → exec (.corePwrRise k) s = .next s)) ∧
  (∀ (s : State) (k : Nat), k < numTiles → s.rill.inService = false →
    let x := tileOf s k
    (x.power.pwrOk = true → ∃ t, exec (.corePwrFall k) s = .next t ∧ OnlyTile s t k ∧
      tileOf t k = { x with power := { x.power with pwrOk := false, ready := false } }) ∧
    (x.power.pwrOk = false → ∃ t, exec (.corePwrRise k) s = .next t ∧ OnlyTile s t k ∧
      tileOf t k = { x with power := { x.power with pwrOk := true } })) ∧
  (∀ (s : State) (k : Nat), k < numTiles → s.rill.inService = true →
    let x := tileOf s k
    (x.power.pwrOk = true →
      (∀ ok, ∃ t, exec (.darkPendingRise k ok) s = .next t ∧ (tileOf t k).power.darkPending = true ∧
        (tileOf t k).power.darkReady = ok ∧ (tileOf t k).plan.saved = ok ∧
        (tileOf t k).save = if ok then some { count := (tileOf t k).core.count } else none) ∧
      (x.power.darkPending = true → ∃ t, exec (.darkPendingFall k) s = .next t ∧ OnlyTile s t k ∧
        tileOf t k = { x with
          power := { x.power with darkPending := false, darkReady := false }
          save := none
          plan := { x.plan with saved := false } }) ∧
      (x.power.darkPending = true → x.power.darkReady = false → ∃ t, exec (.darkSaveTimeout k) s = .next t ∧
        OnlyTile (elapse (x.power.pendingAt + 10000) s) t k ∧
        tileOf t k = { x with
          power := { x.power with darkReady := true }
          save := none
          plan := { x.plan with saved := false, saveLost := true } }) ∧
      (s.root.stragglers = [] → ∃ t, exec (.corePwrFall k) s = .next t ∧ OnlyTile { s with boot := t.boot } t k ∧
        t.boot = { s.boot with freeCount := s.boot.freeCount + 1 } ∧ (tileOf t k).core = {} ∧
        (tileOf t k).power = { x.power with pwrOk := false, ready := false, noClock := false } ∧
        (tileOf t k).plan = { x.plan with saveLost := x.plan.saveLost || !(x.power.darkPending && x.power.darkReady) } ∧
        (x.still.heldRel = [] → (tileOf t k).still = { x.still with
          state := if x.still.mask ≠ 0 then 6 else 5
          frz := false
          frzAck := false
          rfrzAck := false
          vpend := false
          stepping := false }) ∧
        (tileOf t k).txn = { x.txn with void := x.txn.void || x.txn.hold || x.txn.tstate == 4 } ∧ (tileOf t k).save = x.save ∧
        (tileOf t k).time = x.time) ∧
      (∀ v, ∃ t, exec (.coreTimeRebuilt (k, v)) s = .next t ∧ OnlyTile s t k ∧
        ((∀ a ∈ x.still.pending, stubNow s k ≤ a.tick) → (tileOf t k).eddy = x.eddy) ∧
        tileOf t k = { x with
          power := { x.power with ready := true, cwdtSince := if x.power.ready then x.power.cwdtSince else stubNow s k }
          still := { x.still with
            pending := x.still.pending.map (fun a => { a with late := a.late || decide (a.tick < stubNow s k) })
            vpend := if x.still.frz && !x.power.ready then v else x.still.vpend }
          eddy := (tileOf t k).eddy })) ∧
    (x.power.pwrOk = false → ∃ t, exec (.corePwrRise k) s = .next t ∧ OnlyTile s t k ∧
      (tileOf t k).power = { x.power with pwrOk := true, ready := false, darkReady := false } ∧ (tileOf t k).save = none ∧
      (tileOf t k).still = { x.still with
        frz := x.still.mask != 0
        edgeAt := if x.still.mask ≠ 0 then now s else x.still.edgeAt
        lateFrz := if x.still.mask ≠ 0 then decide (x.still.actTick + 1000 < ownTime x (now s)) else x.still.lateFrz
        state := if x.still.mask ≠ 0 then 2 else if x.still.pending.any (fun a => a.kind == 1) then 1 else 0 } ∧
      (tileOf t k).core = { x.core with count := restoredCount (runsCounters s) x.save } ∧
      (∀ v, x.save = some v → (tileOf t k).core.count.cnt = v.count.cnt ∧ (tileOf t k).core.count.latched = v.count.latched ∧
        (tileOf t k).core.count.dtab = v.count.dtab) ∧
      (tileOf t k).plan = { x.plan with reload := x.plan.reload || takesPlan x, saved := false } ∧
      (tileOf t k).hang = { x.hang with elapsed := 0, since := ownTime x (now s) } ∧
      { tileOf t k with power := x.power, plan := x.plan, still := x.still, core := x.core, save := x.save, eddy := x.eddy, hang := x.hang } = x) ∧
    (∀ hi st, ∃ t, exec (.thrRegionChange k hi st) s = .next t ∧ OnlyTile { s with boot := t.boot } t k ∧
      tileOf t k = { x with
        power := { x.power with
          thr := hi
          noClock := x.power.noClock || (hi && st && x.power.pwrOk)
          cwdtSince := if x.power.thr ∧ hi = false then ownTime x (now s) else x.power.cwdtSince }
        core := { x.core with count := if x.core.count.cmdOpen ∧ hi
          then { x.core.count with cmdo := { x.core.count.cmdo with thrSeen := true } } else x.core.count } } ∧
      t.boot = { s.boot with thrAny := someThr t, thrAnyAt := if s.boot.thrAny ∧ someThr t = false then now s else s.boot.thrAnyAt } ∧
      (hi = true → st = false → x.power.noClock = false → t.boot.thrAny = true)) ∧
    (x.power.noClock = false → ∀ v, exec (.tclkResume (k, v)) s = .next s) ∧
    (x.power.noClock = true → ∀ v, ∃ t, exec (.tclkResume (k, v)) s = .next t ∧ OnlyTile { s with boot := t.boot } t k ∧
      t.boot = { s.boot with thrAny := someThr t, thrAnyAt := if s.boot.thrAny ∧ someThr t = false then now s else s.boot.thrAnyAt } ∧
      tileOf t k = { x with
        power := { x.power with noClock := false }
        still := if x.power.pwrOk ∧ x.still.mask ≠ 0 ∧ x.still.state = 2
          then { x.still with
            edgeAt := now s
            lateFrz := decide (x.still.actTick + 1000 < ownTime x (now s))
            frz := true
            frzAck := false
            rfrzAck := false
            vpend := v
            state := 2 } else x.still })) ∧
  (∀ s : State, (s.boot.inReset = true → exec .vddAonFall s = .next s) ∧
    (s.boot.inReset = false → ∃ t, exec .vddAonFall s = .next t ∧ t.root = { s.root with censusFail := true } ∧
      t.boot = { s.boot with aonLost := true, freeCount := s.boot.freeCount + 1 } ∧
      { t with root := s.root, boot := s.boot, tiles := s.tiles, port := s.port } = s ∧
      ∀ k, k < numTiles → (tileOf t k).core = (tileOf s k).core ∧ (tileOf t k).engine = (tileOf s k).engine ∧
        (tileOf t k).power.pwrOk = (tileOf s k).power.pwrOk ∧ (tileOf t k).power.answers = false))

/-! The Rill -/

/-- 02 R42 to R62, R75; 05 R157, R177; 15 R474. The order in which buffers are tried is the model's (DESIGN CHOICE, log 8), as
is that plan identifier 0 merges nothing (log 120). -/
def Obligations.PacketsTravel : Prop :=
  (∀ s : State, s.rill.inService = false →
    (∀ r p k, exec (.rillPacketArrive r p k) s = .next s) ∧ (∀ r g c, exec (.mcastCopy r g c) s = .next s) ∧
    (∀ a b c d e, exec (.mreadArrive a b c d e) s = .next s) ∧ (∀ a b c d e, exec (.mdataReturn a b c d e) s = .next s) ∧
    (∀ k b n, exec (.fetch k b n) s = .next s) ∧ (∀ k o n, exec (.copyout k o n) s = .next s) ∧
    (∀ w n, exec (.weirSlip w n) s = .next s) ∧ (∀ n, exec (.linkGate n) s = .next s) ∧ ∀ d b, exec (.edgeLinkDown d b) s = .next s) ∧
  (∀ (s : State) (n : Node) (port : Nat) (p : Packet), (nodeExists n && hasPort n port && destExists p) = false →
    exec (.rillPacketArrive n port p) s = .next s) ∧
  (∀ (s : State) (n : Node) (port : Nat) (p : Packet), s.rill.inService = true → nodeExists n = true → hasPort n port = true →
    destExists p = true →
    let enters := fun (q : Packet) => exec (.rillPacketArrive n port p) s = .next { s with rill := { s.rill with
      flows := s.rill.flows ++ [{ id := s.rill.nextPkt, node := n, port := port, pkt := q, feed := true }]
      nextPkt := s.rill.nextPkt + 1 } }
    (∀ r m, n = .router r → largestLen p.kind = some m → p.len ≤ m → enters p) ∧
    (∀ f, n = .junction f → enters p) ∧
    (∀ k, n = .port k → enters (if port = 1 then { p with src := 1023 * 512 + 511 } else p)) ∧
    (∀ r m, n = .router r → largestLen p.kind = some m → m < p.len → ∃ t, exec (.rillPacketArrive n port p) s = .next t ∧ OnlyTile s t r ∧
      (tileOf t r).hang = { (tileOf s r).hang with malformed := (tileOf s r).hang.malformed + 1 } ∧
      { tileOf t r with hang := (tileOf s r).hang, eddy := (tileOf s r).eddy } = tileOf s r) ∧
    (∀ r, n = .router r → 9 ≤ p.kind → ∃ t, exec (.rillPacketArrive n port p) s = .next t ∧ t.rill = s.rill ∧
      (tileOf t r).hang = { (tileOf s r).hang with malformed := (tileOf s r).hang.malformed + 1 }) ∧
    (∀ r, n = .router r → pktUp p = false → p.dest = rillCoord r → outPort s n p = 0)) ∧
  (∀ (s : State) (n : Node) (g : Nat) (credit : List Nat) (o : RillOp), s.rill.inService = true → flightOp s g = some o →
    o.multi = true → treeBranches s o n ≠ [] → copyReached s o n = true → (∀ b ∈ (routerOf s n).mcast, b.tag ≠ g) →
    (∀ c ∈ (routerOf s n).combiners, c.tag ≠ g) →
    let stay := (treeBranches s o n).filter (fun d => !credit.contains d)
    let go := (treeBranches s o n).filter (fun d => credit.contains d)
    (isRouter n = false ∨ (routerOf s n).mcast.length < 2 → ∃ t, exec (.mcastCopy n g (credit, true)) s = .next t ∧
      { t with rill := s.rill } = s ∧
      (routerOf t n).mcast = (routerOf s n).mcast ++ (if stay = [] then [] else [{ tag := g, branches := stay, since := now s }]) ∧
      (routerOf t n).combiners = (routerOf s n).combiners ++ [{ tag := g, copies := go.map (fun d => (d, now s)) }] ∧
      (∀ q, nodeKey q ≠ nodeKey n → routerOf t q = routerOf s q)) ∧
    (isRouter n = true → 2 ≤ (routerOf s n).mcast.length → ∃ t, exec (.mcastCopy n g (credit, true)) s = .next t ∧
      g ∈ (routerOf t n).input ∧ (routerOf t n).mcast = (routerOf s n).mcast ∧
      (routerOf t n).combiners = (routerOf s n).combiners) ∧
    (∃ t, exec (.mcastCopy n g (credit, false)) s = .next t ∧ (routerOf t n).mcast = (routerOf s n).mcast ∧
      (routerOf t n).combiners = (routerOf s n).combiners ++ [{ tag := g }] ∧ t.rill.ops = s.rill.ops ∧
      (∀ r, n = .router r → r < numTiles → (tileOf t r).hang = { (tileOf s r).hang with crcBad := (tileOf s r).hang.crcBad + 1 }))) ∧
  (∀ (s : State) (n : Node) (g d : Nat) (o : RillOp) (b : McastBuf), flightOp s g = some o →
    (routerOf s n).mcast.find? (fun b => b.tag == g) = some b → d ∈ b.branches →
    let ts := branchTiles s o n d
    ∃ t, exec (.mcastBranchTimeout n g d) s = .next t ∧ now t = now (elapse (b.since + 20000) s) ∧ t.tiles = s.tiles ∧
      t.rill.ops = s.rill.ops.map (fun x => if x.tag == g then { x with
        partials := x.partials ++ [nakMrsp n ts 1]
        counted := x.counted ++ ts
        dropped := x.dropped ++ ts } else x) ∧
      (∀ c ∈ (routerOf t n).mcast, c.tag = g → c.branches ≠ [])) ∧
  (∀ (s : State) (n : Node) (g : Nat) (o : RillOp), flightOp s g = some o → (∃ c ∈ (routerOf s n).combiners, c.tag = g) →
    (∀ b ∈ (routerOf s n).mcast, b.tag ≠ g) → nodeMembers s o n ≠ [] → (∀ u ∈ nodeMembers s o n, u ∈ o.counted) →
    (∃ t m, exec (.mrspCombine n (g, true)) s = .next t ∧ { t with rill := s.rill } = s ∧
      m.ok = ((o.partials.filter (behind s n)).map (·.ok)).sum ∧ m.nak = ((o.partials.filter (behind s n)).map (·.nak)).sum ∧
      (∃ x ∈ t.rill.ops, x = { o with partials := o.partials.filter (fun p => !behind s n p) ++ [m] }) ∧
      (∀ c ∈ (routerOf t n).combiners, c.tag ≠ g)) ∧
    (∃ t, exec (.mrspCombine n (g, false)) s = .next t ∧ (∃ x ∈ t.rill.ops, x = { o with
      partials := o.partials.filter (fun p => !behind s n p)
      counted := o.counted.filter (fun u => !(nodeMembers s o n).contains u) }) ∧ ∀ c ∈ (routerOf t n).combiners, c.tag ≠ g)) ∧
  (∀ (s : State) (n : Node) (g d at0 : Nat) (o : RillOp) (c : Combiner), flightOp s g = some o →
    (routerOf s n).combiners.find? (fun c => c.tag == g) = some c → c.copies.find? (fun p => p.1 == d) = some (d, at0) →
    (∃ u ∈ branchTiles s o n d, u ∉ o.counted) → ∃ t x, exec (.combinerTimeout n g d) s = .next t ∧
      now t = now (elapse (at0 + 24000) s) ∧ x ∈ t.rill.ops ∧ x.tag = g ∧
      nakMrsp n (branchTiles s o n d) 9 ∈ x.partials ∧ (∀ u ∈ branchTiles s o n d, u ∈ x.counted)) ∧
  (∀ (s : State) (a b : Node) (addr len plan : Nat), s.rill.inService = true →
    (mayAsk a b = false → ∀ c, exec (.mreadArrive a b addr len (plan, c)) s = .next s) ∧
    (mayAsk a b = true →
      let e : MergeEntry := { address := addr, length := len, plan := plan, requesters := [b] }
      (s.rill.merge = [] → plan ≠ 0 → len ≤ 256 → exec (.mreadArrive a b addr len (plan, true)) s = .next { s with rill := { s.rill with
        merge := [(a, e)], forwarded := s.rill.forwarded ++ [(a, e)] } }) ∧
      (plan = 0 ∨ 256 < len → exec (.mreadArrive a b addr len (plan, true)) s = .next { s with rill := { s.rill with
        forwarded := s.rill.forwarded ++ [(a, e)] } }) ∧
      (∀ rs, plan ≠ 0 → len ≤ 256 → b ∉ rs → s.rill.merge = [(a, { e with requesters := rs })] →
        exec (.mreadArrive a b addr len (plan, true)) s = .next { s with rill := { s.rill with
          merge := [(a, { e with requesters := rs ++ [b] })] } }) ∧
      (∀ rs d, s.rill.merge = [(a, { e with requesters := rs })] → s.rill.forwarded = [(a, e)] →
        exec (.mdataReturn a addr len plan (d, true)) s = .next { s with rill := { s.rill with
          merge := []
          forwarded := []
          multicast := s.rill.multicast ++ [(a, rs, d)] } }) ∧
      (∃ t, exec (.mreadArrive a b addr len (plan, false)) s = .next t ∧ t.rill.merge = s.rill.merge ∧
        t.rill.forwarded = s.rill.forwarded) ∧
      (∀ d, ∃ t, exec (.mdataReturn a addr len plan (d, false)) s = .next t ∧ t.rill.merge = s.rill.merge ∧
        t.rill.multicast = s.rill.multicast))) ∧
  (∀ (s : State) (k : Nat), k < numTiles → s.rill.inService = true →
    (∀ p, fetches s k = true → (tileOf s k).txn.ltnValid = true → s.plans.watchNext = some p →
      ∃ t, exec (.fetch k false p.id) s = .next t ∧ OnlyTile s t k ∧ inactiveBank (tileOf t k).core = bankMap (bankWords s (some p) k) ∧
        activeBank (tileOf t k).core = activeBank (tileOf s k).core ∧
        { tileOf t k with core := (tileOf s k).core } = tileOf s k) ∧
    ((tileOf s k).plan.reload = false → ∀ n, exec (.fetch k true n) s = .next s) ∧
    (∀ o n, (tileOf s k).power.answers = true → coreUp (tileOf s k) = true → o + n ≤ 49152 →
      exec (.copyout k o n) s = .next { s with rill := { s.rill with
        bulk := s.rill.bulk ++ [(k, bytesAt 0 (tileOf s k).engine.sram o n)] } }) ∧
    (∀ o n, coreUp (tileOf s k) = false → exec (.copyout k o n) s = .next s)) ∧
  (∀ (s : State) (w n : Nat), weirExists w = false ∨ (n ≠ 2 ∧ n ≠ 6) ∨ (weirOf s w).down = true → exec (.weirSlip w n) s = .next s) ∧
  (∀ (s : State) (w n : Nat), s.rill.inService = true → weirExists w = true → n = 2 ∨ n = 6 → (weirOf s w).down = false →
    let ts := (weirOf s w).slipTimes.filter (fun t => decide (now s < t + 1000000000)) ++ [now s]
    ∃ t, exec (.weirSlip w n) s = .next t ∧ (weirOf t w).separation = n ∧ (weirOf t w).retraining = true ∧
      (weirOf t w).slipTimes = ts ∧ (weirOf t w).down = decide (3 ≤ ts.length) ∧
      (n = 6 → (weirOf s w).slots.length = 4 → (weirOf t w).slots = (weirOf s w).slots ++ List.replicate 2 ({} : WeirSlot) ∧ t.rill.flows = s.rill.flows ∧
        ∀ v, v ≠ w → weirOf t v = weirOf s v) ∧
      (n = 2 → (weirOf s w).slots.length = 4 → (weirOf t w).slots = (weirOf s w).slots.drop 2) ∧
      (ts.length < 3 → t.rill.badLinks = s.rill.badLinks) ∧
      (3 ≤ ts.length → ∀ l, linkNo (weirEnd w).1 (weirEnd w).2 = some l → l ∈ t.rill.badLinks) ∧
      (weirTile w < numTiles → (tileOf t (weirTile w)).hang.slips = (tileOf s (weirTile w)).hang.slips + 1) ∧
      ∀ u, u ≠ weirTile w → tileOf t u = tileOf s u) ∧
  (∀ (s : State) (w : Nat), ((weirOf s w).retraining = false → exec (.weirRetrainDone w) s = .next s) ∧
    ((weirOf s w).retraining = true → ∃ t, exec (.weirRetrainDone w) s = .next t ∧ (weirOf t w).separation = 4 ∧
      (weirOf t w).retraining = false ∧ (weirOf t w).slots = List.replicate 4 {} ∧ (weirOf t w).down = (weirOf s w).down ∧
      (weirOf t w).slipTimes = (weirOf s w).slipTimes ∧ t.rill.ops = s.rill.ops ∧ t.time = s.time ∧
      ∀ v, v ≠ w → (weirOf t v).separation = (weirOf s v).separation ∧ (weirOf t v).slots = (weirOf s v).slots)) ∧
  (∀ (s : State) (n : Nat), s.rill.inService = true → n < 170 → n ∉ s.rill.gated →
    (s.boot.quiet = true → exec (.linkGate n) s = .next { s with rill := { s.rill with gated := s.rill.gated ++ [n] } }) ∧
    (s.boot.quiet = false → exec (.linkGate n) s = .next s)) ∧
  (∀ (s : State) (d : Nat) (b : Bool), s.rill.inService = true → d < numDies →
    (b = false ∨ (edgeOf s d).cut = true → ∃ t, exec (.edgeLinkDown d b) s = .next t ∧ Driven s t 6 ∧ { t with alarm := s.alarm } = s) ∧
    (b = true → (edgeOf s d).cut = false → exec (.edgeLinkDown d b) s = .next s))

/-- 02 R47 to R49, R59, R60, R76, R77; 04 R135; 12 R368; 13 R426; 16 R496. DIGEST and FLAGS words of these replies are free values
(DESIGN CHOICE, log 49). -/
def Obligations.OperationsAnswer : Prop :=
  (∀ (s : State) (k g : Nat) (o : RillOp), flightOp s g = some o → k ∈ o.acted ∨ k ∈ o.counted →
    exec (.stubRead k g) s = .next s ∧ exec (.stubWrite k g) s = .next s ∧ exec (.stubCensus k g) s = .next s ∧
      exec (.coreTimeout k g) s = .next s) ∧
  (∀ (s : State) (k g : Nat) (o : RillOp), flightOp s g = some o → s.rill.inService = true → k < numTiles → addresses s o k = true →
    reaches s o k = true → (tileOf s k).power.answers = true → k ∉ o.acted → k ∉ o.counted →
    let answered := fun (p : Mrsp) (t : State) => t.rill = { s.rill with ops := s.rill.ops.map (fun x =>
      if x.tag == g then { x with acted := x.acted ++ [k], partials := x.partials ++ [p], counted := x.counted ++ [k] } else x) }
    let acts := { s with rill := { s.rill with ops := s.rill.ops.map (fun (x : RillOp) => if x.tag == g then { x with acted := x.acted ++ [k] } else x) } }
    let drew := { s with boot := { s.boot with freeCount := s.boot.freeCount + 1 } }
    (stubReason s o k ≠ 0 →
      let done := fun (t : State) => { t with rill := s.rill } = s ∧ answered (nakMrsp (.router k) [k] (stubReason s o k)) t
      (o.op = 1 → ∃ t, exec (.stubRead k g) s = .next t ∧ done t) ∧ (o.op = 2 → ∃ t, exec (.stubWrite k g) s = .next t ∧ done t) ∧
        (o.op = 5 → ∃ t, exec (.stubCensus k g) s = .next t ∧ done t)) ∧
    (stubReason s o k = 0 →
      (o.op = 1 → ∃ t p, exec (.stubRead k g) s = .next t ∧ { t with rill := s.rill } = drew ∧ answered p t ∧ p.ok = 1 ∧ p.nak = 0 ∧
        p.data = (if o.space = 3 then bytesAt 0 (tileOf s k).engine.sram o.offset (packetLen o)
          else (regBytes (agentReg s k) o.offset (packetLen o)).getD [])) ∧
      (o.op = 5 → ∃ t p, exec (.stubCensus k g) s = .next t ∧ { t with rill := s.rill } = drew ∧ answered p t ∧ p.nak = 0 ∧
        p.ok = (if meetsCensus s k o then 1 else 0) ∧ p.list = (if meetsCensus s k o then [k] else [])) ∧
      (o.op = 2 → o.space = 3 → ∃ t p, exec (.stubWrite k g) s = .next t ∧ { t with rill := s.rill, tiles := s.tiles } = drew ∧
        answered p t ∧ p.ok = 1 ∧ p.nak = 0 ∧ (∀ u, u ≠ k → tileOf t u = tileOf s u) ∧
        tileOf t k = { tileOf s k with engine := { (tileOf s k).engine with
          sram := storeBytes 0 (tileOf s k).engine.sram o.offset (o.data.take (packetLen o)) } }) ∧
      (o.op = 2 → o.space ≠ 3 → ∃ t, exec (.stubWrite k g) s = .next t ∧
        t.tiles = (writeRegs (agentWrite k) o.offset (o.data.take (packetLen o))
          { acts with boot := { s.boot with freeCount := s.boot.freeCount + 1 } }).tiles)) ∧
    (coreOp o = true → stubReason s o k = 0 → ∃ t, exec (.coreTimeout k g) s = .next t ∧ t.tiles = s.tiles ∧
      now t = now (elapse ((reachedAt s o k).getD 0 + 1000) s) ∧ answered (nakMrsp (.router k) [k] 6) t) ∧
    (coreOp o = false ∨ stubReason s o k ≠ 0 → exec (.coreTimeout k g) s = .next s)) ∧
  (∀ (s : State) (f : Flow) (r : Nat) (p : Packet), s.pending = [] → s.rill.inService = true → s.time.running = true →
    s.txn.pressed = false → now s % 2 = 1 → s.rill.weirs = [] → s.rill.flows = [f] → f.node = .router r → f.port ≤ 5 → f.pkt = p →
    f.drop = false → f.got = pktFlits p → f.gone + 1 = pktFlits p → f.out = 0 → p.kind = 0 → p.crcOk = true →
    (pktRefusal (tileOf s r) p = 0 → ∃ t, step s = .next t ∧ t.rill.flows = [] ∧
      t.rill.delivered = s.rill.delivered ++ [(.router r, 0, p)]) ∧
    (pktRefusal (tileOf s r) p ≠ 0 → (tileOf s r).power.answers = true → ∃ t q, step s = .next t ∧
      t.rill.delivered = s.rill.delivered ∧ t.rill.flows = [{ id := s.rill.nextPkt, node := .router r, pkt := q, feed := true }] ∧
      q.kind = 1 ∧ q.src = rillCoord r ∧ q.tag = p.tag ∧ pktReason q = pktRefusal (tileOf s r) p) ∧
    ((9 < pktOp p ∨ pktOp p = 0) → pktLchk p = false → pktCchk p = false → pktRefusal (tileOf s r) p = 7)) ∧
  (∀ (s : State) (g : Nat), s.rill.inService = true → (∀ o ∈ s.rill.ops, o.tag ≠ g) →
    exec (.rillReply (g, true)) s = .next { s with rill := { s.rill with stray := s.rill.stray + 1 } }) ∧
  (∀ (s : State) (g : Nat), s.rill.inService = true → exec (.rillReply (g, false)) s = .next { s with rill := { s.rill with
    crcBad := s.rill.crcBad + 1
    ops := s.rill.ops.map (fun x => if x.tag == g then { x with partials := [], counted := [] } else x) } }) ∧
  (∀ (s : State) (g : Nat) (o : RillOp) (p : Mrsp) (r : List Mrsp) (h : ReqHdr), s.rill.inService = true → flightOp s g = some o →
    o.multi = false → o.partials = p :: r → o.reply = some h →
    (p.nak = 0 → o.op = 1 → o.length ≤ packetLen o → ∃ t, exec (.rillReply (g, true)) s = .next t ∧ Replied s t h .ok (o.data ++ p.data) ∧
      t.rill.ops = s.rill.ops.filter (fun x => x.tag != g) ∧ t.tiles = s.tiles) ∧
    (p.nak = 0 → o.op = 2 → o.data.length ≤ packetLen o → ∃ t, exec (.rillReply (g, true)) s = .next t ∧ Replied s t h .ok [] ∧
      t.rill.ops = s.rill.ops.filter (fun x => x.tag != g)) ∧
    (p.nak ≠ 0 → p.firstReason ≠ 3 → ∃ t, exec (.rillReply (g, true)) s = .next t ∧ t.rill.ops = s.rill.ops.filter (fun x => x.tag != g) ∧
      Replied s t h (reasonStatus p.firstReason) (detail { reason := 0x100 + p.firstReason, place := coord o.target }))) ∧
  (∀ (s : State) (g : Nat) (o : RillOp), s.rill.inService = true → flightOp s g = some o →
    let e := elapse (o.sentAt + s.time.rillTmo * 1000) s
    (o.op = 1 ∨ o.op = 5 → o.resent = false → ∃ t, exec (.rillResponseTimeout 0 g) s = .next t ∧ sent t = sent s ∧
      t.rill.ops = s.rill.ops.filter (fun x => x.tag != g) ++ [{ o with
        tag := s.rill.nextTag
        mapEpoch := e.mapEpoch
        sentAt := now e
        partials := []
        counted := []
        dropped := []
        acted := []
        resent := true }]) ∧
    (∀ h, o.reply = some h → (o.op ≠ 1 ∧ o.op ≠ 5) ∨ o.resent = true → o.multi = false →
      ∃ t, exec (.rillResponseTimeout 0 g) s = .next t ∧ t.rill.ops = s.rill.ops.filter (fun x => x.tag != g) ∧
        Replied s t h .timeout (detail { reason := 0x109, place := coord o.target }))) ∧
  (∀ s : State, s.rill.inService = true →
    (∀ e, s.root.confirm.find? (fun e => !e.failed) = some e →
      let u := elapse (e.repeatAt.getD (e.act.tick + 1000) + 2 * s.time.rillTmo * 1000) s
      ∃ t, exec (.rillResponseTimeout 1 0) s = .next t ∧
        t = raiseClass 7 (setW1c 0x600 (2 ^ 23) { u with root := { u.root with
          censusFail := true
          confirm := u.root.confirm.map (fun x => if x.act == e.act then { x with failed := true } else x) } })) ∧
    ((∀ e ∈ s.root.confirm, e.failed = true) → exec (.rillResponseTimeout 1 0) s = .next s) ∧
    (∀ f, f < numFields → (shimOf s f).lost = false →
      ((shimOf s f).fails = 0 → ∃ t, exec (.rillResponseTimeout 2 f) s = .next t ∧ OnlyShim s t f ∧
        shimOf t f = { shimOf s f with fails := 1 }) ∧
      ((shimOf s f).fails = 1 → s.alarm.enabled = false → ∃ t, exec (.rillResponseTimeout 2 f) s = .next t ∧
        (shimOf t f).lost = true ∧ t.recov.dieLoss = recRuns s)))

/-! The service port and the TAP -/

/-- 13 R404 to R417, R423, R436; 03 R89. That DATA_FRAME only assembles the request is the model's (DESIGN CHOICE, log 51). -/
def Obligations.TheLinkCarriesFrames : Prop :=
  (∀ s : State, s.port.opened = false →
    (∀ g a, exec (.ackFrame g a) s = .next s ∧ exec (.keepalive g a) s = .next s ∧ ∀ r, exec (.nakFrame g a r) s = .next s) ∧
    (∀ o b, exec (.dataFrame o b) s = .next s) ∧ exec .statusFrame s = .next s ∧ exec .hostSilentTimeout s = .next s ∧
    ∀ g, exec (.lreset g) s = .next s ∧ exec (.lresetAck g) s = .next s) ∧
  (∀ (s : State) (a n : Nat) (f : TxFrame) (r : List TxFrame), s.port.opened = true → s.port.blockLock = true →
    s.port.unacked = f :: r → n = (a + 4096 - f.seq) % 4096 →
    (1 ≤ n → n ≤ r.length + 1 →
      (∃ t, exec (.ackFrame s.port.gen a) s = .next t ∧ exec (.keepalive s.port.gen a) s = .next t ∧ { t with port := s.port } = s ∧
        sent t = (sent s).drop n ∧ t.port.timeouts = 0 ∧ t.port.lastValid = now s ∧
        ∀ q l, (f :: r).drop n = q :: l → t.port.ackedAt = q.sentAt)) ∧
    (n = 0 → exec (.ackFrame s.port.gen a) s = .next { s with port := { s.port with lastValid := now s } } ∧
      ∀ w, exec (.nakFrame s.port.gen a w) s = .next { s with port := { s.port with
        lastValid := now s
        resends := satAdd 16 s.port.resends 1
        unacked := s.port.unacked.map (fun f => { f with sentAt := now s })
        ackedAt := now s } }) ∧
    (∀ g, g ≠ s.port.gen → exec (.ackFrame g a) s = .next s ∧ exec (.keepalive g a) s = .next s)) ∧
  (∀ s : State, s.port.unacked = [] → exec .portAckTimeout s = .next s) ∧
  (∀ s : State, s.port.unacked ≠ [] →
    let e := elapse (s.port.ackedAt + 200000) s
    (s.port.timeouts < 15 → exec .portAckTimeout s = .next { e with port := { e.port with
      timeouts := s.port.timeouts + 1
      resends := satAdd 16 s.port.resends 1
      unacked := s.port.unacked.map (fun f => { f with sentAt := now e })
      ackedAt := now e } }) ∧
    (s.port.timeouts = 15 → s.port.resetting = none → ∃ t, exec .portAckTimeout s = .next t ∧
      t.port.resetting = some ((s.port.gen + 1) % 65536) ∧ t.port.linkUp = false ∧
      t.port.control = s.port.control ++ [(6, 0, (s.port.gen + 1) % 65536)])) ∧
  (∀ s : State, s.port.opened = true → s.port.resetting = none →
    (∃ t, exec .hostSilentTimeout s = .next t ∧ now t = now (elapse (s.port.lastValid + 1000000) s) ∧
      t.port.resetting = some ((s.port.gen + 1) % 65536) ∧ t.port.control = s.port.control ++ [(6, 0, (s.port.gen + 1) % 65536)] ∧
      sent t = sent s) ∧
    (s.port.blockLock = false → s.time.flock ≠ 3 →
      (now s ≤ s.port.lockLostAt + 1000 → exec .blockLockRegained s = .next { s with port := { s.port with blockLock := true } }) ∧
      (s.port.lockLostAt + 1000 < now s → ∃ t, exec .blockLockRegained s = .next t ∧ t.port.blockLock = true ∧ t.time = s.time ∧
        t.port.resetting = some ((s.port.gen + 1) % 65536))) ∧
    (s.port.blockLock = false → s.time.flock = 3 →
      let time := { s.time with flock := 1, holdSince := none }
      (s.time.align ≠ 2 ∨ (∀ h, s.time.holdSince = some h → now s ≤ h + 1000000) → ∃ t, exec .blockLockRegained s = .next t ∧
        t.time = time ∧ t.port.blockLock = true ∧ t.port.resetting = if s.port.lockLostAt + 1000 < now s then some ((s.port.gen + 1) % 65536)
          else none) ∧
      (∀ h, s.time.align = 2 → s.time.holdSince = some h → h + 1000000 < now s → ∃ t, exec .blockLockRegained s = .next t ∧
        t.alarm = (raiseClass 7 { s with port := { s.port with blockLock := true }, time := { time with align := 3 } }).alarm))) ∧
  (∀ s : State, (s.port.blockLock = true → exec .blockLockRegained s = .next s ∧
      exec .blockLockLost s = .next { s with
        port := { s.port with blockLock := false, lockLostAt := now s }
        time := if s.time.flock = 2 then { s.time with flock := 3, holdSince := some s.time.hub } else s.time }) ∧
    (s.port.blockLock = false → exec .blockLockLost s = .next s)) ∧
  (∀ (s : State) (g : Nat), s.port.opened = true → s.port.blockLock = true →
    let cleared := fun (t : State) => t.port.gen = g ∧ t.port.rxSeq = 0 ∧ t.port.txSeq = 0 ∧ sent t = [] ∧ t.port.linkUp = true ∧
      t.port.resetting = none ∧ t.port.linkResets = satAdd 16 s.port.linkResets 1 ∧ t.port.events.getLsbD 14 = true ∧
      t.sess = { s.sess with outstanding := s.sess.outstanding.filter (fun o => o.session == 65535) } ∧
      { t with port := s.port, sess := s.sess } = s
    (s.port.resetting = none → s.port.storm = false →
      (g ≠ s.port.gen ∨ s.port.linkUp = false → ∃ t, exec (.lreset g) s = .next t ∧ cleared t ∧
        t.port.control = s.port.control ++ [(7, 0, g)]) ∧
      (g = s.port.gen → s.port.linkUp = true → exec (.lreset g) s = .next { s with port := { s.port with
        lastValid := now s
        control := s.port.control ++ [(7, 0, g)] } })) ∧
    (∀ m, s.port.resetting = some m →
      (g < m → exec (.lreset g) s = .next { s with port := { s.port with lastValid := now s } }) ∧
      (g ≠ m → exec (.lresetAck g) s = .next s) ∧
      (g = m → ∃ t, exec (.lresetAck g) s = .next t ∧ cleared t ∧ t.port.control = s.port.control))) ∧
  (∀ s : State, (s.port.resetting = none → exec .lresetRepeat s = .next s) ∧
    (∀ g, s.port.resetting = some g → let e := elapse (s.port.lresetAt + 10000) s
      exec .lresetRepeat s = .next { e with port := { e.port with
        lresetAt := now e
        control := e.port.control ++ [(6, 0, g)] } })) ∧
  (∀ s : State, s.port.opened = true →
    let e := elapse s.port.frameDue s
    let u := { e with port := { e.port with frameSeq := (s.port.frameSeq + 1) % 2 ^ 32 } }
    (frameBody u).length = 64 ∧ exec .statusFrame s = .next { u with
      port := { u.port with
        frame := frameBody u
        newEvents := 0
        frameDue := (now e / 10000 + 1) * 10000 }
      recov := { u.recov with frames := (u.recov.frames ++ [frameBody u]).drop (u.recov.frames.length + 1 - 64) } }) ∧
  (∀ (s : State) (octets : List Byte), s.port.opened = true → s.port.blockLock = true →
    let f := parseFrame octets
    (f.crcOk = false → s.port.nakSent = false → exec (.dataFrame octets false) s = .next { s with port := { s.port with
      crcErr := satAdd 16 s.port.crcErr 1
      nakSent := true
      control := s.port.control ++ [(4, 1, s.port.gen)] } }) ∧
    (f.crcOk = true → f.gen = s.port.gen → f.ty = 1 → f.linkRsvd = false → f.length ≤ 2048 → f.length = f.rxLength → s.port.unacked = [] →
      (f.seq ≠ s.port.rxSeq → s.port.nakSent = false → exec (.dataFrame octets false) s = .next { s with port := { s.port with
        lastValid := now s
        nakSent := true
        control := s.port.control ++ [(4, 2, s.port.gen)] } }) ∧
      (f.seq = s.port.rxSeq → f.session ≠ 65535 → s.sess.assembling = [] → f.frag = 0 →
        (knownOpcode f.opcode = true → f.hdrRsvd = false → f.flags < 4 → f.bodyLength = f.body.length → f.body.length ≤ 2032 →
          exec (.dataFrame octets false) s = .next { s with
            port := { s.port with
              lastValid := now s
              rxSeq := (s.port.rxSeq + 1) % 4096
              nakSent := false
              control := s.port.control ++ [(3, 0, s.port.gen)] }
            sess := { s.sess with assembling := [{ opcode := f.opcode, flags := f.flags, tag := f.tag, session := f.session, reqId := f.reqId, nextFrag := 1, body := f.body, complete := true }] } }) ∧
        (knownOpcode f.opcode = false → ∃ t, exec (.dataFrame octets false) s = .next t ∧ { t with port := s.port } = s ∧
          sent t = sent s ++ fragmentsOf (mkResponse (fragHeader f) .malformed (detail { reason := 1 }))))))

/-- 13 R404, R405, R411. -/
def Obligations.FramesReadBack : Prop :=
  (∀ (gen ack seq reason ty : Nat) (payload : List Byte), gen < 65536 → ack < 4096 → seq < 4096 → reason < 16 → ty < 16 →
    payload.length ≤ 2048 →
    let f := parseFrame (frameOctets gen ack seq reason ty payload)
    f.crcOk = true ∧ f.gen = gen ∧ f.ack = ack ∧ f.seq = seq ∧ f.ty = ty ∧ f.length = payload.length ∧ f.rxLength = payload.length) ∧
  (∀ (gen ack seq op flags tag frag session reqId : Nat) (body : List Byte), op < 256 → flags < 256 → tag < 1024 → frag < 65536 →
    session < 65536 → reqId < 2 ^ 48 → body.length ≤ 2032 →
    let f := parseFrame (frameOctets gen ack seq 0 1
      (le 1 op ++ le 1 flags ++ le 2 tag ++ le 2 body.length ++ le 2 frag ++ le 2 session ++ le 6 reqId ++ body))
    f.opcode = op ∧ f.flags = flags ∧ f.tag = tag ∧ f.hdrRsvd = false ∧ f.bodyLength = body.length ∧ f.frag = frag ∧
      f.session = session ∧ f.reqId = reqId ∧ f.body = body) ∧
  (∀ (b c : List Byte), 8 ≤ b.length → c.length = 4 → unle c ≠ crc32 b → (parseFrame (b ++ c)).crcOk = false)

/-- 13 R437 to R440; 14 R443, R457. -/
def Obligations.TheMailboxServes : Prop :=
  (∀ s : State, ∃ t, exec .tapReset s = .next t ∧ t.tap.ir = 1 ∧ t.tap.reqBuf = [] ∧ t.tap.respBuf = [] ∧ t.tap.respWait = [] ∧
    t.tap.busy = false ∧ t.tap.overflow = false ∧ t.tap.alive = true ∧ t.tap.session.id = 65535 ∧
    t.sess.sessions = s.sess.sessions ∧
    (s.tap.alive = false → t.tap.session.intrusive =
      ((s.lc.code == 0 || s.lc.code == 1 || s.lc.code == 3) && !s.sess.sessions.any (fun x => x.intrusive)) ∧
      t.tiles = s.tiles ∧ t.txn = s.txn ∧ t.plans = s.plans ∧ t.port = s.port)) ∧
  (∀ (s : State) (c : Nat), ∃ t, exec (.tapInstruction c) s = .next t ∧ { t with tap := s.tap, boot := s.boot } = s ∧
    { t.tap with ir := s.tap.ir, capture := s.tap.capture } = s.tap ∧ t.tap.ir = tapSelect s c ∧
    (c = 1 → t.tap.capture = idcode s) ∧ (c = 0x12 → t.tap.capture = lcReg s % 2 ^ 32) ∧
    (c = 0x10 → s.lc.code ≠ 4 → s.lc.code ≠ 255 → t.tap.ir = 0x10 ∧ t.tap.capture = mboxStatus s.tap) ∧
    (c = 0x11 → s.lc.code ≠ 4 → s.lc.code ≠ 255 → t.tap.ir = 0x11) ∧
    (c = 0 → s.lc.code = 2 ∨ s.lc.code = 4 ∨ s.lc.code = 255 → t.tap.ir = 0xFF) ∧
    (c = 0x10 ∨ c = 0x11 → s.lc.code = 4 ∨ s.lc.code = 255 → t.tap.ir = 0xFF)) ∧
  (∀ (s : State) (w : Word),
    (s.tap.ir ≠ 0x11 → exec (.mboxDataWrite w) s = .next s ∧ exec .mboxDataRead s = .next s) ∧
    (s.tap.ir ≠ 0x10 → exec .mboxGo s = .next s ∧ exec .mboxAbort s = .next s) ∧
    (s.tap.ir = 0x11 → mboxIdle s.tap = true → s.tap.reqBuf.length < 256 →
      exec (.mboxDataWrite w) s = .next { s with tap := { s.tap with reqBuf := s.tap.reqBuf ++ [w] } }) ∧
    (s.tap.ir = 0x11 → mboxIdle s.tap = true → 256 ≤ s.tap.reqBuf.length →
      exec (.mboxDataWrite w) s = .next { s with tap := { s.tap with overflow := true } }) ∧
    (∀ v r, s.tap.ir = 0x11 → s.tap.respBuf = w :: v :: r →
      exec .mboxDataRead s = .next { s with tap := { s.tap with capture := w.toNat, respBuf := v :: r } }) ∧
    (s.tap.ir = 0x11 → s.tap.respBuf = [w] → s.tap.respWait = [] →
      exec .mboxDataRead s = .next { s with tap := { s.tap with capture := w.toNat, respBuf := [] } }) ∧
    (s.tap.ir = 0x11 → s.tap.respBuf = [] → exec .mboxDataRead s = .next { s with tap := { s.tap with capture := 0 } }) ∧
    (s.tap.ir = 0x10 → exec .mboxAbort s = .next { s with tap := { s.tap with
      reqBuf := []
      respBuf := []
      respWait := []
      overflow := false
      discard := s.tap.discard || s.tap.busy } })) ∧
  (∀ s : State, s.tap.ir = 0x10 → s.tap.alive = true → mboxIdle s.tap = true →
    let f := mboxFragment s.tap.reqBuf
    let u := { s with tap := { s.tap with reqBuf := [], overflow := false } }
    (s.tap.overflow = true → exec .mboxGo s = .next u) ∧
    (s.tap.overflow = false → 2 ≤ s.tap.reqBuf.length → f.session ≠ 65535 → ∃ t, exec .mboxGo s = .next t ∧
      { t with tap := u.tap } = u ∧ t.sess.assembling = s.sess.assembling ∧ t.tap.busy = false ∧
      (s.tap.discard = false → t.tap.respBuf =
        bytesWords (respHeader (mkResponse (fragHeader f) .denied (detail { reason := 8 })) 0 true 16 ++ detail { reason := 8 }))) ∧
    (s.tap.overflow = false → 2 ≤ s.tap.reqBuf.length → f.session = 65535 → s.sess.assembling = [] → f.frag = 0 →
      knownOpcode f.opcode = true → f.hdrRsvd = false → f.flags < 4 → f.bodyLength = f.body.length → f.body.length ≤ 2032 →
      exec .mboxGo s = .next { u with
        tap := { u.tap with busy := true }
        sess := { s.sess with assembling := [{ opcode := f.opcode, flags := f.flags, tag := f.tag, session := f.session, reqId := f.reqId, nextFrag := 1, body := f.body, complete := true }] } }))

/-! The block as a whole -/

/-- The queue of the block; that an empty queue passes one cycle is a DESIGN CHOICE (log 1). -/
def Obligations.StepTakesFront : Prop :=
  (∀ (c : Instr) (r : List Instr) (s : State), step { s with pending := c :: r } = exec c { s with pending := r }) ∧
  (∀ s : State, s.pending = [] →
    (s.time.running = true → s.txn.pressed = false → s.rill.flows = [] → (∀ w ∈ s.rill.weirs, weirBusy w.2 = false) →
      step s = .next { s with time := { s.time with hub := (s.time.hub + 1) % 2 ^ 64 } }) ∧
    (s.time.running = true → ∃ t, step s = .next t ∧ now t = (now s + 1) % 2 ^ 64 ∧ t.pending = [] ∧
      ∀ k, { tileOf t k with hang := (tileOf s k).hang, eddy := (tileOf s k).eddy } = tileOf s k) ∧
    (s.time.running = false → step s = .next s)) ∧
  (∀ (s : State) (nbits w : Nat), decodeTableWord nbits w = none ∧ s.withFetchWord nbits w = s)

/-- 00 R12 to R14: a request always completes with a status, whatever the state; an event whose condition does not hold
changes nothing (log 2). -/
def Obligations.EveryCommandCompletes : Prop :=
  ∀ (c : Instr) (s : State), ∃ t, exec c s = .next t ∧ t.pending = s.pending

/-- 13 R402: until start opens the port the lane carries Idle blocks only. -/
def Obligations.ClosedPortTakesNothing : Prop :=
  ∀ (c : Instr) (h : ReqHdr) (s : State), requestHdr c = some h → h.session ≠ 65535 → s.port.opened = false → exec c s = .next s

/-- 15 R459, R460, R473 and the cold values of the register tables; the reset values that the spec does not give are in logs 3
and 9, and none of them is stated here but the empty queue. -/
def Obligations.ResetHolds : Prop :=
  let s := State.reset
  Canonical s ∧ SessionsSound s ∧ s.pending = [] ∧
  s.time.hub = 0 ∧ s.time.running = false ∧ s.time.flock = 0 ∧ s.time.steering = false ∧ s.time.holdover = false ∧
  s.time.align = 0 ∧ s.time.steerPpm = 100 ∧ s.time.rillTmo = 30 ∧
  stillReg s = 0 ∧ s.root.queue = [] ∧ s.root.launched = [] ∧ s.root.wstate = 0 ∧
  s.alarm.enabled = false ∧ s.alarm.raised = 0 ∧ s.alarm.running = none ∧
  s.txn.host = none ∧ s.txn.active = none ∧ s.plans.watch = none ∧ s.plans.fold = none ∧ s.plans.cnt = none ∧
  s.plans.trace = none ∧ s.snap.take = none ∧ s.snap.curValid = false ∧ s.recov.phase = 0 ∧
  s.port.opened = false ∧ s.port.gen = 0 ∧ s.port.sessTmo = 10 ∧ s.sess.sessions = [] ∧ s.sess.outstanding = [] ∧
  (∀ k, (tileOf s k).still.frz = false ∧ (tileOf s k).still.mask = 0) ∧ s.tap.ir = 1

/-- The canonical form that log 5 fixes, kept by every command and by the empty queue's cycle. -/
def Obligations.CanonicalKept : Prop :=
  ∀ s t : State, Canonical s → step s = .next t → Canonical t

/-- 13 R419: "At most one intrusive session is open at a time", with GRANT's TAKEOVER and the mailbox session of R440. -/
def Obligations.SessionsStaySound : Prop :=
  ∀ s t : State, SessionsSound s → step s = .next t → SessionsSound t

/-- 14 R446: programming takes bits from 0 to 1 and never back. -/
def Obligations.OtpNeverClears : Prop :=
  ∀ (s t : State) (a : Nat), step s = .next t → mget 0 t.xspi.otp a &&& mget 0 s.xspi.otp a = mget 0 s.xspi.otp a

/-! Rules stated as they stand -/

/-- 04 R116, for each request that carries a TICK of the still tree; the conditions are those that 00 R13 puts first, and
L_still is at most 2^40 ns (01 R24 bounds it far below that). -/
def Obligations.FarTicksAreRefused : Prop :=
  ∀ (s : State) (h : ReqHdr) (tick : Nat), AsIntrusive s h → now s + 2 ^ 40 < tick → s.time.lstill ≤ 2 ^ 40 →
    s.root.queue.length < 63 → s.root.stepKind = 0 → recBusy s = false →
    (∀ scope, scope < 15 → (scope = 0 ∨ regionState s = true) →
      (∃ t b, exec (.stillAt h tick scope) s = .next t ∧ Answered s t 0x30 h .refused b) ∧
      (holdsStill s scope = false →
        (∃ t b, exec (.releaseAt h tick scope) s = .next t ∧ Answered s t 0x31 h .refused b) ∧
        (∀ n, n % 2 = 0 → 8 ≤ n → n ≤ 2147483646 → ∃ t b, exec (.stepTick h tick scope n) s = .next t ∧
          Answered s t 0x32 h .refused b) ∧
        (∀ k limit, 1 ≤ k → k ≤ 255 → 1 ≤ limit → limit ≤ 1000000 → ∃ t b, exec (.stepCmd h tick scope k limit) s = .next t ∧
          Answered s t 0x33 h .refused b))) ∧
    (∀ id autoRel, 1 ≤ id → id < 2 ^ 31 → takeBarred s = false → txnCommitted s = false →
      ∃ t b, exec (.snapTake h id autoRel tick) s = .next t ∧ Answered s t 0x80 h .refused b)

/-- 08 R265. -/
def Obligations.ComparisonsRaiseByRight : Prop :=
  ∀ (s : State) (h : ReqHdr) (g tensor step : Nat) (peers : List FpRecord) (own : FpRecord), AsObserver s h →
    s.cfg.skS = false → ownFp s g tensor step = some own →
    (peers ≠ [] → peers.length ≤ 63 →
      (isIntrusive s h.session = false → ∃ t, exec (.fpCompare h g tensor step peers) s = .next t ∧
        Answered s t 0x61 h .ok (compareBody own peers)) ∧
      (isIntrusive s h.session = true → ∃ t, exec (.fpCompare h g tensor step peers) s = .next t ∧
        ((fpOutcome own peers = 2 ∨ fpOutcome own peers = 3) → ∃ v, t = raiseClass 5 v ∧
          sent v = sent s ++ fragmentsOf (mkResponse { h with opcode := 0x61 } .ok (compareBody own peers)) ∧
          (s.alarm.enabled = true → t.alarm.raised.getLsbD 5 = true)) ∧
        (fpOutcome own peers ≠ 2 → fpOutcome own peers ≠ 3 → Answered s t 0x61 h .ok (compareBody own peers)))) ∧
    (∃ t, exec (.fpCompare h g tensor step []) s = .next t ∧ Answered s t 0x61 h .empty []) ∧
    (∃ t, exec (.fpRead h g 0 tensor) s = .next t ∧ Answered s t 0x60 h .empty [])

/-- 13 R438; 14 R449 gives the value where the life-cycle state is lost. -/
def Obligations.IdcodeReads : Prop :=
  ∀ s : State, ∃ t, exec (.tapInstruction 1) s = .next t ∧ { t with tap := s.tap } = s ∧
    t.tap = { s.tap with ir := 1, capture := t.tap.capture } ∧
    (s.lc.code ≠ 255 → t.tap.capture / 2 ^ 28 = 1 ∧ t.tap.capture / 2 ^ 12 % 2 ^ 16 = 0x5C0F ∧
      t.tap.capture / 2 % 2 ^ 11 = 0x2A7 ∧ t.tap.capture % 2 = 1) ∧
    (s.lc.code = 255 → t.tap.capture = 0xFF)

/-- 04 R144. -/
def Obligations.HangIsRecordedUnderRegion : Prop :=
  (∀ (s : State) (k : Nat), k < numTiles →
    let x := tileOf s k
    let e := elapse (now s + (hangLimit x - hangCount (stubNow s k) x)) s
    coreUp x = true → NoBank s k → EddyReady s k → hangCounts x = true →
    ∃ t, exec (.hang k) s = .next t ∧ Driven e t 3 ∧ t.root = e.root ∧ t.txn = e.txn ∧ t.snap = e.snap ∧
      (∀ u, (tileOf t u).still = (tileOf s u).still) ∧ (tileOf t k).hang.fired = true ∧
      (tileOf t k).hang.episodes = satAdd 16 x.hang.episodes 1 ∧
      Recorded e t k (ts40 (stubNow e k)) 0x05 (eddyFlags x)
        (BitVec.ofNat 64 (x.core.cmd.layer * 2 ^ 48 + x.core.cmd.oper * 2 ^ 32 + x.core.cmd.step))) ∧
  (∀ (s : State) (w : BitVec 16), s.rill.inService = true → w &&& drivenClasses s = 8 → regionStands s = true →
    s.alarm.enabled = true → recRuns s = false →
    let u := accepting s 8
    ∃ t, exec (.alarmAccept w) s = .next t ∧ t.alarm = { u.alarm with raised := u.alarm.raised ||| 8 } ∧ t.root = u.root ∧
      t.txn = u.txn ∧ t.snap = u.snap ∧ t.tiles = s.tiles)
end

