-- ==== Sys2Proof/Laws/State.lean ====
section
/-! SUPPORT. What each update of a part of the state does to each field, one lemma a field. -/

namespace Sys2Proof.Machine

@[simp] theorem onTime_mapEpoch (f : TimeState → TimeState) (s : State) : (onTime f s).mapEpoch = s.mapEpoch := rfl
@[simp] theorem onTime_time (f : TimeState → TimeState) (s : State) : (onTime f s).time = f s.time := rfl
@[simp] theorem onTime_root (f : TimeState → TimeState) (s : State) : (onTime f s).root = s.root := rfl
@[simp] theorem onTime_alarm (f : TimeState → TimeState) (s : State) : (onTime f s).alarm = s.alarm := rfl
@[simp] theorem onTime_txn (f : TimeState → TimeState) (s : State) : (onTime f s).txn = s.txn := rfl
@[simp] theorem onTime_plans (f : TimeState → TimeState) (s : State) : (onTime f s).plans = s.plans := rfl
@[simp] theorem onTime_folds (f : TimeState → TimeState) (s : State) : (onTime f s).folds = s.folds := rfl
@[simp] theorem onTime_census (f : TimeState → TimeState) (s : State) : (onTime f s).census = s.census := rfl
@[simp] theorem onTime_snap (f : TimeState → TimeState) (s : State) : (onTime f s).snap = s.snap := rfl
@[simp] theorem onTime_recov (f : TimeState → TimeState) (s : State) : (onTime f s).recov = s.recov := rfl
@[simp] theorem onTime_port (f : TimeState → TimeState) (s : State) : (onTime f s).port = s.port := rfl
@[simp] theorem onTime_sess (f : TimeState → TimeState) (s : State) : (onTime f s).sess = s.sess := rfl
@[simp] theorem onTime_tap (f : TimeState → TimeState) (s : State) : (onTime f s).tap = s.tap := rfl
@[simp] theorem onTime_lc (f : TimeState → TimeState) (s : State) : (onTime f s).lc = s.lc := rfl
@[simp] theorem onTime_boot (f : TimeState → TimeState) (s : State) : (onTime f s).boot = s.boot := rfl
@[simp] theorem onTime_cfg (f : TimeState → TimeState) (s : State) : (onTime f s).cfg = s.cfg := rfl
@[simp] theorem onTime_xspi (f : TimeState → TimeState) (s : State) : (onTime f s).xspi = s.xspi := rfl
@[simp] theorem onTime_rill (f : TimeState → TimeState) (s : State) : (onTime f s).rill = s.rill := rfl
@[simp] theorem onTime_tiles (f : TimeState → TimeState) (s : State) : (onTime f s).tiles = s.tiles := rfl
@[simp] theorem onTime_edges (f : TimeState → TimeState) (s : State) : (onTime f s).edges = s.edges := rfl
@[simp] theorem onTime_shims (f : TimeState → TimeState) (s : State) : (onTime f s).shims = s.shims := rfl
@[simp] theorem onTime_pending (f : TimeState → TimeState) (s : State) : (onTime f s).pending = s.pending := rfl

@[simp] theorem onRoot_mapEpoch (f : RootState → RootState) (s : State) : (onRoot f s).mapEpoch = s.mapEpoch := rfl
@[simp] theorem onRoot_time (f : RootState → RootState) (s : State) : (onRoot f s).time = s.time := rfl
@[simp] theorem onRoot_root (f : RootState → RootState) (s : State) : (onRoot f s).root = f s.root := rfl
@[simp] theorem onRoot_alarm (f : RootState → RootState) (s : State) : (onRoot f s).alarm = s.alarm := rfl
@[simp] theorem onRoot_txn (f : RootState → RootState) (s : State) : (onRoot f s).txn = s.txn := rfl
@[simp] theorem onRoot_plans (f : RootState → RootState) (s : State) : (onRoot f s).plans = s.plans := rfl
@[simp] theorem onRoot_folds (f : RootState → RootState) (s : State) : (onRoot f s).folds = s.folds := rfl
@[simp] theorem onRoot_census (f : RootState → RootState) (s : State) : (onRoot f s).census = s.census := rfl
@[simp] theorem onRoot_snap (f : RootState → RootState) (s : State) : (onRoot f s).snap = s.snap := rfl
@[simp] theorem onRoot_recov (f : RootState → RootState) (s : State) : (onRoot f s).recov = s.recov := rfl
@[simp] theorem onRoot_port (f : RootState → RootState) (s : State) : (onRoot f s).port = s.port := rfl
@[simp] theorem onRoot_sess (f : RootState → RootState) (s : State) : (onRoot f s).sess = s.sess := rfl
@[simp] theorem onRoot_tap (f : RootState → RootState) (s : State) : (onRoot f s).tap = s.tap := rfl
@[simp] theorem onRoot_lc (f : RootState → RootState) (s : State) : (onRoot f s).lc = s.lc := rfl
@[simp] theorem onRoot_boot (f : RootState → RootState) (s : State) : (onRoot f s).boot = s.boot := rfl
@[simp] theorem onRoot_cfg (f : RootState → RootState) (s : State) : (onRoot f s).cfg = s.cfg := rfl
@[simp] theorem onRoot_xspi (f : RootState → RootState) (s : State) : (onRoot f s).xspi = s.xspi := rfl
@[simp] theorem onRoot_rill (f : RootState → RootState) (s : State) : (onRoot f s).rill = s.rill := rfl
@[simp] theorem onRoot_tiles (f : RootState → RootState) (s : State) : (onRoot f s).tiles = s.tiles := rfl
@[simp] theorem onRoot_edges (f : RootState → RootState) (s : State) : (onRoot f s).edges = s.edges := rfl
@[simp] theorem onRoot_shims (f : RootState → RootState) (s : State) : (onRoot f s).shims = s.shims := rfl
@[simp] theorem onRoot_pending (f : RootState → RootState) (s : State) : (onRoot f s).pending = s.pending := rfl

@[simp] theorem onAlarm_mapEpoch (f : AlarmState → AlarmState) (s : State) : (onAlarm f s).mapEpoch = s.mapEpoch := rfl
@[simp] theorem onAlarm_time (f : AlarmState → AlarmState) (s : State) : (onAlarm f s).time = s.time := rfl
@[simp] theorem onAlarm_root (f : AlarmState → AlarmState) (s : State) : (onAlarm f s).root = s.root := rfl
@[simp] theorem onAlarm_alarm (f : AlarmState → AlarmState) (s : State) : (onAlarm f s).alarm = f s.alarm := rfl
@[simp] theorem onAlarm_txn (f : AlarmState → AlarmState) (s : State) : (onAlarm f s).txn = s.txn := rfl
@[simp] theorem onAlarm_plans (f : AlarmState → AlarmState) (s : State) : (onAlarm f s).plans = s.plans := rfl
@[simp] theorem onAlarm_folds (f : AlarmState → AlarmState) (s : State) : (onAlarm f s).folds = s.folds := rfl
@[simp] theorem onAlarm_census (f : AlarmState → AlarmState) (s : State) : (onAlarm f s).census = s.census := rfl
@[simp] theorem onAlarm_snap (f : AlarmState → AlarmState) (s : State) : (onAlarm f s).snap = s.snap := rfl
@[simp] theorem onAlarm_recov (f : AlarmState → AlarmState) (s : State) : (onAlarm f s).recov = s.recov := rfl
@[simp] theorem onAlarm_port (f : AlarmState → AlarmState) (s : State) : (onAlarm f s).port = s.port := rfl
@[simp] theorem onAlarm_sess (f : AlarmState → AlarmState) (s : State) : (onAlarm f s).sess = s.sess := rfl
@[simp] theorem onAlarm_tap (f : AlarmState → AlarmState) (s : State) : (onAlarm f s).tap = s.tap := rfl
@[simp] theorem onAlarm_lc (f : AlarmState → AlarmState) (s : State) : (onAlarm f s).lc = s.lc := rfl
@[simp] theorem onAlarm_boot (f : AlarmState → AlarmState) (s : State) : (onAlarm f s).boot = s.boot := rfl
@[simp] theorem onAlarm_cfg (f : AlarmState → AlarmState) (s : State) : (onAlarm f s).cfg = s.cfg := rfl
@[simp] theorem onAlarm_xspi (f : AlarmState → AlarmState) (s : State) : (onAlarm f s).xspi = s.xspi := rfl
@[simp] theorem onAlarm_rill (f : AlarmState → AlarmState) (s : State) : (onAlarm f s).rill = s.rill := rfl
@[simp] theorem onAlarm_tiles (f : AlarmState → AlarmState) (s : State) : (onAlarm f s).tiles = s.tiles := rfl
@[simp] theorem onAlarm_edges (f : AlarmState → AlarmState) (s : State) : (onAlarm f s).edges = s.edges := rfl
@[simp] theorem onAlarm_shims (f : AlarmState → AlarmState) (s : State) : (onAlarm f s).shims = s.shims := rfl
@[simp] theorem onAlarm_pending (f : AlarmState → AlarmState) (s : State) : (onAlarm f s).pending = s.pending := rfl

@[simp] theorem onTxn_mapEpoch (f : TxnState → TxnState) (s : State) : (onTxn f s).mapEpoch = s.mapEpoch := rfl
@[simp] theorem onTxn_time (f : TxnState → TxnState) (s : State) : (onTxn f s).time = s.time := rfl
@[simp] theorem onTxn_root (f : TxnState → TxnState) (s : State) : (onTxn f s).root = s.root := rfl
@[simp] theorem onTxn_alarm (f : TxnState → TxnState) (s : State) : (onTxn f s).alarm = s.alarm := rfl
@[simp] theorem onTxn_txn (f : TxnState → TxnState) (s : State) : (onTxn f s).txn = f s.txn := rfl
@[simp] theorem onTxn_plans (f : TxnState → TxnState) (s : State) : (onTxn f s).plans = s.plans := rfl
@[simp] theorem onTxn_folds (f : TxnState → TxnState) (s : State) : (onTxn f s).folds = s.folds := rfl
@[simp] theorem onTxn_census (f : TxnState → TxnState) (s : State) : (onTxn f s).census = s.census := rfl
@[simp] theorem onTxn_snap (f : TxnState → TxnState) (s : State) : (onTxn f s).snap = s.snap := rfl
@[simp] theorem onTxn_recov (f : TxnState → TxnState) (s : State) : (onTxn f s).recov = s.recov := rfl
@[simp] theorem onTxn_port (f : TxnState → TxnState) (s : State) : (onTxn f s).port = s.port := rfl
@[simp] theorem onTxn_sess (f : TxnState → TxnState) (s : State) : (onTxn f s).sess = s.sess := rfl
@[simp] theorem onTxn_tap (f : TxnState → TxnState) (s : State) : (onTxn f s).tap = s.tap := rfl
@[simp] theorem onTxn_lc (f : TxnState → TxnState) (s : State) : (onTxn f s).lc = s.lc := rfl
@[simp] theorem onTxn_boot (f : TxnState → TxnState) (s : State) : (onTxn f s).boot = s.boot := rfl
@[simp] theorem onTxn_cfg (f : TxnState → TxnState) (s : State) : (onTxn f s).cfg = s.cfg := rfl
@[simp] theorem onTxn_xspi (f : TxnState → TxnState) (s : State) : (onTxn f s).xspi = s.xspi := rfl
@[simp] theorem onTxn_rill (f : TxnState → TxnState) (s : State) : (onTxn f s).rill = s.rill := rfl
@[simp] theorem onTxn_tiles (f : TxnState → TxnState) (s : State) : (onTxn f s).tiles = s.tiles := rfl
@[simp] theorem onTxn_edges (f : TxnState → TxnState) (s : State) : (onTxn f s).edges = s.edges := rfl
@[simp] theorem onTxn_shims (f : TxnState → TxnState) (s : State) : (onTxn f s).shims = s.shims := rfl
@[simp] theorem onTxn_pending (f : TxnState → TxnState) (s : State) : (onTxn f s).pending = s.pending := rfl

@[simp] theorem onPlans_mapEpoch (f : PlanState → PlanState) (s : State) : (onPlans f s).mapEpoch = s.mapEpoch := rfl
@[simp] theorem onPlans_time (f : PlanState → PlanState) (s : State) : (onPlans f s).time = s.time := rfl
@[simp] theorem onPlans_root (f : PlanState → PlanState) (s : State) : (onPlans f s).root = s.root := rfl
@[simp] theorem onPlans_alarm (f : PlanState → PlanState) (s : State) : (onPlans f s).alarm = s.alarm := rfl
@[simp] theorem onPlans_txn (f : PlanState → PlanState) (s : State) : (onPlans f s).txn = s.txn := rfl
@[simp] theorem onPlans_plans (f : PlanState → PlanState) (s : State) : (onPlans f s).plans = f s.plans := rfl
@[simp] theorem onPlans_folds (f : PlanState → PlanState) (s : State) : (onPlans f s).folds = s.folds := rfl
@[simp] theorem onPlans_census (f : PlanState → PlanState) (s : State) : (onPlans f s).census = s.census := rfl
@[simp] theorem onPlans_snap (f : PlanState → PlanState) (s : State) : (onPlans f s).snap = s.snap := rfl
@[simp] theorem onPlans_recov (f : PlanState → PlanState) (s : State) : (onPlans f s).recov = s.recov := rfl
@[simp] theorem onPlans_port (f : PlanState → PlanState) (s : State) : (onPlans f s).port = s.port := rfl
@[simp] theorem onPlans_sess (f : PlanState → PlanState) (s : State) : (onPlans f s).sess = s.sess := rfl
@[simp] theorem onPlans_tap (f : PlanState → PlanState) (s : State) : (onPlans f s).tap = s.tap := rfl
@[simp] theorem onPlans_lc (f : PlanState → PlanState) (s : State) : (onPlans f s).lc = s.lc := rfl
@[simp] theorem onPlans_boot (f : PlanState → PlanState) (s : State) : (onPlans f s).boot = s.boot := rfl
@[simp] theorem onPlans_cfg (f : PlanState → PlanState) (s : State) : (onPlans f s).cfg = s.cfg := rfl
@[simp] theorem onPlans_xspi (f : PlanState → PlanState) (s : State) : (onPlans f s).xspi = s.xspi := rfl
@[simp] theorem onPlans_rill (f : PlanState → PlanState) (s : State) : (onPlans f s).rill = s.rill := rfl
@[simp] theorem onPlans_tiles (f : PlanState → PlanState) (s : State) : (onPlans f s).tiles = s.tiles := rfl
@[simp] theorem onPlans_edges (f : PlanState → PlanState) (s : State) : (onPlans f s).edges = s.edges := rfl
@[simp] theorem onPlans_shims (f : PlanState → PlanState) (s : State) : (onPlans f s).shims = s.shims := rfl
@[simp] theorem onPlans_pending (f : PlanState → PlanState) (s : State) : (onPlans f s).pending = s.pending := rfl

@[simp] theorem onFolds_mapEpoch (f : FoldState → FoldState) (s : State) : (onFolds f s).mapEpoch = s.mapEpoch := rfl
@[simp] theorem onFolds_time (f : FoldState → FoldState) (s : State) : (onFolds f s).time = s.time := rfl
@[simp] theorem onFolds_root (f : FoldState → FoldState) (s : State) : (onFolds f s).root = s.root := rfl
@[simp] theorem onFolds_alarm (f : FoldState → FoldState) (s : State) : (onFolds f s).alarm = s.alarm := rfl
@[simp] theorem onFolds_txn (f : FoldState → FoldState) (s : State) : (onFolds f s).txn = s.txn := rfl
@[simp] theorem onFolds_plans (f : FoldState → FoldState) (s : State) : (onFolds f s).plans = s.plans := rfl
@[simp] theorem onFolds_folds (f : FoldState → FoldState) (s : State) : (onFolds f s).folds = f s.folds := rfl
@[simp] theorem onFolds_census (f : FoldState → FoldState) (s : State) : (onFolds f s).census = s.census := rfl
@[simp] theorem onFolds_snap (f : FoldState → FoldState) (s : State) : (onFolds f s).snap = s.snap := rfl
@[simp] theorem onFolds_recov (f : FoldState → FoldState) (s : State) : (onFolds f s).recov = s.recov := rfl
@[simp] theorem onFolds_port (f : FoldState → FoldState) (s : State) : (onFolds f s).port = s.port := rfl
@[simp] theorem onFolds_sess (f : FoldState → FoldState) (s : State) : (onFolds f s).sess = s.sess := rfl
@[simp] theorem onFolds_tap (f : FoldState → FoldState) (s : State) : (onFolds f s).tap = s.tap := rfl
@[simp] theorem onFolds_lc (f : FoldState → FoldState) (s : State) : (onFolds f s).lc = s.lc := rfl
@[simp] theorem onFolds_boot (f : FoldState → FoldState) (s : State) : (onFolds f s).boot = s.boot := rfl
@[simp] theorem onFolds_cfg (f : FoldState → FoldState) (s : State) : (onFolds f s).cfg = s.cfg := rfl
@[simp] theorem onFolds_xspi (f : FoldState → FoldState) (s : State) : (onFolds f s).xspi = s.xspi := rfl
@[simp] theorem onFolds_rill (f : FoldState → FoldState) (s : State) : (onFolds f s).rill = s.rill := rfl
@[simp] theorem onFolds_tiles (f : FoldState → FoldState) (s : State) : (onFolds f s).tiles = s.tiles := rfl
@[simp] theorem onFolds_edges (f : FoldState → FoldState) (s : State) : (onFolds f s).edges = s.edges := rfl
@[simp] theorem onFolds_shims (f : FoldState → FoldState) (s : State) : (onFolds f s).shims = s.shims := rfl
@[simp] theorem onFolds_pending (f : FoldState → FoldState) (s : State) : (onFolds f s).pending = s.pending := rfl

@[simp] theorem onCensus_mapEpoch (f : CensusState → CensusState) (s : State) : (onCensus f s).mapEpoch = s.mapEpoch := rfl
@[simp] theorem onCensus_time (f : CensusState → CensusState) (s : State) : (onCensus f s).time = s.time := rfl
@[simp] theorem onCensus_root (f : CensusState → CensusState) (s : State) : (onCensus f s).root = s.root := rfl
@[simp] theorem onCensus_alarm (f : CensusState → CensusState) (s : State) : (onCensus f s).alarm = s.alarm := rfl
@[simp] theorem onCensus_txn (f : CensusState → CensusState) (s : State) : (onCensus f s).txn = s.txn := rfl
@[simp] theorem onCensus_plans (f : CensusState → CensusState) (s : State) : (onCensus f s).plans = s.plans := rfl
@[simp] theorem onCensus_folds (f : CensusState → CensusState) (s : State) : (onCensus f s).folds = s.folds := rfl
@[simp] theorem onCensus_census (f : CensusState → CensusState) (s : State) : (onCensus f s).census = f s.census := rfl
@[simp] theorem onCensus_snap (f : CensusState → CensusState) (s : State) : (onCensus f s).snap = s.snap := rfl
@[simp] theorem onCensus_recov (f : CensusState → CensusState) (s : State) : (onCensus f s).recov = s.recov := rfl
@[simp] theorem onCensus_port (f : CensusState → CensusState) (s : State) : (onCensus f s).port = s.port := rfl
@[simp] theorem onCensus_sess (f : CensusState → CensusState) (s : State) : (onCensus f s).sess = s.sess := rfl
@[simp] theorem onCensus_tap (f : CensusState → CensusState) (s : State) : (onCensus f s).tap = s.tap := rfl
@[simp] theorem onCensus_lc (f : CensusState → CensusState) (s : State) : (onCensus f s).lc = s.lc := rfl
@[simp] theorem onCensus_boot (f : CensusState → CensusState) (s : State) : (onCensus f s).boot = s.boot := rfl
@[simp] theorem onCensus_cfg (f : CensusState → CensusState) (s : State) : (onCensus f s).cfg = s.cfg := rfl
@[simp] theorem onCensus_xspi (f : CensusState → CensusState) (s : State) : (onCensus f s).xspi = s.xspi := rfl
@[simp] theorem onCensus_rill (f : CensusState → CensusState) (s : State) : (onCensus f s).rill = s.rill := rfl
@[simp] theorem onCensus_tiles (f : CensusState → CensusState) (s : State) : (onCensus f s).tiles = s.tiles := rfl
@[simp] theorem onCensus_edges (f : CensusState → CensusState) (s : State) : (onCensus f s).edges = s.edges := rfl
@[simp] theorem onCensus_shims (f : CensusState → CensusState) (s : State) : (onCensus f s).shims = s.shims := rfl
@[simp] theorem onCensus_pending (f : CensusState → CensusState) (s : State) : (onCensus f s).pending = s.pending := rfl

@[simp] theorem onSnap_mapEpoch (f : SnapState → SnapState) (s : State) : (onSnap f s).mapEpoch = s.mapEpoch := rfl
@[simp] theorem onSnap_time (f : SnapState → SnapState) (s : State) : (onSnap f s).time = s.time := rfl
@[simp] theorem onSnap_root (f : SnapState → SnapState) (s : State) : (onSnap f s).root = s.root := rfl
@[simp] theorem onSnap_alarm (f : SnapState → SnapState) (s : State) : (onSnap f s).alarm = s.alarm := rfl
@[simp] theorem onSnap_txn (f : SnapState → SnapState) (s : State) : (onSnap f s).txn = s.txn := rfl
@[simp] theorem onSnap_plans (f : SnapState → SnapState) (s : State) : (onSnap f s).plans = s.plans := rfl
@[simp] theorem onSnap_folds (f : SnapState → SnapState) (s : State) : (onSnap f s).folds = s.folds := rfl
@[simp] theorem onSnap_census (f : SnapState → SnapState) (s : State) : (onSnap f s).census = s.census := rfl
@[simp] theorem onSnap_snap (f : SnapState → SnapState) (s : State) : (onSnap f s).snap = f s.snap := rfl
@[simp] theorem onSnap_recov (f : SnapState → SnapState) (s : State) : (onSnap f s).recov = s.recov := rfl
@[simp] theorem onSnap_port (f : SnapState → SnapState) (s : State) : (onSnap f s).port = s.port := rfl
@[simp] theorem onSnap_sess (f : SnapState → SnapState) (s : State) : (onSnap f s).sess = s.sess := rfl
@[simp] theorem onSnap_tap (f : SnapState → SnapState) (s : State) : (onSnap f s).tap = s.tap := rfl
@[simp] theorem onSnap_lc (f : SnapState → SnapState) (s : State) : (onSnap f s).lc = s.lc := rfl
@[simp] theorem onSnap_boot (f : SnapState → SnapState) (s : State) : (onSnap f s).boot = s.boot := rfl
@[simp] theorem onSnap_cfg (f : SnapState → SnapState) (s : State) : (onSnap f s).cfg = s.cfg := rfl
@[simp] theorem onSnap_xspi (f : SnapState → SnapState) (s : State) : (onSnap f s).xspi = s.xspi := rfl
@[simp] theorem onSnap_rill (f : SnapState → SnapState) (s : State) : (onSnap f s).rill = s.rill := rfl
@[simp] theorem onSnap_tiles (f : SnapState → SnapState) (s : State) : (onSnap f s).tiles = s.tiles := rfl
@[simp] theorem onSnap_edges (f : SnapState → SnapState) (s : State) : (onSnap f s).edges = s.edges := rfl
@[simp] theorem onSnap_shims (f : SnapState → SnapState) (s : State) : (onSnap f s).shims = s.shims := rfl
@[simp] theorem onSnap_pending (f : SnapState → SnapState) (s : State) : (onSnap f s).pending = s.pending := rfl

@[simp] theorem onRec_mapEpoch (f : RecState → RecState) (s : State) : (onRec f s).mapEpoch = s.mapEpoch := rfl
@[simp] theorem onRec_time (f : RecState → RecState) (s : State) : (onRec f s).time = s.time := rfl
@[simp] theorem onRec_root (f : RecState → RecState) (s : State) : (onRec f s).root = s.root := rfl
@[simp] theorem onRec_alarm (f : RecState → RecState) (s : State) : (onRec f s).alarm = s.alarm := rfl
@[simp] theorem onRec_txn (f : RecState → RecState) (s : State) : (onRec f s).txn = s.txn := rfl
@[simp] theorem onRec_plans (f : RecState → RecState) (s : State) : (onRec f s).plans = s.plans := rfl
@[simp] theorem onRec_folds (f : RecState → RecState) (s : State) : (onRec f s).folds = s.folds := rfl
@[simp] theorem onRec_census (f : RecState → RecState) (s : State) : (onRec f s).census = s.census := rfl
@[simp] theorem onRec_snap (f : RecState → RecState) (s : State) : (onRec f s).snap = s.snap := rfl
@[simp] theorem onRec_recov (f : RecState → RecState) (s : State) : (onRec f s).recov = f s.recov := rfl
@[simp] theorem onRec_port (f : RecState → RecState) (s : State) : (onRec f s).port = s.port := rfl
@[simp] theorem onRec_sess (f : RecState → RecState) (s : State) : (onRec f s).sess = s.sess := rfl
@[simp] theorem onRec_tap (f : RecState → RecState) (s : State) : (onRec f s).tap = s.tap := rfl
@[simp] theorem onRec_lc (f : RecState → RecState) (s : State) : (onRec f s).lc = s.lc := rfl
@[simp] theorem onRec_boot (f : RecState → RecState) (s : State) : (onRec f s).boot = s.boot := rfl
@[simp] theorem onRec_cfg (f : RecState → RecState) (s : State) : (onRec f s).cfg = s.cfg := rfl
@[simp] theorem onRec_xspi (f : RecState → RecState) (s : State) : (onRec f s).xspi = s.xspi := rfl
@[simp] theorem onRec_rill (f : RecState → RecState) (s : State) : (onRec f s).rill = s.rill := rfl
@[simp] theorem onRec_tiles (f : RecState → RecState) (s : State) : (onRec f s).tiles = s.tiles := rfl
@[simp] theorem onRec_edges (f : RecState → RecState) (s : State) : (onRec f s).edges = s.edges := rfl
@[simp] theorem onRec_shims (f : RecState → RecState) (s : State) : (onRec f s).shims = s.shims := rfl
@[simp] theorem onRec_pending (f : RecState → RecState) (s : State) : (onRec f s).pending = s.pending := rfl

@[simp] theorem onPort_mapEpoch (f : PortState → PortState) (s : State) : (onPort f s).mapEpoch = s.mapEpoch := rfl
@[simp] theorem onPort_time (f : PortState → PortState) (s : State) : (onPort f s).time = s.time := rfl
@[simp] theorem onPort_root (f : PortState → PortState) (s : State) : (onPort f s).root = s.root := rfl
@[simp] theorem onPort_alarm (f : PortState → PortState) (s : State) : (onPort f s).alarm = s.alarm := rfl
@[simp] theorem onPort_txn (f : PortState → PortState) (s : State) : (onPort f s).txn = s.txn := rfl
@[simp] theorem onPort_plans (f : PortState → PortState) (s : State) : (onPort f s).plans = s.plans := rfl
@[simp] theorem onPort_folds (f : PortState → PortState) (s : State) : (onPort f s).folds = s.folds := rfl
@[simp] theorem onPort_census (f : PortState → PortState) (s : State) : (onPort f s).census = s.census := rfl
@[simp] theorem onPort_snap (f : PortState → PortState) (s : State) : (onPort f s).snap = s.snap := rfl
@[simp] theorem onPort_recov (f : PortState → PortState) (s : State) : (onPort f s).recov = s.recov := rfl
@[simp] theorem onPort_port (f : PortState → PortState) (s : State) : (onPort f s).port = f s.port := rfl
@[simp] theorem onPort_sess (f : PortState → PortState) (s : State) : (onPort f s).sess = s.sess := rfl
@[simp] theorem onPort_tap (f : PortState → PortState) (s : State) : (onPort f s).tap = s.tap := rfl
@[simp] theorem onPort_lc (f : PortState → PortState) (s : State) : (onPort f s).lc = s.lc := rfl
@[simp] theorem onPort_boot (f : PortState → PortState) (s : State) : (onPort f s).boot = s.boot := rfl
@[simp] theorem onPort_cfg (f : PortState → PortState) (s : State) : (onPort f s).cfg = s.cfg := rfl
@[simp] theorem onPort_xspi (f : PortState → PortState) (s : State) : (onPort f s).xspi = s.xspi := rfl
@[simp] theorem onPort_rill (f : PortState → PortState) (s : State) : (onPort f s).rill = s.rill := rfl
@[simp] theorem onPort_tiles (f : PortState → PortState) (s : State) : (onPort f s).tiles = s.tiles := rfl
@[simp] theorem onPort_edges (f : PortState → PortState) (s : State) : (onPort f s).edges = s.edges := rfl
@[simp] theorem onPort_shims (f : PortState → PortState) (s : State) : (onPort f s).shims = s.shims := rfl
@[simp] theorem onPort_pending (f : PortState → PortState) (s : State) : (onPort f s).pending = s.pending := rfl

@[simp] theorem onSess_mapEpoch (f : SessionState → SessionState) (s : State) : (onSess f s).mapEpoch = s.mapEpoch := rfl
@[simp] theorem onSess_time (f : SessionState → SessionState) (s : State) : (onSess f s).time = s.time := rfl
@[simp] theorem onSess_root (f : SessionState → SessionState) (s : State) : (onSess f s).root = s.root := rfl
@[simp] theorem onSess_alarm (f : SessionState → SessionState) (s : State) : (onSess f s).alarm = s.alarm := rfl
@[simp] theorem onSess_txn (f : SessionState → SessionState) (s : State) : (onSess f s).txn = s.txn := rfl
@[simp] theorem onSess_plans (f : SessionState → SessionState) (s : State) : (onSess f s).plans = s.plans := rfl
@[simp] theorem onSess_folds (f : SessionState → SessionState) (s : State) : (onSess f s).folds = s.folds := rfl
@[simp] theorem onSess_census (f : SessionState → SessionState) (s : State) : (onSess f s).census = s.census := rfl
@[simp] theorem onSess_snap (f : SessionState → SessionState) (s : State) : (onSess f s).snap = s.snap := rfl
@[simp] theorem onSess_recov (f : SessionState → SessionState) (s : State) : (onSess f s).recov = s.recov := rfl
@[simp] theorem onSess_port (f : SessionState → SessionState) (s : State) : (onSess f s).port = s.port := rfl
@[simp] theorem onSess_sess (f : SessionState → SessionState) (s : State) : (onSess f s).sess = f s.sess := rfl
@[simp] theorem onSess_tap (f : SessionState → SessionState) (s : State) : (onSess f s).tap = s.tap := rfl
@[simp] theorem onSess_lc (f : SessionState → SessionState) (s : State) : (onSess f s).lc = s.lc := rfl
@[simp] theorem onSess_boot (f : SessionState → SessionState) (s : State) : (onSess f s).boot = s.boot := rfl
@[simp] theorem onSess_cfg (f : SessionState → SessionState) (s : State) : (onSess f s).cfg = s.cfg := rfl
@[simp] theorem onSess_xspi (f : SessionState → SessionState) (s : State) : (onSess f s).xspi = s.xspi := rfl
@[simp] theorem onSess_rill (f : SessionState → SessionState) (s : State) : (onSess f s).rill = s.rill := rfl
@[simp] theorem onSess_tiles (f : SessionState → SessionState) (s : State) : (onSess f s).tiles = s.tiles := rfl
@[simp] theorem onSess_edges (f : SessionState → SessionState) (s : State) : (onSess f s).edges = s.edges := rfl
@[simp] theorem onSess_shims (f : SessionState → SessionState) (s : State) : (onSess f s).shims = s.shims := rfl
@[simp] theorem onSess_pending (f : SessionState → SessionState) (s : State) : (onSess f s).pending = s.pending := rfl

@[simp] theorem onTap_mapEpoch (f : TapState → TapState) (s : State) : (onTap f s).mapEpoch = s.mapEpoch := rfl
@[simp] theorem onTap_time (f : TapState → TapState) (s : State) : (onTap f s).time = s.time := rfl
@[simp] theorem onTap_root (f : TapState → TapState) (s : State) : (onTap f s).root = s.root := rfl
@[simp] theorem onTap_alarm (f : TapState → TapState) (s : State) : (onTap f s).alarm = s.alarm := rfl
@[simp] theorem onTap_txn (f : TapState → TapState) (s : State) : (onTap f s).txn = s.txn := rfl
@[simp] theorem onTap_plans (f : TapState → TapState) (s : State) : (onTap f s).plans = s.plans := rfl
@[simp] theorem onTap_folds (f : TapState → TapState) (s : State) : (onTap f s).folds = s.folds := rfl
@[simp] theorem onTap_census (f : TapState → TapState) (s : State) : (onTap f s).census = s.census := rfl
@[simp] theorem onTap_snap (f : TapState → TapState) (s : State) : (onTap f s).snap = s.snap := rfl
@[simp] theorem onTap_recov (f : TapState → TapState) (s : State) : (onTap f s).recov = s.recov := rfl
@[simp] theorem onTap_port (f : TapState → TapState) (s : State) : (onTap f s).port = s.port := rfl
@[simp] theorem onTap_sess (f : TapState → TapState) (s : State) : (onTap f s).sess = s.sess := rfl
@[simp] theorem onTap_tap (f : TapState → TapState) (s : State) : (onTap f s).tap = f s.tap := rfl
@[simp] theorem onTap_lc (f : TapState → TapState) (s : State) : (onTap f s).lc = s.lc := rfl
@[simp] theorem onTap_boot (f : TapState → TapState) (s : State) : (onTap f s).boot = s.boot := rfl
@[simp] theorem onTap_cfg (f : TapState → TapState) (s : State) : (onTap f s).cfg = s.cfg := rfl
@[simp] theorem onTap_xspi (f : TapState → TapState) (s : State) : (onTap f s).xspi = s.xspi := rfl
@[simp] theorem onTap_rill (f : TapState → TapState) (s : State) : (onTap f s).rill = s.rill := rfl
@[simp] theorem onTap_tiles (f : TapState → TapState) (s : State) : (onTap f s).tiles = s.tiles := rfl
@[simp] theorem onTap_edges (f : TapState → TapState) (s : State) : (onTap f s).edges = s.edges := rfl
@[simp] theorem onTap_shims (f : TapState → TapState) (s : State) : (onTap f s).shims = s.shims := rfl
@[simp] theorem onTap_pending (f : TapState → TapState) (s : State) : (onTap f s).pending = s.pending := rfl

@[simp] theorem onLc_mapEpoch (f : LcState → LcState) (s : State) : (onLc f s).mapEpoch = s.mapEpoch := rfl
@[simp] theorem onLc_time (f : LcState → LcState) (s : State) : (onLc f s).time = s.time := rfl
@[simp] theorem onLc_root (f : LcState → LcState) (s : State) : (onLc f s).root = s.root := rfl
@[simp] theorem onLc_alarm (f : LcState → LcState) (s : State) : (onLc f s).alarm = s.alarm := rfl
@[simp] theorem onLc_txn (f : LcState → LcState) (s : State) : (onLc f s).txn = s.txn := rfl
@[simp] theorem onLc_plans (f : LcState → LcState) (s : State) : (onLc f s).plans = s.plans := rfl
@[simp] theorem onLc_folds (f : LcState → LcState) (s : State) : (onLc f s).folds = s.folds := rfl
@[simp] theorem onLc_census (f : LcState → LcState) (s : State) : (onLc f s).census = s.census := rfl
@[simp] theorem onLc_snap (f : LcState → LcState) (s : State) : (onLc f s).snap = s.snap := rfl
@[simp] theorem onLc_recov (f : LcState → LcState) (s : State) : (onLc f s).recov = s.recov := rfl
@[simp] theorem onLc_port (f : LcState → LcState) (s : State) : (onLc f s).port = s.port := rfl
@[simp] theorem onLc_sess (f : LcState → LcState) (s : State) : (onLc f s).sess = s.sess := rfl
@[simp] theorem onLc_tap (f : LcState → LcState) (s : State) : (onLc f s).tap = s.tap := rfl
@[simp] theorem onLc_lc (f : LcState → LcState) (s : State) : (onLc f s).lc = f s.lc := rfl
@[simp] theorem onLc_boot (f : LcState → LcState) (s : State) : (onLc f s).boot = s.boot := rfl
@[simp] theorem onLc_cfg (f : LcState → LcState) (s : State) : (onLc f s).cfg = s.cfg := rfl
@[simp] theorem onLc_xspi (f : LcState → LcState) (s : State) : (onLc f s).xspi = s.xspi := rfl
@[simp] theorem onLc_rill (f : LcState → LcState) (s : State) : (onLc f s).rill = s.rill := rfl
@[simp] theorem onLc_tiles (f : LcState → LcState) (s : State) : (onLc f s).tiles = s.tiles := rfl
@[simp] theorem onLc_edges (f : LcState → LcState) (s : State) : (onLc f s).edges = s.edges := rfl
@[simp] theorem onLc_shims (f : LcState → LcState) (s : State) : (onLc f s).shims = s.shims := rfl
@[simp] theorem onLc_pending (f : LcState → LcState) (s : State) : (onLc f s).pending = s.pending := rfl

@[simp] theorem onBoot_mapEpoch (f : BootState → BootState) (s : State) : (onBoot f s).mapEpoch = s.mapEpoch := rfl
@[simp] theorem onBoot_time (f : BootState → BootState) (s : State) : (onBoot f s).time = s.time := rfl
@[simp] theorem onBoot_root (f : BootState → BootState) (s : State) : (onBoot f s).root = s.root := rfl
@[simp] theorem onBoot_alarm (f : BootState → BootState) (s : State) : (onBoot f s).alarm = s.alarm := rfl
@[simp] theorem onBoot_txn (f : BootState → BootState) (s : State) : (onBoot f s).txn = s.txn := rfl
@[simp] theorem onBoot_plans (f : BootState → BootState) (s : State) : (onBoot f s).plans = s.plans := rfl
@[simp] theorem onBoot_folds (f : BootState → BootState) (s : State) : (onBoot f s).folds = s.folds := rfl
@[simp] theorem onBoot_census (f : BootState → BootState) (s : State) : (onBoot f s).census = s.census := rfl
@[simp] theorem onBoot_snap (f : BootState → BootState) (s : State) : (onBoot f s).snap = s.snap := rfl
@[simp] theorem onBoot_recov (f : BootState → BootState) (s : State) : (onBoot f s).recov = s.recov := rfl
@[simp] theorem onBoot_port (f : BootState → BootState) (s : State) : (onBoot f s).port = s.port := rfl
@[simp] theorem onBoot_sess (f : BootState → BootState) (s : State) : (onBoot f s).sess = s.sess := rfl
@[simp] theorem onBoot_tap (f : BootState → BootState) (s : State) : (onBoot f s).tap = s.tap := rfl
@[simp] theorem onBoot_lc (f : BootState → BootState) (s : State) : (onBoot f s).lc = s.lc := rfl
@[simp] theorem onBoot_boot (f : BootState → BootState) (s : State) : (onBoot f s).boot = f s.boot := rfl
@[simp] theorem onBoot_cfg (f : BootState → BootState) (s : State) : (onBoot f s).cfg = s.cfg := rfl
@[simp] theorem onBoot_xspi (f : BootState → BootState) (s : State) : (onBoot f s).xspi = s.xspi := rfl
@[simp] theorem onBoot_rill (f : BootState → BootState) (s : State) : (onBoot f s).rill = s.rill := rfl
@[simp] theorem onBoot_tiles (f : BootState → BootState) (s : State) : (onBoot f s).tiles = s.tiles := rfl
@[simp] theorem onBoot_edges (f : BootState → BootState) (s : State) : (onBoot f s).edges = s.edges := rfl
@[simp] theorem onBoot_shims (f : BootState → BootState) (s : State) : (onBoot f s).shims = s.shims := rfl
@[simp] theorem onBoot_pending (f : BootState → BootState) (s : State) : (onBoot f s).pending = s.pending := rfl

@[simp] theorem onCfg_mapEpoch (f : CfgState → CfgState) (s : State) : (onCfg f s).mapEpoch = s.mapEpoch := rfl
@[simp] theorem onCfg_time (f : CfgState → CfgState) (s : State) : (onCfg f s).time = s.time := rfl
@[simp] theorem onCfg_root (f : CfgState → CfgState) (s : State) : (onCfg f s).root = s.root := rfl
@[simp] theorem onCfg_alarm (f : CfgState → CfgState) (s : State) : (onCfg f s).alarm = s.alarm := rfl
@[simp] theorem onCfg_txn (f : CfgState → CfgState) (s : State) : (onCfg f s).txn = s.txn := rfl
@[simp] theorem onCfg_plans (f : CfgState → CfgState) (s : State) : (onCfg f s).plans = s.plans := rfl
@[simp] theorem onCfg_folds (f : CfgState → CfgState) (s : State) : (onCfg f s).folds = s.folds := rfl
@[simp] theorem onCfg_census (f : CfgState → CfgState) (s : State) : (onCfg f s).census = s.census := rfl
@[simp] theorem onCfg_snap (f : CfgState → CfgState) (s : State) : (onCfg f s).snap = s.snap := rfl
@[simp] theorem onCfg_recov (f : CfgState → CfgState) (s : State) : (onCfg f s).recov = s.recov := rfl
@[simp] theorem onCfg_port (f : CfgState → CfgState) (s : State) : (onCfg f s).port = s.port := rfl
@[simp] theorem onCfg_sess (f : CfgState → CfgState) (s : State) : (onCfg f s).sess = s.sess := rfl
@[simp] theorem onCfg_tap (f : CfgState → CfgState) (s : State) : (onCfg f s).tap = s.tap := rfl
@[simp] theorem onCfg_lc (f : CfgState → CfgState) (s : State) : (onCfg f s).lc = s.lc := rfl
@[simp] theorem onCfg_boot (f : CfgState → CfgState) (s : State) : (onCfg f s).boot = s.boot := rfl
@[simp] theorem onCfg_cfg (f : CfgState → CfgState) (s : State) : (onCfg f s).cfg = f s.cfg := rfl
@[simp] theorem onCfg_xspi (f : CfgState → CfgState) (s : State) : (onCfg f s).xspi = s.xspi := rfl
@[simp] theorem onCfg_rill (f : CfgState → CfgState) (s : State) : (onCfg f s).rill = s.rill := rfl
@[simp] theorem onCfg_tiles (f : CfgState → CfgState) (s : State) : (onCfg f s).tiles = s.tiles := rfl
@[simp] theorem onCfg_edges (f : CfgState → CfgState) (s : State) : (onCfg f s).edges = s.edges := rfl
@[simp] theorem onCfg_shims (f : CfgState → CfgState) (s : State) : (onCfg f s).shims = s.shims := rfl
@[simp] theorem onCfg_pending (f : CfgState → CfgState) (s : State) : (onCfg f s).pending = s.pending := rfl

@[simp] theorem onXspi_mapEpoch (f : XspiState → XspiState) (s : State) : (onXspi f s).mapEpoch = s.mapEpoch := rfl
@[simp] theorem onXspi_time (f : XspiState → XspiState) (s : State) : (onXspi f s).time = s.time := rfl
@[simp] theorem onXspi_root (f : XspiState → XspiState) (s : State) : (onXspi f s).root = s.root := rfl
@[simp] theorem onXspi_alarm (f : XspiState → XspiState) (s : State) : (onXspi f s).alarm = s.alarm := rfl
@[simp] theorem onXspi_txn (f : XspiState → XspiState) (s : State) : (onXspi f s).txn = s.txn := rfl
@[simp] theorem onXspi_plans (f : XspiState → XspiState) (s : State) : (onXspi f s).plans = s.plans := rfl
@[simp] theorem onXspi_folds (f : XspiState → XspiState) (s : State) : (onXspi f s).folds = s.folds := rfl
@[simp] theorem onXspi_census (f : XspiState → XspiState) (s : State) : (onXspi f s).census = s.census := rfl
@[simp] theorem onXspi_snap (f : XspiState → XspiState) (s : State) : (onXspi f s).snap = s.snap := rfl
@[simp] theorem onXspi_recov (f : XspiState → XspiState) (s : State) : (onXspi f s).recov = s.recov := rfl
@[simp] theorem onXspi_port (f : XspiState → XspiState) (s : State) : (onXspi f s).port = s.port := rfl
@[simp] theorem onXspi_sess (f : XspiState → XspiState) (s : State) : (onXspi f s).sess = s.sess := rfl
@[simp] theorem onXspi_tap (f : XspiState → XspiState) (s : State) : (onXspi f s).tap = s.tap := rfl
@[simp] theorem onXspi_lc (f : XspiState → XspiState) (s : State) : (onXspi f s).lc = s.lc := rfl
@[simp] theorem onXspi_boot (f : XspiState → XspiState) (s : State) : (onXspi f s).boot = s.boot := rfl
@[simp] theorem onXspi_cfg (f : XspiState → XspiState) (s : State) : (onXspi f s).cfg = s.cfg := rfl
@[simp] theorem onXspi_xspi (f : XspiState → XspiState) (s : State) : (onXspi f s).xspi = f s.xspi := rfl
@[simp] theorem onXspi_rill (f : XspiState → XspiState) (s : State) : (onXspi f s).rill = s.rill := rfl
@[simp] theorem onXspi_tiles (f : XspiState → XspiState) (s : State) : (onXspi f s).tiles = s.tiles := rfl
@[simp] theorem onXspi_edges (f : XspiState → XspiState) (s : State) : (onXspi f s).edges = s.edges := rfl
@[simp] theorem onXspi_shims (f : XspiState → XspiState) (s : State) : (onXspi f s).shims = s.shims := rfl
@[simp] theorem onXspi_pending (f : XspiState → XspiState) (s : State) : (onXspi f s).pending = s.pending := rfl

@[simp] theorem onRill_mapEpoch (f : RillState → RillState) (s : State) : (onRill f s).mapEpoch = s.mapEpoch := rfl
@[simp] theorem onRill_time (f : RillState → RillState) (s : State) : (onRill f s).time = s.time := rfl
@[simp] theorem onRill_root (f : RillState → RillState) (s : State) : (onRill f s).root = s.root := rfl
@[simp] theorem onRill_alarm (f : RillState → RillState) (s : State) : (onRill f s).alarm = s.alarm := rfl
@[simp] theorem onRill_txn (f : RillState → RillState) (s : State) : (onRill f s).txn = s.txn := rfl
@[simp] theorem onRill_plans (f : RillState → RillState) (s : State) : (onRill f s).plans = s.plans := rfl
@[simp] theorem onRill_folds (f : RillState → RillState) (s : State) : (onRill f s).folds = s.folds := rfl
@[simp] theorem onRill_census (f : RillState → RillState) (s : State) : (onRill f s).census = s.census := rfl
@[simp] theorem onRill_snap (f : RillState → RillState) (s : State) : (onRill f s).snap = s.snap := rfl
@[simp] theorem onRill_recov (f : RillState → RillState) (s : State) : (onRill f s).recov = s.recov := rfl
@[simp] theorem onRill_port (f : RillState → RillState) (s : State) : (onRill f s).port = s.port := rfl
@[simp] theorem onRill_sess (f : RillState → RillState) (s : State) : (onRill f s).sess = s.sess := rfl
@[simp] theorem onRill_tap (f : RillState → RillState) (s : State) : (onRill f s).tap = s.tap := rfl
@[simp] theorem onRill_lc (f : RillState → RillState) (s : State) : (onRill f s).lc = s.lc := rfl
@[simp] theorem onRill_boot (f : RillState → RillState) (s : State) : (onRill f s).boot = s.boot := rfl
@[simp] theorem onRill_cfg (f : RillState → RillState) (s : State) : (onRill f s).cfg = s.cfg := rfl
@[simp] theorem onRill_xspi (f : RillState → RillState) (s : State) : (onRill f s).xspi = s.xspi := rfl
@[simp] theorem onRill_rill (f : RillState → RillState) (s : State) : (onRill f s).rill = f s.rill := rfl
@[simp] theorem onRill_tiles (f : RillState → RillState) (s : State) : (onRill f s).tiles = s.tiles := rfl
@[simp] theorem onRill_edges (f : RillState → RillState) (s : State) : (onRill f s).edges = s.edges := rfl
@[simp] theorem onRill_shims (f : RillState → RillState) (s : State) : (onRill f s).shims = s.shims := rfl
@[simp] theorem onRill_pending (f : RillState → RillState) (s : State) : (onRill f s).pending = s.pending := rfl

@[simp] theorem onTile_mapEpoch (t : Nat) (f : Tile → Tile) (s : State) : (onTile t f s).mapEpoch = s.mapEpoch := by
  unfold onTile; split <;> rfl
@[simp] theorem onTile_time (t : Nat) (f : Tile → Tile) (s : State) : (onTile t f s).time = s.time := by
  unfold onTile; split <;> rfl
@[simp] theorem onTile_root (t : Nat) (f : Tile → Tile) (s : State) : (onTile t f s).root = s.root := by
  unfold onTile; split <;> rfl
@[simp] theorem onTile_alarm (t : Nat) (f : Tile → Tile) (s : State) : (onTile t f s).alarm = s.alarm := by
  unfold onTile; split <;> rfl
@[simp] theorem onTile_txn (t : Nat) (f : Tile → Tile) (s : State) : (onTile t f s).txn = s.txn := by
  unfold onTile; split <;> rfl
@[simp] theorem onTile_plans (t : Nat) (f : Tile → Tile) (s : State) : (onTile t f s).plans = s.plans := by
  unfold onTile; split <;> rfl
@[simp] theorem onTile_folds (t : Nat) (f : Tile → Tile) (s : State) : (onTile t f s).folds = s.folds := by
  unfold onTile; split <;> rfl
@[simp] theorem onTile_census (t : Nat) (f : Tile → Tile) (s : State) : (onTile t f s).census = s.census := by
  unfold onTile; split <;> rfl
@[simp] theorem onTile_snap (t : Nat) (f : Tile → Tile) (s : State) : (onTile t f s).snap = s.snap := by
  unfold onTile; split <;> rfl
@[simp] theorem onTile_recov (t : Nat) (f : Tile → Tile) (s : State) : (onTile t f s).recov = s.recov := by
  unfold onTile; split <;> rfl
@[simp] theorem onTile_port (t : Nat) (f : Tile → Tile) (s : State) : (onTile t f s).port = s.port := by
  unfold onTile; split <;> rfl
@[simp] theorem onTile_sess (t : Nat) (f : Tile → Tile) (s : State) : (onTile t f s).sess = s.sess := by
  unfold onTile; split <;> rfl
@[simp] theorem onTile_tap (t : Nat) (f : Tile → Tile) (s : State) : (onTile t f s).tap = s.tap := by
  unfold onTile; split <;> rfl
@[simp] theorem onTile_lc (t : Nat) (f : Tile → Tile) (s : State) : (onTile t f s).lc = s.lc := by
  unfold onTile; split <;> rfl
@[simp] theorem onTile_boot (t : Nat) (f : Tile → Tile) (s : State) : (onTile t f s).boot = s.boot := by
  unfold onTile; split <;> rfl
@[simp] theorem onTile_cfg (t : Nat) (f : Tile → Tile) (s : State) : (onTile t f s).cfg = s.cfg := by
  unfold onTile; split <;> rfl
@[simp] theorem onTile_xspi (t : Nat) (f : Tile → Tile) (s : State) : (onTile t f s).xspi = s.xspi := by
  unfold onTile; split <;> rfl
@[simp] theorem onTile_rill (t : Nat) (f : Tile → Tile) (s : State) : (onTile t f s).rill = s.rill := by
  unfold onTile; split <;> rfl
@[simp] theorem onTile_edges (t : Nat) (f : Tile → Tile) (s : State) : (onTile t f s).edges = s.edges := by
  unfold onTile; split <;> rfl
@[simp] theorem onTile_shims (t : Nat) (f : Tile → Tile) (s : State) : (onTile t f s).shims = s.shims := by
  unfold onTile; split <;> rfl
@[simp] theorem onTile_pending (t : Nat) (f : Tile → Tile) (s : State) : (onTile t f s).pending = s.pending := by
  unfold onTile; split <;> rfl

@[simp] theorem onShim_mapEpoch (t : Nat) (f : Shim → Shim) (s : State) : (onShim t f s).mapEpoch = s.mapEpoch := by
  unfold onShim; split <;> rfl
@[simp] theorem onShim_time (t : Nat) (f : Shim → Shim) (s : State) : (onShim t f s).time = s.time := by
  unfold onShim; split <;> rfl
@[simp] theorem onShim_root (t : Nat) (f : Shim → Shim) (s : State) : (onShim t f s).root = s.root := by
  unfold onShim; split <;> rfl
@[simp] theorem onShim_alarm (t : Nat) (f : Shim → Shim) (s : State) : (onShim t f s).alarm = s.alarm := by
  unfold onShim; split <;> rfl
@[simp] theorem onShim_txn (t : Nat) (f : Shim → Shim) (s : State) : (onShim t f s).txn = s.txn := by
  unfold onShim; split <;> rfl
@[simp] theorem onShim_plans (t : Nat) (f : Shim → Shim) (s : State) : (onShim t f s).plans = s.plans := by
  unfold onShim; split <;> rfl
@[simp] theorem onShim_folds (t : Nat) (f : Shim → Shim) (s : State) : (onShim t f s).folds = s.folds := by
  unfold onShim; split <;> rfl
@[simp] theorem onShim_census (t : Nat) (f : Shim → Shim) (s : State) : (onShim t f s).census = s.census := by
  unfold onShim; split <;> rfl
@[simp] theorem onShim_snap (t : Nat) (f : Shim → Shim) (s : State) : (onShim t f s).snap = s.snap := by
  unfold onShim; split <;> rfl
@[simp] theorem onShim_recov (t : Nat) (f : Shim → Shim) (s : State) : (onShim t f s).recov = s.recov := by
  unfold onShim; split <;> rfl
@[simp] theorem onShim_port (t : Nat) (f : Shim → Shim) (s : State) : (onShim t f s).port = s.port := by
  unfold onShim; split <;> rfl
@[simp] theorem onShim_sess (t : Nat) (f : Shim → Shim) (s : State) : (onShim t f s).sess = s.sess := by
  unfold onShim; split <;> rfl
@[simp] theorem onShim_tap (t : Nat) (f : Shim → Shim) (s : State) : (onShim t f s).tap = s.tap := by
  unfold onShim; split <;> rfl
@[simp] theorem onShim_lc (t : Nat) (f : Shim → Shim) (s : State) : (onShim t f s).lc = s.lc := by
  unfold onShim; split <;> rfl
@[simp] theorem onShim_boot (t : Nat) (f : Shim → Shim) (s : State) : (onShim t f s).boot = s.boot := by
  unfold onShim; split <;> rfl
@[simp] theorem onShim_cfg (t : Nat) (f : Shim → Shim) (s : State) : (onShim t f s).cfg = s.cfg := by
  unfold onShim; split <;> rfl
@[simp] theorem onShim_xspi (t : Nat) (f : Shim → Shim) (s : State) : (onShim t f s).xspi = s.xspi := by
  unfold onShim; split <;> rfl
@[simp] theorem onShim_rill (t : Nat) (f : Shim → Shim) (s : State) : (onShim t f s).rill = s.rill := by
  unfold onShim; split <;> rfl
@[simp] theorem onShim_tiles (t : Nat) (f : Shim → Shim) (s : State) : (onShim t f s).tiles = s.tiles := by
  unfold onShim; split <;> rfl
@[simp] theorem onShim_edges (t : Nat) (f : Shim → Shim) (s : State) : (onShim t f s).edges = s.edges := by
  unfold onShim; split <;> rfl
@[simp] theorem onShim_pending (t : Nat) (f : Shim → Shim) (s : State) : (onShim t f s).pending = s.pending := by
  unfold onShim; split <;> rfl

@[simp] theorem onEdge_mapEpoch (t : Nat) (f : Edge → Edge) (s : State) : (onEdge t f s).mapEpoch = s.mapEpoch := by
  unfold onEdge; split <;> rfl
@[simp] theorem onEdge_time (t : Nat) (f : Edge → Edge) (s : State) : (onEdge t f s).time = s.time := by
  unfold onEdge; split <;> rfl
@[simp] theorem onEdge_root (t : Nat) (f : Edge → Edge) (s : State) : (onEdge t f s).root = s.root := by
  unfold onEdge; split <;> rfl
@[simp] theorem onEdge_alarm (t : Nat) (f : Edge → Edge) (s : State) : (onEdge t f s).alarm = s.alarm := by
  unfold onEdge; split <;> rfl
@[simp] theorem onEdge_txn (t : Nat) (f : Edge → Edge) (s : State) : (onEdge t f s).txn = s.txn := by
  unfold onEdge; split <;> rfl
@[simp] theorem onEdge_plans (t : Nat) (f : Edge → Edge) (s : State) : (onEdge t f s).plans = s.plans := by
  unfold onEdge; split <;> rfl
@[simp] theorem onEdge_folds (t : Nat) (f : Edge → Edge) (s : State) : (onEdge t f s).folds = s.folds := by
  unfold onEdge; split <;> rfl
@[simp] theorem onEdge_census (t : Nat) (f : Edge → Edge) (s : State) : (onEdge t f s).census = s.census := by
  unfold onEdge; split <;> rfl
@[simp] theorem onEdge_snap (t : Nat) (f : Edge → Edge) (s : State) : (onEdge t f s).snap = s.snap := by
  unfold onEdge; split <;> rfl
@[simp] theorem onEdge_recov (t : Nat) (f : Edge → Edge) (s : State) : (onEdge t f s).recov = s.recov := by
  unfold onEdge; split <;> rfl
@[simp] theorem onEdge_port (t : Nat) (f : Edge → Edge) (s : State) : (onEdge t f s).port = s.port := by
  unfold onEdge; split <;> rfl
@[simp] theorem onEdge_sess (t : Nat) (f : Edge → Edge) (s : State) : (onEdge t f s).sess = s.sess := by
  unfold onEdge; split <;> rfl
@[simp] theorem onEdge_tap (t : Nat) (f : Edge → Edge) (s : State) : (onEdge t f s).tap = s.tap := by
  unfold onEdge; split <;> rfl
@[simp] theorem onEdge_lc (t : Nat) (f : Edge → Edge) (s : State) : (onEdge t f s).lc = s.lc := by
  unfold onEdge; split <;> rfl
@[simp] theorem onEdge_boot (t : Nat) (f : Edge → Edge) (s : State) : (onEdge t f s).boot = s.boot := by
  unfold onEdge; split <;> rfl
@[simp] theorem onEdge_cfg (t : Nat) (f : Edge → Edge) (s : State) : (onEdge t f s).cfg = s.cfg := by
  unfold onEdge; split <;> rfl
@[simp] theorem onEdge_xspi (t : Nat) (f : Edge → Edge) (s : State) : (onEdge t f s).xspi = s.xspi := by
  unfold onEdge; split <;> rfl
@[simp] theorem onEdge_rill (t : Nat) (f : Edge → Edge) (s : State) : (onEdge t f s).rill = s.rill := by
  unfold onEdge; split <;> rfl
@[simp] theorem onEdge_tiles (t : Nat) (f : Edge → Edge) (s : State) : (onEdge t f s).tiles = s.tiles := by
  unfold onEdge; split <;> rfl
@[simp] theorem onEdge_shims (t : Nat) (f : Edge → Edge) (s : State) : (onEdge t f s).shims = s.shims := by
  unfold onEdge; split <;> rfl
@[simp] theorem onEdge_pending (t : Nat) (f : Edge → Edge) (s : State) : (onEdge t f s).pending = s.pending := by
  unfold onEdge; split <;> rfl

@[simp] theorem onListedTiles_mapEpoch (f : Nat → Tile → Tile) (s : State) : (onListedTiles f s).mapEpoch = s.mapEpoch := by
  unfold onListedTiles; generalize mapAll ({} : Tile) f s.tiles = m; rfl
@[simp] theorem onListedTiles_time (f : Nat → Tile → Tile) (s : State) : (onListedTiles f s).time = s.time := by
  unfold onListedTiles; generalize mapAll ({} : Tile) f s.tiles = m; rfl
@[simp] theorem onListedTiles_root (f : Nat → Tile → Tile) (s : State) : (onListedTiles f s).root = s.root := by
  unfold onListedTiles; generalize mapAll ({} : Tile) f s.tiles = m; rfl
@[simp] theorem onListedTiles_alarm (f : Nat → Tile → Tile) (s : State) : (onListedTiles f s).alarm = s.alarm := by
  unfold onListedTiles; generalize mapAll ({} : Tile) f s.tiles = m; rfl
@[simp] theorem onListedTiles_txn (f : Nat → Tile → Tile) (s : State) : (onListedTiles f s).txn = s.txn := by
  unfold onListedTiles; generalize mapAll ({} : Tile) f s.tiles = m; rfl
@[simp] theorem onListedTiles_plans (f : Nat → Tile → Tile) (s : State) : (onListedTiles f s).plans = s.plans := by
  unfold onListedTiles; generalize mapAll ({} : Tile) f s.tiles = m; rfl
@[simp] theorem onListedTiles_folds (f : Nat → Tile → Tile) (s : State) : (onListedTiles f s).folds = s.folds := by
  unfold onListedTiles; generalize mapAll ({} : Tile) f s.tiles = m; rfl
@[simp] theorem onListedTiles_census (f : Nat → Tile → Tile) (s : State) : (onListedTiles f s).census = s.census := by
  unfold onListedTiles; generalize mapAll ({} : Tile) f s.tiles = m; rfl
@[simp] theorem onListedTiles_snap (f : Nat → Tile → Tile) (s : State) : (onListedTiles f s).snap = s.snap := by
  unfold onListedTiles; generalize mapAll ({} : Tile) f s.tiles = m; rfl
@[simp] theorem onListedTiles_recov (f : Nat → Tile → Tile) (s : State) : (onListedTiles f s).recov = s.recov := by
  unfold onListedTiles; generalize mapAll ({} : Tile) f s.tiles = m; rfl
@[simp] theorem onListedTiles_port (f : Nat → Tile → Tile) (s : State) : (onListedTiles f s).port = s.port := by
  unfold onListedTiles; generalize mapAll ({} : Tile) f s.tiles = m; rfl
@[simp] theorem onListedTiles_sess (f : Nat → Tile → Tile) (s : State) : (onListedTiles f s).sess = s.sess := by
  unfold onListedTiles; generalize mapAll ({} : Tile) f s.tiles = m; rfl
@[simp] theorem onListedTiles_tap (f : Nat → Tile → Tile) (s : State) : (onListedTiles f s).tap = s.tap := by
  unfold onListedTiles; generalize mapAll ({} : Tile) f s.tiles = m; rfl
@[simp] theorem onListedTiles_lc (f : Nat → Tile → Tile) (s : State) : (onListedTiles f s).lc = s.lc := by
  unfold onListedTiles; generalize mapAll ({} : Tile) f s.tiles = m; rfl
@[simp] theorem onListedTiles_boot (f : Nat → Tile → Tile) (s : State) : (onListedTiles f s).boot = s.boot := by
  unfold onListedTiles; generalize mapAll ({} : Tile) f s.tiles = m; rfl
@[simp] theorem onListedTiles_cfg (f : Nat → Tile → Tile) (s : State) : (onListedTiles f s).cfg = s.cfg := by
  unfold onListedTiles; generalize mapAll ({} : Tile) f s.tiles = m; rfl
@[simp] theorem onListedTiles_xspi (f : Nat → Tile → Tile) (s : State) : (onListedTiles f s).xspi = s.xspi := by
  unfold onListedTiles; generalize mapAll ({} : Tile) f s.tiles = m; rfl
@[simp] theorem onListedTiles_rill (f : Nat → Tile → Tile) (s : State) : (onListedTiles f s).rill = s.rill := by
  unfold onListedTiles; generalize mapAll ({} : Tile) f s.tiles = m; rfl
@[simp] theorem onListedTiles_edges (f : Nat → Tile → Tile) (s : State) : (onListedTiles f s).edges = s.edges := by
  unfold onListedTiles; generalize mapAll ({} : Tile) f s.tiles = m; rfl
@[simp] theorem onListedTiles_shims (f : Nat → Tile → Tile) (s : State) : (onListedTiles f s).shims = s.shims := by
  unfold onListedTiles; generalize mapAll ({} : Tile) f s.tiles = m; rfl
@[simp] theorem onListedTiles_pending (f : Nat → Tile → Tile) (s : State) : (onListedTiles f s).pending = s.pending := by
  unfold onListedTiles; generalize mapAll ({} : Tile) f s.tiles = m; rfl

@[simp] theorem onEveryTile_mapEpoch (f : Nat → Tile → Tile) (s : State) : (onEveryTile f s).mapEpoch = s.mapEpoch := by
  unfold onEveryTile; generalize mapBelow ({} : Tile) numTiles f s.tiles = m; rfl
@[simp] theorem onEveryTile_time (f : Nat → Tile → Tile) (s : State) : (onEveryTile f s).time = s.time := by
  unfold onEveryTile; generalize mapBelow ({} : Tile) numTiles f s.tiles = m; rfl
@[simp] theorem onEveryTile_root (f : Nat → Tile → Tile) (s : State) : (onEveryTile f s).root = s.root := by
  unfold onEveryTile; generalize mapBelow ({} : Tile) numTiles f s.tiles = m; rfl
@[simp] theorem onEveryTile_alarm (f : Nat → Tile → Tile) (s : State) : (onEveryTile f s).alarm = s.alarm := by
  unfold onEveryTile; generalize mapBelow ({} : Tile) numTiles f s.tiles = m; rfl
@[simp] theorem onEveryTile_txn (f : Nat → Tile → Tile) (s : State) : (onEveryTile f s).txn = s.txn := by
  unfold onEveryTile; generalize mapBelow ({} : Tile) numTiles f s.tiles = m; rfl
@[simp] theorem onEveryTile_plans (f : Nat → Tile → Tile) (s : State) : (onEveryTile f s).plans = s.plans := by
  unfold onEveryTile; generalize mapBelow ({} : Tile) numTiles f s.tiles = m; rfl
@[simp] theorem onEveryTile_folds (f : Nat → Tile → Tile) (s : State) : (onEveryTile f s).folds = s.folds := by
  unfold onEveryTile; generalize mapBelow ({} : Tile) numTiles f s.tiles = m; rfl
@[simp] theorem onEveryTile_census (f : Nat → Tile → Tile) (s : State) : (onEveryTile f s).census = s.census := by
  unfold onEveryTile; generalize mapBelow ({} : Tile) numTiles f s.tiles = m; rfl
@[simp] theorem onEveryTile_snap (f : Nat → Tile → Tile) (s : State) : (onEveryTile f s).snap = s.snap := by
  unfold onEveryTile; generalize mapBelow ({} : Tile) numTiles f s.tiles = m; rfl
@[simp] theorem onEveryTile_recov (f : Nat → Tile → Tile) (s : State) : (onEveryTile f s).recov = s.recov := by
  unfold onEveryTile; generalize mapBelow ({} : Tile) numTiles f s.tiles = m; rfl
@[simp] theorem onEveryTile_port (f : Nat → Tile → Tile) (s : State) : (onEveryTile f s).port = s.port := by
  unfold onEveryTile; generalize mapBelow ({} : Tile) numTiles f s.tiles = m; rfl
@[simp] theorem onEveryTile_sess (f : Nat → Tile → Tile) (s : State) : (onEveryTile f s).sess = s.sess := by
  unfold onEveryTile; generalize mapBelow ({} : Tile) numTiles f s.tiles = m; rfl
@[simp] theorem onEveryTile_tap (f : Nat → Tile → Tile) (s : State) : (onEveryTile f s).tap = s.tap := by
  unfold onEveryTile; generalize mapBelow ({} : Tile) numTiles f s.tiles = m; rfl
@[simp] theorem onEveryTile_lc (f : Nat → Tile → Tile) (s : State) : (onEveryTile f s).lc = s.lc := by
  unfold onEveryTile; generalize mapBelow ({} : Tile) numTiles f s.tiles = m; rfl
@[simp] theorem onEveryTile_boot (f : Nat → Tile → Tile) (s : State) : (onEveryTile f s).boot = s.boot := by
  unfold onEveryTile; generalize mapBelow ({} : Tile) numTiles f s.tiles = m; rfl
@[simp] theorem onEveryTile_cfg (f : Nat → Tile → Tile) (s : State) : (onEveryTile f s).cfg = s.cfg := by
  unfold onEveryTile; generalize mapBelow ({} : Tile) numTiles f s.tiles = m; rfl
@[simp] theorem onEveryTile_xspi (f : Nat → Tile → Tile) (s : State) : (onEveryTile f s).xspi = s.xspi := by
  unfold onEveryTile; generalize mapBelow ({} : Tile) numTiles f s.tiles = m; rfl
@[simp] theorem onEveryTile_rill (f : Nat → Tile → Tile) (s : State) : (onEveryTile f s).rill = s.rill := by
  unfold onEveryTile; generalize mapBelow ({} : Tile) numTiles f s.tiles = m; rfl
@[simp] theorem onEveryTile_edges (f : Nat → Tile → Tile) (s : State) : (onEveryTile f s).edges = s.edges := by
  unfold onEveryTile; generalize mapBelow ({} : Tile) numTiles f s.tiles = m; rfl
@[simp] theorem onEveryTile_shims (f : Nat → Tile → Tile) (s : State) : (onEveryTile f s).shims = s.shims := by
  unfold onEveryTile; generalize mapBelow ({} : Tile) numTiles f s.tiles = m; rfl
@[simp] theorem onEveryTile_pending (f : Nat → Tile → Tile) (s : State) : (onEveryTile f s).pending = s.pending := by
  unfold onEveryTile; generalize mapBelow ({} : Tile) numTiles f s.tiles = m; rfl

@[simp] theorem onListedShims_mapEpoch (f : Nat → Shim → Shim) (s : State) : (onListedShims f s).mapEpoch = s.mapEpoch := by
  unfold onListedShims; generalize mapAll ({} : Shim) f s.shims = m; rfl
@[simp] theorem onListedShims_time (f : Nat → Shim → Shim) (s : State) : (onListedShims f s).time = s.time := by
  unfold onListedShims; generalize mapAll ({} : Shim) f s.shims = m; rfl
@[simp] theorem onListedShims_root (f : Nat → Shim → Shim) (s : State) : (onListedShims f s).root = s.root := by
  unfold onListedShims; generalize mapAll ({} : Shim) f s.shims = m; rfl
@[simp] theorem onListedShims_alarm (f : Nat → Shim → Shim) (s : State) : (onListedShims f s).alarm = s.alarm := by
  unfold onListedShims; generalize mapAll ({} : Shim) f s.shims = m; rfl
@[simp] theorem onListedShims_txn (f : Nat → Shim → Shim) (s : State) : (onListedShims f s).txn = s.txn := by
  unfold onListedShims; generalize mapAll ({} : Shim) f s.shims = m; rfl
@[simp] theorem onListedShims_plans (f : Nat → Shim → Shim) (s : State) : (onListedShims f s).plans = s.plans := by
  unfold onListedShims; generalize mapAll ({} : Shim) f s.shims = m; rfl
@[simp] theorem onListedShims_folds (f : Nat → Shim → Shim) (s : State) : (onListedShims f s).folds = s.folds := by
  unfold onListedShims; generalize mapAll ({} : Shim) f s.shims = m; rfl
@[simp] theorem onListedShims_census (f : Nat → Shim → Shim) (s : State) : (onListedShims f s).census = s.census := by
  unfold onListedShims; generalize mapAll ({} : Shim) f s.shims = m; rfl
@[simp] theorem onListedShims_snap (f : Nat → Shim → Shim) (s : State) : (onListedShims f s).snap = s.snap := by
  unfold onListedShims; generalize mapAll ({} : Shim) f s.shims = m; rfl
@[simp] theorem onListedShims_recov (f : Nat → Shim → Shim) (s : State) : (onListedShims f s).recov = s.recov := by
  unfold onListedShims; generalize mapAll ({} : Shim) f s.shims = m; rfl
@[simp] theorem onListedShims_port (f : Nat → Shim → Shim) (s : State) : (onListedShims f s).port = s.port := by
  unfold onListedShims; generalize mapAll ({} : Shim) f s.shims = m; rfl
@[simp] theorem onListedShims_sess (f : Nat → Shim → Shim) (s : State) : (onListedShims f s).sess = s.sess := by
  unfold onListedShims; generalize mapAll ({} : Shim) f s.shims = m; rfl
@[simp] theorem onListedShims_tap (f : Nat → Shim → Shim) (s : State) : (onListedShims f s).tap = s.tap := by
  unfold onListedShims; generalize mapAll ({} : Shim) f s.shims = m; rfl
@[simp] theorem onListedShims_lc (f : Nat → Shim → Shim) (s : State) : (onListedShims f s).lc = s.lc := by
  unfold onListedShims; generalize mapAll ({} : Shim) f s.shims = m; rfl
@[simp] theorem onListedShims_boot (f : Nat → Shim → Shim) (s : State) : (onListedShims f s).boot = s.boot := by
  unfold onListedShims; generalize mapAll ({} : Shim) f s.shims = m; rfl
@[simp] theorem onListedShims_cfg (f : Nat → Shim → Shim) (s : State) : (onListedShims f s).cfg = s.cfg := by
  unfold onListedShims; generalize mapAll ({} : Shim) f s.shims = m; rfl
@[simp] theorem onListedShims_xspi (f : Nat → Shim → Shim) (s : State) : (onListedShims f s).xspi = s.xspi := by
  unfold onListedShims; generalize mapAll ({} : Shim) f s.shims = m; rfl
@[simp] theorem onListedShims_rill (f : Nat → Shim → Shim) (s : State) : (onListedShims f s).rill = s.rill := by
  unfold onListedShims; generalize mapAll ({} : Shim) f s.shims = m; rfl
@[simp] theorem onListedShims_tiles (f : Nat → Shim → Shim) (s : State) : (onListedShims f s).tiles = s.tiles := by
  unfold onListedShims; generalize mapAll ({} : Shim) f s.shims = m; rfl
@[simp] theorem onListedShims_edges (f : Nat → Shim → Shim) (s : State) : (onListedShims f s).edges = s.edges := by
  unfold onListedShims; generalize mapAll ({} : Shim) f s.shims = m; rfl
@[simp] theorem onListedShims_pending (f : Nat → Shim → Shim) (s : State) : (onListedShims f s).pending = s.pending := by
  unfold onListedShims; generalize mapAll ({} : Shim) f s.shims = m; rfl

@[simp] theorem onEveryShim_mapEpoch (f : Nat → Shim → Shim) (s : State) : (onEveryShim f s).mapEpoch = s.mapEpoch := by
  unfold onEveryShim; generalize mapBelow ({} : Shim) numFields f s.shims = m; rfl
@[simp] theorem onEveryShim_time (f : Nat → Shim → Shim) (s : State) : (onEveryShim f s).time = s.time := by
  unfold onEveryShim; generalize mapBelow ({} : Shim) numFields f s.shims = m; rfl
@[simp] theorem onEveryShim_root (f : Nat → Shim → Shim) (s : State) : (onEveryShim f s).root = s.root := by
  unfold onEveryShim; generalize mapBelow ({} : Shim) numFields f s.shims = m; rfl
@[simp] theorem onEveryShim_alarm (f : Nat → Shim → Shim) (s : State) : (onEveryShim f s).alarm = s.alarm := by
  unfold onEveryShim; generalize mapBelow ({} : Shim) numFields f s.shims = m; rfl
@[simp] theorem onEveryShim_txn (f : Nat → Shim → Shim) (s : State) : (onEveryShim f s).txn = s.txn := by
  unfold onEveryShim; generalize mapBelow ({} : Shim) numFields f s.shims = m; rfl
@[simp] theorem onEveryShim_plans (f : Nat → Shim → Shim) (s : State) : (onEveryShim f s).plans = s.plans := by
  unfold onEveryShim; generalize mapBelow ({} : Shim) numFields f s.shims = m; rfl
@[simp] theorem onEveryShim_folds (f : Nat → Shim → Shim) (s : State) : (onEveryShim f s).folds = s.folds := by
  unfold onEveryShim; generalize mapBelow ({} : Shim) numFields f s.shims = m; rfl
@[simp] theorem onEveryShim_census (f : Nat → Shim → Shim) (s : State) : (onEveryShim f s).census = s.census := by
  unfold onEveryShim; generalize mapBelow ({} : Shim) numFields f s.shims = m; rfl
@[simp] theorem onEveryShim_snap (f : Nat → Shim → Shim) (s : State) : (onEveryShim f s).snap = s.snap := by
  unfold onEveryShim; generalize mapBelow ({} : Shim) numFields f s.shims = m; rfl
@[simp] theorem onEveryShim_recov (f : Nat → Shim → Shim) (s : State) : (onEveryShim f s).recov = s.recov := by
  unfold onEveryShim; generalize mapBelow ({} : Shim) numFields f s.shims = m; rfl
@[simp] theorem onEveryShim_port (f : Nat → Shim → Shim) (s : State) : (onEveryShim f s).port = s.port := by
  unfold onEveryShim; generalize mapBelow ({} : Shim) numFields f s.shims = m; rfl
@[simp] theorem onEveryShim_sess (f : Nat → Shim → Shim) (s : State) : (onEveryShim f s).sess = s.sess := by
  unfold onEveryShim; generalize mapBelow ({} : Shim) numFields f s.shims = m; rfl
@[simp] theorem onEveryShim_tap (f : Nat → Shim → Shim) (s : State) : (onEveryShim f s).tap = s.tap := by
  unfold onEveryShim; generalize mapBelow ({} : Shim) numFields f s.shims = m; rfl
@[simp] theorem onEveryShim_lc (f : Nat → Shim → Shim) (s : State) : (onEveryShim f s).lc = s.lc := by
  unfold onEveryShim; generalize mapBelow ({} : Shim) numFields f s.shims = m; rfl
@[simp] theorem onEveryShim_boot (f : Nat → Shim → Shim) (s : State) : (onEveryShim f s).boot = s.boot := by
  unfold onEveryShim; generalize mapBelow ({} : Shim) numFields f s.shims = m; rfl
@[simp] theorem onEveryShim_cfg (f : Nat → Shim → Shim) (s : State) : (onEveryShim f s).cfg = s.cfg := by
  unfold onEveryShim; generalize mapBelow ({} : Shim) numFields f s.shims = m; rfl
@[simp] theorem onEveryShim_xspi (f : Nat → Shim → Shim) (s : State) : (onEveryShim f s).xspi = s.xspi := by
  unfold onEveryShim; generalize mapBelow ({} : Shim) numFields f s.shims = m; rfl
@[simp] theorem onEveryShim_rill (f : Nat → Shim → Shim) (s : State) : (onEveryShim f s).rill = s.rill := by
  unfold onEveryShim; generalize mapBelow ({} : Shim) numFields f s.shims = m; rfl
@[simp] theorem onEveryShim_tiles (f : Nat → Shim → Shim) (s : State) : (onEveryShim f s).tiles = s.tiles := by
  unfold onEveryShim; generalize mapBelow ({} : Shim) numFields f s.shims = m; rfl
@[simp] theorem onEveryShim_edges (f : Nat → Shim → Shim) (s : State) : (onEveryShim f s).edges = s.edges := by
  unfold onEveryShim; generalize mapBelow ({} : Shim) numFields f s.shims = m; rfl
@[simp] theorem onEveryShim_pending (f : Nat → Shim → Shim) (s : State) : (onEveryShim f s).pending = s.pending := by
  unfold onEveryShim; generalize mapBelow ({} : Shim) numFields f s.shims = m; rfl

@[simp] theorem onListedEdges_mapEpoch (f : Nat → Edge → Edge) (s : State) : (onListedEdges f s).mapEpoch = s.mapEpoch := by
  unfold onListedEdges; generalize mapAll ({} : Edge) f s.edges = m; rfl
@[simp] theorem onListedEdges_time (f : Nat → Edge → Edge) (s : State) : (onListedEdges f s).time = s.time := by
  unfold onListedEdges; generalize mapAll ({} : Edge) f s.edges = m; rfl
@[simp] theorem onListedEdges_root (f : Nat → Edge → Edge) (s : State) : (onListedEdges f s).root = s.root := by
  unfold onListedEdges; generalize mapAll ({} : Edge) f s.edges = m; rfl
@[simp] theorem onListedEdges_alarm (f : Nat → Edge → Edge) (s : State) : (onListedEdges f s).alarm = s.alarm := by
  unfold onListedEdges; generalize mapAll ({} : Edge) f s.edges = m; rfl
@[simp] theorem onListedEdges_txn (f : Nat → Edge → Edge) (s : State) : (onListedEdges f s).txn = s.txn := by
  unfold onListedEdges; generalize mapAll ({} : Edge) f s.edges = m; rfl
@[simp] theorem onListedEdges_plans (f : Nat → Edge → Edge) (s : State) : (onListedEdges f s).plans = s.plans := by
  unfold onListedEdges; generalize mapAll ({} : Edge) f s.edges = m; rfl
@[simp] theorem onListedEdges_folds (f : Nat → Edge → Edge) (s : State) : (onListedEdges f s).folds = s.folds := by
  unfold onListedEdges; generalize mapAll ({} : Edge) f s.edges = m; rfl
@[simp] theorem onListedEdges_census (f : Nat → Edge → Edge) (s : State) : (onListedEdges f s).census = s.census := by
  unfold onListedEdges; generalize mapAll ({} : Edge) f s.edges = m; rfl
@[simp] theorem onListedEdges_snap (f : Nat → Edge → Edge) (s : State) : (onListedEdges f s).snap = s.snap := by
  unfold onListedEdges; generalize mapAll ({} : Edge) f s.edges = m; rfl
@[simp] theorem onListedEdges_recov (f : Nat → Edge → Edge) (s : State) : (onListedEdges f s).recov = s.recov := by
  unfold onListedEdges; generalize mapAll ({} : Edge) f s.edges = m; rfl
@[simp] theorem onListedEdges_port (f : Nat → Edge → Edge) (s : State) : (onListedEdges f s).port = s.port := by
  unfold onListedEdges; generalize mapAll ({} : Edge) f s.edges = m; rfl
@[simp] theorem onListedEdges_sess (f : Nat → Edge → Edge) (s : State) : (onListedEdges f s).sess = s.sess := by
  unfold onListedEdges; generalize mapAll ({} : Edge) f s.edges = m; rfl
@[simp] theorem onListedEdges_tap (f : Nat → Edge → Edge) (s : State) : (onListedEdges f s).tap = s.tap := by
  unfold onListedEdges; generalize mapAll ({} : Edge) f s.edges = m; rfl
@[simp] theorem onListedEdges_lc (f : Nat → Edge → Edge) (s : State) : (onListedEdges f s).lc = s.lc := by
  unfold onListedEdges; generalize mapAll ({} : Edge) f s.edges = m; rfl
@[simp] theorem onListedEdges_boot (f : Nat → Edge → Edge) (s : State) : (onListedEdges f s).boot = s.boot := by
  unfold onListedEdges; generalize mapAll ({} : Edge) f s.edges = m; rfl
@[simp] theorem onListedEdges_cfg (f : Nat → Edge → Edge) (s : State) : (onListedEdges f s).cfg = s.cfg := by
  unfold onListedEdges; generalize mapAll ({} : Edge) f s.edges = m; rfl
@[simp] theorem onListedEdges_xspi (f : Nat → Edge → Edge) (s : State) : (onListedEdges f s).xspi = s.xspi := by
  unfold onListedEdges; generalize mapAll ({} : Edge) f s.edges = m; rfl
@[simp] theorem onListedEdges_rill (f : Nat → Edge → Edge) (s : State) : (onListedEdges f s).rill = s.rill := by
  unfold onListedEdges; generalize mapAll ({} : Edge) f s.edges = m; rfl
@[simp] theorem onListedEdges_tiles (f : Nat → Edge → Edge) (s : State) : (onListedEdges f s).tiles = s.tiles := by
  unfold onListedEdges; generalize mapAll ({} : Edge) f s.edges = m; rfl
@[simp] theorem onListedEdges_shims (f : Nat → Edge → Edge) (s : State) : (onListedEdges f s).shims = s.shims := by
  unfold onListedEdges; generalize mapAll ({} : Edge) f s.edges = m; rfl
@[simp] theorem onListedEdges_pending (f : Nat → Edge → Edge) (s : State) : (onListedEdges f s).pending = s.pending := by
  unfold onListedEdges; generalize mapAll ({} : Edge) f s.edges = m; rfl

@[simp] theorem onEveryEdge_mapEpoch (f : Nat → Edge → Edge) (s : State) : (onEveryEdge f s).mapEpoch = s.mapEpoch := by
  unfold onEveryEdge; generalize mapBelow ({} : Edge) numDies f s.edges = m; rfl
@[simp] theorem onEveryEdge_time (f : Nat → Edge → Edge) (s : State) : (onEveryEdge f s).time = s.time := by
  unfold onEveryEdge; generalize mapBelow ({} : Edge) numDies f s.edges = m; rfl
@[simp] theorem onEveryEdge_root (f : Nat → Edge → Edge) (s : State) : (onEveryEdge f s).root = s.root := by
  unfold onEveryEdge; generalize mapBelow ({} : Edge) numDies f s.edges = m; rfl
@[simp] theorem onEveryEdge_alarm (f : Nat → Edge → Edge) (s : State) : (onEveryEdge f s).alarm = s.alarm := by
  unfold onEveryEdge; generalize mapBelow ({} : Edge) numDies f s.edges = m; rfl
@[simp] theorem onEveryEdge_txn (f : Nat → Edge → Edge) (s : State) : (onEveryEdge f s).txn = s.txn := by
  unfold onEveryEdge; generalize mapBelow ({} : Edge) numDies f s.edges = m; rfl
@[simp] theorem onEveryEdge_plans (f : Nat → Edge → Edge) (s : State) : (onEveryEdge f s).plans = s.plans := by
  unfold onEveryEdge; generalize mapBelow ({} : Edge) numDies f s.edges = m; rfl
@[simp] theorem onEveryEdge_folds (f : Nat → Edge → Edge) (s : State) : (onEveryEdge f s).folds = s.folds := by
  unfold onEveryEdge; generalize mapBelow ({} : Edge) numDies f s.edges = m; rfl
@[simp] theorem onEveryEdge_census (f : Nat → Edge → Edge) (s : State) : (onEveryEdge f s).census = s.census := by
  unfold onEveryEdge; generalize mapBelow ({} : Edge) numDies f s.edges = m; rfl
@[simp] theorem onEveryEdge_snap (f : Nat → Edge → Edge) (s : State) : (onEveryEdge f s).snap = s.snap := by
  unfold onEveryEdge; generalize mapBelow ({} : Edge) numDies f s.edges = m; rfl
@[simp] theorem onEveryEdge_recov (f : Nat → Edge → Edge) (s : State) : (onEveryEdge f s).recov = s.recov := by
  unfold onEveryEdge; generalize mapBelow ({} : Edge) numDies f s.edges = m; rfl
@[simp] theorem onEveryEdge_port (f : Nat → Edge → Edge) (s : State) : (onEveryEdge f s).port = s.port := by
  unfold onEveryEdge; generalize mapBelow ({} : Edge) numDies f s.edges = m; rfl
@[simp] theorem onEveryEdge_sess (f : Nat → Edge → Edge) (s : State) : (onEveryEdge f s).sess = s.sess := by
  unfold onEveryEdge; generalize mapBelow ({} : Edge) numDies f s.edges = m; rfl
@[simp] theorem onEveryEdge_tap (f : Nat → Edge → Edge) (s : State) : (onEveryEdge f s).tap = s.tap := by
  unfold onEveryEdge; generalize mapBelow ({} : Edge) numDies f s.edges = m; rfl
@[simp] theorem onEveryEdge_lc (f : Nat → Edge → Edge) (s : State) : (onEveryEdge f s).lc = s.lc := by
  unfold onEveryEdge; generalize mapBelow ({} : Edge) numDies f s.edges = m; rfl
@[simp] theorem onEveryEdge_boot (f : Nat → Edge → Edge) (s : State) : (onEveryEdge f s).boot = s.boot := by
  unfold onEveryEdge; generalize mapBelow ({} : Edge) numDies f s.edges = m; rfl
@[simp] theorem onEveryEdge_cfg (f : Nat → Edge → Edge) (s : State) : (onEveryEdge f s).cfg = s.cfg := by
  unfold onEveryEdge; generalize mapBelow ({} : Edge) numDies f s.edges = m; rfl
@[simp] theorem onEveryEdge_xspi (f : Nat → Edge → Edge) (s : State) : (onEveryEdge f s).xspi = s.xspi := by
  unfold onEveryEdge; generalize mapBelow ({} : Edge) numDies f s.edges = m; rfl
@[simp] theorem onEveryEdge_rill (f : Nat → Edge → Edge) (s : State) : (onEveryEdge f s).rill = s.rill := by
  unfold onEveryEdge; generalize mapBelow ({} : Edge) numDies f s.edges = m; rfl
@[simp] theorem onEveryEdge_tiles (f : Nat → Edge → Edge) (s : State) : (onEveryEdge f s).tiles = s.tiles := by
  unfold onEveryEdge; generalize mapBelow ({} : Edge) numDies f s.edges = m; rfl
@[simp] theorem onEveryEdge_shims (f : Nat → Edge → Edge) (s : State) : (onEveryEdge f s).shims = s.shims := by
  unfold onEveryEdge; generalize mapBelow ({} : Edge) numDies f s.edges = m; rfl
@[simp] theorem onEveryEdge_pending (f : Nat → Edge → Edge) (s : State) : (onEveryEdge f s).pending = s.pending := by
  unfold onEveryEdge; generalize mapBelow ({} : Edge) numDies f s.edges = m; rfl

@[simp] theorem event_mapEpoch (n : Nat) (s : State) : (event n s).mapEpoch = s.mapEpoch := rfl
@[simp] theorem event_time (n : Nat) (s : State) : (event n s).time = s.time := rfl
@[simp] theorem event_root (n : Nat) (s : State) : (event n s).root = s.root := rfl
@[simp] theorem event_alarm (n : Nat) (s : State) : (event n s).alarm = s.alarm := rfl
@[simp] theorem event_txn (n : Nat) (s : State) : (event n s).txn = s.txn := rfl
@[simp] theorem event_plans (n : Nat) (s : State) : (event n s).plans = s.plans := rfl
@[simp] theorem event_folds (n : Nat) (s : State) : (event n s).folds = s.folds := rfl
@[simp] theorem event_census (n : Nat) (s : State) : (event n s).census = s.census := rfl
@[simp] theorem event_snap (n : Nat) (s : State) : (event n s).snap = s.snap := rfl
@[simp] theorem event_recov (n : Nat) (s : State) : (event n s).recov = s.recov := rfl
@[simp] theorem event_sess (n : Nat) (s : State) : (event n s).sess = s.sess := rfl
@[simp] theorem event_tap (n : Nat) (s : State) : (event n s).tap = s.tap := rfl
@[simp] theorem event_lc (n : Nat) (s : State) : (event n s).lc = s.lc := rfl
@[simp] theorem event_boot (n : Nat) (s : State) : (event n s).boot = s.boot := rfl
@[simp] theorem event_cfg (n : Nat) (s : State) : (event n s).cfg = s.cfg := rfl
@[simp] theorem event_xspi (n : Nat) (s : State) : (event n s).xspi = s.xspi := rfl
@[simp] theorem event_rill (n : Nat) (s : State) : (event n s).rill = s.rill := rfl
@[simp] theorem event_tiles (n : Nat) (s : State) : (event n s).tiles = s.tiles := rfl
@[simp] theorem event_edges (n : Nat) (s : State) : (event n s).edges = s.edges := rfl
@[simp] theorem event_shims (n : Nat) (s : State) : (event n s).shims = s.shims := rfl
@[simp] theorem event_pending (n : Nat) (s : State) : (event n s).pending = s.pending := rfl
@[simp] theorem drawFree_mapEpoch (s : State) : (drawFree s).mapEpoch = s.mapEpoch := rfl
@[simp] theorem drawFree_time (s : State) : (drawFree s).time = s.time := rfl
@[simp] theorem drawFree_root (s : State) : (drawFree s).root = s.root := rfl
@[simp] theorem drawFree_alarm (s : State) : (drawFree s).alarm = s.alarm := rfl
@[simp] theorem drawFree_txn (s : State) : (drawFree s).txn = s.txn := rfl
@[simp] theorem drawFree_plans (s : State) : (drawFree s).plans = s.plans := rfl
@[simp] theorem drawFree_folds (s : State) : (drawFree s).folds = s.folds := rfl
@[simp] theorem drawFree_census (s : State) : (drawFree s).census = s.census := rfl
@[simp] theorem drawFree_snap (s : State) : (drawFree s).snap = s.snap := rfl
@[simp] theorem drawFree_recov (s : State) : (drawFree s).recov = s.recov := rfl
@[simp] theorem drawFree_port (s : State) : (drawFree s).port = s.port := rfl
@[simp] theorem drawFree_sess (s : State) : (drawFree s).sess = s.sess := rfl
@[simp] theorem drawFree_tap (s : State) : (drawFree s).tap = s.tap := rfl
@[simp] theorem drawFree_lc (s : State) : (drawFree s).lc = s.lc := rfl
@[simp] theorem drawFree_cfg (s : State) : (drawFree s).cfg = s.cfg := rfl
@[simp] theorem drawFree_xspi (s : State) : (drawFree s).xspi = s.xspi := rfl
@[simp] theorem drawFree_rill (s : State) : (drawFree s).rill = s.rill := rfl
@[simp] theorem drawFree_tiles (s : State) : (drawFree s).tiles = s.tiles := rfl
@[simp] theorem drawFree_edges (s : State) : (drawFree s).edges = s.edges := rfl
@[simp] theorem drawFree_shims (s : State) : (drawFree s).shims = s.shims := rfl
@[simp] theorem drawFree_pending (s : State) : (drawFree s).pending = s.pending := rfl

@[simp] theorem when_true (f : State → State) (s : State) : when true f s = f s := rfl
@[simp] theorem when_false (f : State → State) (s : State) : when false f s = s := rfl

end Sys2Proof.Machine
end

