-- ==== Sys2Proof/Laws/Maps.lean ====
section
/-! SUPPORT. What the operations over keyed collections do, and that each keeps the canonical form. -/

namespace Sys2Proof.Machine

variable {α : Type}

theorem mget_merase (d : α) (m : Map α) (k j : Nat) : mget d (merase m k) j = if j = k then d else mget d m j := by
  induction m with
  | nil => simp [merase, mget]
  | cons p r ih =>
    obtain ⟨i, v⟩ := p
    unfold merase at ih ⊢
    by_cases h : i = k
    · subst h
      by_cases hj : j = i
      · subst hj; simpa [mget] using ih
      · simp [mget, hj, Ne.symm hj] at ih ⊢; exact ih
    · by_cases hj : i = j
      · subst hj; simp [mget, h]
      · simp [mget, h, hj] at ih ⊢; exact ih

theorem mget_mins (d v : α) (k j : Nat) (m : Map α) (h : ∀ p ∈ m, p.1 ≠ k) :
    mget d (mins k v m) j = if j = k then v else mget d m j := by
  induction m with
  | nil => simp only [mins, mget, eq_comm (a := k)]
  | cons p r ih =>
    obtain ⟨i, w⟩ := p
    have hi : i ≠ k := h (i, w) (by simp)
    have ih' := ih (fun q hq => h q (by simp [hq]))
    unfold mins
    split
    · by_cases hj : j = k
      · subst hj; simp [mget]
      · simp [mget, hj, Ne.symm hj]
    · by_cases hj : i = j
      · subst hj; simp [mget, hi]
      · simp [mget, hj, ih']

theorem merase_ne (m : Map α) (k : Nat) : ∀ p ∈ merase m k, p.1 ≠ k := by
  intro p hp
  simpa [merase] using (List.mem_filter.1 hp).2

/-- A read after a write. -/
theorem mget_mput [DecidableEq α] (d v : α) (m : Map α) (k j : Nat) :
    mget d (mput d m k v) j = if j = k then v else mget d m j := by
  unfold mput
  split
  · next hv => subst hv; exact mget_merase _ _ _ _
  · rw [mget_mins _ _ _ _ _ (merase_ne m k), mget_merase]
    by_cases hj : j = k <;> simp [hj]

theorem mget_mmod [DecidableEq α] (d : α) (m : Map α) (k j : Nat) (f : α → α) :
    mget d (mmod d m k f) j = if j = k then f (mget d m k) else mget d m j := mget_mput _ _ _ _ _

theorem keysRise_iff (m : Map α) : keysRise m = true ↔ (m.map (·.1)).Pairwise (· < ·) := by
  induction m with
  | nil => simp [keysRise]
  | cons p r ih =>
    cases r with
    | nil => simp [keysRise]
    | cons q t =>
      obtain ⟨i, v⟩ := p
      obtain ⟨j, w⟩ := q
      simp only [keysRise, Bool.and_eq_true, decide_eq_true_eq, ih]
      simp only [List.map_cons, List.pairwise_cons, List.mem_cons, forall_eq_or_imp]
      constructor
      · rintro ⟨h, h1, h2⟩
        exact ⟨⟨h, fun a ha => lt_trans h (h1 a ha)⟩, h1, h2⟩
      · rintro ⟨⟨h, -⟩, h1, h2⟩
        exact ⟨h, h1, h2⟩

theorem mwf_iff [DecidableEq α] (d : α) (m : Map α) :
    mwf d m = true ↔ (m.map (·.1)).Pairwise (· < ·) ∧ ∀ p ∈ m, p.2 ≠ d := by
  simp only [mwf, Bool.and_eq_true, keysRise_iff, List.all_eq_true, decide_eq_true_eq]

theorem mins_keys (k : Nat) (v : α) (m : Map α) : ∀ j, j ∈ (mins k v m).map (·.1) ↔ j = k ∨ j ∈ m.map (·.1) := by
  induction m with
  | nil => simp [mins]
  | cons p r ih =>
    obtain ⟨i, w⟩ := p
    intro j
    unfold mins
    split
    · simp
    · have h := ih j
      simp only [List.map_cons, List.mem_cons, h]
      tauto

theorem mins_rises (k : Nat) (v : α) (m : Map α) (h : (m.map (·.1)).Pairwise (· < ·)) (hk : ∀ p ∈ m, p.1 ≠ k) :
    ((mins k v m).map (·.1)).Pairwise (· < ·) := by
  induction m with
  | nil => simp [mins]
  | cons p r ih =>
    obtain ⟨i, w⟩ := p
    have hp := List.pairwise_cons.1 (by rw [List.map_cons] at h; exact h)
    have hi : i ≠ k := hk (i, w) (by simp)
    unfold mins
    split
    · next hlt =>
      simp only [List.map_cons, List.pairwise_cons, List.mem_cons, forall_eq_or_imp]
      exact ⟨⟨hlt, fun a ha => lt_trans hlt (hp.1 a ha)⟩, hp.1, hp.2⟩
    · simp only [List.map_cons, List.pairwise_cons]
      refine ⟨fun a ha => ?_, ih hp.2 (fun q hq => hk q (by simp [hq]))⟩
      rcases (mins_keys k v r a).1 ha with rfl | ha
      · omega
      · exact hp.1 a ha

theorem merase_rises (m : Map α) (k : Nat) (h : (m.map (·.1)).Pairwise (· < ·)) :
    ((merase m k).map (·.1)).Pairwise (· < ·) :=
  h.sublist (List.Sublist.map _ List.filter_sublist)

theorem merase_wf [DecidableEq α] (d : α) (m : Map α) (k : Nat) (h : mwf d m = true) : mwf d (merase m k) = true := by
  rw [mwf_iff] at h ⊢
  exact ⟨merase_rises m k h.1, fun p hp => h.2 p (List.mem_filter.1 hp).1⟩

theorem mins_mem (k : Nat) (v : α) (m : Map α) : ∀ p ∈ mins k v m, p = (k, v) ∨ p ∈ m := by
  induction m with
  | nil => simp [mins]
  | cons q r ih =>
    obtain ⟨i, w⟩ := q
    intro p hp
    unfold mins at hp
    split at hp
    · simpa using hp
    · rcases List.mem_cons.1 hp with rfl | hp
      · simp
      · rcases ih p hp with h | h <;> simp [h]

/-- A write keeps the canonical form. -/
theorem mput_wf [DecidableEq α] (d v : α) (m : Map α) (k : Nat) (h : mwf d m = true) : mwf d (mput d m k v) = true := by
  unfold mput
  split
  · exact merase_wf d m k h
  · next hv =>
    have he := (mwf_iff _ _).1 (merase_wf d m k h)
    rw [mwf_iff]
    refine ⟨mins_rises k v _ he.1 (merase_ne m k), fun p hp => ?_⟩
    rcases mins_mem k v _ p hp with rfl | hp
    · exact hv
    · exact he.2 p hp

theorem mmod_wf [DecidableEq α] (d : α) (m : Map α) (k : Nat) (f : α → α) (h : mwf d m = true) :
    mwf d (mmod d m k f) = true := mput_wf d _ m k h

theorem mapAll_wf [DecidableEq α] (d : α) (f : Nat → α → α) (m : Map α) (h : mwf d m = true) : mwf d (mapAll d f m) = true := by
  rw [mwf_iff] at h ⊢
  constructor
  · refine List.Pairwise.sublist (List.Sublist.map _ List.filter_sublist) ?_
    simpa [List.map_map, Function.comp_def] using h.1
  · intro p hp
    simpa using (List.mem_filter.1 hp).2

theorem mapBelow_wf [DecidableEq α] (d : α) (n : Nat) (f : Nat → α → α) (m : Map α) : mwf d (mapBelow d n f m) = true := by
  rw [mwf_iff]
  constructor
  · refine List.Pairwise.sublist (List.Sublist.map _ List.filter_sublist) ?_
    simpa [List.map_map, Function.comp_def] using List.pairwise_lt_range
  · intro p hp
    simpa using (List.mem_filter.1 hp).2

theorem storeBytes_wf (d : Byte) (bs : List Byte) : ∀ (m : List Host.Cell) (a : Nat), mwf d m = true →
    mwf d (storeBytes d m a bs) = true := by
  induction bs with
  | nil => intro m a h; exact h
  | cons b bs ih => intro m a h; exact ih _ _ (mput_wf d b m a h)

theorem clearRange_wf [DecidableEq α] (d : α) (m : Map α) (a n : Nat) (h : mwf d m = true) : mwf d (clearRange m a n) = true := by
  rw [mwf_iff] at h ⊢
  exact ⟨h.1.sublist (List.Sublist.map _ List.filter_sublist), fun p hp => h.2 p (List.mem_filter.1 hp).1⟩

/-! Tiles, shims and edge agents -/

/-- Reading a tile after a change of one tile. -/
theorem tileOf_onTile (t u : Nat) (f : Tile → Tile) (s : State) :
    tileOf (onTile t f s) u = if t < numTiles ∧ u = t then f (tileOf s t) else tileOf s u := by
  unfold onTile tileOf
  split
  · next h => rw [mget_mmod]; simp [h]
  · next h => simp [h]

theorem tileOf_onTile_ne {t u : Nat} (f : Tile → Tile) (s : State) (h : u ≠ t) : tileOf (onTile t f s) u = tileOf s u := by
  simp [tileOf_onTile, h]

theorem tileOf_onTile_self {t : Nat} (f : Tile → Tile) (s : State) (h : t < numTiles) :
    tileOf (onTile t f s) t = f (tileOf s t) := by simp [tileOf_onTile, h]

theorem shimOf_onShim (t u : Nat) (f : Shim → Shim) (s : State) :
    shimOf (onShim t f s) u = if t < numFields ∧ u = t then f (shimOf s t) else shimOf s u := by
  unfold onShim shimOf
  split
  · next h => rw [mget_mmod]; simp [h]
  · next h => simp [h]

theorem edgeOf_onEdge (t u : Nat) (f : Edge → Edge) (s : State) :
    edgeOf (onEdge t f s) u = if t < numDies ∧ u = t then f (edgeOf s t) else edgeOf s u := by
  unfold onEdge edgeOf
  split
  · next h => rw [mget_mmod]; simp [h]
  · next h => simp [h]

theorem onTile_tiles_wf (t : Nat) (f : Tile → Tile) (s : State) (h : mwf {} s.tiles = true) :
    mwf {} (onTile t f s).tiles = true := by
  unfold onTile
  split
  · exact mmod_wf _ _ _ _ h
  · exact h

theorem onShim_shims_wf (t : Nat) (f : Shim → Shim) (s : State) (h : mwf {} s.shims = true) :
    mwf {} (onShim t f s).shims = true := by
  unfold onShim
  split
  · exact mmod_wf _ _ _ _ h
  · exact h

theorem onEdge_edges_wf (t : Nat) (f : Edge → Edge) (s : State) (h : mwf {} s.edges = true) :
    mwf {} (onEdge t f s).edges = true := by
  unfold onEdge
  split
  · exact mmod_wf _ _ _ _ h
  · exact h

theorem mget_map_range [DecidableEq α] (d : α) (g : Nat → α) (n k : Nat) :
    mget d (((List.range n).map (fun i => (i, g i))).filter (fun p => decide (p.2 ≠ d))) k = if k < n then g k else d := by
  induction n with
  | zero => simp [mget]
  | succ n ih =>
    have happ : ∀ (l : Map α) (j : Nat) (v : α), (∀ p ∈ l, p.1 ≠ j) → ∀ k, mget d (l ++ [(j, v)]) k = if k = j then v else mget d l k := by
      intro l j v
      induction l with
      | nil => intro _ k; simp only [List.nil_append, mget, eq_comm (a := j)]
      | cons p r ihl =>
        obtain ⟨i, w⟩ := p
        intro h k
        have hi : i ≠ j := h (i, w) (by simp)
        have := ihl (fun q hq => h q (by simp [hq])) k
        by_cases hk : i = k
        · subst hk; simp [mget, hi]
        · simp [mget, hk, this]
    rw [List.range_succ, List.map_append, List.filter_append]
    by_cases hg : g n = d
    · simp only [List.map_cons, List.map_nil, hg, ne_eq, not_true_eq_false, decide_false, Bool.false_eq_true,
        not_false_eq_true, List.filter_cons_of_neg, List.filter_nil, List.append_nil]
      rw [ih]
      by_cases hk : k < n
      · simp [hk, Nat.lt_succ_of_lt hk]
      · by_cases hkn : k = n
        · subst hkn; simp [hg]
        · simp [hk, show ¬ k < n + 1 by omega]
    · have hf : List.filter (fun p : Nat × α => decide (p.2 ≠ d)) (List.map (fun i => (i, g i)) [n]) = [(n, g n)] := by
        simp [hg]
      rw [hf, happ _ _ _ (by
        intro p hp
        have := (List.mem_filter.1 hp).1
        simp only [List.mem_map, List.mem_range] at this
        obtain ⟨i, hi, rfl⟩ := this
        simp; omega)]
      rw [ih]
      by_cases hkn : k = n
      · subst hkn; simp
      · simp only [hkn, if_false]
        by_cases hk : k < n
        · simp [hk, Nat.lt_succ_of_lt hk]
        · simp [hk, show ¬ k < n + 1 by omega]

theorem mget_mapBelow [DecidableEq α] (d : α) (n : Nat) (f : Nat → α → α) (m : Map α) (k : Nat) :
    mget d (mapBelow d n f m) k = if k < n then f k (mget d m k) else d :=
  mget_map_range d (fun k => f k (mget d m k)) n k

theorem tileOf_onEveryTile (f : Nat → Tile → Tile) (s : State) (t : Nat) (h : t < numTiles) :
    tileOf (onEveryTile f s) t = f t (tileOf s t) := by
  simp [tileOf, onEveryTile, mget_mapBelow, h]

theorem mget_of_not_mem (d : α) (m : Map α) (k : Nat) (h : k ∉ m.map (·.1)) : mget d m k = d := by
  induction m with
  | nil => rfl
  | cons p r ih =>
    obtain ⟨i, v⟩ := p
    simp only [List.map_cons, List.mem_cons, not_or] at h
    simp [mget, Ne.symm h.1, ih h.2]

/-- In a canonical collection, changing all listed values by a change that keeps the default changes every value. -/
theorem mget_mapAll [DecidableEq α] (d : α) (f : Nat → α → α) (m : Map α) (k : Nat) (hm : mwf d m = true) (hf : f k d = d) :
    mget d (mapAll d f m) k = f k (mget d m k) := by
  replace hm := ((mwf_iff d m).1 hm).1
  unfold mapAll
  induction m with
  | nil => simp [mget, hf]
  | cons p r ih =>
    obtain ⟨i, v⟩ := p
    have hp := List.pairwise_cons.1 (by rw [List.map_cons] at hm; exact hm)
    have ih' := ih hp.2
    by_cases hk : i = k
    · subst hk
      by_cases hv : f i v = d
      · have hr : mget d r i = d := mget_of_not_mem d r i (fun hin => lt_irrefl _ (hp.1 i hin))
        simp [mget, hv] at ih' ⊢
        rw [ih', hr, hf]
      · simp [mget, hv]
    · by_cases hv : f i v = d
      · simp [mget, hv, hk] at ih' ⊢; exact ih'
      · simp [mget, hv, hk] at ih' ⊢; exact ih'

theorem tileOf_onListedTiles (f : Nat → Tile → Tile) (s : State) (t : Nat) (hs : mwf {} s.tiles = true) (hf : f t {} = {}) :
    tileOf (onListedTiles f s) t = f t (tileOf s t) := mget_mapAll _ _ _ _ hs hf

end Sys2Proof.Machine
end

