-- ==== Sys2Proof/WellFormed.lean ====
section
/-! DEFINITION. Which commands are well formed: every operand fits the width the spec gives it and every place lies on
the wafer. The meanings do not ask for it: a request's out-of-range field is answered by the block itself. -/

namespace Sys2Proof.WellFormed

/-- `v` fits `n` bits. -/
def w (n v : Nat) : Bool := decide (v < 2 ^ n)
/-- A physical tile (01 R18). -/
def tileOk (t : Nat) : Bool := decide (t < 368640)
/-- The fields of a transaction header fit (13 R411). -/
def hdrOk (h : ReqHdr) : Bool := w 8 h.opcode && w 16 h.session && w 10 h.tag && w 48 h.reqId && w 16 h.defect
/-- The fields of a tile set fit words 2 and 3 of a multicast (02 R54). -/
def setOk (d : TileSet) : Bool :=
  w 10 d.x0 && w 10 d.x1 && w 9 d.y0 && w 9 d.y1 && decide (1 ≤ d.xstep) && decide (d.xstep ≤ 16) && decide (1 ≤ d.ystep) &&
  decide (d.ystep ≤ 16) && w 10 d.lx0 && w 10 d.lx1 && w 9 d.ly0 && w 9 d.ly1
/-- A place of the Rill that exists (02 R65). -/
def nodeOk (n : Node) : Bool :=
  match n with
  | .router t => tileOk t
  | .junction f => decide (f < 48)
  | .port k => decide (k < 8)
  | .centre => true
/-- The fields of a packet's header word 0 fit, and it has at most four header words (02 R44, R45). -/
def pktOk (p : Packet) : Bool :=
  w 4 p.kind && w 7 p.len && w 19 p.dest && w 19 p.src && w 15 p.tag && decide (p.ext.length ≤ 2) && decide (p.payload.length ≤ 64)
/-- A drain destination's fields fit (11 R357). -/
def destOk (d : Dest) : Bool := w 64 d.endpoint && w 64 d.base && w 64 d.limit && w 32 d.key
/-- A staged item's header fields fit (06 R184). -/
def itemOk (i : Item) : Bool := w 4 i.kind && w 32 i.addr && w 9 i.data.length
/-- A transaction entry's fields fit (13 R435). -/
def entryOk (e : TxnEntry) : Bool := setOk e.set && w 64 e.addr && w 8 e.ctxEpoch && e.items.all itemOk
/-- A fold entry's fields fit (13 R434). -/
def foldOk (e : FoldEntry) : Bool := setOk e.set && w 8 e.foldId && w 8 e.op && w 8 e.ty && w 8 e.vlen
/-- A counter entry's and a trace entry's fields fit (13 R434). -/
def cntOk (e : CntEntry) : Bool := setOk e.set && w 16 e.epochTmo && w 32 e.minInt && decide (e.keys.length ≤ 15)
def traceOk (e : TraceEntry) : Bool := setOk e.set && destOk e.dest && w 16 e.flushUs && w 32 e.w && w 16 e.drainMax
/-- The fields of a watch plan entry fit (13 R434). -/
def watchOk (e : WatchEntry) : Bool :=
  match e with
  | .comparator d n _ _ _ _ => setOk d && w 2 n
  | .binding c a r hold lim => w 4 c && w 3 a && w 4 r && w 16 hold && w 8 lim
  | .condition f el t _ c _ => w 8 f && w 8 el && w 3 t && w 4 c
  | .dip d => setOk d.set && w 2 d.slot
  | .capture c => w 2 c.slot
/-- A report of cycles names the four engines in each of its runs (07 R212). -/
def cycOk (c : Cycles) : Bool := c.runs.all (fun r => w 32 r.n && r.engines.length == 4)

/-- The command is well formed. -/
def wf (i : Instr) : Bool :=
  match i with
  | .sessionOpen h kind => hdrOk h && w 8 kind
  | .grant h _ rights x y r sg => hdrOk h && w 32 rights && w 384 x && w 384 y && w 384 r && w 384 sg
  | .sessionClose h => hdrOk h
  | .sessionTimeout session => w 16 session
  | .hubInfo h => hdrOk h
  | .statusRead h => hdrOk h
  | .statusReadClear h => hdrOk h
  | .nop h => hdrOk h
  | .centreReset h _ => hdrOk h
  | .powerState h state => hdrOk h && w 8 state
  | .memRead h addr length => hdrOk h && w 64 addr && w 32 length
  | .memWrite h addr _ _ => hdrOk h && w 64 addr
  | .springErase h offset length => hdrOk h && w 32 offset && w 32 length
  | .mcastWrite h set space offset _ => hdrOk h && setOk set && w 8 space && w 32 offset
  | .census h set offset _ _ test => hdrOk h && setOk set && w 32 offset && w 3 test
  | .agentReset h addr => hdrOk h && w 64 addr
  | .timeExchange h rxAt txAt => hdrOk h && w 64 rxAt && w 64 txAt
  | .timeAdjust h c => hdrOk h && decide (-(2 ^ 63) ≤ c) && decide (c < 2 ^ 63)
  | .steerDone => true
  | .measureTime h echo => hdrOk h && echo.all (fun p => decide (p.1 < 48) && w 16 p.2)
  | .measureTimeRemark h echo => hdrOk h && echo.all (fun p => decide (p.1 < 48) && w 16 p.2)
  | .timeMarkLaunch => true
  | .timeMark tile word _ => tileOk tile && w 48 word
  | .stillAt h tick scope => hdrOk h && w 64 tick && w 8 scope
  | .releaseAt h tick scope => hdrOk h && w 64 tick && w 8 scope
  | .stepTick h tick scope n => hdrOk h && w 64 tick && w 8 scope && w 32 n
  | .stepCmd h tick scope k limit => hdrOk h && w 64 tick && w 8 scope && w 8 k && w 32 limit
  | .actionCancel h tick scope kind => hdrOk h && w 64 tick && w 8 scope && w 8 kind
  | .regionSet h region _ lx0 lx1 ly0 ly1 => hdrOk h && w 8 region && w 16 lx0 && w 16 lx1 && w 16 ly0 && w 16 ly1
  | .stillQuery h => hdrOk h
  | .stillQueryRefresh h => hdrOk h
  | .actionLaunch => true
  | .stillWordCapture tile head tickLo _ _ => tileOk tile && w 16 head && w 32 tickLo
  | .stillAct tile cycles _ => tileOk tile && w 16 cycles
  | .releaseAct tile _ => tileOk tile
  | .pressAct tile => tileOk tile
  | .pressApplyDone tile => tileOk tile
  | .edgeStillAct die action tick => decide (die < 32) && w 3 action && w 64 tick
  | .stubStillNoClock tile => tileOk tile.1
  | .freezeSettled tile => tileOk tile
  | .freezeNoack tile _ _ => tileOk tile
  | .stillCensus => true
  | .stillCensusRepeat => true
  | .autoRelease => true
  | .alarmAccept _ => true
  | .alarmRearm h _ => hdrOk h
  | .sramWrite tile w_ => tileOk tile && w 10 w_.line && w 8 w_.tag
  | .descArrive tile d => tileOk tile && w 8 d.tag && w 32 d.tensor && w 32 d.step && w 7 d.lines && w 4 d.svalid
  | .lineDiscard tile => tileOk tile
  | .descClose tile tag => tileOk tile && w 8 tag
  | .dipAccClose tile slot => tileOk tile && w 2 slot.1
  | .commandStart tile cmd cyc => tileOk tile && w 16 cmd.layer && w 16 cmd.oper && w 32 cmd.step && cycOk cyc
  | .commandEnd tile cyc => tileOk tile && cycOk cyc.1
  | .contextSwitch tile old new => tileOk tile && w 2 old && w 2 new
  | .contextLoad tile => tileOk tile
  | .tileErrorEvent tile index line port => tileOk tile && decide (36 ≤ index) && decide (index ≤ 41) && w 10 line && w 2 port
  | .waitDescriptor tile e _ => tileOk tile && w 2 e
  | .hang tile => tileOk tile
  | .cwdtExpiry tile => tileOk tile
  | .stillCopyHoldEnd tile slot _ => tileOk tile && w 2 slot
  | .snoopFrameClose tile slot => tileOk tile && w 2 slot.1
  | .watchLoad h id activate entries => hdrOk h && w 8 id && w 64 activate && entries.all watchOk
  | .watchRemove h => hdrOk h
  | .foldLoad h id entries => hdrOk h && w 8 id && entries.all foldOk
  | .foldRead h foldId count => hdrOk h && w 8 foldId && w 8 count
  | .foldContrib tile foldId epoch => tileOk tile && w 8 foldId && w 16 epoch
  | .foldArrival node _ foldId epoch _ => nodeOk node && w 8 foldId && w 16 epoch
  | .foldEpochClose node foldId => nodeOk node && w 8 foldId
  | .foldResultStore foldId => w 8 foldId
  | .cntLoad h id entries => hdrOk h && w 8 id && entries.all cntOk
  | .cntFold h step => hdrOk h && w 32 step
  | .stepDesc h step tokens => hdrOk h && w 32 step && w 64 tokens
  | .lcRead h count => hdrOk h && w 16 count
  | .ledgerRead h count => hdrOk h && w 16 count
  | .lcBoundary => true
  | .pmbusDone data _ => decide (data.length ≤ 255)
  | .pmbusTimeout => true
  | .paceRefill die liveLanes => decide (die < 32) && w 16 liveLanes
  | .txnOpen h mapEpoch tmo => hdrOk h && w 16 mapEpoch && w 16 tmo
  | .txnAdd h txn entries => hdrOk h && w 16 txn && entries.all entryOk
  | .txnCommit h txn tick => hdrOk h && w 16 txn && w 64 tick
  | .txnRinse h txn => hdrOk h && w 16 txn
  | .txnQuery h => hdrOk h
  | .stage tile p => tileOk tile && w 16 p.txn && w 16 p.offset && w 32 p.deadlineLo && w 16 p.mapEpoch && w 19 p.ltn && w 8 p.ctxEpoch
  | .txnCheck => true
  | .rinse tile txn => tileOk tile && w 16 txn
  | .stageDeadline tile => tileOk tile
  | .fenceEnd => true
  | .pressConfirm => true
  | .pressRecount => true
  | .fpRead h group count tensor => hdrOk h && w 32 group && w 16 count && w 32 tensor
  | .fpCompare h group tensor step _ => hdrOk h && w 32 group && w 32 tensor && w 32 step
  | .symLoad h build _ => hdrOk h && w 64 build
  | .pmapLoad h build _ => hdrOk h && w 64 build
  | .watchStatus h => hdrOk h
  | .watchReset h entry => hdrOk h && w 8 entry
  | .watchDrain h entry set dest => hdrOk h && w 8 entry && set.all setOk && destOk dest
  | .captureNow h entry => hdrOk h && w 8 entry
  | .eddyRead h set addrs count => hdrOk h && set.all setOk && addrs.all (w 64) && w 16 count
  | .eddyFreezeTimeout tile => tileOk tile
  | .eddyGap tile => tileOk tile
  | .traceLoad h id entries => hdrOk h && w 8 id && entries.all traceOk
  | .traceRemove h => hdrOk h
  | .traceRearm h => hdrOk h
  | .traceDrain h set => hdrOk h && set.all setOk
  | .traceStatus h first count => hdrOk h && w 32 first && w 32 count
  | .streamChunkSend tile _ => tileOk tile
  | .eddyChunkArrive tile _ => tileOk tile
  | .stillOnFullRaise tile => tileOk tile
  | .traceDrainRelease => true
  | .wfgBuild h => hdrOk h
  | .snapTake h id _ tick => hdrOk h && w 32 id && w 64 tick
  | .snapGo => true
  | .cowAck field => decide (field < 48)
  | .cowAckTimeout field _ => decide (field < 48)
  | .imageCopyDone tile => tileOk tile.1
  | .shimDone field => decide (field < 48)
  | .snapCopyTimeout => true
  | .slotReq field _ write => decide (field < 48) && write.all (fun p => decide (p.1 < 65536))
  | .copyDone field _ answer => decide (field < 48) && decide (answer < 3)
  | .ingCopy die srcEngine srcDie _ => decide (die < 32) && w 16 srcEngine && decide (srcDie < 32)
  | .mkSeen die engine peerDie snapId kind => decide (die < 32) && w 16 engine && decide (peerDie < 32) && w 32 snapId && w 8 kind
  | .logWritten die => decide (die < 32)
  | .markerTimeout die => decide (die.1 < 32)
  | .egFrozenTimeout die => decide (die < 32)
  | .egFrozenFall die => decide (die < 32)
  | .snapRestore h id _ tr => hdrOk h && w 32 id && w 64 tr
  | .cbDone field _ answer => decide (field < 48) && decide (answer < 3)
  | .snapDrain h id _ dest => hdrOk h && w 32 id && destOk dest
  | .asofData field _ => decide (field < 48)
  | .drainDone => true
  | .snapPlan h p0 period k baseId _ => hdrOk h && w 64 p0 && w 32 period && w 8 k && w 32 baseId
  | .snapPlanStop h => hdrOk h
  | .snapPlanPoint => true
  | .peerSet h die _ entries => hdrOk h && decide (die < 32) && entries.all (fun p => w 16 p.1 && decide (p.2 < 32))
  | .snapDrop h id => hdrOk h && w 32 id
  | .snapQuery h => hdrOk h
  | .crashList h count => hdrOk h && w 16 count
  | .recPolicy h cls action image => hdrOk h && w 8 cls && w 8 action && w 64 image
  | .mendNow h tile => hdrOk h && tileOk tile
  | .defectFlush h => hdrOk h
  | .recoveryStart => true
  | .recoveryReady => true
  | .wellWriteDone => true
  | .defectRecordWrite _ => true
  | .recOverrun => true
  | .wellBurstTimeout => true
  | .springProgramTimeout => true
  | .lastGasp lowCycles => decide (1 ≤ lowCycles)
  | .pfWarnRise => true
  | .lcTransition h target _ => hdrOk h && w 8 target
  | .lcTransitionDone _ _ => true
  | .fwWrite h offset _ => hdrOk h && w 32 offset
  | .fwCommit h length => hdrOk h && w 32 length
  | .coldReset cause lowNs => w 4 cause && w 32 lowNs
  | .start => true
  | .startPhaseDone _ => true
  | .warmReset cause _ => w 4 cause
  | .hubWatchdogExpiry _ => true
  | .engineReset => true
  | .darkPendingRise tile _ => tileOk tile
  | .darkPendingFall tile => tileOk tile
  | .darkSaveTimeout tile => tileOk tile
  | .corePwrFall tile => tileOk tile
  | .corePwrRise tile => tileOk tile
  | .coreTimeRebuilt tile => tileOk tile.1
  | .thrRegionChange tile _ _ => tileOk tile
  | .tclkResume tile => tileOk tile.1
  | .planRestore tile _ => tileOk tile
  | .refclkLoss => true
  | .refclkReturn => true
  | .flockHold => true
  | .flockHoldTimeout => true
  | .flockLocked => true
  | .rillPacketArrive node port pkt => nodeOk node && w 4 port && pktOk pkt
  | .mcastCopy node tag credit => nodeOk node && w 15 tag && credit.1.all (fun b => decide (b < 11))
  | .mcastBranchTimeout node tag branch => nodeOk node && w 15 tag && decide (branch < 11)
  | .mrspCombine node tag => nodeOk node && w 15 tag.1
  | .combinerTimeout node tag branch => nodeOk node && w 15 tag && decide (branch < 11)
  | .rillReply tag => w 15 tag.1
  | .rillResponseTimeout kind _ => w 8 kind
  | .stubRead tile tag => tileOk tile && w 15 tag
  | .stubWrite tile tag => tileOk tile && w 15 tag
  | .stubCensus tile tag => tileOk tile && w 15 tag
  | .fetch tile _ plan => tileOk tile && w 8 plan
  | .copyout tile offset len => tileOk tile && w 16 offset && w 16 len
  | .closeEpoch router foldId => decide (router < 368640) && w 8 foldId
  | .coreTimeout tile tag => tileOk tile && w 15 tag
  | .mreadArrive holder sender addr len plan => nodeOk holder && nodeOk sender && w 25 addr && w 9 len && w 8 plan.1
  | .mdataReturn holder addr len plan _ => nodeOk holder && w 25 addr && w 9 len && w 8 plan
  | .weirSlip _ separation => w 3 separation
  | .weirRetrainDone _ => true
  | .linkGate _ => true
  | .edgeLinkDown die _ => decide (die < 32)
  | .statusFrame => true
  | .dataFrame octets _ => decide (octets.length ≤ 4107)
  | .ackFrame gen ack => w 16 gen && w 12 ack
  | .nakFrame gen ack reason => w 16 gen && w 12 ack && w 8 reason
  | .keepalive gen ack => w 16 gen && w 12 ack
  | .portAckTimeout => true
  | .hostSilentTimeout => true
  | .blockLockLost => true
  | .blockLockRegained => true
  | .lreset gen => w 16 gen
  | .lresetAck gen => w 16 gen
  | .lresetRepeat => true
  | .tapReset => true
  | .mboxGo => true
  | .mboxAbort => true
  | .mboxDataWrite _ => true
  | .mboxDataRead => true
  | .tapInstruction code => w 8 code
  | .vpendFall tile => tileOk tile
  | .egFrozenRise die => decide (die < 32)
  | .controllerFatalState field => decide (field < 48)
  | .vddAonFall => true
  | .pressPlaceTimeout => true
  | .returnToActiveDone => true
  | .springOperationDone => true

end Sys2Proof.WellFormed
end

