-- ==== Sys2Proof/Laws/PerInstr.lean ====
section
/-! SUPPORT. What a well-formed command is bound to: the widths of its request header and the place of its tile. -/

namespace Sys2Proof.Laws.Fields

open Sys2Proof Sys2Proof.Machine

/-- A well-formed command's request header fits the fields of 13 R411, and the tile of an event lies on the wafer (01 R18). -/
def Statement (i : Instr) : Prop :=
  WellFormed.wf i = true →
    (∀ h, requestHdr i = some h → h.opcode < 2 ^ 8 ∧ h.session < 2 ^ 16 ∧ h.tag < 2 ^ 10 ∧ h.reqId < 2 ^ 48) ∧
    (∀ k, eventTile i = some k → k < 368640)

/-- The first of several conditions. -/
theorem first_of {a b : Bool} (h : (a && b) = true) : a = true := (Bool.and_eq_true_iff.1 h).1

theorem hdr_fits {h : ReqHdr} (hw : WellFormed.hdrOk h = true) :
    h.opcode < 2 ^ 8 ∧ h.session < 2 ^ 16 ∧ h.tag < 2 ^ 10 ∧ h.reqId < 2 ^ 48 := by
  simp only [WellFormed.hdrOk, WellFormed.w, Bool.and_eq_true, decide_eq_true_eq] at hw
  exact ⟨hw.1.1.1.1, hw.1.1.1.2, hw.1.1.2, hw.1.2⟩

theorem of_hdr {i : Instr} {h : ReqHdr} (hw : WellFormed.wf i = true → WellFormed.hdrOk h = true)
    (hr : requestHdr i = some h) (hn : eventTile i = none) : Statement i := by
  intro w
  refine ⟨fun h' e => ?_, fun k e => ?_⟩
  · rw [hr] at e; cases e; exact hdr_fits (hw w)
  · rw [hn] at e; cases e

theorem of_tile {i : Instr} {k : Nat} (hw : WellFormed.wf i = true → WellFormed.tileOk k = true)
    (hr : requestHdr i = none) (hn : eventTile i = some k) : Statement i := by
  intro w
  refine ⟨fun h e => ?_, fun k' e => ?_⟩
  · rw [hr] at e; cases e
  · rw [hn] at e; cases e; simpa [WellFormed.tileOk] using hw w

theorem of_other {i : Instr} (hr : requestHdr i = none) (hn : eventTile i = none) : Statement i :=
  fun _ => ⟨fun h e => (by rw [hr] at e; cases e), fun k e => (by rw [hn] at e; cases e)⟩

theorem sessionOpen (a0 : ReqHdr) (a1 : Nat) :
    Statement (.sessionOpen a0 a1) :=
  of_hdr (fun w => first_of w) rfl rfl
theorem grant (a0 : ReqHdr) (a1 : BitVec 128) (a2 : Nat) (a3 : Nat) (a4 : Nat) (a5 : Nat) (a6 : Nat) :
    Statement (.grant a0 a1 a2 a3 a4 a5 a6) :=
  of_hdr (fun w => first_of (first_of (first_of (first_of (first_of w))))) rfl rfl
theorem sessionClose (a0 : ReqHdr) :
    Statement (.sessionClose a0) :=
  of_hdr (fun w => w) rfl rfl
theorem sessionTimeout (a0 : Nat) :
    Statement (.sessionTimeout a0) := of_other rfl rfl
theorem hubInfo (a0 : ReqHdr) :
    Statement (.hubInfo a0) :=
  of_hdr (fun w => w) rfl rfl
theorem statusRead (a0 : ReqHdr) :
    Statement (.statusRead a0) :=
  of_hdr (fun w => w) rfl rfl
theorem statusReadClear (a0 : ReqHdr) :
    Statement (.statusReadClear a0) :=
  of_hdr (fun w => w) rfl rfl
theorem nop (a0 : ReqHdr) :
    Statement (.nop a0) :=
  of_hdr (fun w => w) rfl rfl
theorem centreReset (a0 : ReqHdr) (a1 : Bool) :
    Statement (.centreReset a0 a1) :=
  of_hdr (fun w => w) rfl rfl
theorem powerState (a0 : ReqHdr) (a1 : Nat) :
    Statement (.powerState a0 a1) :=
  of_hdr (fun w => first_of w) rfl rfl
theorem memRead (a0 : ReqHdr) (a1 : Nat) (a2 : Nat) :
    Statement (.memRead a0 a1 a2) :=
  of_hdr (fun w => first_of (first_of w)) rfl rfl
theorem memWrite (a0 : ReqHdr) (a1 : Nat) (a2 : List Byte) (a3 : Bool) :
    Statement (.memWrite a0 a1 a2 a3) :=
  of_hdr (fun w => first_of w) rfl rfl
theorem springErase (a0 : ReqHdr) (a1 : Nat) (a2 : Nat) :
    Statement (.springErase a0 a1 a2) :=
  of_hdr (fun w => first_of (first_of w)) rfl rfl
theorem mcastWrite (a0 : ReqHdr) (a1 : TileSet) (a2 : Nat) (a3 : Nat) (a4 : List Byte) :
    Statement (.mcastWrite a0 a1 a2 a3 a4) :=
  of_hdr (fun w => first_of (first_of (first_of w))) rfl rfl
theorem census (a0 : ReqHdr) (a1 : TileSet) (a2 : Nat) (a3 : Word) (a4 : Word) (a5 : Nat) :
    Statement (.census a0 a1 a2 a3 a4 a5) :=
  of_hdr (fun w => first_of (first_of (first_of w))) rfl rfl
theorem agentReset (a0 : ReqHdr) (a1 : Nat) :
    Statement (.agentReset a0 a1) :=
  of_hdr (fun w => first_of w) rfl rfl
theorem timeExchange (a0 : ReqHdr) (a1 : Nat) (a2 : Nat) :
    Statement (.timeExchange a0 a1 a2) :=
  of_hdr (fun w => first_of (first_of w)) rfl rfl
theorem timeAdjust (a0 : ReqHdr) (a1 : Int) :
    Statement (.timeAdjust a0 a1) :=
  of_hdr (fun w => first_of (first_of w)) rfl rfl
theorem steerDone :
    Statement (.steerDone) := of_other rfl rfl
theorem measureTime (a0 : ReqHdr) (a1 : List (Nat × Nat)) :
    Statement (.measureTime a0 a1) :=
  of_hdr (fun w => first_of w) rfl rfl
theorem measureTimeRemark (a0 : ReqHdr) (a1 : List (Nat × Nat)) :
    Statement (.measureTimeRemark a0 a1) :=
  of_hdr (fun w => first_of w) rfl rfl
theorem timeMarkLaunch :
    Statement (.timeMarkLaunch) := of_other rfl rfl
theorem timeMark (a0 : Nat) (a1 : Nat) (a2 : Bool × Bool) :
    Statement (.timeMark a0 a1 a2) :=
  of_tile (fun w => first_of w) rfl rfl
theorem stillAt (a0 : ReqHdr) (a1 : Nat) (a2 : Nat) :
    Statement (.stillAt a0 a1 a2) :=
  of_hdr (fun w => first_of (first_of w)) rfl rfl
theorem releaseAt (a0 : ReqHdr) (a1 : Nat) (a2 : Nat) :
    Statement (.releaseAt a0 a1 a2) :=
  of_hdr (fun w => first_of (first_of w)) rfl rfl
theorem stepTick (a0 : ReqHdr) (a1 : Nat) (a2 : Nat) (a3 : Nat) :
    Statement (.stepTick a0 a1 a2 a3) :=
  of_hdr (fun w => first_of (first_of (first_of w))) rfl rfl
theorem stepCmd (a0 : ReqHdr) (a1 : Nat) (a2 : Nat) (a3 : Nat) (a4 : Nat) :
    Statement (.stepCmd a0 a1 a2 a3 a4) :=
  of_hdr (fun w => first_of (first_of (first_of (first_of w)))) rfl rfl
theorem actionCancel (a0 : ReqHdr) (a1 : Nat) (a2 : Nat) (a3 : Nat) :
    Statement (.actionCancel a0 a1 a2 a3) :=
  of_hdr (fun w => first_of (first_of (first_of w))) rfl rfl
theorem regionSet (a0 : ReqHdr) (a1 : Nat) (a2 : Bool) (a3 : Nat) (a4 : Nat) (a5 : Nat) (a6 : Nat) :
    Statement (.regionSet a0 a1 a2 a3 a4 a5 a6) :=
  of_hdr (fun w => first_of (first_of (first_of (first_of (first_of w))))) rfl rfl
theorem stillQuery (a0 : ReqHdr) :
    Statement (.stillQuery a0) :=
  of_hdr (fun w => w) rfl rfl
theorem stillQueryRefresh (a0 : ReqHdr) :
    Statement (.stillQueryRefresh a0) :=
  of_hdr (fun w => w) rfl rfl
theorem actionLaunch :
    Statement (.actionLaunch) := of_other rfl rfl
theorem stillWordCapture (a0 : Nat) (a1 : Nat) (a2 : Nat) (a3 : Bool) (a4 : Bool) :
    Statement (.stillWordCapture a0 a1 a2 a3 a4) :=
  of_tile (fun w => first_of (first_of w)) rfl rfl
theorem stillAct (a0 : Nat) (a1 : Nat) (a2 : Bool) :
    Statement (.stillAct a0 a1 a2) :=
  of_tile (fun w => first_of w) rfl rfl
theorem releaseAct (a0 : Nat) (a1 : Bool) :
    Statement (.releaseAct a0 a1) :=
  of_tile (fun w => w) rfl rfl
theorem pressAct (a0 : Nat) :
    Statement (.pressAct a0) :=
  of_tile (fun w => w) rfl rfl
theorem pressApplyDone (a0 : Nat) :
    Statement (.pressApplyDone a0) :=
  of_tile (fun w => w) rfl rfl
theorem edgeStillAct (a0 : Nat) (a1 : Nat) (a2 : Nat) :
    Statement (.edgeStillAct a0 a1 a2) := of_other rfl rfl
theorem stubStillNoClock (a0 : Nat × Nat) :
    Statement (.stubStillNoClock a0) :=
  of_tile (fun w => w) rfl rfl
theorem freezeSettled (a0 : Nat) :
    Statement (.freezeSettled a0) :=
  of_tile (fun w => w) rfl rfl
theorem freezeNoack (a0 : Nat) (a1 : Bool) (a2 : Bool) :
    Statement (.freezeNoack a0 a1 a2) :=
  of_tile (fun w => w) rfl rfl
theorem stillCensus :
    Statement (.stillCensus) := of_other rfl rfl
theorem stillCensusRepeat :
    Statement (.stillCensusRepeat) := of_other rfl rfl
theorem autoRelease :
    Statement (.autoRelease) := of_other rfl rfl
theorem alarmAccept (a0 : BitVec 16) :
    Statement (.alarmAccept a0) := of_other rfl rfl
theorem alarmRearm (a0 : ReqHdr) (a1 : BitVec 16) :
    Statement (.alarmRearm a0 a1) :=
  of_hdr (fun w => w) rfl rfl
theorem sramWrite (a0 : Nat) (a1 : SnoopLine) :
    Statement (.sramWrite a0 a1) :=
  of_tile (fun w => first_of (first_of w)) rfl rfl
theorem descArrive (a0 : Nat) (a1 : DescIn) :
    Statement (.descArrive a0 a1) :=
  of_tile (fun w => first_of (first_of (first_of (first_of (first_of w))))) rfl rfl
theorem lineDiscard (a0 : Nat) :
    Statement (.lineDiscard a0) :=
  of_tile (fun w => w) rfl rfl
theorem descClose (a0 : Nat) (a1 : Nat) :
    Statement (.descClose a0 a1) :=
  of_tile (fun w => first_of w) rfl rfl
theorem dipAccClose (a0 : Nat) (a1 : Nat × Bool) :
    Statement (.dipAccClose a0 a1) :=
  of_tile (fun w => first_of w) rfl rfl
theorem commandStart (a0 : Nat) (a1 : Command) (a2 : Cycles) :
    Statement (.commandStart a0 a1 a2) :=
  of_tile (fun w => first_of (first_of (first_of (first_of w)))) rfl rfl
theorem commandEnd (a0 : Nat) (a1 : Cycles × Bool) :
    Statement (.commandEnd a0 a1) :=
  of_tile (fun w => first_of w) rfl rfl
theorem contextSwitch (a0 : Nat) (a1 : Nat) (a2 : Nat) :
    Statement (.contextSwitch a0 a1 a2) :=
  of_tile (fun w => first_of (first_of w)) rfl rfl
theorem contextLoad (a0 : Nat) :
    Statement (.contextLoad a0) :=
  of_tile (fun w => w) rfl rfl
theorem tileErrorEvent (a0 : Nat) (a1 : Nat) (a2 : Nat) (a3 : Nat) :
    Statement (.tileErrorEvent a0 a1 a2 a3) :=
  of_tile (fun w => first_of (first_of (first_of (first_of w)))) rfl rfl
theorem waitDescriptor (a0 : Nat) (a1 : Nat) (a2 : Word) :
    Statement (.waitDescriptor a0 a1 a2) :=
  of_tile (fun w => first_of w) rfl rfl
theorem hang (a0 : Nat) :
    Statement (.hang a0) :=
  of_tile (fun w => w) rfl rfl
theorem cwdtExpiry (a0 : Nat) :
    Statement (.cwdtExpiry a0) :=
  of_tile (fun w => w) rfl rfl
theorem stillCopyHoldEnd (a0 : Nat) (a1 : Nat) (a2 : Bool) :
    Statement (.stillCopyHoldEnd a0 a1 a2) :=
  of_tile (fun w => first_of w) rfl rfl
theorem snoopFrameClose (a0 : Nat) (a1 : Nat × Bool) :
    Statement (.snoopFrameClose a0 a1) :=
  of_tile (fun w => first_of w) rfl rfl
theorem watchLoad (a0 : ReqHdr) (a1 : Nat) (a2 : Nat) (a3 : List WatchEntry) :
    Statement (.watchLoad a0 a1 a2 a3) :=
  of_hdr (fun w => first_of (first_of (first_of w))) rfl rfl
theorem watchRemove (a0 : ReqHdr) :
    Statement (.watchRemove a0) :=
  of_hdr (fun w => w) rfl rfl
theorem foldLoad (a0 : ReqHdr) (a1 : Nat) (a2 : List FoldEntry) :
    Statement (.foldLoad a0 a1 a2) :=
  of_hdr (fun w => first_of (first_of w)) rfl rfl
theorem foldRead (a0 : ReqHdr) (a1 : Nat) (a2 : Nat) :
    Statement (.foldRead a0 a1 a2) :=
  of_hdr (fun w => first_of (first_of w)) rfl rfl
theorem foldContrib (a0 : Nat) (a1 : Nat) (a2 : Nat) :
    Statement (.foldContrib a0 a1 a2) :=
  of_tile (fun w => first_of (first_of w)) rfl rfl
theorem foldArrival (a0 : Node) (a1 : Nat) (a2 : Nat) (a3 : Nat) (a4 : FoldPartial × Bool) :
    Statement (.foldArrival a0 a1 a2 a3 a4) := of_other rfl rfl
theorem foldEpochClose (a0 : Node) (a1 : Nat) :
    Statement (.foldEpochClose a0 a1) := of_other rfl rfl
theorem foldResultStore (a0 : Nat) :
    Statement (.foldResultStore a0) := of_other rfl rfl
theorem cntLoad (a0 : ReqHdr) (a1 : Nat) (a2 : List CntEntry) :
    Statement (.cntLoad a0 a1 a2) :=
  of_hdr (fun w => first_of (first_of w)) rfl rfl
theorem cntFold (a0 : ReqHdr) (a1 : Nat) :
    Statement (.cntFold a0 a1) :=
  of_hdr (fun w => first_of w) rfl rfl
theorem stepDesc (a0 : ReqHdr) (a1 : Nat) (a2 : Nat) :
    Statement (.stepDesc a0 a1 a2) :=
  of_hdr (fun w => first_of (first_of w)) rfl rfl
theorem lcRead (a0 : ReqHdr) (a1 : Nat) :
    Statement (.lcRead a0 a1) :=
  of_hdr (fun w => first_of w) rfl rfl
theorem ledgerRead (a0 : ReqHdr) (a1 : Nat) :
    Statement (.ledgerRead a0 a1) :=
  of_hdr (fun w => first_of w) rfl rfl
theorem lcBoundary :
    Statement (.lcBoundary) := of_other rfl rfl
theorem pmbusDone (a0 : List Byte) (a1 : Bool) :
    Statement (.pmbusDone a0 a1) := of_other rfl rfl
theorem pmbusTimeout :
    Statement (.pmbusTimeout) := of_other rfl rfl
theorem paceRefill (a0 : Nat) (a1 : Nat) :
    Statement (.paceRefill a0 a1) := of_other rfl rfl
theorem txnOpen (a0 : ReqHdr) (a1 : Nat) (a2 : Nat) :
    Statement (.txnOpen a0 a1 a2) :=
  of_hdr (fun w => first_of (first_of w)) rfl rfl
theorem txnAdd (a0 : ReqHdr) (a1 : Nat) (a2 : List TxnEntry) :
    Statement (.txnAdd a0 a1 a2) :=
  of_hdr (fun w => first_of (first_of w)) rfl rfl
theorem txnCommit (a0 : ReqHdr) (a1 : Nat) (a2 : Nat) :
    Statement (.txnCommit a0 a1 a2) :=
  of_hdr (fun w => first_of (first_of w)) rfl rfl
theorem txnRinse (a0 : ReqHdr) (a1 : Nat) :
    Statement (.txnRinse a0 a1) :=
  of_hdr (fun w => first_of w) rfl rfl
theorem txnQuery (a0 : ReqHdr) :
    Statement (.txnQuery a0) :=
  of_hdr (fun w => w) rfl rfl
theorem stage (a0 : Nat) (a1 : StagePkt) :
    Statement (.stage a0 a1) :=
  of_tile (fun w => first_of (first_of (first_of (first_of (first_of (first_of w)))))) rfl rfl
theorem txnCheck :
    Statement (.txnCheck) := of_other rfl rfl
theorem rinse (a0 : Nat) (a1 : Nat) :
    Statement (.rinse a0 a1) :=
  of_tile (fun w => first_of w) rfl rfl
theorem stageDeadline (a0 : Nat) :
    Statement (.stageDeadline a0) :=
  of_tile (fun w => w) rfl rfl
theorem fenceEnd :
    Statement (.fenceEnd) := of_other rfl rfl
theorem pressConfirm :
    Statement (.pressConfirm) := of_other rfl rfl
theorem pressRecount :
    Statement (.pressRecount) := of_other rfl rfl
theorem fpRead (a0 : ReqHdr) (a1 : Nat) (a2 : Nat) (a3 : Nat) :
    Statement (.fpRead a0 a1 a2 a3) :=
  of_hdr (fun w => first_of (first_of (first_of w))) rfl rfl
theorem fpCompare (a0 : ReqHdr) (a1 : Nat) (a2 : Nat) (a3 : Nat) (a4 : List FpRecord) :
    Statement (.fpCompare a0 a1 a2 a3 a4) :=
  of_hdr (fun w => first_of (first_of (first_of w))) rfl rfl
theorem symLoad (a0 : ReqHdr) (a1 : Nat) (a2 : List SymRecord) :
    Statement (.symLoad a0 a1 a2) :=
  of_hdr (fun w => first_of w) rfl rfl
theorem pmapLoad (a0 : ReqHdr) (a1 : Nat) (a2 : List MapRecord) :
    Statement (.pmapLoad a0 a1 a2) :=
  of_hdr (fun w => first_of w) rfl rfl
theorem watchStatus (a0 : ReqHdr) :
    Statement (.watchStatus a0) :=
  of_hdr (fun w => w) rfl rfl
theorem watchReset (a0 : ReqHdr) (a1 : Nat) :
    Statement (.watchReset a0 a1) :=
  of_hdr (fun w => first_of w) rfl rfl
theorem watchDrain (a0 : ReqHdr) (a1 : Nat) (a2 : Option TileSet) (a3 : Dest) :
    Statement (.watchDrain a0 a1 a2 a3) :=
  of_hdr (fun w => first_of (first_of (first_of w))) rfl rfl
theorem captureNow (a0 : ReqHdr) (a1 : Nat) :
    Statement (.captureNow a0 a1) :=
  of_hdr (fun w => first_of w) rfl rfl
theorem eddyRead (a0 : ReqHdr) (a1 : Option TileSet) (a2 : List Nat) (a3 : Nat) :
    Statement (.eddyRead a0 a1 a2 a3) :=
  of_hdr (fun w => first_of (first_of (first_of w))) rfl rfl
theorem eddyFreezeTimeout (a0 : Nat) :
    Statement (.eddyFreezeTimeout a0) :=
  of_tile (fun w => w) rfl rfl
theorem eddyGap (a0 : Nat) :
    Statement (.eddyGap a0) :=
  of_tile (fun w => w) rfl rfl
theorem traceLoad (a0 : ReqHdr) (a1 : Nat) (a2 : List TraceEntry) :
    Statement (.traceLoad a0 a1 a2) :=
  of_hdr (fun w => first_of (first_of w)) rfl rfl
theorem traceRemove (a0 : ReqHdr) :
    Statement (.traceRemove a0) :=
  of_hdr (fun w => w) rfl rfl
theorem traceRearm (a0 : ReqHdr) :
    Statement (.traceRearm a0) :=
  of_hdr (fun w => w) rfl rfl
theorem traceDrain (a0 : ReqHdr) (a1 : Option TileSet) :
    Statement (.traceDrain a0 a1) :=
  of_hdr (fun w => first_of w) rfl rfl
theorem traceStatus (a0 : ReqHdr) (a1 : Nat) (a2 : Nat) :
    Statement (.traceStatus a0 a1 a2) :=
  of_hdr (fun w => first_of (first_of w)) rfl rfl
theorem streamChunkSend (a0 : Nat) (a1 : Bool) :
    Statement (.streamChunkSend a0 a1) :=
  of_tile (fun w => w) rfl rfl
theorem eddyChunkArrive (a0 : Nat) (a1 : List Eddy) :
    Statement (.eddyChunkArrive a0 a1) :=
  of_tile (fun w => w) rfl rfl
theorem stillOnFullRaise (a0 : Nat) :
    Statement (.stillOnFullRaise a0) :=
  of_tile (fun w => w) rfl rfl
theorem traceDrainRelease :
    Statement (.traceDrainRelease) := of_other rfl rfl
theorem wfgBuild (a0 : ReqHdr) :
    Statement (.wfgBuild a0) :=
  of_hdr (fun w => w) rfl rfl
theorem snapTake (a0 : ReqHdr) (a1 : Nat) (a2 : Bool) (a3 : Nat) :
    Statement (.snapTake a0 a1 a2 a3) :=
  of_hdr (fun w => first_of (first_of w)) rfl rfl
theorem snapGo :
    Statement (.snapGo) := of_other rfl rfl
theorem cowAck (a0 : Nat) :
    Statement (.cowAck a0) := of_other rfl rfl
theorem cowAckTimeout (a0 : Nat) (a1 : Bool) :
    Statement (.cowAckTimeout a0 a1) := of_other rfl rfl
theorem imageCopyDone (a0 : Nat × Bool) :
    Statement (.imageCopyDone a0) :=
  of_tile (fun w => w) rfl rfl
theorem shimDone (a0 : Nat) :
    Statement (.shimDone a0) := of_other rfl rfl
theorem snapCopyTimeout :
    Statement (.snapCopyTimeout) := of_other rfl rfl
theorem slotReq (a0 : Nat) (a1 : Nat) (a2 : List (Nat × Byte)) :
    Statement (.slotReq a0 a1 a2) := of_other rfl rfl
theorem copyDone (a0 : Nat) (a1 : Nat) (a2 : Nat) :
    Statement (.copyDone a0 a1 a2) := of_other rfl rfl
theorem ingCopy (a0 : Nat) (a1 : Nat) (a2 : Nat) (a3 : List Byte) :
    Statement (.ingCopy a0 a1 a2 a3) := of_other rfl rfl
theorem mkSeen (a0 : Nat) (a1 : Nat) (a2 : Nat) (a3 : Nat) (a4 : Nat) :
    Statement (.mkSeen a0 a1 a2 a3 a4) := of_other rfl rfl
theorem logWritten (a0 : Nat) :
    Statement (.logWritten a0) := of_other rfl rfl
theorem markerTimeout (a0 : Nat × Bool) :
    Statement (.markerTimeout a0) := of_other rfl rfl
theorem egFrozenTimeout (a0 : Nat) :
    Statement (.egFrozenTimeout a0) := of_other rfl rfl
theorem egFrozenFall (a0 : Nat) :
    Statement (.egFrozenFall a0) := of_other rfl rfl
theorem snapRestore (a0 : ReqHdr) (a1 : Nat) (a2 : Bool) (a3 : Nat) :
    Statement (.snapRestore a0 a1 a2 a3) :=
  of_hdr (fun w => first_of (first_of w)) rfl rfl
theorem cbDone (a0 : Nat) (a1 : Nat) (a2 : Nat) :
    Statement (.cbDone a0 a1 a2) := of_other rfl rfl
theorem snapDrain (a0 : ReqHdr) (a1 : Nat) (a2 : Bool) (a3 : Dest) :
    Statement (.snapDrain a0 a1 a2 a3) :=
  of_hdr (fun w => first_of (first_of w)) rfl rfl
theorem asofData (a0 : Nat) (a1 : Bool) :
    Statement (.asofData a0 a1) := of_other rfl rfl
theorem drainDone :
    Statement (.drainDone) := of_other rfl rfl
theorem snapPlan (a0 : ReqHdr) (a1 : Nat) (a2 : Nat) (a3 : Nat) (a4 : Nat) (a5 : Bool) :
    Statement (.snapPlan a0 a1 a2 a3 a4 a5) :=
  of_hdr (fun w => first_of (first_of (first_of (first_of w)))) rfl rfl
theorem snapPlanStop (a0 : ReqHdr) :
    Statement (.snapPlanStop a0) :=
  of_hdr (fun w => w) rfl rfl
theorem snapPlanPoint :
    Statement (.snapPlanPoint) := of_other rfl rfl
theorem peerSet (a0 : ReqHdr) (a1 : Nat) (a2 : Bool) (a3 : List (Nat × Nat)) :
    Statement (.peerSet a0 a1 a2 a3) :=
  of_hdr (fun w => first_of (first_of w)) rfl rfl
theorem snapDrop (a0 : ReqHdr) (a1 : Nat) :
    Statement (.snapDrop a0 a1) :=
  of_hdr (fun w => first_of w) rfl rfl
theorem snapQuery (a0 : ReqHdr) :
    Statement (.snapQuery a0) :=
  of_hdr (fun w => w) rfl rfl
theorem crashList (a0 : ReqHdr) (a1 : Nat) :
    Statement (.crashList a0 a1) :=
  of_hdr (fun w => first_of w) rfl rfl
theorem recPolicy (a0 : ReqHdr) (a1 : Nat) (a2 : Nat) (a3 : Nat) :
    Statement (.recPolicy a0 a1 a2 a3) :=
  of_hdr (fun w => first_of (first_of (first_of w))) rfl rfl
theorem mendNow (a0 : ReqHdr) (a1 : Nat) :
    Statement (.mendNow a0 a1) :=
  of_hdr (fun w => first_of w) rfl rfl
theorem defectFlush (a0 : ReqHdr) :
    Statement (.defectFlush a0) :=
  of_hdr (fun w => w) rfl rfl
theorem recoveryStart :
    Statement (.recoveryStart) := of_other rfl rfl
theorem recoveryReady :
    Statement (.recoveryReady) := of_other rfl rfl
theorem wellWriteDone :
    Statement (.wellWriteDone) := of_other rfl rfl
theorem defectRecordWrite (a0 : Bool) :
    Statement (.defectRecordWrite a0) := of_other rfl rfl
theorem recOverrun :
    Statement (.recOverrun) := of_other rfl rfl
theorem wellBurstTimeout :
    Statement (.wellBurstTimeout) := of_other rfl rfl
theorem springProgramTimeout :
    Statement (.springProgramTimeout) := of_other rfl rfl
theorem lastGasp (a0 : Nat) :
    Statement (.lastGasp a0) := of_other rfl rfl
theorem pfWarnRise :
    Statement (.pfWarnRise) := of_other rfl rfl
theorem lcTransition (a0 : ReqHdr) (a1 : Nat) (a2 : BitVec 256) :
    Statement (.lcTransition a0 a1 a2) :=
  of_hdr (fun w => first_of w) rfl rfl
theorem lcTransitionDone (a0 : Bool) (a1 : Bool) :
    Statement (.lcTransitionDone a0 a1) := of_other rfl rfl
theorem fwWrite (a0 : ReqHdr) (a1 : Nat) (a2 : List Byte) :
    Statement (.fwWrite a0 a1 a2) :=
  of_hdr (fun w => first_of w) rfl rfl
theorem fwCommit (a0 : ReqHdr) (a1 : Nat) :
    Statement (.fwCommit a0 a1) :=
  of_hdr (fun w => first_of w) rfl rfl
theorem coldReset (a0 : Nat) (a1 : Nat) :
    Statement (.coldReset a0 a1) := of_other rfl rfl
theorem start :
    Statement (.start) := of_other rfl rfl
theorem startPhaseDone (a0 : PhaseReport) :
    Statement (.startPhaseDone a0) := of_other rfl rfl
theorem warmReset (a0 : Nat) (a1 : Bool) :
    Statement (.warmReset a0 a1) := of_other rfl rfl
theorem hubWatchdogExpiry (a0 : Bool) :
    Statement (.hubWatchdogExpiry a0) := of_other rfl rfl
theorem engineReset :
    Statement (.engineReset) := of_other rfl rfl
theorem darkPendingRise (a0 : Nat) (a1 : Bool) :
    Statement (.darkPendingRise a0 a1) :=
  of_tile (fun w => w) rfl rfl
theorem darkPendingFall (a0 : Nat) :
    Statement (.darkPendingFall a0) :=
  of_tile (fun w => w) rfl rfl
theorem darkSaveTimeout (a0 : Nat) :
    Statement (.darkSaveTimeout a0) :=
  of_tile (fun w => w) rfl rfl
theorem corePwrFall (a0 : Nat) :
    Statement (.corePwrFall a0) :=
  of_tile (fun w => w) rfl rfl
theorem corePwrRise (a0 : Nat) :
    Statement (.corePwrRise a0) :=
  of_tile (fun w => w) rfl rfl
theorem coreTimeRebuilt (a0 : Nat × Bool) :
    Statement (.coreTimeRebuilt a0) :=
  of_tile (fun w => w) rfl rfl
theorem thrRegionChange (a0 : Nat) (a1 : Bool) (a2 : Bool) :
    Statement (.thrRegionChange a0 a1 a2) :=
  of_tile (fun w => w) rfl rfl
theorem tclkResume (a0 : Nat × Bool) :
    Statement (.tclkResume a0) :=
  of_tile (fun w => w) rfl rfl
theorem planRestore (a0 : Nat) (a1 : Bool) :
    Statement (.planRestore a0 a1) :=
  of_tile (fun w => w) rfl rfl
theorem refclkLoss :
    Statement (.refclkLoss) := of_other rfl rfl
theorem refclkReturn :
    Statement (.refclkReturn) := of_other rfl rfl
theorem flockHold :
    Statement (.flockHold) := of_other rfl rfl
theorem flockHoldTimeout :
    Statement (.flockHoldTimeout) := of_other rfl rfl
theorem flockLocked :
    Statement (.flockLocked) := of_other rfl rfl
theorem rillPacketArrive (a0 : Node) (a1 : Nat) (a2 : Packet) :
    Statement (.rillPacketArrive a0 a1 a2) := of_other rfl rfl
theorem mcastCopy (a0 : Node) (a1 : Nat) (a2 : List Nat × Bool) :
    Statement (.mcastCopy a0 a1 a2) := of_other rfl rfl
theorem mcastBranchTimeout (a0 : Node) (a1 : Nat) (a2 : Nat) :
    Statement (.mcastBranchTimeout a0 a1 a2) := of_other rfl rfl
theorem mrspCombine (a0 : Node) (a1 : Nat × Bool) :
    Statement (.mrspCombine a0 a1) := of_other rfl rfl
theorem combinerTimeout (a0 : Node) (a1 : Nat) (a2 : Nat) :
    Statement (.combinerTimeout a0 a1 a2) := of_other rfl rfl
theorem rillReply (a0 : Nat × Bool) :
    Statement (.rillReply a0) := of_other rfl rfl
theorem rillResponseTimeout (a0 : Nat) (a1 : Nat) :
    Statement (.rillResponseTimeout a0 a1) := of_other rfl rfl
theorem stubRead (a0 : Nat) (a1 : Nat) :
    Statement (.stubRead a0 a1) :=
  of_tile (fun w => first_of w) rfl rfl
theorem stubWrite (a0 : Nat) (a1 : Nat) :
    Statement (.stubWrite a0 a1) :=
  of_tile (fun w => first_of w) rfl rfl
theorem stubCensus (a0 : Nat) (a1 : Nat) :
    Statement (.stubCensus a0 a1) :=
  of_tile (fun w => first_of w) rfl rfl
theorem fetch (a0 : Nat) (a1 : Bool) (a2 : Nat) :
    Statement (.fetch a0 a1 a2) :=
  of_tile (fun w => first_of w) rfl rfl
theorem copyout (a0 : Nat) (a1 : Nat) (a2 : Nat) :
    Statement (.copyout a0 a1 a2) :=
  of_tile (fun w => first_of (first_of w)) rfl rfl
theorem closeEpoch (a0 : Nat) (a1 : Nat) :
    Statement (.closeEpoch a0 a1) := of_other rfl rfl
theorem coreTimeout (a0 : Nat) (a1 : Nat) :
    Statement (.coreTimeout a0 a1) :=
  of_tile (fun w => first_of w) rfl rfl
theorem mreadArrive (a0 : Node) (a1 : Node) (a2 : Nat) (a3 : Nat) (a4 : Nat × Bool) :
    Statement (.mreadArrive a0 a1 a2 a3 a4) := of_other rfl rfl
theorem mdataReturn (a0 : Node) (a1 : Nat) (a2 : Nat) (a3 : Nat) (a4 : List Word × Bool) :
    Statement (.mdataReturn a0 a1 a2 a3 a4) := of_other rfl rfl
theorem weirSlip (a0 : Nat) (a1 : Nat) :
    Statement (.weirSlip a0 a1) := of_other rfl rfl
theorem weirRetrainDone (a0 : Nat) :
    Statement (.weirRetrainDone a0) := of_other rfl rfl
theorem linkGate (a0 : Nat) :
    Statement (.linkGate a0) := of_other rfl rfl
theorem edgeLinkDown (a0 : Nat) (a1 : Bool) :
    Statement (.edgeLinkDown a0 a1) := of_other rfl rfl
theorem statusFrame :
    Statement (.statusFrame) := of_other rfl rfl
theorem dataFrame (a0 : List Byte) (a1 : Bool) :
    Statement (.dataFrame a0 a1) := of_other rfl rfl
theorem ackFrame (a0 : Nat) (a1 : Nat) :
    Statement (.ackFrame a0 a1) := of_other rfl rfl
theorem nakFrame (a0 : Nat) (a1 : Nat) (a2 : Nat) :
    Statement (.nakFrame a0 a1 a2) := of_other rfl rfl
theorem keepalive (a0 : Nat) (a1 : Nat) :
    Statement (.keepalive a0 a1) := of_other rfl rfl
theorem portAckTimeout :
    Statement (.portAckTimeout) := of_other rfl rfl
theorem hostSilentTimeout :
    Statement (.hostSilentTimeout) := of_other rfl rfl
theorem blockLockLost :
    Statement (.blockLockLost) := of_other rfl rfl
theorem blockLockRegained :
    Statement (.blockLockRegained) := of_other rfl rfl
theorem lreset (a0 : Nat) :
    Statement (.lreset a0) := of_other rfl rfl
theorem lresetAck (a0 : Nat) :
    Statement (.lresetAck a0) := of_other rfl rfl
theorem lresetRepeat :
    Statement (.lresetRepeat) := of_other rfl rfl
theorem tapReset :
    Statement (.tapReset) := of_other rfl rfl
theorem mboxGo :
    Statement (.mboxGo) := of_other rfl rfl
theorem mboxAbort :
    Statement (.mboxAbort) := of_other rfl rfl
theorem mboxDataWrite (a0 : Word) :
    Statement (.mboxDataWrite a0) := of_other rfl rfl
theorem mboxDataRead :
    Statement (.mboxDataRead) := of_other rfl rfl
theorem tapInstruction (a0 : Nat) :
    Statement (.tapInstruction a0) := of_other rfl rfl
theorem vpendFall (a0 : Nat) :
    Statement (.vpendFall a0) :=
  of_tile (fun w => w) rfl rfl
theorem egFrozenRise (a0 : Nat) :
    Statement (.egFrozenRise a0) := of_other rfl rfl
theorem controllerFatalState (a0 : Nat) :
    Statement (.controllerFatalState a0) := of_other rfl rfl
theorem vddAonFall :
    Statement (.vddAonFall) := of_other rfl rfl
theorem pressPlaceTimeout :
    Statement (.pressPlaceTimeout) := of_other rfl rfl
theorem returnToActiveDone :
    Statement (.returnToActiveDone) := of_other rfl rfl
theorem springOperationDone :
    Statement (.springOperationDone) := of_other rfl rfl

end Sys2Proof.Laws.Fields
end

