-- ==== Sys2Proof/Laws/Serve.lean ====
section
/-! SUPPORT. What admitting and answering a request can do. -/

namespace Sys2Proof.Machine

/-! Sending -/

theorem pumpStep_frames (t : Nat) (p : PortState) : (pumpStep t p).unacked.map (·.response) ++ (pumpStep t p).txWait.map (·.response) =
    p.unacked.map (·.response) ++ p.txWait.map (·.response) := by
  unfold pumpStep
  split
  · rfl
  · next f r h => split <;> simp [h]

/-- A port state without what sending changes. -/
theorem pumpStep_rest (t : Nat) (p : PortState) : pumpStep t p = { p with
    unacked := (pumpStep t p).unacked, txWait := (pumpStep t p).txWait, txSeq := (pumpStep t p).txSeq } := by
  unfold pumpStep
  split
  · rfl
  · split <;> rfl

theorem pumpSteps_spec (t : Nat) (l : List Nat) : ∀ p : PortState,
    (let q := l.foldl (fun p _ => pumpStep t p) p
     q.unacked.map (·.response) ++ q.txWait.map (·.response) = p.unacked.map (·.response) ++ p.txWait.map (·.response) ∧
     q = { p with unacked := q.unacked, txWait := q.txWait, txSeq := q.txSeq }) := by
  induction l with
  | nil => intro p; exact ⟨rfl, rfl⟩
  | cons a l ih =>
    intro p
    obtain ⟨h1, h2⟩ := ih (pumpStep t p)
    refine ⟨h1.trans (pumpStep_frames t p), ?_⟩
    simp only [List.foldl_cons]
    rw [h2, pumpStep_rest t p]

/-- Moving frames into the window sends nothing new and changes nothing else. -/
theorem pump_spec (t : Nat) (p : PortState) :
    (pump t p).unacked.map (·.response) ++ (pump t p).txWait.map (·.response) =
      p.unacked.map (·.response) ++ p.txWait.map (·.response) ∧
    pump t p = { p with
      unacked := (pump t p).unacked, txWait := (pump t p).txWait, txSeq := (pump t p).txSeq, ackedAt := (pump t p).ackedAt } := by
  obtain ⟨h1, h2⟩ := pumpSteps_spec t (List.range (min 64 p.txWait.length)) p
  unfold pump
  constructor
  · split <;> exact h1
  · dsimp only at h2 ⊢
    split <;> rw [h2]

/-- A response on the port: its fragments follow those already sent, and only the transmit queue changes. -/
theorem portSend_spec (r : Response) (s : State) :
    sent (portSend r s) = sent s ++ fragmentsOf r ∧
    portSend r s = { s with port := { s.port with
      unacked := (portSend r s).port.unacked
      txWait := (portSend r s).port.txWait
      txSeq := (portSend r s).port.txSeq
      ackedAt := (portSend r s).port.ackedAt } } := by
  unfold portSend
  constructor
  · simp only [sent, onPort_port, List.map_append, (pump_spec _ _).1, fragmentsOf, List.append_assoc]
    congr 2
    apply List.ext_getElem <;> simp
  · have h := (pump_spec (now s) { s.port with txWait := s.port.txWait ++ (pieces 2032 r.body).mapIdx (fun i b =>
      { seq := 0, frag := i, last := i + 1 == (pieces 2032 r.body).length, response := { r with body := b } }) }).2
    unfold onPort
    dsimp only
    rw [h]

/-- Sending only adds to what waits on the port, or to the mailbox. -/
theorem send_port (r : Response) (s : State) (h : r.session ≠ 65535) : send r s = portSend r s := by simp [send, h]

/-! Answering -/

/-- The outstanding entry that a request finds is its own, and taking it away leaves the others. -/
theorem own_entry (l : List ReqHdr) (h : ReqHdr) (hl : ∀ o ∈ l, o.session = h.session → o.tag ≠ h.tag) :
    (l ++ [h]).find? (fun o => o.session == h.session && o.reqId == h.reqId && o.tag == h.tag) = some h ∧
    (l ++ [h]).erase h = l := by
  constructor
  · rw [List.find?_append]
    have : l.find? (fun o => o.session == h.session && o.reqId == h.reqId && o.tag == h.tag) = none := by
      rw [List.find?_eq_none]
      intro o ho
      have := hl o ho
      simp only [Bool.and_eq_true, beq_iff_eq, not_and]
      intro h1; exact this h1.1
    simp [this]
  · have hn : h ∉ l := fun hin => hl h hin rfl rfl
    rw [List.erase_append_right _ hn]
    simp

/-- A taken request on the port is answered: its fragments follow, its tag is free, and nothing else changes but the cache. -/
theorem respond_spec (h : ReqHdr) (st : Status) (body : List Byte) (w : State) (l : List ReqHdr)
    (hs : h.session ≠ 65535) (ho : w.sess.outstanding = l ++ [h]) (hl : ∀ o ∈ l, o.session = h.session → o.tag ≠ h.tag) :
    sent (respond h st body w) = sent w ++ fragmentsOf (mkResponse h st body) ∧
    respond h st body w = { w with
      port := { w.port with
        unacked := (respond h st body w).port.unacked
        txWait := (respond h st body w).port.txWait
        txSeq := (respond h st body w).port.txSeq
        ackedAt := (respond h st body w).port.ackedAt }
      sess := { w.sess with
        outstanding := l
        cache := (respond h st body w).sess.cache } } := by
  have ht : outTag (onSess (fun q => { q with cache := cacheFill h (mkResponse h st body) q.cache }) w) h = some h := by
    simp [outTag, ho, (own_entry l h hl).1]
  have ht' : outTag w h = some h := by simp [outTag, ho, (own_entry l h hl).1]
  have hr : respond h st body w = portSend (mkResponse h st body) (onSess (fun q => { q with
      outstanding := l }) (onSess (fun q => { q with cache := cacheFill h (mkResponse h st body) q.cache }) w)) := by
    unfold respond
    simp only [ht']
    simp only [onSess, ho, (own_entry l h hl).2]
    rw [send_port]
    · rfl
    · exact hs
  rw [hr]
  obtain ⟨h1, h2⟩ := portSend_spec (mkResponse h st body) (onSess (fun q => { q with outstanding := l })
    (onSess (fun q => { q with cache := cacheFill h (mkResponse h st body) q.cache }) w))
  refine ⟨by rw [h1]; rfl, ?_⟩
  rw [h2]
  rfl

/-! Admission -/

theorem pick_good (a b : List Check) (h : ∀ c ∈ a, c.bad = false) : pick (a ++ b) = pick b := by
  have hn : ∀ l : List Check, (∀ c ∈ l, c.bad = false) → l.foldl pickStep none = none := by
    intro l
    induction l with
    | nil => intro _; rfl
    | cons c r ih =>
      intro hl
      have hc : pickStep none c = none := by simp [pickStep, hl c (by simp)]
      rw [List.foldl_cons, hc]
      exact ih (fun x hx => hl x (by simp [hx]))
  unfold pick
  rw [List.foldl_append, hn a h]

theorem pick_none (l : List Check) (h : ∀ c ∈ l, c.bad = false) : pick l = none := by
  have := pick_good l [] h
  simpa [pick] using this

/-- The session and the right that a request needs (13 R425). -/
def Allowed (s : State) (k : ReqKind) (h : ReqHdr) : Prop :=
  match k.need with
  | .zero => h.session = 0 ∨ InSession s h
  | .any => InSession s h
  | .intrusive => InSession s h ∧ isIntrusive s h.session = true
  | .spring => InSession s h ∧ isIntrusive s h.session = true ∧ hasRight s h.session 1 = true

theorem findSession_port (s : State) (id : Nat) (h : id ≠ 65535) :
    findSession s id = s.sess.sessions.find? (fun x => x.id == id) := by simp [findSession, h]

/-- What taking a request changes: `w` is `u` with the request outstanding, but for the bookkeeping of requests. -/
def Taken (u w : State) (h : ReqHdr) : Prop :=
  ∃ ss as c m, w = { u with sess := { u.sess with
    sessions := ss, outstanding := u.sess.outstanding ++ [h], assembling := as, cache := c, maxReqId0 := m } } ∧
    ss.map unstamped = u.sess.sessions.map unstamped

theorem takeUp_eq (h : ReqHdr) (s : State) : ∃ as, takeUp h s = { s with sess := { s.sess with assembling := as } } :=
  ⟨_, rfl⟩

theorem register_taken (k : ReqKind) (h : ReqHdr) (s : State) (hs : h.session ≠ 65535) :
    Taken s (register k h (takeUp h s)) h := by
  obtain ⟨as, ha⟩ := takeUp_eq h s
  rw [ha]
  generalize hw : register k h _ = w
  refine ⟨w.sess.sessions, as, w.sess.cache, w.sess.maxReqId0, ?_, ?_⟩
  · subst hw
    unfold register onSession
    simp only [hs, if_false]
    rfl
  · subst hw
    unfold register onSession
    simp only [hs, if_false]
    simp only [onSess, List.map_map]
    apply List.map_congr_left
    intro x _
    simp only [Function.comp]
    split <;> rfl

/-- A request that is ready and allowed is judged by its own conditions alone. -/
theorem serve_ready (k : ReqKind) (h : ReqHdr) (checks : ReqHdr → State → List Check) (act : ReqHdr → State → State)
    (s : State) (hr : Ready s h) (ha : Allowed s k h) :
    ∃ w as, Taken s w { h with opcode := k.op } ∧ serve k h checks act s =
      match pick (checks { h with opcode := k.op } { s with sess := { s.sess with assembling := as } }) with
      | some c => fail { h with opcode := k.op } c w
      | none => act { h with opcode := k.op } w := by
  obtain ⟨as, hta⟩ := takeUp_eq { h with opcode := k.op } s
  refine ⟨_, as, register_taken k { h with opcode := k.op } s hr.notMailbox, ?_⟩
  have hw : wake k s = s := by simp [wake, hr.active]
  have hreach : reachable s { h with opcode := k.op } = true := by simp [reachable, hr.notMailbox, hr.opened]
  have hcached : cached { s with sess := { s.sess with assembling := as } } { h with opcode := k.op } = none := by
    simp only [cached, List.find?_eq_none, Bool.and_eq_true, beq_iff_eq, not_and]
    intro e he h1
    exact hr.fresh e he h1
  have htag : tagInUse { s with sess := { s.sess with assembling := as } } { h with opcode := k.op } = false := by
    simp only [tagInUse, List.any_eq_false, Bool.and_eq_true, beq_iff_eq, not_and]
    intro o ho h1
    exact hr.tagFree o ho h1
  have hsess : ∀ x : InSession s h, findSession { s with sess := { s.sess with assembling := as } } h.session ≠ none := by
    intro x
    simp only [findSession, hr.notMailbox, if_false]
    exact Option.isSome_iff_ne_none.1 x.2
  have hknown : known { s with sess := { s.sess with assembling := as } } k { h with opcode := k.op } = true := by
    unfold Allowed at ha
    unfold known
    cases hk : k.need <;> rw [hk] at ha <;> dsimp only at ha
    · rcases ha with h0 | hi
      · simp [h0]
      · simp [hi.1, Option.isSome_iff_ne_none, hsess hi]
    · simp [ha.1, Option.isSome_iff_ne_none, hsess ha]
    · simp [ha.1.1, Option.isSome_iff_ne_none, hsess ha.1]
    · simp [ha.1.1, Option.isSome_iff_ne_none, hsess ha.1]
  have hint : (k.need = .intrusive ∨ k.need = .spring) →
      isIntrusive { s with sess := { s.sess with assembling := as } } h.session = true := by
    intro hn
    rcases hn with hn | hn <;> simp only [Allowed, hn] at ha
    · exact ha.2
    · exact ha.2.1
  have hspring : k.need = .spring → hasRight { s with sess := { s.sess with assembling := as } } h.session 1 = true := by
    intro hn
    simp only [Allowed, hn] at ha
    exact ha.2.2
  have hhigh : highReq { s with sess := { s.sess with assembling := as } } h.session ≤ h.reqId := hr.inOrder
  unfold serve
  simp only [hreach, Bool.not_true, Bool.false_eq_true, if_false, hw]
  rw [hta, hcached]
  simp only [ite_self]
  rw [pick_good]
  · have hreg : registers { s with sess := { s.sess with assembling := as } } k { h with opcode := k.op } = true := by
      simp [registers, htag, hknown, hr.room]
    rw [hreg]
    generalize pick _ = o
    cases o <;> rfl
  · intro c hcm
    simp only [commonChecks, List.mem_cons, List.not_mem_nil, or_false] at hcm
    have hcode := hr.notScrap
    have hval := hr.valid
    have hroom := hr.room
    rcases hcm with rfl | rfl | rfl | rfl | rfl | rfl | rfl | rfl | rfl | rfl | rfl
    · simp [hval]
    · simp [hr.encoded]
    · exact htag
    · simp [hcode]
    · simp [hknown]
    · by_cases hn : k.need = .intrusive ∨ k.need = .spring
      · simp [hint hn]
      · simp only [not_or] at hn; simp [hn]
    · by_cases hn : k.need = .spring
      · simp [hspring hn]
      · simp [hn]
    · simp; omega
    · simp [hr.settled]
    · simp [inRom, hr.firmware]
    · simp [Nat.not_lt.2 hhigh]

/-- Answering a request that has been taken. -/
theorem taken_answered (u w : State) (op : Nat) (h : ReqHdr) (st : Status) (body : List Byte) (hs : h.session ≠ 65535)
    (hl : ∀ o ∈ u.sess.outstanding, o.session = h.session → o.tag ≠ h.tag) (hw : Taken u w { h with opcode := op }) :
    Answered u (respond { h with opcode := op } st body w) op h st body := by
  obtain ⟨ss, as, c, m, rfl, hss⟩ := hw
  generalize hx : { u with sess := _ } = x
  have hx' : x.sess.outstanding = u.sess.outstanding ++ [{ h with opcode := op }] := by rw [← hx]
  obtain ⟨h1, h2⟩ := respond_spec { h with opcode := op } st body x u.sess.outstanding hs hx' hl
  subst hx
  refine ⟨h1, ?_, ?_, ?_⟩
  · rw [h2]
  · rw [h2]
  · rw [h2]; exact hss

theorem taken_waits (u w : State) (op : Nat) (h : ReqHdr) (hw : Taken u w { h with opcode := op }) : Waits u w op h := by
  obtain ⟨ss, as, c, m, rfl, hss⟩ := hw
  exact ⟨rfl, rfl, rfl, hss⟩

theorem obs_allowed {s h} (hs : AsObserver s h) (k : ReqKind) (hk : k.need = .any) : Allowed s k h := by
  unfold Allowed; rw [hk]; exact hs.2
theorem int_allowed {s h} (hs : AsIntrusive s h) (k : ReqKind) (hk : k.need = .intrusive) : Allowed s k h := by
  unfold Allowed; rw [hk]; exact ⟨hs.1.2, hs.2⟩
theorem any_allowed {s h} (hs : AsAnyone s h) (k : ReqKind) (hk : k.need = .zero) : Allowed s k h := by
  unfold Allowed; rw [hk]; exact hs.2
theorem spr_allowed {s h} (hs : WithSpring s h) (k : ReqKind) (hk : k.need = .spring) : Allowed s k h := by
  unfold Allowed; rw [hk]; exact ⟨hs.1.1.2, hs.1.2, hs.2⟩

/-- A request whose own conditions hold and whose effect ends in an answer is answered. -/
theorem ok_request (k : ReqKind) (h : ReqHdr) (checks : ReqHdr → State → List Check) (act : ReqHdr → State → State)
    (s u : State) (st : Status) (body : List Byte) (hr : Ready s h) (ha : Allowed s k h)
    (hc : ∀ as, pick (checks { h with opcode := k.op } { s with sess := { s.sess with assembling := as } }) = none)
    (hu : u.sess.outstanding = s.sess.outstanding)
    (hact : ∀ w, Taken s w { h with opcode := k.op } → ∃ v, Taken u v { h with opcode := k.op } ∧
      act { h with opcode := k.op } w = respond { h with opcode := k.op } st body v) :
    ∃ t, request k h checks act s = .next t ∧ Answered u t k.op h st body := by
  obtain ⟨w, as, hw, he⟩ := serve_ready k h checks act s hr ha
  obtain ⟨v, hv, hv2⟩ := hact w hw
  refine ⟨_, rfl, ?_⟩
  rw [he, hc as]
  dsimp only
  rw [hv2]
  exact taken_answered u v k.op h st body hr.notMailbox (by rw [hu]; exact hr.tagFree) hv

/-- A request whose conditions fail is answered with the first failed one, and nothing else changes. -/
theorem bad_request (k : ReqKind) (h : ReqHdr) (checks : ReqHdr → State → List Check) (act : ReqHdr → State → State)
    (s : State) (c : Check) (hr : Ready s h) (ha : Allowed s k h)
    (hc : ∀ as, pick (checks { h with opcode := k.op } { s with sess := { s.sess with assembling := as } }) = some c) :
    ∃ t, request k h checks act s = .next t ∧ Answered s t k.op h c.st (failBody c) := by
  obtain ⟨w, as, hw, he⟩ := serve_ready k h checks act s hr ha
  refine ⟨_, rfl, ?_⟩
  rw [he, hc as]
  exact taken_answered s w k.op h _ _ hr.notMailbox hr.tagFree hw


end Sys2Proof.Machine
end

