-- ==== Sys2Proof/Tests/Slice0.lean ====
section
/-! SUPPORT. Tests: commands that are not well formed, single steps whose results the spec states, and for every statement
with hypotheses a concrete state and operands that meet them. -/

namespace Sys2Proof.Tests

open Sys2Proof Sys2Proof.Machine

set_option Elab.async false

/-! States and headers for the witnesses -/

/-- A header of session 7. -/
def hd : ReqHdr := { session := 7, tag := 1, reqId := 5 }
/-- A header of SESSION 0. -/
def hd0 : ReqHdr := { session := 0, tag := 1, reqId := 5 }
/-- An intrusive session with every right, and an observer. -/
def owner : Session := { id := 7, intrusive := true, rights := 7 }
def watcher : Session := { id := 7 }

/-- A hub in MK whose port is open, with one session. -/
def hubWith (x : Session) : State := { State.reset with
  port := { State.reset.port with opened := true }
  boot := { State.reset.boot with inReset := false }
  rill := { State.reset.rill with inService := true }
  time := { State.reset.time with running := true, hub := 1000 }
  sess := { State.reset.sess with sessions := [x] } }
def base : State := hubWith owner
def seen : State := hubWith watcher

/-- The conditions of `Ready` as one evaluation. -/
def readyB (s : State) (h : ReqHdr) : Bool :=
  s.port.opened && decide (h.session ≠ 65535) && decide (h.defect = 0) && decide (s.lc.code ≠ 4) && decide (s.lc.code ≠ 255) &&
  decide (s.lc.phase = 0) && decide (s.boot.romReason = 0) && !s.boot.quiet &&
  s.sess.outstanding.all (fun o => decide (o.session = h.session → o.tag ≠ h.tag)) && decide (s.sess.outstanding.length < 256) &&
  s.sess.cache.all (fun e => decide (e.session = h.session → e.reqId ≠ h.reqId)) && decide (highReq s h.session ≤ h.reqId)

theorem ready_of {s : State} {h : ReqHdr} (e : readyB s h = true) : Ready s h := by
  simp only [readyB, Bool.and_eq_true, decide_eq_true_eq, List.all_eq_true, Bool.not_eq_true'] at e
  obtain ⟨⟨⟨⟨⟨⟨⟨⟨⟨⟨⟨a, b⟩, c⟩, d⟩, f⟩, g⟩, i⟩, j⟩, k⟩, l⟩, m⟩, n⟩ := e
  exact ⟨a, b, c, d, f, g, i, j, k, l, m, n⟩

theorem anyone_of {s : State} (e : readyB s hd0 = true) : AsAnyone s hd0 := ⟨ready_of e, .inl rfl⟩
theorem observer_of {s : State} (e : (readyB s hd && (s.sess.sessions.find? (fun x => x.id == 7)).isSome) = true) :
    AsObserver s hd := by
  simp only [Bool.and_eq_true] at e
  exact ⟨ready_of e.1, by decide, e.2⟩
theorem intrusive_of {s : State}
    (e : (readyB s hd && (s.sess.sessions.find? (fun x => x.id == 7)).isSome && isIntrusive s 7) = true) : AsIntrusive s hd := by
  simp only [Bool.and_eq_true] at e
  exact ⟨⟨ready_of e.1.1, by decide, e.1.2⟩, e.2⟩
theorem spring_of {s : State}
    (e : (readyB s hd && (s.sess.sessions.find? (fun x => x.id == 7)).isSome && isIntrusive s 7 && hasRight s 7 1) = true) :
    WithSpring s hd := by
  simp only [Bool.and_eq_true] at e
  exact ⟨⟨⟨ready_of e.1.1.1, by decide, e.1.1.2⟩, e.1.2⟩, e.2⟩

/-! Witnesses: sessions and hub requests -/

def crowd : State := { base with sess := { base.sess with sessions := List.replicate 4096 watcher } }
def fielded : State := { seen with lc := { seen.lc with code := 2 } }

theorem meets_SessionOpenAnswers :
    (AsAnyone seen hd0 ∧ 1 ≤ 1 ∧ seen.sess.sessions.length < 4096 ∧ anyIntrusive seen = false) ∧
    (AsAnyone crowd hd0 ∧ 4096 ≤ crowd.sess.sessions.length) ∧ (AsAnyone base hd0 ∧ anyIntrusive base = true) :=
  ⟨⟨anyone_of (by decide), by decide, by decide, by decide⟩, ⟨anyone_of (by decide), (List.length_replicate).ge⟩, anyone_of (by decide), by decide⟩

/-- A key and a signature: the point that the signature gives has the message's digest as its first coordinate. -/
def keyX : Nat := 0x4ec1b1a6393a4aa43ab616696605f9eddeab9ab60755f5c9c8b2e304ddceb62a807001bc79a7dc07a784dc0816ac82f0
def keyY : Nat := 0xd03ae94eb531ff5a93f98e29452981eb9e2850090e967f01667cccf3813031c3c37b86469635c2ec93eee9aa4965c36b
def sigR : Nat := 0x9e1cb88ab96f580373e76a5af0c4f571fe7ab8ef49214675d0599ec195e310fa30d0d901f4bee0a22603d9bd6da07958
def keyed : State := { seen with
  lc := { seen.lc with code := 2 }
  sess := { seen.sess with sessions := [{ watcher with nonce := some 2 }] }
  xspi := { seen.xspi with otp := storeBytes 0 [] 0xE0 (keyDigest keyX keyY) } }
def keyedTwo : State := { keyed with
  sess := { keyed.sess with sessions := keyed.sess.sessions ++ [{ id := 9, intrusive := true }] } }
def opened9 : State := { seen with txn := { seen.txn with host := some { owner := 7 } } }

theorem key_digest : sha384 (le 48 keyX ++ le 48 keyY) = otpField keyed 0xE0 48 := by decide +kernel
theorem message_digest : sha384 (grantMessage keyed 2 1 7) = (le 48 sigR).reverse := by decide +kernel
theorem signature_ok : ecdsaOk (le 48 sigR).reverse keyX keyY sigR sigR = true := by decide +kernel

theorem meets_GrantsAndEndsOfSessions :
    (AsObserver keyed hd ∧ (1 : Nat) % 2 = 1 ∧ nonceOk keyed 7 2 = true ∧ otpUsable keyed 0xE0 = true ∧
      keyDigest keyX keyY = otpField keyed 0xE0 48 ∧
      ecdsaOk (sha384 (grantMessage keyed 2 1 7)) keyX keyY sigR sigR = true ∧ otherIntrusive keyed 7 = false) ∧
    (AsObserver keyedTwo hd ∧ nonceOk keyedTwo 7 2 = true ∧ otherIntrusive keyedTwo 7 = true ∧ keyedTwo.txn.host = none ∧
      keyedTwo.tap.alive = false) ∧
    (AsObserver keyed hd ∧ nonceOk keyed 7 3 = false) ∧
    (AsObserver opened9 hd ∧ ∀ x, opened9.txn.host = some x → x.owner = 7 → x.committed = false) ∧
    (seen.sess.sessions.find? (fun y => y.id == 7) = some watcher ∧ seen.txn.pressed = false) :=
  ⟨⟨observer_of (by decide), by decide, by decide, by decide, key_digest, by rw [message_digest]; exact signature_ok, by decide⟩,
   ⟨observer_of (by decide), by decide, by decide, by decide, by decide⟩, ⟨observer_of (by decide), by decide⟩,
   ⟨observer_of (by decide), by rintro x h -; cases h; rfl⟩, by decide, by decide⟩

theorem meets_HubRequestsAnswer :
    AsAnyone seen hd0 ∧ AsObserver seen hd ∧ AsIntrusive base hd ∧ (1 : Nat) < 2 :=
  ⟨anyone_of (by decide), observer_of (by decide), intrusive_of (by decide), by decide⟩

/-! Witnesses: reads and writes of the address spaces -/

def noWell : State := { base with boot := { base.boot with wellAbsent := true } }
def inMarket : State := { base with lc := { base.lc with code := 1 } }

theorem meets_ReadsAnswerOrGoOut :
    (AsObserver seen hd ∧ 0x020 % 8 = 0 ∧
      centreReg { seen with sess := { seen.sess with outstanding := seen.sess.outstanding ++ [{ hd with opcode := 0x10 }] } } 0x020 =
        some 0) ∧
    (67108863 + 1 ≤ 67108864 ∧ 4095 + 1 ≤ 4096 ∧ idkeyHidden seen 4095 1 = false ∧ seen.boot.wellAbsent = false) ∧
    (AsObserver inMarket hd ∧ idkeyHidden inMarket 0x80 1 = true) ∧ (AsObserver noWell hd ∧ noWell.boot.wellAbsent = true) ∧
    ((agentReg base (tileAt 767 479) 0).isSome = true ∧ agentAbsent base 0 = false) ∧
    (AsIntrusive base hd ∧ 49151 + 1 ≤ 49152) :=
  ⟨⟨observer_of (by decide), by decide, by decide⟩, by decide, ⟨observer_of (by decide), by decide⟩,
   ⟨observer_of (by decide), by decide⟩, by decide, intrusive_of (by decide), by decide⟩

/-- A wafer whose still is declared. -/
def stilled : State := { base with root := { base.root with wstate := 3 } }

theorem meets_ReadsAnswerOrGoOut_still : AsIntrusive stilled hd ∧ tileStill stilled (tileAt 5 7) = true :=
  ⟨intrusive_of (by decide), by decide⟩

def erasing : State := { base with xspi := { base.xspi with pending := [{ offset := 65536, erase := true }], owner := 1 } }
def programming : State := { base with
  sess := { base.sess with outstanding := [hd] }
  xspi := { base.xspi with pending := [{ offset := 65536, bytes := [1], last := true, reply := some hd }], owner := 1 } }
/-- A crash record is being written to the Well; a Well write of the host waits behind a Spring operation. -/
def recording : State := { base with recov := { base.recov with crash := some { offset := 65536, bytes := [1] } } }
def wellAfter : State := { erasing with xspi := { erasing.xspi with wellWaits := [{ offset := 16777215, bytes := [9], reply := some hd }] } }

theorem meets_WritesAndSpringOperations :
    AsIntrusive base hd ∧ base.boot.wellAbsent = false ∧
    (0xB0 ∈ otpFields base ∧ otpBlank base 0xB0 48 = true ∧ base.lc.junctionHot = false) ∧
    (WithSpring base hd ∧ 67043328 % 65536 = 0 ∧ 67043328 + 65536 ≤ 67108864) ∧
    (overlap 8 1 (partOf base 1).offset (partOf base 1).size = false ∧ (∀ b ∈ springRead base 8 1, b = 0xFF) ∧
      8 % pageBytes base + 1 ≤ pageBytes base) ∧
    (erasing.xspi.pending = [{ offset := 65536, erase := true }] ∧ erasing.xspi.owner = 1 ∧ erasing.xspi.wellWaits = []) ∧
    (programming.xspi.pending = [{ offset := 65536, bytes := [1], last := true, reply := some hd }] ∧ programming.xspi.owner = 1 ∧
      programming.sess.outstanding = [] ++ [hd]) ∧ base.xspi.pending = [] ∧
    (AsIntrusive recording hd ∧ wellBusy recording = true) ∧ wellBusy base = false ∧
    (wellAfter.xspi.owner = 1 ∧ wellBusy wellAfter = false ∧
      wellAfter.xspi.wellWaits = [{ offset := 16777215, bytes := [9], reply := some hd }]) :=
  ⟨intrusive_of (by decide), by decide, by decide +kernel, ⟨spring_of (by decide), by decide, by decide⟩, by decide +kernel, by decide,
   by decide, by decide, ⟨intrusive_of (by decide), by decide⟩, by decide, by decide⟩

/-- The set of the one tile (5, 7). -/
def oneTile : TileSet := { x0 := 5, x1 := 5, y0 := 7, y1 := 7, spares := true }

def tileIs (k : Nat) (x : Tile) (s : State) : State := { s with tiles := [(k, x)] }
/-- A tile whose core is up and whose stub answers. -/
def upTile : Tile := { power := { pwrOk := true, ready := true } }
def t57 : Nat := tileAt 5 7
def oneUp : State := tileIs t57 upTile base
def stagedUp : State := tileIs t57 { upTile with txn := { tstate := 1, id := 3, words := 1, staged := [1] } } base

theorem meets_MulticastAndAgentReset :
    (AsIntrusive base hd ∧ setBad oneTile = false ∧ members base oneTile ≠ []) ∧
    (AsObserver base hd ∧ (agentReg base 0 0x28).isSome = true ∧ agentAbsent base 0x28 = false) ∧
    (AsIntrusive oneUp hd ∧ (tileOf oneUp t57).power.answers = true ∧ coreDark (tileOf oneUp t57) = false ∧
      stagedHeld (tileOf oneUp t57) = false ∧ (tileOf oneUp t57).still.heldRel = []) ∧
    (AsIntrusive stagedUp hd ∧ coreDark (tileOf stagedUp t57) = false ∧ stagedHeld (tileOf stagedUp t57) = true) :=
  ⟨⟨intrusive_of (by decide), by decide, by decide⟩, ⟨observer_of (by decide), by decide, by decide⟩,
   ⟨intrusive_of (by decide), by decide, by decide, by decide⟩, intrusive_of (by decide), by decide, by decide⟩

/-! Witnesses: hub time and clock sources -/

def pressedIdle : State := { base with txn := { base.txn with pressed := true, centreDone := true } }
def marking : State := { base with time := { base.time with markTick := some 2000 } }
def flocking : State := { base with time := { base.time with flockEn := true, flock := 1 } }
def holding : State := { base with time := { base.time with flock := 3, holdSince := some 5, align := 2 } }

theorem meets_TimeMoves :
    (base.txn.pressed = false ∧ base.pending = [] ∧ base.rill.flows = [] ∧ (∀ w ∈ base.rill.weirs, weirBusy w.2 = false) ∧ base.time.running = true ∧ now base < 2 ^ 64 - 1) ∧
    (pressedIdle.txn.centreDone = true ∧ pressedIdle.pending = []) ∧ parityOk (0x40000000 % 2 ^ 48) false true = true ∧ parityOk (0x40000000 % 2 ^ 48) true true = false ∧
    marking.time.markTick = some 2000 ∧ base.time.markTick = none ∧ (base.rill.inService = true ∧ 368639 < numTiles) ∧
    (flocking.time.flockEn = true ∧ flocking.time.flock = 1) ∧ (base.time.flockEn = false ∧ base.time.flock ≠ 2) ∧
    ({ base with time := { base.time with flock := 2 } } : State).time.flock = 2 ∧
    (holding.time.holdSince = some 5 ∧ holding.time.flock = 3 ∧ holding.time.align = 2) ∧
    (({ holding with time := { holding.time with align := 1 } } : State).time.align ≠ 2) := by decide

def steering : State := { base with time := { base.time with steering := true, steerRemain := -7 } }
/-- With an action queued hub time may not step. -/
def queued : State := { base with root := { base.root with queue := [{ kind := 1, scope := 0, tick := 5000, launchAt := 4000, origin := 0, txn := 0 }] } }

theorem meets_TimeIsAdjustedAndMeasured :
    AsObserver seen hd ∧ (AsIntrusive base hd ∧ (-1 : Int) ≠ 0 ∧ base.time.steering = false ∧ mayStep base = true) ∧
    (AsIntrusive queued hd ∧ queued.time.steering = false ∧ mayStep queued = false ∧ (-100000 : Int).natAbs ≤ 100000 ∧
      100000 < (100001 : Int).natAbs) ∧
    (AsIntrusive steering hd ∧ steering.time.steering = true) ∧
    (base.root.wstate ≠ 3 ∧ ∀ f, f < 48 → 2 * median2 [36, 36] + mget 0 base.cfg.fanout f ≤ 720) ∧
    (AsIntrusive stilled hd ∧ stilled.root.wstate = 3 ∧ stilled.root.queue = [] ∧
      ∀ f, f < 48 → mget 0 stilled.time.fieldDelay f ≤ 720) :=
  ⟨observer_of (by decide), ⟨intrusive_of (by decide), by decide, by decide, by decide⟩,
   ⟨intrusive_of (by decide), by decide, by decide, by decide, by decide⟩, ⟨intrusive_of (by decide), by decide⟩, by decide,
   intrusive_of (by decide), by decide, by decide, by decide⟩

/-! Witnesses: stilling and stepping -/

def aStill : StillAction := { kind := 1, scope := 0, tick := 5000, launchAt := 4896, origin := 0 }
def aRelease : StillAction := { kind := 2, scope := 0, tick := 6000, launchAt := 5896, origin := 0 }
def tile0 : Tile := { txn := { ltnValid := true }, still := { region := 2 }, time := { unset := false } }
/-- Region 1 holds the one tile (0, 0). -/
def zone : State := { base with
  root := { base.root with regions := [(1, { valid := true })] }
  tiles := [(0, tile0)] }
/-- The region's still is declared. -/
def zoneStill : State := { zone with root := { zone.root with regionsStill := 2 } }
def zoneSilent : State := { zoneStill with tiles := [(0, { tile0 with power := { answers := false } })] }
def early : ReqHdr := { hd with atEarliest := true }
def waferStill : State := { base with root := { base.root with wstate := 3, launched := [aStill] } }
def soon : State := { waferStill with time := { base.time with lstill := 104 } }

theorem early_ready : AsIntrusive soon early :=
  ⟨⟨⟨by decide, by decide, by decide, by decide, by decide, by decide, by decide, by decide, by decide, by decide, by decide, by decide⟩,
    by decide, by decide⟩, by decide⟩

theorem meets_StillAndReleaseQueue :
    (AsIntrusive base hd ∧ base.root.queue.length < 64 ∧ base.root.stepKind = 0 ∧ recBusy base = false ∧ inForce base 0 = false ∧
      queuedStill base 0 = false ∧ now base + base.time.lstill ≤ 2000 ∧ 2000 ≤ now base + 2 ^ 40 ∧ crowded base 2000 = false ∧
      conflicts base 1 0 2000 = false) ∧
    (AsIntrusive zone hd ∧ regionState zone = true ∧ (regionOf zone 1).valid = true ∧ inForce zone 1 = false ∧
      queuedStill zone 1 = false ∧ 999 < now zone + zone.time.lstill) ∧
    (AsIntrusive soon early ∧ inForce soon 0 = true ∧ holdsStill soon 0 = false ∧ 1103 < now soon + soon.time.lstill ∧
      crowded soon 1104 = false ∧ conflicts soon 2 0 1104 = false ∧ laterStill soon 0 1104 = false) ∧
    (∃ n, n < 1100 ∧ crowded queued (5000 + n) = false) :=
  ⟨⟨intrusive_of (by decide), by decide⟩, ⟨intrusive_of (by decide), by decide⟩, ⟨early_ready, by decide⟩, 8, by decide⟩

theorem meets_StepsQueue :
    (AsIntrusive stilled hd ∧ stilled.root.queue.length < 63 ∧ holdsStill stilled 0 = false ∧ declared stilled 0 = true ∧
      2147483646 % 2 = 0 ∧ now stilled + stilled.time.lstill ≤ 1000 ∧ crowded stilled 1000 = false ∧
      crowded stilled (1000 + 8) = false ∧ queuedStill stilled 0 = false ∧ 1000 + 8 ≤ now stilled + 2 ^ 40 ∧ conflicts stilled 2 0 1000 = false ∧ conflicts stilled 1 0 1008 = false) ∧
    (AsIntrusive zoneStill hd ∧ (regionOf zoneStill 1).valid = true ∧ declared zoneStill 1 = true ∧ now zoneStill + 20000 ≤ 21000 ∧
      crowded zoneStill 1000021000 = false ∧ queuedStill zoneStill 1 = false ∧ 21000 + 1000000 * 1000 ≤ now zoneStill + 2 ^ 40 ∧ ∀ u ∈ scopeTiles zoneStill 1, (tileOf zoneStill u).power.answers = true ∧ (tileOf zoneStill u).time.unset = false) ∧
    (AsIntrusive zoneSilent hd ∧ declared zoneSilent 1 = true ∧ ∃ u ∈ scopeTiles zoneSilent 1, counts (tileOf zoneSilent u) = false) :=
  ⟨⟨intrusive_of (by decide), by decide⟩, ⟨intrusive_of (by decide), by decide⟩, intrusive_of (by decide), by decide, 0, by decide, by decide⟩

def stepped : State := { stilled with root := { stilled.root with
  queue := [{ aRelease with origin := 2 }, { aStill with origin := 2, tick := 7000 }]
  stepKind := 2 } }
def steppedOn : State := { stepped with root := { stepped.root with stepReleased := true } }

theorem meets_CancelsRegionsAndQueries :
    (AsIntrusive queued hd ∧ (queued.root.queue.find? (fun a => a.kind == 1 && a.scope == 0 && a.tick == 5000)).any
      (fun a => a.origin != 2) = true) ∧
    (AsIntrusive stepped hd ∧ (stepped.root.queue.find? (fun a => a.kind == 2 && a.scope == 0 && a.tick == 6000)).any
      (fun a => a.origin == 2) = true ∧ mapsWf stepped ∧ stepped.root.stepReleased = false) ∧ (AsIntrusive steppedOn hd ∧ steppedOn.root.stepReleased = true) ∧
    (base.root.queue.find? (fun a => a.kind == 2 && a.scope == 0 && a.tick == 6000) = none) ∧
    (AsIntrusive zone hd ∧ mapsWf zone ∧ regionState zone = true ∧ inForce zone 1 = false ∧ queuedStill zone 1 = false ∧
      zone.root.stepKind = 0 ∧ holdsIdent zone = false ∧
      (zone.tiles.filter (fun p => counts p.2 && (p.2.still.region ||| ((1 : BitVec 16) <<< 1)).getLsbD 1)).length =
        rectCount { valid := true }) ∧
    (AsIntrusive ({ zone with lc := { zone.lc with code := 3 } } : State) hd ∧
      regionState ({ zone with lc := { zone.lc with code := 3 } } : State) = false) ∧
    (AsObserver seen hd ∧ seen.root.confirm = [] ∧ seen.root.wstate ≠ 3 ∧ seen.root.wstate ≠ 4) :=
  ⟨⟨intrusive_of (by decide), by decide⟩,
   ⟨intrusive_of (by decide), by decide, ⟨by decide, by decide, by decide⟩, by decide⟩, ⟨intrusive_of (by decide), by decide⟩,
   by decide, ⟨intrusive_of (by decide), ⟨by decide, by decide, by decide⟩, by decide⟩, ⟨intrusive_of (by decide), by decide⟩,
   observer_of (by decide), by decide⟩

theorem meets_ActionsLaunch :
    base.root.queue = [] ∧
    (queued.root.queue = [{ aStill with launchAt := 4000 }] ∧ queued.txn.tstate ≠ 3 ∧ queued.txn.pressed = false) ∧
    (({ base with root := { base.root with queue := [{ aStill with kind := 3, origin := 5 }] } } : State).root.queue =
      [{ aStill with kind := 3, origin := 5 }]) ∧
    (({ waferStill with root := { waferStill.root with queue := [aRelease] } } : State).root.queue = [aRelease] ∧
      waferStill.snap.take = none ∧ waferStill.recov.phase ≠ 5) ∧
    (let s : State := { base with root := { base.root with waiting := [aRelease] } }
     s.root.waiting = [aRelease] ∧ s.root.queue.length < 64) := by decide

/-- A powered tile that has captured a STILL, and a staged one. -/
def armedTile : Tile := { upTile with still := { pending := [aStill], state := 1 } }
def stagedTile : Tile := { upTile with txn := { tstate := 2 } }
def releasing : Tile := { upTile with still := { pending := [aRelease], mask := 1, state := 3, frz := true } }

theorem meets_StillsReachTheTile :
    (base.rill.inService = true ∧ 368639 < numTiles) ∧ (inScope armedTile 0 = true ∧ inScope armedTile 14 = false) ∧
    (inScope stagedTile 0 = true ∧ stagedTile.txn.tstate = 2) ∧ takeAction 1 upTile = none ∧
    (takeAction 1 armedTile = some aStill ∧ armedTile.power.pwrOk = true ∧ armedTile.still.mask = 0) ∧
    (takeAction 1 { armedTile with still := { armedTile.still with mask := 2 } } = some aStill) ∧
    (takeAction 1 { armedTile with power := { pwrOk := false } } = some aStill) ∧
    (let x := { armedTile with power := { pwrOk := true, noClock := true } }
     stubAction 1 x = some aStill ∧ x.power.pwrOk = true ∧ x.power.noClock = true ∧ mayAct x = false) ∧
    (mayAct armedTile = true ∧ mayAct { armedTile with power := { pwrOk := false } } = true) ∧
    (parityOk (2 ^ 45 % 2 ^ 48) false true = true ∧ parityOk (2 ^ 45 % 2 ^ 48) false false = false) ∧
    (parityOk ((3 * 2 ^ 45) % 2 ^ 48) false false = true ∧ parityOk ((2 ^ 45 + 14 * 2 ^ 41) % 2 ^ 48) false false = true) := by decide

def freezing : Tile := { upTile with still := { mask := 1, state := 2, frz := true } }
def lastStraggler : State := { tileIs 0 freezing base with root := { base.root with stragglers := [0], wstate := 4 } }

theorem meets_FreezesSettleAndRelease :
    (freezing.still.frz = true ∧ freezing.still.state = 2) ∧
    (({ freezing with still := { freezing.still with state := 7 } } : Tile).still.state = 7) ∧
    (lastStraggler.root.stragglers = [0] ∧ lastStraggler.root.stragScope = 0 ∧ lastStraggler.root.wstate = 4 ∧
      tileOf lastStraggler 0 = freezing) ∧ upTile.still.frz = false ∧
    (takeAction 2 releasing = some aRelease) ∧
    (takeAction 2 { releasing with still := { releasing.still with pending := [{ aRelease with scope := 1 }], mask := 3 } } =
      some { aRelease with scope := 1 }) ∧ takeAction 2 upTile = none ∧ 31 < numDies ∧ mayAct releasing = true ∧
    stubAction 2 { releasing with power := { pwrOk := true, noClock := true } } = some aRelease ∧
    (copyHolds { releasing with core := { dip := { caps := [(3, { holding := true })] } } } = true ∧ copyHolds releasing = false) ∧
    (let s : State := { base with snap := { base.snap with take := some { ownStill := true, t := 5000 } } }
     s.snap.take = some { ownStill := true, t := 5000 } ∧ s.rill.inService = true) := by decide

def stillTile : Tile := { tile0 with still := { tile0.still with state := 3, mask := 2, frz := true } }
def zoneCensus (x : Tile) : State := { zone with
  tiles := [(0, x)]
  root := { zone.root with confirm := [{ act := { aStill with scope := 1 } }] } }
def waferRepeat : State := { base with root := { base.root with confirm := [{ act := aStill, repeatAt := some 7000 }], wstate := 2 } }

theorem wafer_not_still (s : State) (h : ((tileOf s 0).power.answers && stillOk (tileOf s 0)) = false) : notStill s 0 ≠ [] := by
  have m : 0 ∈ notStill s 0 := by
    unfold notStill scopeTiles
    rw [if_pos rfl, List.mem_filter, h]
    exact ⟨by unfold allTiles; rw [List.mem_range]; decide, rfl⟩
  exact List.ne_nil_of_mem m

theorem census_lives (s : State) (h : (tileOf s 0).power.answers = true) : censusDead s 0 = false := by
  have m : 0 ∈ allTiles := by unfold allTiles; rw [List.mem_range]; decide
  unfold censusDead scopeTiles
  rw [if_pos rfl, Bool.and_eq_false_iff, List.all_eq_false]
  exact .inr ⟨0, m, by rw [h]; decide⟩

theorem meets_StillCensuses :
    base.root.confirm = [] ∧
    (mapsWf (zoneCensus stillTile) ∧ (zoneCensus stillTile).root.stepKind = 0 ∧ (zoneCensus stillTile).alarm.running = none ∧
      (zoneCensus stillTile).plans.trace = none ∧ notStill (zoneCensus stillTile) 1 = []) ∧
    (mapsWf (zoneCensus tile0) ∧ notStill (zoneCensus tile0) 1 ≠ [] ∧ censusDead (zoneCensus tile0) 1 = false ∧ waferStrag (zoneCensus tile0) = false) ∧
    censusDead (zoneCensus { tile0 with power := { answers := false } }) 1 = true ∧
    (waferRepeat.alarm.next = none ∧ notStill waferRepeat 0 ≠ [] ∧ censusDead waferRepeat 0 = false ∧
      ∀ k ∈ nameStragglers (notStill waferRepeat 0), (tileOf waferRepeat k).still.state ≠ 7) :=
  ⟨by decide, ⟨⟨by decide, by decide, by decide⟩, by decide⟩, ⟨⟨by decide, by decide, by decide⟩, by decide⟩, by decide, by decide,
   wafer_not_still _ (by decide), census_lives _ (by decide), fun k _ => by show (0 : Nat) ≠ 7; decide⟩

/-! Witnesses: alarm classes -/

/-- A class wire that has been high since hub time 1000. -/
def rose : Wire := { since := 1000, until_ := 1008 }
def bound (c : Nat) (b : ClassBinding) : State := { base with
  alarm := { base.alarm with enabled := true, classes := [(c, b)], wires := [(1, rose), (6, rose), (9, rose), (10, rose)] } }
def stillBound : State := bound 9 { action := 1, limit := 1 }
def holdRuns : State := { base with alarm := { base.alarm with
  running := some { action := 1, cls := 9, scope := 0, tick := 900, accepted := 800, hold := 65535, declaredAt := some 950 } } }
def fullRelease : State := { holdRuns with root := { base.root with queue := List.replicate 64 aStill } }
def hostReleased : State := { holdRuns with root := { base.root with queue := [aRelease] } }

theorem meets_AlarmsActAndRearm :
    (base.alarm.enabled = false ∧ ({ stillBound with alarm := { stillBound.alarm with enabled := false } } : State).alarm.enabled = false) ∧
    (drivenClasses base = 0 ∧ drivenClasses stillBound = 0x642) ∧
    (stillBound.rill.inService = true ∧ stillBound.alarm.enabled = true ∧ (accepting stillBound 0x400).plans.trace = none ∧
      stillBound.recov.phase = 0 ∧ (∀ c, c < 16 → (0x400 : BitVec 16).getLsbD c = true → actionNow (accepting stillBound 0x400) c = 0)) ∧
    ((∀ c, c < 16 → (0x42 : BitVec 16).getLsbD c = true → actionNow (accepting stillBound 0x42) c = 0) ∧
      (0x42 : BitVec 16).getLsbD 1 = true) ∧
    ((0x200 &&& drivenClasses stillBound = 1 <<< 9) ∧ stillBound.boot.quiet = false ∧ stillBound.alarm.running = none ∧
      stillBound.time.markTick = none ∧
      waferHeld stillBound = false ∧ (∀ b ∈ stillBound.root.queue ++ stillBound.root.launched, b.kind ≠ 2) ∧
      actionNow (accepting stillBound (1 <<< 9)) 9 = 1) ∧
    (AsIntrusive stillBound hd ∧ mwf {} stillBound.alarm.classes = true) ∧
    (holdRuns.txn.pressed = false ∧ holdsStill holdRuns 0 = false ∧ holdRuns.alarm.running.isSome = true) ∧
    (releaseBarred { action := 1, cls := 9, scope := 0, tick := 900, accepted := 800, hold := 65535, declaredAt := some 950 }
      (elapse (950 + 65535000) hostReleased) = true) ∧
    (releaseBarred { action := 1, cls := 9, scope := 0, tick := 900, accepted := 800, hold := 65535, declaredAt := some 950 }
      (elapse (950 + 65535000) holdRuns) = false) ∧
    (releaseBarred { action := 1, cls := 9, scope := 0, tick := 900, accepted := 800, hold := 65535, declaredAt := some 950 }
      (elapse (950 + 65535000) fullRelease) = false ∧ 64 ≤ fullRelease.root.queue.length) ∧
    (∀ r, base.alarm.running = some r → r.declaredAt = none ∨ r.hold = 0 ∨ r.snapWait = true) :=
  ⟨by decide, by decide, by decide, by decide, by decide, ⟨intrusive_of (by decide), by decide⟩, by decide, by decide, by decide, by decide,
   by rintro r h; cases h⟩

/-! Witnesses: what a tile reports to its agent -/

/-- A tile whose ring takes a record at once, whose core is up and runs. -/
def eager : Tile := { upTile with eddy := { mask := 0xFF } }
def eagerUp : State := tileIs t57 eager base
def frozenRing : State := tileIs t57 { eager with eddy := { mask := 0xFF, freeze := true } } base
def fullQueue : State := tileIs t57 { eager with eddy := { mask := 0xFF, wq := 8, wqCycle := 500 } } base
def masked : State := tileIs t57 { eager with eddy := { mask := 0 } } base

theorem eager_ready (x : Tile) (h : x.eddy = { mask := 0xFF }) : EddyReady (tileIs t57 x base) t57 := by
  have e : (tileOf (tileIs t57 x base) t57).eddy = { mask := 0xFF } := h
  unfold EddyReady
  rw [e]
  exact ⟨rfl, rfl, rfl, rfl, rfl, rfl, rfl, (by decide : 0 < ringDepth base)⟩

def runningCore : Core := { cmd := { layer := 1, oper := 2, step := 3 }, cmdBusy := true, count := { cmdOpen := true, run := true, anyCmd := true, curStep := 3 } }
def busy3 : Tile := { eager with core := runningCore }
def between : Tile := { eager with core := { runningCore with cmdBusy := false, count := { runningCore.count with cmdOpen := false } } }
def busyIn (x : Tile) : State := tileIs t57 x base
/-- In a command step with its K-th command open. -/
def stepTile (k : Nat) : Tile := { busy3 with still := { stepping := true, stepK := k } }

theorem meets_EddiesAreRecorded :
    (t57 < numTiles ∧ EddyReady eagerUp t57) ∧
    (frozenRing.rill.inService = true ∧ (tileOf frozenRing t57).eddy.freeze = true ∧
      wqNow (tileOf frozenRing t57).eddy (now frozenRing / 2) < 8 ∧ (tileOf frozenRing t57).eddy.mask = 0xFF) ∧
    (8 ≤ wqNow (tileOf fullQueue t57).eddy (now fullQueue / 2) ∧ (tileOf fullQueue t57).eddy.mask = 0xFF) ∧
    (eddyClass 0x06 = some 0 ∧ eddyClass 0x0F = some 7 ∧ (tileOf masked t57).eddy.mask = 0) :=
  ⟨⟨by decide, eager_ready _ rfl⟩, by decide, by decide, by decide⟩

theorem meets_CommandsRun :
    coreUp upTile = true ∧ coreUp ({} : Tile) = false ∧
    (coreRuns (busyIn busy3) t57 = true ∧ NoBank (busyIn busy3) t57 ∧ (tileOf (busyIn busy3) t57).core.count.anyCmd = true) ∧
    (coreRuns (busyIn eager) t57 = true ∧ (tileOf (busyIn eager) t57).core.count.anyCmd = false) ∧
    coreRuns (busyIn ({} : Tile)) t57 = false ∧
    (coreRuns (busyIn between) t57 = true ∧ between.core.count.cmdOpen = false ∧ between.core.count.dplan = [] ∧
      3 ≤ between.core.count.curStep ∧ between.core.count.curStep < 4 ∧ between.core.count.folded = true) ∧
    (busy3.core.count.cmdOpen = true ∧ EddyReady (busyIn busy3) t57 ∧ busy3.still.stepping = false) ∧
    (coreRuns (busyIn (stepTile 2)) t57 = true ∧ (stepTile 2).still.stepK ≠ 0 ∧ min 255 ((stepTile 2).still.stepRun + 1) < 2) ∧
    (coreRuns (busyIn (stepTile 1)) t57 = true ∧ EddyReady (busyIn (stepTile 1)) t57 ∧
      1 ≤ min 255 ((stepTile 1).still.stepRun + 1) ∧ (stepTile 1).still.mask = 0) :=
  ⟨by decide, by decide, by unfold NoBank; decide, by decide, by decide, by decide,
   ⟨by decide, eager_ready _ rfl, by decide⟩, by decide, by decide, eager_ready _ rfl, by decide⟩

def snooping (q : List SnoopLine) (d : List Desc) : Tile := { eager with core := { dip := { waitq := q, descs := d } } }

theorem meets_WritesMatchDescriptors :
    coreRuns (busyIn ({} : Tile)) t57 = false ∧
    (coreRuns (busyIn (snooping [] [])) t57 = true ∧ NoBank (busyIn (snooping [] [])) t57 ∧ (snooping [] []).core.dip.waitq.length < 16 ∧
      descOf (snooping [] []).core 4 = none) ∧
    ((descOf (snooping [] [{ tag := 4, tensor := 9, lines := 2 }]).core 4).isSome = true ∧
      ∀ q ∈ (snooping [] [{ tag := 4, tensor := 9, lines := 2 }]).core.dip.descs, q.matched < q.lines) ∧
    ((snooping [{ tag := 4 }] []).core.dip.waitq = [{ tag := 4 }] ∧ (255 : Nat) ≠ 0) := by
  unfold NoBank; decide +kernel

/-- A dip slot whose accumulation of step 3 is open while a command of step 4 runs. -/
def accTile : Tile := { eager with core := {
  count := { anyCmd := true, curStep := 4 }, cmd := { step := 4 }
  dip := { maxStep := 4, slots := [(0, { cur := some { valid := true, step := 3 }, older := some { valid := true, step := 2 } })] } } }
def accOpen : Tile := { accTile with core := { accTile.core with dip := { accTile.core.dip with descs := [{ tag := 4, step := 3 }] } } }

theorem meets_AccumulationsAndFramesClose_dips :
    (accOf false (dipSlotOf (busyIn accTile) t57 0) = some { valid := true, step := 3 } ∧
      accOf true (dipSlotOf (busyIn accTile) t57 0) = some { valid := true, step := 2 } ∧
      coreUp accTile = true ∧ stepDone accTile.core 3 = true ∧ stepDone accTile.core 2 = true ∧ (dipCfg accTile.core 0).foldSel = 0) ∧
    (stepDone accOpen.core 3 = false ∧ stepDone accOpen.core 2 = true ∧ stepDone accTile.core 4 = false) := by decide

theorem meets_ErrorsAndWatchdogs :
    coreUp ({} : Tile) = false ∧
    (coreUp eager = true ∧ NoBank eagerUp t57 ∧ EddyReady eagerUp t57 ∧ eagerUp.alarm.enabled = false) ∧
    (({ eagerUp with alarm := { eagerUp.alarm with enabled := true } } : State).alarm.enabled = true) ∧
    (coreRuns eagerUp t57 = true ∧ (0x8000000000000000 : BitVec 64).getLsbD 63 = true ∧ (mget 0 eager.hang.wait 3).getLsbD 63 = false) ∧
    (hangCounts { busy3 with hang := { en := true } } = true ∧ hangCounts busy3 = false) ∧
    (eager.power.ready = true ∧ eager.power.thr = false ∧ eager.power.cwdtHeld = false) :=
  ⟨by decide, ⟨by decide, by unfold NoBank; decide, eager_ready _ rfl, by decide⟩, by decide, by decide, by decide, by decide⟩

/-- Capture slot 0 of the active bank: EN, two frames, tensor 9. -/
def capTile (c : CapSlot) : Tile := { eager with
  txn := { ltnValid := true }
  core := {
    cmd := { step := 4 }
    bank0 := [(41, 0x0000000902000001)]
    dip := { maxStep := 4, caps := [(0, c)] } } }
def capOpen : State := busyIn (capTile { open_ := some { step := 3 }, older := some { step := 2 } })
def capHold : State := busyIn (capTile { holding := true })
/-- A still copy with its frame open; another slot of the tile holds too. -/
def capBoth : State := busyIn { capTile { holding := true, open_ := some { step := 3 } } with
  core := { (capTile {}).core with dip := { caps := [(0, { holding := true, open_ := some { step := 3 } }), (3, { holding := true })] } } }

theorem meets_AccumulationsAndFramesClose_frames :
    (frameOf false (capOf capOpen t57 0) = some { step := 3 } ∧ frameOf true (capOf capOpen t57 0) = some { step := 2 } ∧ ltnOf capOpen t57 = some 0 ∧ coreUp (tileOf capOpen t57) = true ∧
      (tileOf capOpen t57).core.dip.capq = [] ∧ (capCfg (tileOf capOpen t57).core 0).still = false ∧
      frameDone (tileOf capOpen t57).core (capCfg (tileOf capOpen t57).core 0) { step := 3 } = true ∧
      1 ≤ (capCfg (tileOf capOpen t57).core 0).frames) ∧
    (capOf capOpen t57 0).holding = false ∧ frameDone (tileOf capOpen t57).core (capCfg (tileOf capOpen t57).core 0) { step := 4 } = false ∧
    ((capOf capBoth t57 0).holding = true ∧ (capOf capBoth t57 3).holding = true ∧ (capOf capBoth t57 0).open_ = some { step := 3 } ∧
      (capOf capBoth t57 0).older = none ∧ ltnOf capBoth t57 = some 0) ∧
    ((capOf capHold t57 0).holding = true ∧ (capOf capHold t57 0).open_ = none ∧ (tileOf capHold t57).core.dip.capq = [] ∧
      (tileOf capHold t57).still.mask = 0 ∧ (tileOf capHold t57).still.heldRel = [] ∧ mwf {} (tileOf capHold t57).core.dip.caps = true) ∧
    (∀ m, m ≠ 0 → (capOf capHold t57 m).holding = false) := by
  refine ⟨by decide, by decide, by decide, by decide, by decide, fun m h => ?_⟩
  have e : capOf capHold t57 m = if 0 = m then { holding := true } else {} := by
    by_cases z : 0 = m
    · subst z; decide
    · rw [if_neg z]; show mget ({} : CapSlot) [(0, _)] m = {}
      cases m with
      | zero => exact absurd rfl z
      | succ n => rfl
  rw [e, if_neg (fun z => h z.symm)]

/-! Witnesses: debug transactions -/

def regItem : Item := { kind := 1, addr := 0x80, data := [0] }
def sramItem : Item := { kind := 2, addr := 0, data := [7] }
def anEntry (i : Item) : TxnEntry := { set := oneTile, items := [i] }
def withHost (x : Txn) : State := { stilled with txn := { stilled.txn with host := some x, tstate := 1 } }
def emptyTxn : Txn := { id := 3, owner := 7 }
def filled : Txn := { emptyTxn with entries := [anEntry sramItem] }
def moved : State := { withHost filled with mapEpoch := 2 }

theorem meets_TransactionsOpenAndCommit :
    (AsIntrusive base hd ∧ base.txn.host = none ∧ base.txn.active = none ∧ base.txn.tstate ≠ 6) ∧
    (AsIntrusive (withHost emptyTxn) hd ∧ (withHost emptyTxn).txn.host ≠ none ∧ (withHost emptyTxn).txn.host = some emptyTxn ∧
      emptyTxn.committed = false) ∧
    (entryBad (anEntry sramItem) = false ∧ (anEntry sramItem).isSet = true ∧ itemBad (anEntry sramItem).cchk sramItem = false ∧
      sramItem.kind < 5 ∧ bufferBytes [anEntry sramItem] ≤ 4194304 ∧ overFull (withHost emptyTxn) [anEntry sramItem] = false) ∧
    AsObserver seen hd ∧
    (stageBusy (withHost emptyTxn) = false ∧ recBusy (withHost emptyTxn) = false ∧ snapRuns (withHost emptyTxn) = false ∧
      (withHost emptyTxn).snap.restoring = false) ∧
    (AsIntrusive (withHost filled) hd ∧ filled.entries ≠ [] ∧ filled.mapEpoch = (withHost filled).mapEpoch ∧
      (∀ e ∈ filled.entries, aregExcluded e = false ∧ e.isSet = true ∧ uncovered (withHost filled) e = false)) ∧
    (AsIntrusive moved hd ∧ filled.mapEpoch ≠ moved.mapEpoch ∧ filled.entries.any entryPhys = true) :=
  ⟨⟨intrusive_of (by decide), by decide⟩, ⟨intrusive_of (by decide), by decide⟩, by decide, observer_of (by decide), by decide,
   ⟨intrusive_of (by decide), by decide⟩, intrusive_of (by decide), by decide⟩

def epochItem : Item := { kind := 6, addr := 0, data := [5] }
def holding3 (ts n : Nat) (is : List Item) (x : Tile) : Tile :=
  { x with txn := { x.txn with tstate := ts, id := n, words := (is.flatMap itemWords).length, staged := (is.flatMap itemWords).mapIdx (fun i w => (i, w)) } }
def staging (a : Txn) (ts nak ok : Nat) : State := { stilled with txn := { stilled.txn with
  active := some a
  host := some a
  tstate := ts
  nakCount := nak
  okCount := ok
  targets := 1
  firstReason := 5
  d := 200000 } }
def committed3 : Txn := { filled with committed := true }
/-- A set whose digests XOR to what the target has answered. -/
def agreed : State := { staging committed3 2 0 1 with txn := { (staging committed3 2 0 1).txn with
  digestXor := expectXor (staging committed3 2 0 1) committed3 } }

/-- A still tile that the centre stages a set of one SRAM item at, and the packets of that set. -/
def frozenOne : Tile := { upTile with still := { mask := 1, state := 3, frz := true } }
def stagingAt (x : Tile) : State := tileIs t57 x (staging committed3 2 0 0)
def wholePkt : StagePkt := { txn := 3, final := true, words := itemWords sramItem, deadlineLo := 200000 }
def firstPkt : StagePkt := { wholePkt with final := false, words := (itemWords sramItem).take 1 }

theorem meets_StubsStageAndRinse_mine :
    ((stagingAt frozenOne).rill.inService = true ∧ (stagingAt frozenOne).txn.active = some committed3 ∧ committed3.id = wholePkt.txn) ∧
    (sendsPacket (stagingAt frozenOne) t57 wholePkt = true ∧ stageReason frozenOne wholePkt = 0 ∧ holdsStaged frozenOne = false) ∧
    (sendsPacket (stagingAt frozenOne) t57 firstPkt = true ∧ stageReason frozenOne firstPkt = 0) ∧
    (holdsStaged (holding3 1 3 [] frozenOne) = true ∧ (holding3 1 3 [] frozenOne).txn.id = wholePkt.txn ∧
      sendsPacket (stagingAt (holding3 1 3 [] frozenOne)) t57 wholePkt = true) ∧
    (sendsPacket (stagingAt upTile) t57 wholePkt = true ∧ stageReason upTile wholePkt = 8) := by decide +kernel

theorem meets_StubsStageAndRinse :
    (sendsPacket oneUp t57 { txn := 3, final := true, words := itemWords epochItem } = true ∧
      sendsPacket oneUp t57 { txn := 3, offset := 512, words := [0] } = true) ∧ (oneUp.rill.inService = true ∧ (tileOf oneUp t57).power.answers = true ∧ (tileOf oneUp t57).txn.tstate = 0 ∧
      stageReason upTile { txn := 3, final := true, words := itemWords epochItem } = 0) ∧
    (stageReason upTile { txn := 3, offset := 512, words := [0] } ≠ 0) ∧
    (upTile.txn.ltnValid = false ∧ ({ lchk := true } : StagePkt).lchk = true) ∧
    (upTile.txn.ctxEpoch ≠ ({ cchk := true, ctxEpoch := 1 } : StagePkt).ctxEpoch) ∧
    (512 < ({ offset := 512, words := [0] } : StagePkt).offset + ({ offset := 512, words := [0] } : StagePkt).words.length) ∧
    ((holding3 1 3 [] upTile).txn.tstate = 1 ∧ (holding3 2 3 [epochItem] upTile).txn.tstate = 2 ∧
      (holding3 2 3 [epochItem] upTile).txn.id = 3) ∧ (holding3 3 3 [epochItem] upTile).txn.tstate = 3 ∧
    (holding3 3 3 [epochItem] upTile).txn.hold = false ∧
    ({ (holding3 3 3 [sramItem] upTile).txn with hold := true } : StubTxn).hold = true := by decide +kernel

theorem meets_ChecksPressOrRinse :
    (base.txn.active = none ∧ base.txn.tstate ≠ 2 ∧ base.txn.tstate ≠ 3 ∧ base.txn.tstate ≠ 6) ∧
    ((staging committed3 2 1 0).txn.active = some committed3 ∧ (staging committed3 2 1 0).txn.waiting = [] ∧
      committed3.centre = false ∧ committed3.purpose = 0 ∧ (staging committed3 2 1 0).txn.pressed = false ∧
      (staging committed3 2 1 0).txn.nakCount ≠ 0 ∧ (staging committed3 2 1 0).txn.firstReason ≠ 3 ∧
      committed3.entries.any entryPhys = true) ∧
    ((staging committed3 2 0 0).txn.nakCount = 0 ∧ (staging committed3 2 0 0).txn.okCount ≠ (staging committed3 2 0 0).txn.targets) ∧
    ((staging committed3 3 0 1).root.queue.any (fun a => a.kind == 3) = false ∧ (staging committed3 3 0 1).txn.tstate = 3) ∧
    ((staging committed3 6 0 1).txn.tstate = 6) := by decide

theorem meets_ChecksPressOrRinse_digests :
    ((staging committed3 2 0 1).txn.okCount = (staging committed3 2 0 1).txn.targets ∧
      (staging committed3 2 0 1).txn.digestXor ≠ expectXor (staging committed3 2 0 1) committed3) ∧
    (agreed.txn.digestXor = expectXor agreed committed3 ∧ committed3.tick = 0 ∧ agreed.root.queue.length < 64 ∧ agreed.root.queue.any (fun a => a.kind == 3) = false ∧
      firstTick agreed (now agreed + agreed.time.lstill) + 1000 ≤ agreed.txn.d) := by decide +kernel

def aPress : StillAction := { kind := 3, scope := 0, tick := 5000, launchAt := 4896, origin := 5, txn := 3 }
def pressed (x : Tile) : Tile := { x with still := { x.still with pending := [aPress] } }
def identItem : Item := { kind := 5, addr := 0, data := [0x8000000100000000] }
def ctxItem : Item := { kind := 4, addr := 0, data := [2] }
def routeItem : Item := { kind := 3, addr := 1, data := [7, 8] }
/-- A tile whose counter is set, which a census counts. -/
def setTile : Tile := { upTile with time := { unset := false } }
def pressing (ts : Nat) (x : Tile) : State := { tileIs t57 x stilled with
  sess := { stilled.sess with outstanding := [hd] }
  txn := { stilled.txn with
    active := some { committed3 with reply := some hd }
    host := some committed3
    tstate := ts
    pressed := true
    centreDone := true
    t := 5000 } }

theorem meets_PressesApplyAndConfirm :
    takeAction 3 upTile = none ∧ upTile.txn.tstate ≠ 4 ∧
    (takeAction 3 (pressed upTile) = some aPress ∧ (pressed upTile).txn.tstate ≠ 3 ∧ mayAct (pressed upTile) = true) ∧
    mayAct { pressed upTile with power := { pwrOk := true, ready := false } } = false ∧
    (takeAction 3 (pressed (holding3 3 3 [epochItem] upTile)) = some aPress ∧
      heldItems (holding3 3 3 [epochItem] upTile) = [epochItem] ∧ heldItems (holding3 3 3 [identItem] upTile) = [identItem] ∧
      heldItems (holding3 3 3 [ctxItem] upTile) = [ctxItem] ∧ heldItems (holding3 3 3 [sramItem] upTile) = [sramItem]) ∧
    (mayAct (pressed (holding3 3 3 [epochItem] upTile)) = true ∧ (pressed (holding3 3 3 [epochItem] upTile)).txn.void = false ∧
      heldItems (holding3 4 3 [routeItem] upTile) = [routeItem] ∧
      ({ (holding3 4 3 [routeItem] upTile).txn with void := true } : StubTxn).void = true) ∧
    (heldItems (holding3 4 3 [sramItem] upTile) = [sramItem] ∧ (holding3 4 3 [sramItem] upTile).txn.tstate = 4) ∧
    (base.txn.active = none ∧ base.txn.pressed = false) ∧
    ((pressing 4 upTile).txn.pressed = true ∧ (pressing 4 upTile).txn.centreDone = true ∧ hd ∈ (pressing 4 upTile).sess.outstanding ∧
      (∀ o ∈ (pressing 4 upTile).sess.outstanding, o.session = hd.session → o.tag = hd.tag → o = hd) ∧
      stillApplying (pressing 4 upTile) { committed3 with reply := some hd } = false) ∧
    (stillApplying (pressing 4 (holding3 4 3 [sramItem] setTile)) { committed3 with reply := some hd } = true ∧
      (pressing 4 upTile).txn.recount = false ∧ (pressing 4 upTile).txn.tstate = 4 ∧
      ({ (pressing 4 upTile).txn with recount := true } : TxnState).recount = true) := by decide

theorem meets_PressesApplyAndConfirm_holds : ∀ m, (capOf oneUp t57 m).holding = false := fun _ => rfl

/-! Witnesses: watch plans, fingerprints, symbols and frames -/

/-- The set of the tiles that hold an LTN, where only tile (5, 7) does. -/
def ltnTile : Tile := { upTile with txn := { ltnValid := true, ltn := 9 } }
def ltnUp : State := tileIs t57 ltnTile base
def planSet : TileSet := { oneTile with spares := false }
/-- A COMMAND comparator of class 9 that counts one event; a binding of class 8 to no action. -/
def aComparator : WatchEntry := .comparator planSet 0 0x0001000000009001 0 0 0
def noAction : WatchEntry := .binding 8 0 0 0 0
def watchPlan : List WatchEntry := [aComparator, noAction]
def watched : State := { ltnUp with plans := { ltnUp.plans with watch := some { id := 1, entries := watchPlan } } }

theorem meets_WatchPlansLoad :
    (AsObserver ltnUp hd ∧ mapsWf ltnUp ∧ ltnUp.txn.active = none ∧ ltnUp.txn.waiting = [] ∧ ltnUp.txn.tstate ≠ 6) ∧
    (watchPlan ≠ [] ∧ ∀ c ∈ watchChecks 0 watchPlan { hd with opcode := 0x40 } ltnUp, c.bad = false) ∧
    (AsObserver watched hd ∧ mapsWf watched ∧ watchOwned hd watched = false ∧ isIntrusive watched hd.session = true ∧
      watchBusy watched = false) ∧
    (ltnUp.plans.watch = none ∧ watchBusy ltnUp = false) ∧ (hd.opt = false ∧ 7 < 8) ∧
    (AsObserver seen hd ∧ isIntrusive seen hd.session = false) ∧ coreDark ltnTile = false :=
  ⟨⟨observer_of (by decide), ⟨by decide, by decide, by decide⟩, by decide⟩, by decide +kernel,
   ⟨observer_of (by decide), ⟨by decide, by decide, by decide⟩, by decide⟩, by decide, by decide,
   ⟨observer_of (by decide), by decide⟩, by decide⟩

def rec0 (e : Nat) (f : Word) (c : Bool) : FpRecord := { engine := e, group := 2, tensor := 9, step := 3, complete := c, elements := 64, fingerprint := f }
def printed (s : State) (c : Bool) : State := { s with census := { s.census with fpRing := [rec0 0 5 c] } }
def small : State := { seen with cfg := { seen.cfg with skS := true } }
def withTensor : State := { base with plans := { base.plans with build := 1, symbols := [{ tensor := 9, fmt := 1 }] } }
def aCapture : WatchEntry := .capture { frames := 2, tensor := 9, step1 := 100 }
def captures : State := { withTensor with plans := { withTensor.plans with watch := some { id := 1, entries := [aCapture], owner := some 7 } } }
def aSlice : Slice := { len := 64 }

theorem meets_FingerprintsAndSymbols :
    (AsObserver (printed seen true) hd ∧ (printed seen true).cfg.skS = false ∧
      ownFp (printed seen true) 2 9 3 = some (rec0 0 5 true)) ∧ (AsObserver small hd ∧ small.cfg.skS = true) ∧
    (fpOutcome (rec0 0 5 true) [rec0 1 5 true] = 0 ∧ fpOutcome (rec0 0 5 false) [rec0 1 6 true] = 4 ∧
      fpOutcome (rec0 0 5 true) [rec0 1 5 true, rec0 2 6 true] = 1 ∧ fpOutcome (rec0 0 5 true) [rec0 1 6 true] = 3) ∧
    (isIntrusive (printed base true) hd.session = true ∧ fpOutcome (rec0 0 5 true) [rec0 1 6 true, rec0 2 6 true] = 2) ∧
    (fpComplete (rec0 0 5 true) = true ∧ fpComplete (rec0 0 5 false) = false) ∧
    (AsObserver withTensor hd ∧ capturing withTensor = false ∧ withTensor.plans.symbols.length < 16384) ∧
    (AsObserver captures hd ∧ capturing captures = true) ∧
    (sliceBad aSlice = false ∧ (1 : Nat) = withTensor.plans.build ∧ withTensor.plans.symbols.any (fun q => q.tensor == 9) = true ∧
      withTensor.plans.symbols.any (fun q => q.tensor == 8) = false ∧ withTensor.plans.pmap.length < 209715) :=
  ⟨⟨observer_of (by decide), by decide⟩, ⟨observer_of (by decide), by decide⟩, by decide, by decide, by decide,
   ⟨observer_of (by decide), by decide⟩, ⟨observer_of (by decide), by decide⟩, by decide⟩

/-- Tile (0, 0) captures into slot 0 for entry 0, and its field holds one VALID frame. -/
def capState (fs : List Frame) : State := { captures with
  tiles := [(0, capTile {})]
  shims := [(0, { frames := fs })]
  root := { base.root with wstate := 3 } }
def framed : State := capState [{ sliceLen := 64, flags := 1 }]
def unframed : State := capState [{ sliceLen := 64 }]

theorem meets_FramesAreManaged :
    (AsObserver framed hd ∧ mapsWf framed ∧ watchOwned hd framed = false ∧ 0 < (activeCaps framed).length) ∧
    (drainFrames framed 0 none ≠ [] ∧ ((drainFrames framed 0 none).map (fun f => frameSize f.sliceLen)).sum ≤ 320) ∧
    (AsObserver unframed hd ∧ drainFrames unframed 0 none = []) ∧
    (framed.txn.host = none ∧ regionStands framed = false ∧ framed.root.wstate = 3) ∧
    (entrySlots (tileOf framed 0) 0 = [0] ∧ entrySlots (tileOf framed 1) 0 = [] ∧ (tileOf framed 0).power.answers = true ∧
      coreUp (tileOf framed 0) = true ∧ (capOf framed 0 0).open_ = none ∧ (capOf framed 0 0).older = none ∧ copyHolds (tileOf framed 0) = false ∧ (tileOf framed 0).core.dip.capq = [] ∧
      capFull (capCfg (tileOf framed 0).core 0) (capOf framed 0 0) = false) :=
  ⟨⟨observer_of (by decide), ⟨by decide, by decide, by decide⟩, by decide⟩, by decide, ⟨observer_of (by decide), by decide⟩, by decide,
   by decide +kernel⟩

/-! Witnesses: folds -/

theorem firstFrom_none {α : Type} (f : Nat → Option α) (h : ∀ a, f a = none) (k : Nat) : ∀ t, firstFrom f t k = none := by
  induction k with
  | zero => intro t; rfl
  | succ k ih => intro t; rw [firstFrom, h]; exact ih _

theorem firstOver_none (s : State) (is : List FoldInfo) (n : ∀ n, nodeOver s is n = none) : firstOver s is = none := by
  have a := firstFrom_none (fun t => (nodeOver s is (.router t)).map (fun p => (t, p))) (fun t => by rw [n]; rfl)
  have b := firstFrom_none (fun f => (nodeOver s is (.junction f)).map (fun p => (nodeTile (.junction f), p))) (fun t => by rw [n]; rfl)
  rw [firstOver, a, b]

theorem limit_of (s : State) (is : List FoldInfo) (ne : is ≠ []) (h : firstOver s is = none) :
    limitCheck s [] [is] = { st := .refused } := by
  have o : overEntry s [] 0 [is] = none := by
    rw [overEntry, if_neg ne, List.nil_append, h]; rfl
  rw [limitCheck, o]
/-- Up to eight small folds overload no link. -/
theorem over_none (s : State) (is : List FoldInfo) (hl : is.length ≤ 8)
    (hd : ∀ l, l.Sublist is → overDemand 2 125 l = false ∧ overDemand 8 500 l = false) : firstOver s is = none := by
  have sl : ∀ (p : FoldInfo → Bool), ¬ 8 < (is.filter p).length := fun p =>
    Nat.not_lt.2 (Nat.le_trans (List.filter_sublist.length_le) hl)
  refine firstOver_none s is (fun n => ?_)
  cases n <;> simp only [nodeOver, sl, (hd _ (List.filter_sublist)).1, (hd _ (List.filter_sublist)).2] <;> simp

def planFold : FoldEntry := { set := planSet, foldId := 4, src := 0x28, vlen := 1, interval := 1000 }
def oneFold : FoldInfo := ofEntry planFold

theorem oneFold_light : ∀ l, l.Sublist [oneFold] → overDemand 2 125 l = false ∧ overDemand 8 500 l = false := by
  intro l h
  cases h with
  | cons _ h => cases h; exact ⟨rfl, rfl⟩
  | cons_cons _ h => cases h; decide

theorem foldChecks_pass : ∀ c ∈ foldChecks [planFold] { hd with opcode := 0x42 } ltnUp, c.bad = false := by
  have b : foldEntryBad ltnUp planFold = false := by decide +kernel
  have p : pick [badEntry .malformed false 0] = none := by decide
  have f : ltnUp.plans.fold = none := by decide
  have w : ltnUp.plans.watch = none := by decide
  have k : centreFolds ltnUp ltnUp.plans.cnt = [] := by decide
  have l := limit_of ltnUp [oneFold] (by decide) (over_none _ _ (by decide) oneFold_light)
  rw [oneFold] at l
  intro c h
  simp only [foldChecks, List.length_cons, List.length_nil, List.range_succ, List.range_zero, List.nil_append, List.map_cons, List.map_nil,
    List.getD_cons_zero, b, p, f, w, k, optList, foldIdTaken, List.take_zero, List.any_nil, Bool.or_self,
    List.append_nil, Option.isSome_none, Bool.false_eq_true, if_false, l, List.cons_append, List.isEmpty_cons, List.mem_cons,
    List.not_mem_nil, or_false, Nat.reduceAdd] at h
  rcases h with rfl | rfl | rfl | rfl | rfl | rfl <;> rfl

/-- The fold plan is in force over the tiles (5, 7) and (5, 8); their values meet at the router of (5, 8). -/
def t58 : Nat := tileAt 5 8
def twoFold : FoldEntry := { planFold with set := { planSet with y1 := 8 } }
def twoInfo : FoldInfo := ofEntry twoFold
def folding : State := { ltnUp with
  tiles := [(t57, ltnTile), (t58, { ltnTile with txn := { ltnValid := true, ltn := 10 } })]
  plans := { ltnUp.plans with fold := some { id := 1, entries := [twoFold] } } }
def partial1 : FoldPartial := { count := 1, data := [3] }
def aSlot : FoldSlot := { node := .router t58, foldId := 4, expected := [0, 3], epoch := 6 }
def withSlot (x : FoldSlot) : State := { folding with folds := { folding.folds with slots := [x] } }
def halfSlot : FoldSlot := { aSlot with got := [(0, partial1)], firstAt := some 900 }
def centreSlot : FoldSlot := { node := .centre, foldId := 4, expected := [0], got := [(0, { count := 2, data := [5] })], firstAt := some 900 }

theorem meets_FoldPlansAndOrder :
    (AsObserver ltnUp hd ∧ (∀ c ∈ foldChecks [planFold] { hd with opcode := 0x42 } ltnUp, c.bad = false)) ∧
    ltnUp.plans.fold = none ∧ (({ foldId := 0xF8 } : FoldEntry).foldId = 0xF8 ∧ ({ vlen := 0 } : FoldEntry).vlen = 0) ∧
    ([(0, partial1), (3, partial1)].Perm [(3, partial1), (0, partial1)] ∧ ([(0, partial1), (3, partial1)].map (·.1)).Nodup) :=
  ⟨⟨observer_of (by decide), foldChecks_pass⟩, by decide, by decide, List.Perm.swap _ _ _, by decide⟩

theorem meets_FoldsTravelAndClose :
    (folding.rill.inService = true ∧ foldInfo folding twoInfo.id = some twoInfo) ∧
    (foldMember folding twoInfo 0 = false ∧ foldMember folding twoInfo t57 = true ∧ twoInfo.all = false ∧
      (optList folding.plans.fold (fun p => p.entries)).find? (fun q => q.foldId == twoInfo.id) = some twoFold) ∧
    (expectedOf folding twoInfo (.router t57) = [0] ∧ parentOf (.router t57) = some (.router t58, 3) ∧
      1 ∉ expectedOf folding twoInfo (.router t57) ∧ expectedOf folding twoInfo (.router t58) = [0, 3]) := by decide +kernel

theorem meets_FoldsTravelAndClose_slots :
    (findSlot (withSlot aSlot) (.router t58) twoInfo.id = some aSlot ∧ slotFull halfSlot = false) ∧
    (slotFull { halfSlot with got := halfSlot.got ++ [(3, partial1)] } = true ∧
      slotFull (nextEpochSlot 1000 { halfSlot with got := halfSlot.got ++ [(3, partial1)] }) = false ∧
      parentOf (.router t58) = some (.router (tileAt 5 9), 3)) ∧
    (7 = (aSlot.epoch + 1) % 65536 ∧ ∀ g ∈ aSlot.held, g.1 ≠ 0) ∧ (∃ g ∈ halfSlot.got, g.1 = 0) ∧
    (linkHeld (withSlot aSlot) (.router t58) 0 = false ∧
      linkHeld (withSlot { aSlot with held := [(0, partial1)] }) (.router t58) 0 = true) := by decide +kernel

theorem meets_FoldsTravelAndClose_closes :
    (foldInfo (withSlot halfSlot) twoInfo.id = some twoInfo ∧ findSlot folding (.router t58) 4 = none) ∧
    ((withSlot halfSlot).txn.pressed = false ∧ findSlot (withSlot halfSlot) halfSlot.node twoInfo.id = some halfSlot ∧
      halfSlot.node ≠ .centre ∧ slotFull halfSlot = false ∧ slotFull { halfSlot with got := halfSlot.held } = false ∧
      halfSlot.firstAt = some 900 ∧ aSlot.firstAt = none) ∧
    (foldInfo (withSlot centreSlot) twoInfo.id = some twoInfo ∧ findSlot (withSlot centreSlot) .centre twoInfo.id = some centreSlot ∧
      centreSlot.firstAt = some 900 ∧ slotFull centreSlot = true ∧ replicaOf (withSlot centreSlot) twoInfo.id = none ∧
      (∀ c ∈ (withSlot centreSlot).plans.conditions, c.foldId ≠ twoInfo.id)) := by decide +kernel

/-! Witnesses: counter plans, the light census, the energy ledger and pacing -/

def cntEntry : CntEntry := { set := planSet, keys := [0x8000000000010000], planned := [[100]] }
def aCntPlan : CntPlan := cntPlanOf 2 cntEntry { hd with opcode := 0x44 } ltnUp
/-- The one member's core is down, so that it cannot fetch. -/
def cntDown : State := tileIs t57 { txn := { ltnValid := true, ltn := 9 } } base

/-- The folds of a counter plan overload no link. -/
theorem cntFolds_light (s : State) : ∀ l, l.Sublist (cntFolds (cntPlanOf 2 cntEntry { hd with opcode := 0x44 } s)) →
    overDemand 2 125 l = false ∧ overDemand 8 500 l = false := by
  have e : cntFolds (cntPlanOf 2 cntEntry { hd with opcode := 0x44 } s) = cntFolds aCntPlan := rfl
  rw [e]
  have d : ∀ l ∈ (cntFolds aCntPlan).sublists, overDemand 2 125 l = false ∧ overDemand 8 500 l = false := by decide +kernel
  exact fun l h => d l (List.mem_sublists.2 h)

theorem cntChecks_pass (s : State) (b : cntEntryBad s cntEntry = false) (f : s.plans.fold = none) (w : s.plans.watch = none)
    (k : centreFolds s none = []) (p : s.plans.cnt = none) (q : s.plans.cntNext = none) (h : s.txn.host = none) :
    ∀ c ∈ cntChecks 2 [cntEntry] { hd with opcode := 0x44 } s, c.bad = false := by
  have l := limit_of s (cntFolds (cntPlanOf 2 cntEntry { hd with opcode := 0x44 } s)) (by simp [cntFolds])
    (over_none _ _ (by simp [cntFolds]) (cntFolds_light s))
  intro c hc
  simp only [cntChecks, List.headD_cons, List.isEmpty_cons, List.length_cons, List.length_nil, Nat.reduceAdd, Nat.lt_irrefl, decide_false,
    Bool.not_false, Bool.false_or, Bool.true_and, b, f, w, k, p, q, h, optList, List.append_nil,
    Bool.false_eq_true, if_false, l, Option.isSome_none, txnOpenNow, List.cons_append, List.nil_append, List.mem_cons, List.not_mem_nil, or_false] at hc
  rcases hc with rfl | rfl | rfl | rfl | rfl <;> rfl

def counting : State := { ltnUp with
  plans := { ltnUp.plans with cnt := some aCntPlan }
  census := { ltnUp.census with curStep := some (8, 500, true), closed := [7] } }

theorem meets_CountersAndStepsAnswer :
    (AsObserver ltnUp hd ∧ mapsWf ltnUp ∧ (∀ c ∈ cntChecks 2 [cntEntry] { hd with opcode := 0x44 } ltnUp, c.bad = false) ∧
      ltnUp.txn.active = none ∧ ltnUp.txn.waiting = [] ∧ ltnUp.txn.tstate ≠ 6 ∧
      (∀ k ∈ ltnMembers ltnUp aCntPlan.set, canFetch (tileOf ltnUp k) = true)) ∧
    (AsObserver cntDown hd ∧ mapsWf cntDown ∧ (∀ c ∈ cntChecks 2 [cntEntry] { hd with opcode := 0x44 } cntDown, c.bad = false) ∧
      ∃ k ∈ ltnMembers cntDown aCntPlan.set, canFetch (tileOf cntDown k) = false) ∧
    (AsObserver counting hd ∧ counting.plans.cnt = some aCntPlan ∧ 8 ∉ counting.folds.stepFolded ∧ stepClosed counting 8 = false ∧
      counting.census.curStep = some (8, 500, true) ∧ stepClosed counting 7 = true) ∧ ltnUp.plans.cnt = none :=
  ⟨⟨observer_of (by decide), ⟨by decide, by decide, by decide⟩,
    cntChecks_pass _ (by decide +kernel) (by decide) (by decide) (by decide) (by decide) (by decide) (by decide), by decide⟩,
   ⟨observer_of (by decide), ⟨by decide, by decide, by decide⟩,
    cntChecks_pass _ (by decide +kernel) (by decide) (by decide) (by decide) (by decide) (by decide) (by decide), t57, by decide +kernel⟩,
   ⟨observer_of (by decide), by decide⟩, by decide⟩

def censusOn : State := { oneUp with census := { oneUp.census with lcEn := true } }
def reading (cmd : Nat) : State := { base with census := { base.census with busy := some (cmd, 10, 0), pecEn := true } }

theorem meets_CensusAndPowerRun :
    (censusOn.census.lcEn = true ∧ censusOn.rill.inService = true ∧ censusOn.boot.romReason = 0 ∧ censusOn.txn.pressed = false ∧
      mapsWf censusOn ∧ censusOn.census.busy = none ∧ censusOn.census.queued = []) ∧ (∀ k, (tileOf censusOn k).plan.reload = false) ∧
    (base.census.lcEn = false ∧ base.census.busy = none) ∧
    ((reading 0x86).census.busy = some (0x86, 10, 0) ∧ (reading 0x86).census.queued = [] ∧ (reading 0x86).census.lastEin = none ∧
      (reading 0x86).census.pecEn = true ∧ (reading 0x86).txn.pressed = false ∧
      (reading 0x88).census.busy = some (0x88, 10, 0) ∧ (reading 0x79).census.busy = some (0x79, 10, 0)) ∧
    (base.rill.inService = true ∧ 31 < numDies ∧ base.snap.drains = [] ∧ drainsAlways base = false) := by
  refine ⟨⟨by decide, by decide, by decide, by decide, ⟨by decide, by decide, by decide⟩, by decide⟩, fun k => ?_, by decide, by decide,
    by decide⟩
  by_cases e : t57 = k
  · subst e; decide
  · show (mget ({} : Tile) [(t57, upTile)] k).plan.reload = false
    unfold mget
    rw [if_neg e]
    rfl

/-! Witnesses: eddy rings, traces and graphs -/

/-- A ring frozen for a read, whose stub has lost three events. -/
def frozenTile : Tile := { eager with eddy := { mask := 0xFF, freeze := true, freezeAt := 900, held := 2 } }
def lossy : Tile := { eager with eddy := { mask := 0xFF, lostQ := 3 } }
/-- The hub address of tile (5, 7) by coordinate. -/
def physAddr : Nat := 0x02080A0700000000
def aTrace (policy : Nat) : TraceEntry := { set := planSet, policy := policy, w := if policy = 2 then 64 else 0, drainMax := 0 }
def traced (policy : Nat) (h : List Eddy) (owner : Nat) : State := { ltnUp with
  plans := { ltnUp.plans with trace := some { id := 3, cfg := { aTrace policy with dest := { limit := 16 } }, owner := some owner } }
  shims := [(0, { partitions := [{ tile := t57, cap := 4, held := h }] })] }

theorem meets_RingsAndTracePlans :
    (AsObserver eagerUp hd ∧ tileAddrBad physAddr = false ∧ addrTile eagerUp physAddr = some t57 ∧
      (tileOf eagerUp t57).power.answers = true ∧ (tileOf eagerUp t57).eddy.head < ringDepth eagerUp) ∧
    (frozenTile.eddy.freeze = true ∧ eager.eddy.freeze = false ∧ eager.eddy.lostQ = 0) ∧
    (lossy.eddy.lostQ ≠ 0 ∧ lossy.eddy.freeze = false ∧ lossy.eddy.wqCycle + (lossy.eddy.wq - 7) ≤ now base / 2) ∧
    (AsObserver ltnUp hd ∧ ltnUp.txn.active = none ∧ ltnUp.txn.waiting = [] ∧ ltnUp.txn.tstate ≠ 6 ∧
      (∀ c ∈ traceChecks [aTrace 0] { hd with opcode := 0x71 } ltnUp, c.bad = false)) ∧
    (AsObserver (traced 0 [] 7) hd ∧ (traced 0 [] 7).plans.trace ≠ none ∧ traceOwned hd (traced 0 [] 7) = false ∧
      traceBusy (traced 0 [] 7) = false) ∧ (ltnUp.plans.trace = none ∧ traceBusy ltnUp = false) :=
  ⟨⟨observer_of (by decide), by decide⟩, by decide, by decide, ⟨observer_of (by decide), by decide +kernel⟩,
   ⟨observer_of (by decide), by decide⟩, by decide⟩

theorem meets_RingsAndTracePlans_acts :
    (AsObserver (traced 2 [] 7) hd ∧ mapsWf (traced 2 [] 7) ∧ (traced 2 [] 7).plans.trace.map (fun p => (p.owner, p.cfg.policy)) = some (some 7, 2)) ∧
    (traced 0 [] 7).plans.trace.map (fun p => (p.owner, p.cfg.policy)) = some (some 7, 0) ∧
    (AsObserver (traced 2 [] 8) hd ∧ (traced 2 [] 8).plans.trace.map (·.owner) = some (some 8)) ∧
    (AsObserver (traced 0 [{ code := 1 }] 7) hd ∧ ((allPartitions (traced 0 [{ code := 1 }] 7)).map (·.held.length)).sum = 1 ∧
      (traced 0 [{ code := 1 }] 7).plans.trace.map (·.cfg.dest.limit) = some 16 ∧
      0 < (allPartitions (traced 0 [{ code := 1 }] 7)).length ∧
      (((allPartitions (traced 0 [{ code := 1 }] 7)).drop 0).take 1).all (fun q => q.held.isEmpty) = false) ∧
    ((((allPartitions (traced 0 [] 7)).drop 0).take 1).all (fun q => q.held.isEmpty) = true ∧
      isIntrusive (traced 2 [] 7) hd.session = true) :=
  ⟨⟨observer_of (by decide), ⟨by decide, by decide, by decide⟩, by decide⟩, by decide, ⟨observer_of (by decide), by decide⟩,
   ⟨observer_of (by decide), by decide⟩, by decide⟩

/-- A streaming stub of a STILL_ON_FULL plan with k records unsent. -/
def streaming (k : Nat) : Tile := { eager with eddy := {
  mask := 0xFF
  stream := true
  policy := 3
  fullClass := 9
  streamQ := List.replicate k { code := 1 } } }
def partOf57 (n : Nat) : Partition := { tile := t57, cap := 1, held := List.replicate n { code := 1 } }
def storing (policy n : Nat) : State := { traced policy [] 7 with shims := [(0, { partitions := [{ tile := 0, cap := 1 }, partOf57 n] })] }
def drained (q : List StillAction) : State := { traced 3 [] 7 with
  plans := { ltnUp.plans with trace := some { id := 3, cfg := aTrace 3, drainFrom := some 900 } }
  root := { base.root with launched := [aStill], queue := q } }

theorem meets_StreamsAndGraphs :
    ((streaming 16).eddy.stream = true ∧ withholds (busyIn (streaming 16)) (fieldOf t57) = false ∧
      (streaming 16).eddy.streamGap = 0 ∧ 16 ≤ (streaming 16).eddy.streamQ.length) ∧ (streaming 15).eddy.streamQ.length < 16 ∧
    withholds ({ traced 3 [] 7 with
      alarm := { base.alarm with classes := [((aTrace 3).fullClass, { action := 1, fromPlan := true, hold := 0, limit := 0 })] }
      shims := [(fieldOf t57, { creditHeld := true })] } : State) (fieldOf t57) = true ∧
    ((streaming 48).eddy.policy = 3 ∧ (streaming 48).eddy.fullDriven = false ∧
      fullMark (busyIn (streaming 48)) ≤ (streaming 48).eddy.streamQ.length) ∧
    ((storing 0 0).rill.inService = true ∧ mapsWf (storing 0 0) ∧ (storing 0 0).plans.trace.map (·.cfg.policy) = some 0 ∧
      (shimOf (storing 0 0) (fieldOf t57)).partitions = [{ tile := 0, cap := 1 }] ++ partOf57 0 :: [] ∧
      (partOf57 0).held.length < (partOf57 0).cap ∧ (partOf57 1).cap ≤ (partOf57 1).held.length ∧ fieldOf t57 = 0 ∧
      (storing 1 1).plans.trace.map (·.cfg.policy) = some 1) ∧
    ((drained []).plans.trace.map (·.drainFrom) = some (some 900) ∧ mapsWf (drained []) ∧
      (allPartitions (drained [])).all (fun q => q.held.isEmpty) = true ∧ hostRelease (drained []) = false ∧ (drained []).root.queue.length < 64 ∧
      inForce (drained []) 0 = true ∧ hostRelease (drained [aRelease]) = true) ∧ base.plans.trace = none ∧
    (AsObserver stilled hd ∧ stilled.root.wstate = 3) ∧ (AsObserver seen hd ∧ seen.root.wstate ≠ 3 ∧ seen.root.wstate ≠ 4) :=
  ⟨by decide, by decide, by decide, by decide, ⟨by decide, ⟨by decide, by decide, by decide⟩, by decide⟩,
   ⟨by decide, ⟨by decide, by decide, by decide⟩, by decide⟩, by decide, ⟨observer_of (by decide), by decide⟩, observer_of (by decide),
   by decide⟩

/-! Witnesses: snapshots -/

def aTake : SnapTake := { id := 5, pond := 0, ownStill := true, t := 900 }
def takingWith (k : SnapTake) : State := { stilled with snap := { stilled.snap with take := some k, ponds := [(0, { snapId := 5, state := 1 })] } }
def going : SnapTake := { aTake with goAt := some 950 }
/-- The copy runs and tile (5, 7) is still held awake for it. -/
def copyTile (v : Bool) : Tile := { upTile with power := { pwrOk := true, holdSnap := true }, still := { vpend := v } }
def copyingTile (v : Bool) (k : SnapTake) (shims : Map Shim) : State := { takingWith k with tiles := [(t57, copyTile v)], shims := shims }
def doneBut (f : Nat) : Map Shim := ((List.range 48).filter (fun i => i != f)).map (fun i => (i, { done := true }))
def planned (w : Nat) : State := { base with
  root := { base.root with wstate := w }
  plans := { base.plans with snap := some { p0 := 5000, period := 1000, k := 2, baseId := 9 } } }

theorem meets_SnapshotsAreTaken :
    (AsIntrusive base hd ∧ mapsWf base ∧ (∀ c ∈ takeChecks 5 0 hd base, c.bad = false) ∧ declared base 0 = false) ∧
    (AsIntrusive stilled hd ∧ mapsWf stilled ∧ (∀ c ∈ takeChecks 5 0 hd stilled, c.bad = false) ∧ declared stilled 0 = true) ∧
    (base.snap.take = none ∧ cutDies base = [] ∧ base.plans.snap = none) ∧
    ((planned 0).plans.snap = some { p0 := 5000, period := 1000, k := 2, baseId := 9 } ∧ (planned 0).boot.romReason = 0 ∧
      pointBarred (elapse (5000 + duePoint (planned 0) { p0 := 5000, period := 1000, k := 2, baseId := 9 } * 1000 * 1000) (planned 0)) = false ∧
      pointBarred (elapse (5000 + duePoint (planned 3) { p0 := 5000, period := 1000, k := 2, baseId := 9 } * 1000 * 1000) (planned 3)) = true) ∧
    ((takingWith aTake).snap.take = some aTake ∧ aTake.sealing = false ∧ aTake.goAt = none ∧ (takingWith aTake).root.wstate = 3 ∧
      (takingWith aTake).cfg.skS = false ∧ aTake.ownStill = true ∧ aTake.rerun = false) ∧
    ({ takingWith aTake with root := { base.root with wstate := 2 } } : State).root.wstate ≠ 3 :=
  ⟨⟨intrusive_of (by decide), ⟨by decide, by decide, by decide⟩, by decide⟩, ⟨intrusive_of (by decide), ⟨by decide, by decide, by decide⟩, by decide⟩,
   by decide, by decide, by decide, by decide⟩

theorem copying_vpend (v : Bool) (k : SnapTake) (m : Map Shim) (u : Nat) (h : v = false) :
    (tileOf (copyingTile v k m) u).still.vpend = false ∧ copyHolds (tileOf (copyingTile v k m) u) = false := by
  subst h
  by_cases e : t57 = u
  · subst e; exact ⟨rfl, rfl⟩
  · show (mget ({} : Tile) [(t57, copyTile false)] u).still.vpend = false ∧ copyHolds (mget ({} : Tile) [(t57, copyTile false)] u) = false
    unfold mget; rw [if_neg e]; exact ⟨rfl, rfl⟩

theorem meets_SnapshotsAreTaken_copies :
    ((copyingTile true going []).snap.take = some going ∧ going.goAt.isSome = true ∧ (tileOf (copyingTile true going []) t57).power.holdSnap = true ∧
      copyHolds (tileOf (copyingTile true going []) t57) = false ∧ (tileOf (copyingTile true going []) t57).still.vpend = true ∧
      (tileOf (copyingTile false going []) t57).still.vpend = false ∧ 368639 < numTiles) ∧
    ((∃ u ∈ uncopied (copyingTile true going []) 0, (tileOf (copyingTile true going []) u).still.vpend = true) ∧
      (shimOf (copyingTile true going []) 0).done = false) ∧
    (∀ u ∈ uncopied (copyingTile false going []) 0, (tileOf (copyingTile false going []) u).still.vpend = false ∧
      copyHolds (tileOf (copyingTile false going []) u) = false) ∧
    (∀ g, g < numFields → g ≠ 47 → (shimOf (copyingTile false { going with autoRel := true } (doneBut 47)) g).done = true) ∧
    (going.kind = 0 ∧ (copyingTile false { going with autoRel := true } (doneBut 47)).root.queue.length < 64) ∧
    (({ aTake with kind := 1 } : SnapTake).kind = 1 ∧ (takingWith { aTake with kind := 1 }).root.queue.length < 64 ∧
      (takingWith { aTake with kind := 1 }).root.queue.any (fun a => a.kind == 1 && a.origin == 3) = false) :=
  ⟨by decide, by decide +kernel, fun u _ => copying_vpend false _ _ u rfl, by decide +kernel, by decide, by decide⟩

/-- Shim 0 in epoch 2; pond 0 holds a VALID snapshot of epoch e. -/
def cow (e : Nat) (q : Shim) : State := { base with
  shims := [(0, q)]
  snap := { base.snap with ponds := [(0, { snapId := 5, state := 3, epoch := e })] } }
def openShim : Shim := { epoch := some 2 }
def aSlotOf (g : Nat) : CowSlot := { granule := g, epoch := 2 }
def noReserve (s : State) : State := { s with cfg := { s.cfg with reserveMib := 0 } }
def acking : State := { takingWith going with shims := [(0, { cowSentAt := 950 })] }

theorem meets_SlotsAndLogsAreKept_slots :
    ((shimOf (cow 2 openShim) 1).epoch = none ∧ (7 + 1) * 65536 ≤ tierBytes base) ∧
    ((7 + 1) * 65536 ≤ tierBytes (cow 0 openShim) ∧ (shimOf (cow 0 openShim) 0).epoch = some 2 ∧ 7 ∉ (shimOf (cow 0 openShim) 0).written ∧
      needing (cow 0 openShim) 0 7 = []) ∧
    (needing (cow 2 openShim) 0 7 = [0] ∧ 0 < slotFree (cow 2 openShim) 0) ∧
    (needing (noReserve (cow 2 openShim)) 0 7 = [0] ∧ slotFree (noReserve (cow 2 openShim)) 0 = 0 ∧
      (noReserve (cow 2 openShim)).snap.take = none ∧ (noReserve (cow 2 openShim)).alarm.enabled = false) ∧
    (aSlotOf 7 ∈ (shimOf (cow 2 { openShim with slots := [aSlotOf 7] }) 0).slots ∧
      (shimOf (cow 2 { openShim with slots := [aSlotOf 7] }) 0).epoch = some (aSlotOf 7).epoch ∧
      onSlot (cow 2 { openShim with slots := [aSlotOf 7] }) 0 7 = [0] ∧ (pondOf (cow 2 { openShim with slots := [aSlotOf 7] }) 0).state = 3) ∧
    (awaitsAck base 0 = false ∧ awaitsAck acking 0 = true ∧ acking.snap.take = some going) := by decide

/-- A CUT die that logs one flow, from die 3 of engine 4. -/
def logging : Edge := { cut := true, peers := [(0, (5, 3))], openFlows := [0], state := 1, snapId := 5 }
def withDie (k : SnapTake) (e : Edge) : State := { takingWith k with edges := [(31, e)] }
def logOf (n : Nat) : Edge := { logging with log := List.replicate n 0 }

theorem meets_SlotsAndLogsAreKept_logs :
    (flowFrom ({} : Edge) 4 3 = none ∧ flowFrom logging 4 3 = some 0 ∧ 0 ∈ logging.openFlows ∧ logging.state = 1 ∧
      logging.log.length + (logRecord 4 3 [1]).length ≤ 262144) ∧
    ((withDie aTake (logOf 262144)).snap.take = some aTake ∧ mapsWf (withDie aTake logging)) ∧
    ((withDie aTake logging).snap.restoreReply = none ∧ ({ logging with state := 5 } : Edge).state = 5) ∧
    ((edgeOf (withDie aTake { logging with state := 2 }) 31).snapId = aTake.id ∧ aTake.sealing = false) ∧
    ({ aTake with sealing := true } : SnapTake).sealing = true ∧
    (({ egFreeze := true } : Edge).egFreeze = true ∧ ({} : Edge).egFreeze = false ∧ ({ egFreeze := true, egFrozen := true } : Edge).egFrozen = true) ∧
    (AsIntrusive base hd ∧ 31 < numDies ∧ (∀ p ∈ [(4, 31)], p.2 < numDies) ∧ base.plans.snap = none ∧ base.snap.take = none) ∧
    (AsIntrusive (takingWith aTake) hd ∧ (takingWith aTake).plans.snap = none ∧ (takingWith aTake).snap.take.isSome = true) :=
  ⟨by decide, ⟨rfl, by decide, by decide, by decide⟩, by decide, by decide, by decide, by decide, ⟨intrusive_of (by decide), by decide⟩,
   intrusive_of (by decide), by decide⟩

theorem meets_SlotsAndLogsAreKept_full (n : Nat) (h : 262128 < n) : 262144 < (logOf n).log.length + (logRecord 4 3 [1]).length := by
  have a : (logOf n).log.length = n := List.length_replicate
  have b : (logRecord 4 3 [1]).length = 16 := by decide
  omega

theorem meets_SlotsAndLogsAreKept_seals (d : Nat) (h : d ≠ 31) : (edgeOf (withDie aTake { logging with state := 2 }) d).cut = false := by
  show (mget ({} : Edge) [(31, _)] d).cut = false
  unfold mget; rw [if_neg (fun e => h e.symm)]; rfl

/-- A VALID snapshot of one image with state, whose digest holds; and one whose digest does not. -/
def rawImage : Image := { snapId := 5, ltnValid := true, ltn := 9 }
def anImage : Image := { rawImage with digest := imageDigest t57 rawImage }
def snapped (i : Image) : State := { tileIs t57 ltnTile stilled with
  snap := { stilled.snap with ponds := [(0, { snapId := 5, state := 3, images := [(t57, i)] })] } }

theorem images_ok (d : Word) : imagesOk (snapped { rawImage with digest := d }) 0 = (d == imageDigest t57 rawImage) := by
  show ((!false && (d == imageDigest t57 { rawImage with digest := d })) && true) = _
  rw [Bool.and_true, Bool.not_false, Bool.true_and]
  rfl

theorem meets_SnapshotsRestore_digests :
    imagesOk (snapped anImage) 0 = true ∧ imagesOk (snapped { rawImage with digest := imageDigest t57 rawImage + 1 }) 0 = false := by
  have n : ∀ x : Word, (x + 1 == x) = false := by
    intro x
    rw [beq_eq_false_iff_ne]
    intro e
    have := congrArg (· - x) e
    simp at this
  exact ⟨(images_ok _).trans (beq_self_eq_true _), (images_ok _).trans (n _)⟩

theorem meets_SnapshotsRestore_unreadable : imagesOk (snapped { rawImage with bad := true }) 0 = false := rfl

theorem meets_SnapshotsRestore :
    (AsIntrusive (snapped rawImage) hd ∧ mapsWf (snapped rawImage) ∧ (∀ c ∈ restoreChecks 5 true (snapped rawImage), c.bad = false) ∧
      validPond (snapped rawImage) 5 = some 0 ∧ (snapped rawImage).snap.draining = false ∧ (snapped rawImage).root.queue.length < 64) ∧
    (∀ d, (edgeOf (snapped rawImage) d).cut = false) ∧ (∀ f, (shimOf (snapped rawImage) f).copyback = []) ∧
    imageTarget (snapped rawImage) t57 rawImage = some t57 ∧
    ((snapped rawImage).snap.restoring = false) :=
  ⟨⟨intrusive_of (by decide), ⟨by decide, by decide, by decide⟩, by decide⟩, fun _ => rfl, fun _ => rfl, by decide, by decide⟩

def copyingBack (r : Bool) (gs : List Nat) : State := { snapped rawImage with
  snap := { (snapped rawImage).snap with restoring := true, restoreRec := r }
  shims := [(0, { copyback := gs })] }

theorem meets_SnapshotsRestore_granules :
    ((copyingBack false [3, 4]).snap.restoring = true ∧ 3 ∈ (shimOf (copyingBack false [3, 4]) 0).copyback ∧ mapsWf (copyingBack false [3, 4]) ∧
      (shimOf (copyingBack false [3, 4]) 0).copyback.erase 3 = [4] ∧ 5 ∉ (shimOf (copyingBack false [3, 4]) 0).copyback) ∧
    ((shimOf (copyingBack true [3]) 0).copyback.erase 3 = [] ∧ (copyingBack true [3]).snap.restoreRec = true) ∧
    ((copyingBack false [3]).snap.take = none ∧ (copyingBack false [3]).snap.restoreRec = false ∧
      (pondOf (copyingBack false [3]) (copyingBack false [3]).snap.restorePond).state = 3) :=
  ⟨⟨by decide, by decide, ⟨by decide, by decide, by decide⟩, by decide⟩, by decide, by decide⟩

def draining (full all : Bool) : State := { snapped rawImage with snap := { (snapped rawImage).snap with
  draining := true
  drainFull := full
  drainReply := some hd
  drainDest := { endpoint := 1 }
  drains := if all then [] else [⟨{ endpoint := 1 }, 0, [1]⟩] } }
def emptyPonds : State := { stilled with snap := { stilled.snap with ponds := [(0, { snapId := 5, state := 3 })] } }

def lostImage : State := { stilled with snap := { stilled.snap with ponds := [(0, { snapId := 5, state := 3, images := [(t57, { bad := true })] })] } }

theorem meets_SnapshotsDrainAndDrop_lost :
    AsObserver lostImage hd ∧ validPond lostImage 5 = some 0 ∧ lostImage.cfg.skS = false ∧ lostImage.snap.draining = false ∧
      imagesOk lostImage 0 = false ∧ drainSize lostImage true ≤ 2 ^ 41 ∧ lostImage.snap.take = none :=
  ⟨observer_of (by decide), by decide⟩

theorem meets_SnapshotsDrainAndDrop :
    (AsObserver emptyPonds hd ∧ mapsWf emptyPonds ∧ validPond emptyPonds 5 = some 0 ∧ emptyPonds.cfg.skS = false ∧
      emptyPonds.snap.draining = false ∧ imagesOk emptyPonds 0 = true ∧ drainSize emptyPonds true ≤ 2 ^ 41) ∧
    ((draining true false).snap.draining = true ∧ (draining true false).snap.drainFull = true ∧
      (shimOf (draining true false) 47).asof < tierGranules (draining true false)) ∧
    (drainOver (draining false false) = false ∧ drainOver (draining false true) = true ∧ (draining false true).snap.drainReply = some hd) ∧
    (AsIntrusive emptyPonds hd ∧ dropPond emptyPonds 5 = some 0 ∧ dropPond emptyPonds 6 = none ∧ emptyPonds.snap.take = none) ∧
    (base.rill.inService = true ∧ State.reset.rill.inService = false) :=
  ⟨⟨observer_of (by decide), ⟨by decide, by decide, by decide⟩, by decide⟩, by decide, by decide, ⟨intrusive_of (by decide), by decide⟩, by decide⟩

/-! Witnesses: recoveries, mends and records -/

/-- A still tile of a declared wafer still. -/
def stillOne : Tile := { upTile with time := { unset := false }, still := { mask := 1, state := 3, frz := true } }
/-- Every tile of the wafer is such a tile. -/
def AllStill (m : Map Tile) : Prop :=
  (∀ k, k < numTiles → mget {} m k = stillOne) ∧ (∀ p ∈ m, p.1 < numTiles ∧ p.2 = stillOne) ∧ mwf {} m = true

theorem allStill_wafer : AllStill (mapBelow {} numTiles (fun _ _ => stillOne) []) := by
  refine ⟨fun k h => ?_, fun p h => ?_, mapBelow_wf _ _ _ _⟩
  · rw [mget_mapBelow, if_pos h]
  · simp only [mapBelow, List.mem_filter, List.mem_map, List.mem_range] at h
    obtain ⟨⟨k, hk, rfl⟩, -⟩ := h
    exact ⟨hk, rfl⟩

def withTiles (m : Map Tile) (s : State) : State := { s with tiles := m }

theorem allStill_stands {m : Map Tile} (a : AllStill m) (s : State) (r : s.root.regionsStill = 0) (l : s.root.launched = []) :
    regionStands (withTiles m s) = false := by
  unfold regionStands
  rw [List.any_eq_false]
  intro i hi
  have e : inForce (withTiles m s) (i + 1) = false := by
    unfold inForce
    show (m.any _ || s.root.launched.any _) = false
    rw [l, List.any_nil, Bool.or_false, List.any_eq_false]
    intro p hp
    rw [(a.2.1 p hp).2]
    have hi := List.mem_range.1 hi
    show ¬ (1 : BitVec 16).getLsbD (i + 1) = true
    interval_cases i <;> decide
  show ¬ ((s.root.regionsStill.getLsbD (i + 1)) || inForce (withTiles m s) (i + 1)) = true
  rw [r, e]
  simp

theorem allStill_notStill {m : Map Tile} (a : AllStill m) (s : State) : notStill (withTiles m s) 0 = [] := by
  unfold notStill scopeTiles allTiles
  rw [if_pos rfl, List.filter_eq_nil_iff]
  intro k hk
  have e : tileOf (withTiles m s) k = stillOne := a.1 k (List.mem_range.1 hk)
  rw [e]
  decide

theorem allStill_suspects {m : Map Tile} (a : AllStill m) (s : State) (t : Nat) (g : s.root.stragglers = []) (j : s.recov.joined = []) :
    nameSuspects (withTiles m s) t = [] := by
  have e : ((m.filter (fun p => p.2.power.answers)).map (·.1)).filterMap (fun u => suspectOf (withTiles m s) t u) = [] := by
    rw [List.filterMap_eq_nil_iff]
    intro u hu
    rw [List.mem_map] at hu
    obtain ⟨p, hf, rfl⟩ := hu
    have hp := List.mem_of_mem_filter hf
    have q : naming (withTiles m s) t stillOne = [] := by
      unfold naming
      show qualifying _ _ _ ++ s.recov.joined.flatMap _ = []
      rw [j]
      rfl
    have f : tileOf (withTiles m s) p.1 = stillOne := a.1 _ (a.2.1 p hp).1
    unfold suspectOf
    rw [f, q]
  have w : (withTiles m s).tiles = m := rfl
  have g' : (withTiles m s).root.stragglers = [] := g
  simp only [nameSuspects, g', w, List.filter_nil, List.map_nil, List.any_nil, Bool.false_eq_true, if_false, List.nil_append, e, List.take_nil]

/-- The still of a dump of class c is declared; pond 0 holds a snapshot of tick t with some images. -/
def dumpOf (is : List (Nat × Image)) (c t : Nat) (r : RecState) : State := { stilled with
  alarm := { stilled.alarm with running := some { action := 4, cls := c, tick := 5000, declaredAt := some 5200 } }
  recov := { r with phase := 1, cls := c, start := 10000 }
  snap := { stilled.snap with ponds := [(0, { snapId := 5, state := 3, t := t, images := is })] } }
abbrev dump (c t : Nat) (r : RecState) : State := dumpOf [] c t r
theorem meets_RecoveriesDecide :
    (base.alarm.running = none ∧ base.recov.phase ≠ 4 ∧ recBusy base = false ∧ recBusy (dump 2 0 {}) = true) ∧
    ((dump 7 0 { dieLoss := true }).alarm.running = some { action := 4, cls := 7, tick := 5000, declaredAt := some 5200 } ∧
      (dump 7 0 { dieLoss := true }).recov.phase = 1 ∧ mendRuns (dump 7 0 {}) = false ∧ (dump 7 0 { dieLoss := true }).recov.dieLoss = true) ∧
    ((policyOf (dump 2 0 { policies := [(2, { rollback := false })] }) 2).rollback = false ∧ usablePond (dump 1 8001 {}) 9000 = none) :=
  ⟨by decide, by decide, by decide⟩

theorem onset_tiles (m : Map Tile) (s : State) (us : List Suspect) (cs : List (Nat × Nat)) :
    recOnset (withTiles m s) us cs = recOnset s us cs := rfl
theorem usable_tiles (m : Map Tile) (s : State) (o : Nat) : usablePond (withTiles m s) o = usablePond s o := rfl

/-- No image, or one that cannot be read. -/
def imagesFor (bad : Bool) : List (Nat × Image) := if bad then [(t57, { bad := true })] else []

theorem dump_onset : ∀ bad, recOnset (dumpOf (imagesFor bad) 1 8000 {}) [] [(1, 10000)] = some 9000 := by decide +kernel
theorem dump_usable : ∀ bad, usablePond (dumpOf (imagesFor bad) 1 8000 {}) 9000 = some 0 := by decide +kernel

theorem meets_RecoveriesDecide_restores (m : Map Tile) (a : AllStill m) (bad : Bool) :
    let s := withTiles m (dumpOf (imagesFor bad) 1 8000 {})
    let us := nameSuspects s 5000
    (s.recov.phase = 1 ∧ mendRuns s = false ∧ (policyOf s 1).rollback = true ∧ isRepeat s 1 us = false ∧ deadTiles s us = [] ∧
      s.root.confirm = [] ∧ s.root.wstate = 3 ∧ s.recov.dead = [] ∧ s.recov.mending = []) ∧
    notStill s 0 = [] ∧ mapsWf s ∧ s.cfg.skS = false ∧ (pondOf s 0).state = 3 ∧ s.snap.take = none ∧ regionStands s = false ∧ s.snap.draining = false ∧
    (recOnset s us [(1, 10000)]).bind (usablePond s) = some 0 := by
  intro s us
  have e : us = [] := allStill_suspects a _ _ rfl rfl
  have o : recOnset s [] [(1, 10000)] = some 9000 := by
    rw [onset_tiles]
    exact dump_onset bad
  have u : usablePond s 9000 = some 0 := by
    rw [usable_tiles]
    exact dump_usable bad
  rw [e, o, Option.bind_some, u]
  exact ⟨⟨rfl, rfl, rfl, rfl, rfl, rfl, rfl, rfl, rfl⟩, allStill_notStill a _, ⟨a.2.2, rfl, rfl⟩, rfl, rfl, rfl, allStill_stands a _ rfl rfl, rfl, rfl⟩

theorem meets_RecoveriesDecide_images (m : Map Tile) :
    imagesOk (withTiles m (dumpOf (imagesFor false) 1 8000 {})) 0 = true ∧
      imagesOk (withTiles m (dumpOf (imagesFor true) 1 8000 {})) 0 = false :=
  ⟨rfl, rfl⟩

/-- So there is such a state: the wafer whose every tile is still. -/
theorem meets_RecoveriesDecide_wafer : ∃ m : Map Tile, AllStill m := ⟨_, allStill_wafer⟩

def restored (r : Nat) : State := { stilled with recov := { stilled.recov with phase := 4, cls := 2, policies := [(2, { resume := r })] } }
/-- A wafer still with the spare tile (15, 0) and the tile (5, 7), which holds a role. -/
def mendable : State := { stilled with tiles := [(15, upTile), (t57, ltnTile)] }

theorem meets_RecoveriesDecide_others :
    ((restored 1).recov.phase = 4 ∧ (restored 1).snap.restoring = false ∧ (policyOf (restored 1) (restored 1).recov.cls).resume = 1 ∧
      cutDies (restored 1) = [] ∧ (restored 1).root.queue.length < 64 ∧ (policyOf (restored 0) (restored 0).recov.cls).resume ≠ 1) ∧
    (AsIntrusive base hd ∧ recBusy base = false ∧ policyBad 0x10000 = false ∧ policyBad 0xFFFF0017 = false) ∧
    (AsIntrusive (dump 2 0 {}) hd ∧ recBusy (dump 2 0 {}) = true) ∧
    (AsIntrusive mendable hd ∧ mapsWf mendable ∧ (∀ c ∈ mendChecks 15 mendable, c.bad = false) ∧ ltnOf mendable 15 = none) ∧
    ((∀ c ∈ mendChecks t57 mendable, c.bad = false) ∧ (ltnOf mendable t57).isSome = true ∧ mendable.txn.active = none ∧
      mendable.txn.waiting = [] ∧ mendable.txn.tstate ≠ 6) ∧
    (AsIntrusive ({ base with lc := { base.lc with code := 2 } } : State) hd) :=
  ⟨by decide, ⟨intrusive_of (by decide), by decide⟩, ⟨intrusive_of (by decide), by decide⟩,
   ⟨intrusive_of (by decide), ⟨by decide, by decide, by decide⟩, by decide⟩, by decide, intrusive_of (by decide)⟩

def aRecord : CrashWrite := { offset := 4096, bytes := List.replicate 256 0 }
def gasping (w : CrashWrite) : State := { base with recov := { base.recov with lastGasp := some w } }
def crashing : State := { base with recov := { base.recov with crash := some aRecord } }
def defective : State := { base with recov := { base.recov with defects := [{ tile := t57 }] }, cfg := { base.cfg with defOff := 65536, defSize := 65536 } }
/-- An older record waits, and a host's request that FIXED ended waits for the last gasp. -/
def olderRec : State := { base with recov := { base.recov with older := [aRecord] } }
def owing : State := { gasping aRecord with txn := { base.txn with owed := some hd } }
def defectBusy : State := { crashing with recov := { crashing.recov with defects := [{ tile := t57 }] } }
def progWait : State := { base with xspi := { base.xspi with
  owner := 1
  pending := [{ offset := 0, bytes := [1], last := true, reply := some hd }] } }
def rooted : State := { base with alarm := { base.alarm with enabled := true } }
/-- The Well holds a pending record in slot 3; Spring has a defect area, or none. -/
def pendingRec (size : Nat) : State := { base with
  xspi := { base.xspi with well := storeBytes wellBlank [] (0x21000 + 64 * 3) (defectBytes { tile := t57 }) }
  cfg := { base.cfg with defOff := 65536, defSize := size } }

theorem meets_RecordsAreWritten :
    (wellNext base = none ∧ base.recov.defects = [] ∧ base.xspi.pending = []) ∧
    (wellNext (gasping aRecord) = some (0, aRecord) ∧ (gasping aRecord).xspi.wellWaits = [] ∧ sequencing (gasping aRecord) = false ∧
      (gasping aRecord).txn.owed = none ∧ wellNext owing = some (0, aRecord) ∧ owing.txn.owed = some hd) ∧
    (wellNext olderRec = some (1, aRecord) ∧ wellNext crashing = some (2, aRecord) ∧ crashing.xspi.owner ≠ 1) ∧
    (wellBusy defectBusy = true ∧ wellBusy defective = false ∧ defective.xspi.owner ≠ 1 ∧ progWait.xspi.owner = 1 ∧
      progWait.xspi.wellWaits = [] ∧ sequencing rooted = false) ∧
    (base.boot.wellAbsent = false ∧ 4096 ≤ aRecord.offset ∧ 256 ≤ aRecord.bytes.length) ∧
    (noWell.boot.wellAbsent = true ∧ ({ aRecord with retried := true } : CrashWrite).retried = true) ∧
    (defective.recov.defects = { tile := t57 } :: [] ∧ springFree defective = some 65536 ∧ pendingFree defective = some 0) ∧
    (progWait.xspi.pending = [{ offset := 0, bytes := [1], last := true, reply := some hd }]) ∧
    (rooted.alarm.enabled = true ∧ rooted.boot.romReason = 0 ∧ (classOf rooted 0).action = 5 ∧ base.alarm.enabled = false) ∧
    (AsObserver seen hd ∧ AsIntrusive base hd) :=
  ⟨by decide, by decide +kernel, by decide +kernel, by decide +kernel, by decide +kernel, by decide, by decide +kernel, by decide, by decide, observer_of (by decide), intrusive_of (by decide)⟩

theorem meets_RecordsAreWritten_flush :
    pendingSlots base = [] ∧ pendingSlots (pendingRec 65536) = [3] ∧ springFree (pendingRec 65536) = some 65536 ∧
    pendingSlots (pendingRec 0) ≠ [] ∧ springFree (pendingRec 0) = none := by decide +kernel

/-! Witnesses: the life cycle, start, resets and power -/

/-- The SHA-384 digest of 32 zero bytes (14 R450): the token zero moves to IN and to SC. -/
def tokenDigest : List Byte := le 48
  0x404a0ae50e1ba7e25ff787315c4d3ad07bab9e7292f1c84694de5f5447fd8090c83a10038cde9cace4156ca24bff8fa3
def scToken (code : Nat) : State := { seen with
  lc := { seen.lc with code := code }
  xspi := { seen.xspi with otp := storeBytes 0 [] 0x110 tokenDigest ++ storeBytes 0 [] 0x1A0 tokenDigest } }
def moving (n : Nat) (warn : Bool) : State := { base with
  lc := { base.lc with phase := 1, target := n, reply := some hd }
  alarm := { base.alarm with pfWarn := warn } }
def cellsAt (a n v : Nat) : List Host.Cell := (List.range n).map (fun i => (a + i, BitVec.ofNat 8 (v / 2 ^ (8 * i))))
/-- Spring's partition table, with an IMAGE, a CONFIG and a USER partition, and the first 16 bytes of an image of 4,096 bytes, which read as ones. -/
def springCells : List Host.Cell :=
  cellsAt 0 32 0xfffffffffffffffffffffffffffffffffffffffff9522f40000300015450534b ++ cellsAt 32 32 0x4100000001000000000001 ++ cellsAt 64 32 0x100000043000000000002 ++
    cellsAt 96 32 0x100000080000000000003 ++ cellsAt 65536 16 0xffffffff00001000000000014d49534b
def springIs (c : List Host.Cell) : State := { base with
  boot := { base.boot with phase := 3 }
  xspi := { base.xspi with spring := c } }
theorem springIs_read (c : List Host.Cell) (a n : Nat) : springRead (springIs c) a n = bytesAt 0xFF c a n := rfl
def imaged : State := springIs springCells

theorem meets_LifeCycleMoves :
    (AsObserver (scToken 0) hd ∧ tokenOk (scToken 0) 4 0 = true ∧ transitionBusy (scToken 0) = false ∧ transition 0 4 = true ∧
      fieldMissing (scToken 0) 4 = false ∧ (scToken 0).alarm.pfWarn = false ∧ (scToken 0).lc.junctionHot = false) ∧
    (tokenOk (scToken 0) 4 1 = false ∧ openFields (scToken 0) 4 ≠ []) ∧
    (AsObserver (scToken 1) hd ∧ tokenOk (scToken 1) 1 0 = true ∧ (scToken 1).lc.code = 1) ∧
    (AsObserver (scToken 2) hd ∧ tokenOk (scToken 2) 1 0 = true ∧ transitionBusy (scToken 2) = false ∧ transition 2 1 = false) ∧
    (base.lc.phase = 0 ∧ (moving 1 false).lc.phase = 1 ∧ (moving 4 false).lc.target = 4 ∧ (moving 4 false).alarm.pfWarn = false ∧
      (moving 2 true).alarm.pfWarn = true ∧ (moving 3 false).lc.target = 3 ∧ (moving 3 false).lc.reply = some hd) :=
  ⟨⟨observer_of (by decide), by decide +kernel⟩, by decide +kernel, ⟨observer_of (by decide), by decide +kernel⟩,
   ⟨observer_of (by decide), by decide +kernel⟩, by decide⟩

def fwDone : State := { imaged with xspi := { imaged.xspi with fwWritten := [(4096, 256)] } }

theorem meets_LifeCycleMoves_firmware :
    ((partOf imaged 1).size = 4259840 ∧ fwProgrammed imaged 4096 1 = false ∧ fwProgrammed fwDone 4100 1 = true) := by decide +kernel
theorem meets_LifeCycleMoves_spring : WithSpring imaged hd ∧ WithSpring fwDone hd := ⟨spring_of (by decide), spring_of (by decide)⟩

def starting (p : Nat) : State := { base with boot := { base.boot with phase := p } }

theorem meets_StartRuns :
    (State.reset.boot.inReset = true ∧ base.boot.inReset = false ∧ mapsWf base) ∧
    (sequencing (moving 1 false) = true ∧ sequencing base = false ∧ (99 < 100 ∧ 100 ≤ 999 ∧ 999 < 1000)) ∧
    (({ base with boot := { base.boot with romReason := 3 } } : State).boot.romReason ≠ 0) ∧
    ((starting 0).boot.phase = 0 ∧ (starting 0).boot.romReason = 0 ∧ (starting 8).boot.phase = 8 ∧ 9 ≤ (starting 9).boot.phase) ∧
    ((measure [] (starting 6)).rill.overLat = []) ∧ (tableValid base = false ∧ imageCode base ≠ 0) :=
  ⟨⟨by decide, by decide, by decide, by decide, by decide⟩, by decide, by decide, by decide, by decide +kernel, by decide +kernel⟩

theorem meets_StartRuns_table : tableValid imaged = true := by decide +kernel

/-! An image whose digest holds: the digest is written into its header as what SHA-384 gives, and is not evaluated. -/

theorem mget_off {α : Type} (d : α) (m : Map α) (k : Nat) (h : ∀ p ∈ m, p.1 ≠ k) : mget d m k = d := by
  induction m with
  | nil => rfl
  | cons p r ih =>
    rw [mget, if_neg (h p List.mem_cons_self)]
    exact ih (fun q hq => h q (List.mem_cons_of_mem _ hq))
theorem mget_left {α : Type} (d : α) (m r : Map α) (k : Nat) (h : ∀ p ∈ r, p.1 ≠ k) : mget d (m ++ r) k = mget d m k := by
  induction m with
  | nil => exact mget_off d r k h
  | cons p m ih => simp only [List.cons_append, mget, ih]
theorem mget_right {α : Type} (d : α) (m r : Map α) (k : Nat) (h : ∀ p ∈ m, p.1 ≠ k) : mget d (m ++ r) k = mget d r k := by
  induction m with
  | nil => rfl
  | cons p m ih =>
    rw [List.cons_append, mget, if_neg (h p List.mem_cons_self)]
    exact ih (fun q hq => h q (List.mem_cons_of_mem _ hq))

def digestCells (g : List Byte) : List Host.Cell := (List.range 48).map (fun i => (65552 + i, g.getD i 0))
def stamped (g : List Byte) : State := springIs (springCells ++ digestCells g)

theorem digestCells_keys (g : List Byte) : ∀ p ∈ digestCells g, 65552 ≤ p.1 ∧ p.1 < 65600 := by
  intro p h
  obtain ⟨i, hi, rfl⟩ := List.mem_map.1 h
  have := List.mem_range.1 hi
  exact ⟨by simp, by simp; omega⟩
theorem springCells_keys : springCells.all (fun p => decide (p.1 < 65552)) = true := by decide +kernel

theorem bytes_left (c r : List Host.Cell) (a n : Nat) (h : ∀ p ∈ r, p.1 < a ∨ a + n ≤ p.1) :
    bytesAt 0xFF (c ++ r) a n = bytesAt 0xFF c a n :=
  List.map_congr_left (fun i hi => mget_left _ _ _ _ (fun p hp e => by have := List.mem_range.1 hi; have := h p hp; omega))
theorem bytes_right (c r : List Host.Cell) (a n : Nat) (h : ∀ p ∈ c, p.1 < a ∨ a + n ≤ p.1) :
    bytesAt 0xFF (c ++ r) a n = bytesAt 0xFF r a n :=
  List.map_congr_left (fun i hi => mget_right _ _ _ _ (fun p hp e => by have := List.mem_range.1 hi; have := h p hp; omega))
theorem bytes_off (c : List Host.Cell) (a n : Nat) (h : ∀ p ∈ c, p.1 < a) : bytesAt 0xFF c a n = List.replicate n 0xFF := by
  have e : ∀ i, mget 0xFF c (a + i) = 0xFF := fun i => mget_off _ _ _ (fun p hp e => by have := h p hp; omega)
  have m : bytesAt 0xFF c a n = (List.range n).map (fun _ => 0xFF) := List.map_congr_left (fun i _ => e i)
  rw [m, List.map_const', List.length_range]

theorem digest_bytes (g : List Byte) (h : g.length = 48) : bytesAt 0xFF (digestCells g) 65552 48 = g := by
  have e : ∀ i, i < 48 → mget 0xFF (digestCells g) (65552 + i) = g.getD i 0 := by
    intro i hi
    interval_cases i <;> rfl
  have m : bytesAt 0xFF (digestCells g) 65552 48 = (List.range 48).map (fun i => g.getD i 0) :=
    List.map_congr_left (fun i hi => e i (List.mem_range.1 hi))
  rw [m]
  refine List.ext_getElem (by simp [h]) (fun i h1 h2 => ?_)
  simp [List.getD_eq_getElem?_getD, List.getElem?_eq_getElem h2]

theorem springCells_low : ∀ p ∈ springCells, p.1 < 65552 := fun p hp => of_decide_eq_true (List.all_eq_true.1 springCells_keys p hp)

theorem stamped_low (g : List Byte) (a n : Nat) (h : a + n ≤ 65552) : springRead (stamped g) a n = springRead imaged a n := by
  rw [stamped, imaged, springIs_read, springIs_read]
  exact bytes_left _ _ _ _ (fun p hp => .inr (by have := (digestCells_keys g p hp).1; omega))
theorem stamped_digest (g : List Byte) (h : g.length = 48) : springRead (stamped g) 65552 48 = g := by
  rw [stamped, springIs_read, bytes_right _ _ _ _ (fun p hp => .inl (springCells_low p hp))]
  exact digest_bytes g h
theorem stamped_high (g : List Byte) (a n : Nat) (h : 65600 ≤ a) : springRead (stamped g) a n = List.replicate n 0xFF := by
  rw [stamped, springIs_read]
  refine bytes_off _ _ _ (fun p hp => ?_)
  rcases List.mem_append.1 hp with hp | hp
  · have := springCells_low p hp; omega
  · have := (digestCells_keys g p hp).2; omega

theorem stamped_parts (g : List Byte) : partOf (stamped g) 1 = { kind := 1, offset := 65536, size := 4259840 } := by
  have c : tableCount (stamped g) = tableCount imaged := congrArg unle (stamped_low g 6 2 (by decide))
  have k : tableCount imaged = 3 := by decide +kernel
  have p : ∀ i, i < 3 → tablePart (stamped g) i = tablePart imaged i := by
    intro i hi
    show SpringPart.mk (unle (springRead (stamped g) (32 + 32 * i) 1)) (unle (springRead (stamped g) (32 + 32 * i + 4) 4))
      (unle (springRead (stamped g) (32 + 32 * i + 8) 4)) = SpringPart.mk (unle (springRead imaged (32 + 32 * i) 1))
      (unle (springRead imaged (32 + 32 * i + 4) 4)) (unle (springRead imaged (32 + 32 * i + 8) 4))
    rw [stamped_low g (32 + 32 * i) 1 (by omega), stamped_low g (32 + 32 * i + 4) 4 (by omega), stamped_low g (32 + 32 * i + 8) 4 (by omega)]
  have t : tableParts (stamped g) = tableParts imaged := by
    unfold tableParts
    rw [c, k]
    exact List.map_congr_left (fun i hi => p i (List.mem_range.1 hi))
  have o : partOf imaged 1 = { kind := 1, offset := 65536, size := 4259840 } := by decide +kernel
  rw [← o]
  unfold partOf
  rw [t]

theorem shaRound_length (w : List Word) (k : Word × Word) (h : w.length = 8) : (shaRound w k).length = 8 := by
  match w, h with
  | [_, _, _, _, _, _, _, _], _ => rfl
theorem shaRounds_length (l : List (Word × Word)) : ∀ w : List Word, w.length = 8 → (l.foldl shaRound w).length = 8 := by
  induction l with
  | nil => exact fun _ h => h
  | cons k l ih => exact fun w h => ih _ (shaRound_length w k h)
theorem shaBlocks_length (bs : List (List Word)) : ∀ w : List Word, w.length = 8 → (bs.foldl shaBlock w).length = 8 := by
  induction bs with
  | nil => exact fun _ h => h
  | cons b bs ih =>
    intro w h
    refine ih _ ?_
    rw [shaBlock, List.length_zipWith, shaRounds_length _ w h, h]
    rfl
theorem sha384_length (m : List Byte) : (sha384 m).length = 48 := by
  unfold sha384
  rw [List.length_flatMap]
  have l : ∀ w : Word, (le 8 w.toNat).reverse.length = 8 := fun w => by simp [le]
  simp only [l, List.map_const', List.length_take, shaBlocks_length _ shaIv rfl]
  rfl

theorem stamped_sound (g : List Byte) (h : g = sha384 (List.replicate 4096 0xFF)) : imageCode (stamped g) = 0 := by
  have a : unle (springRead imaged 65536 4) = 0x4D49534B := by decide +kernel
  have b : unle (springRead imaged 65540 2) = 1 := by decide +kernel
  have c : unle (springRead imaged 65544 4) = 4096 := by decide +kernel
  have l : g.length = 48 := by rw [h]; exact sha384_length _
  have k : (stamped g).lc.code = 0 := rfl
  unfold imageCode
  simp only [stamped_parts, Nat.reduceAdd, stamped_low _ 65536 4 (by decide), stamped_low _ 65540 2 (by decide),
    stamped_low _ 65544 4 (by decide), a, b, c, stamped_digest g l, stamped_high _ 66048 4096 (by decide), ← h, k]
  simp
theorem meets_StartRuns_image : ∃ g : List Byte, (stamped g).boot.phase = 3 ∧ imageCode (stamped g) = 0 :=
  ⟨sha384 (List.replicate 4096 0xFF), rfl, stamped_sound _ rfl⟩

def running : State := { base with boot := { base.boot with phase := 9 } }
def waitingReq : State := { running with sess := { running.sess with outstanding := [hd] } }
def reloading : Tile := { ltnTile with plan := { reload := true, digest := bankDigest (bankList []) } }

theorem meets_ResetsSpareTheRest :
    firmwareRuns base = false ∧
    (firmwareRuns running = true ∧ running.txn.active = none ∧ running.txn.waiting = [] ∧ running.snap.take = none ∧
      running.snap.restoring = false ∧ running.alarm.running = none ∧ running.recov.phase = 0 ∧ running.root.queue = [] ∧
      running.root.confirm = [] ∧ running.root.wstate ≠ 3 ∧ running.root.wstate ≠ 4 ∧ running.sess.outstanding = []) ∧
    AsIntrusive running hd ∧ hd.session ≠ 65535 ∧ State.reset.rill.inService = false ∧ (oneUp.rill.inService = true ∧ mapsWf oneUp) ∧
    (fetches ltnUp t57 = true ∧ (tileOf ltnUp t57).plan.reload = false ∧ fetches (busyIn reloading) t57 = true ∧
      reloading.txn.ltnValid = true ∧ bankDigest (bankList (inactiveBank reloading.core)) = reloading.plan.digest ∧
      fetchedCnt (busyIn reloading) t57 = reloading.plan.cntId) ∧
    (reloading.core.dip.slots = [] ∧ reloading.core.dip.caps = [] ∧ reloading.core.dip.capq = [] ∧ upTile.still.heldRel = []) ∧
    (firmwareRuns waitingReq = true ∧ waitingReq.sess.outstanding = [hd] ∧ waitingReq.txn.active = none ∧ waitingReq.root.wstate ≠ 3) :=
  ⟨by decide, by decide, intrusive_of (by decide), by decide, by decide, ⟨by decide, by decide, by decide, by decide⟩, by decide +kernel, by decide, by decide⟩

theorem meets_TilesLoseAndRegainPower :
    (({} : Tile).power.pwrOk = false ∧ upTile.power.pwrOk = true ∧ oneUp.rill.inService = true ∧ 368639 < numTiles) ∧
    (({ upTile with power := { upTile.power with darkPending := true, darkReady := false } } : Tile).power.darkReady = false) ∧
    oneUp.root.stragglers = [] ∧
    (upTile.power.noClock = false ∧ ({ upTile with power := { pwrOk := true, noClock := true } } : Tile).power.noClock = true) ∧
    (State.reset.rill.inService = false ∧ ({ State.reset with tiles := [(t57, upTile)] } : State).rill.inService = false) ∧
    (∀ a ∈ upTile.still.pending, stubNow oneUp t57 ≤ a.tick) ∧
    (∃ a ∈ armedTile.still.pending, ¬ 5001 ≤ a.tick) ∧
    (State.reset.boot.inReset = true ∧ oneUp.boot.inReset = false) := by decide

/-! Witnesses: the Rill -/

def rillIs (f : RillState → RillState) (s : State) : State := { s with rill := f s.rill }
def multiOp : RillOp := { tag := 9, op := 1, multi := true, set := oneTile, space := 3, length := 8 }
def inAir (o : RillOp) : State := rillIs (fun q => { q with ops := [o] }) oneUp
/-- The router of tile (5, 7) with the state `r`; the router before it on the way from the centre has sent its copy on. -/
def atRouter (o : RillOp) (r : RouterState) : State :=
  rillIs (fun q => { q with ops := [o], routers := [(t57, r), (6149, { combiners := [{ tag := 9, copies := [(3, 0)] }] })] }) oneUp
def nodeT : Node := .router t57
def held2 : RouterState := { mcast := [{ tag := 1, branches := [0] }, { tag := 2, branches := [0] }] }
def copied : RouterState := { combiners := [{ tag := 9, copies := [(0, 0)] }] }
def entry8 (rs : List Node) : MergeEntry := { address := 64, length := 256, plan := 3, requesters := rs }
def mergeOpen : State := rillIs (fun q => { q with merge := [(.junction 0, entry8 [.router 5])], forwarded := [(.junction 0, entry8 [.router 5])] }) base
def planNext : State := { tileIs t57 { upTile with txn := { ltnValid := true } } base with
  plans := { base.plans with watchNext := some { id := 4 } } }

def toTile : Packet := { kind := 0, dest := rillCoord t57 }

theorem meets_PacketsTravel_enter :
    State.reset.rill.inService = false ∧ base.rill.inService = true ∧
    (nodeExists (.router numTiles) = false ∧ nodeExists (.port 8) = false ∧ hasPort nodeT 7 = false ∧
      destExists { toTile with dest := 768 * 512 } = false) ∧
    (nodeExists nodeT = true ∧ hasPort nodeT 0 = true ∧ hasPort nodeT 1 = true ∧ destExists toTile = true) ∧
    (nodeExists (.junction 47) = true ∧ hasPort (.junction 47) 5 = true ∧ nodeExists (.port 7) = true ∧ hasPort (.port 7) 1 = true ∧
      hasPort (.port 7) 0 = true) ∧
    ((largestLen 0).isSome = true ∧ (0 : Nat) ≤ (largestLen 0).getD 0 ∧ (largestLen 0).getD 0 < 65 ∧ 65 ≤ 65) ∧
    (destExists { toTile with kind := 9 } = true ∧ pktUp toTile = false ∧ toTile.dest = rillCoord t57) := by
  decide +kernel

theorem meets_PacketsTravel :
    (flightOp (atRouter multiOp {}) 9 = some multiOp ∧ multiOp.multi = true ∧ treeBranches (atRouter multiOp {}) multiOp nodeT ≠ [] ∧
      copyReached (atRouter multiOp {}) multiOp nodeT = true ∧ (routerOf (atRouter multiOp {}) nodeT).mcast = [] ∧
      (routerOf (atRouter multiOp {}) nodeT).combiners = [] ∧ isRouter nodeT = true) ∧
    (treeBranches (inAir multiOp) multiOp (.port 0) ≠ [] ∧ copyReached (inAir multiOp) multiOp (.port 0) = true ∧
      isRouter (.port 0) = false ∧ (routerOf (inAir multiOp) (.port 0)).combiners = [] ∧ flightOp (inAir multiOp) 9 = some multiOp) ∧
    (flightOp (atRouter multiOp held2) 9 = some multiOp ∧ (routerOf (atRouter multiOp held2) nodeT).mcast.length = 2 ∧
      copyReached (atRouter multiOp held2) multiOp nodeT = true ∧ (routerOf (atRouter multiOp held2) nodeT).combiners = [] ∧
      ∀ b ∈ (routerOf (atRouter multiOp held2) nodeT).mcast, b.tag ≠ 9) ∧
    ((routerOf (atRouter multiOp { mcast := [{ tag := 9, branches := [0] }] }) nodeT).mcast.find? (fun b => b.tag == 9) =
        some { tag := 9, branches := [0] } ∧ 0 ∈ [0]) ∧
    (flightOp (atRouter { multiOp with counted := [t57] } copied) 9 = some { multiOp with counted := [t57] } ∧
      (∃ c ∈ (routerOf (atRouter { multiOp with counted := [t57] } copied) nodeT).combiners, c.tag = 9) ∧
      (routerOf (atRouter { multiOp with counted := [t57] } copied) nodeT).mcast = [] ∧
      nodeMembers (atRouter { multiOp with counted := [t57] } copied) multiOp nodeT ≠ [] ∧
      ∀ u ∈ nodeMembers (atRouter { multiOp with counted := [t57] } copied) multiOp nodeT, u ∈ [t57]) ∧
    ((routerOf (atRouter multiOp copied) nodeT).combiners.find? (fun c => c.tag == 9) = some { tag := 9, copies := [(0, 0)] } ∧
      flightOp (atRouter multiOp copied) 9 = some multiOp ∧
      ∃ u ∈ branchTiles (atRouter multiOp copied) multiOp nodeT 0, u ∉ multiOp.counted) := by
  decide +kernel

theorem meets_PacketsTravel_reads :
    (mayAsk (.junction 0) (.router 5) = true ∧ mayAsk (.junction 0) (.junction 8) = true ∧ mayAsk (.port 7) (.junction 7) = true ∧
      mayAsk .centre (.port 7) = true ∧ mayAsk (.junction 0) (.router 96) = false ∧ mayAsk .centre (.port 8) = false) ∧
    (base.rill.merge = [] ∧ (256 : Nat) ≤ 256 ∧ (256 : Nat) < 257) ∧
    (mergeOpen.rill.inService = true ∧ mergeOpen.rill.merge = [(.junction 0, entry8 [.router 5])] ∧
      mergeOpen.rill.forwarded = [(.junction 0, entry8 [.router 5])] ∧ mayAsk (.junction 0) (.router 6) = true ∧
      Node.router 6 ∉ [Node.router 5]) := by
  decide +kernel

def jWeir : Nat := 4 * numTiles
def twoSlips : State := rillIs (fun q => { q with weirs := [(jWeir, { slipTimes := [900, 950] })] }) base
theorem meets_PacketsTravel_links :
    (fetches planNext t57 = true ∧ (tileOf planNext t57).txn.ltnValid = true ∧ planNext.plans.watchNext = some { id := 4 }) ∧
    ((tileOf base t57).plan.reload = false ∧ coreUp (tileOf base t57) = false) ∧
    ((tileOf oneUp t57).power.answers = true ∧ coreUp (tileOf oneUp t57) = true ∧ 49151 + 1 ≤ 49152) ∧
    (weirExists (4 * tileAt 95 0 + 1) = true ∧ weirTile (4 * tileAt 95 0 + 1) < numTiles ∧ (weirOf base (4 * tileAt 95 0 + 1)).down = false ∧
      weirExists (4 * (numTiles + 47) + 2) = true ∧ (weirOf base (4 * tileAt 95 0 + 1)).slots.length = 4 ∧
      (weirOf (rillIs (fun q => { q with weirs := [(3, { down := true })] }) base) 3).down = true ∧ weirExists (4 * tileAt 96 0 + 1) = false) ∧
    (weirExists jWeir = true ∧ (weirOf twoSlips jWeir).down = false ∧ (linkNo (weirEnd jWeir).1 (weirEnd jWeir).2).isSome = true ∧
      3 ≤ ((weirOf twoSlips jWeir).slipTimes.filter (fun t => decide (now twoSlips < t + 1000000000)) ++ [now twoSlips]).length) ∧
    ((weirOf base 3).retraining = false ∧
      (weirOf (rillIs (fun q => { q with weirs := [(3, { separation := 2, retraining := true })] }) base) 3).retraining = true) ∧
    (base.boot.quiet = false ∧ ({ base with boot := { base.boot with quiet := true } } : State).boot.quiet = true ∧
      169 ∉ base.rill.gated ∧ 31 < numDies) ∧
    ((edgeOf base 31).cut = false ∧ (edgeOf ({ base with edges := [(31, { cut := true })] } : State) 31).cut = true) := by
  decide +kernel

/-- A READ (1), WRITE (2) or CENSUS (5) of 8 bytes of space `sp` at tile (5, 7). -/
def unicast (op sp : Nat) : RillOp :=
  { tag := 9, op := op, target := t57, space := sp, length := 8, data := if op = 2 then [1, 2, 3, 4, 5, 6, 7, 8] else [], reply := some hd }
/-- The tile's counter holds a mark. -/
def inAirMarked (o : RillOp) : State := tileIs t57 { tileOf (inAir o) t57 with time := { unset := false } } (inAir o)
def inAirStill (o : RillOp) : State := { inAir o with root := { base.root with wstate := 3 } }
def answers (s : State) (o : RillOp) : Bool :=
  flightOp s 9 == some o && s.rill.inService && addresses s o t57 && reaches s o t57 && (tileOf s t57).power.answers &&
    !o.counted.contains t57 && !o.acted.contains t57

/-- A packet at the router of tile (5, 7), all its flits there and its last about to go. -/
def leaving (p : Packet) : State := { rillIs (fun q => { q with flows := [{ node := nodeT, port := 1, pkt := p, got := pktFlits p, gone := pktFlits p - 1 }] }) oneUp with
  time := { base.time with hub := 1001 } }
def goodPkt : Packet := { toTile with word1 := 0x800 }

theorem meets_OperationsAnswer_packets :
    (leaving goodPkt).pending = [] ∧ (leaving goodPkt).rill.inService = true ∧ (leaving goodPkt).time.running = true ∧
    (leaving goodPkt).txn.pressed = false ∧ now (leaving goodPkt) % 2 = 1 ∧ (leaving goodPkt).rill.weirs = [] ∧
    (pktFlits goodPkt - 1) + 1 = pktFlits goodPkt ∧ goodPkt.kind = 0 ∧ goodPkt.crcOk = true ∧
    pktRefusal (tileOf (leaving goodPkt) t57) goodPkt = 0 ∧ pktRefusal (tileOf (leaving toTile) t57) toTile = 7 ∧
    (tileOf (leaving toTile) t57).power.answers = true ∧ pktOp toTile = 0 ∧ pktLchk toTile = false ∧ pktCchk toTile = false ∧
    9 < pktOp { toTile with word1 := 0x5000 } := by
  decide +kernel

theorem meets_OperationsAnswer :
    (flightOp (inAir { unicast 1 2 with counted := [t57] }) 9 = some { unicast 1 2 with counted := [t57] } ∧
      flightOp (inAir { unicast 1 2 with acted := [t57] }) 9 = some { unicast 1 2 with acted := [t57] }) ∧
    (answers (inAir (unicast 1 2)) (unicast 1 2) = true ∧ stubReason (inAir (unicast 1 2)) (unicast 1 2) t57 = 0) ∧
    (answers (inAir (unicast 1 3)) (unicast 1 3) = true ∧ stubReason (inAir (unicast 1 3)) (unicast 1 3) t57 = 0 ∧
      coreOp (unicast 1 3) = true ∧ coreOp (unicast 1 2) = false) ∧
    (answers (inAirMarked (unicast 5 2)) (unicast 5 2) = true ∧ stubReason (inAirMarked (unicast 5 2)) (unicast 5 2) t57 = 0) ∧
    stubReason (inAir (unicast 5 2)) (unicast 5 2) t57 = 3 ∧
    (answers (inAir (unicast 2 2)) (unicast 2 2) = true ∧ stubReason (inAir (unicast 2 2)) (unicast 2 2) t57 = 0) ∧
    (answers (inAirStill (unicast 2 3)) (unicast 2 3) = true ∧ stubReason (inAirStill (unicast 2 3)) (unicast 2 3) t57 = 0) ∧
    (answers (inAir (unicast 2 3)) (unicast 2 3) = true ∧ stubReason (inAir (unicast 2 3)) (unicast 2 3) t57 = 8) ∧
    (answers (inAir { unicast 1 2 with byLtn := some 3 }) { unicast 1 2 with byLtn := some 3 } = true ∧
      stubReason (inAir { unicast 1 2 with byLtn := some 3 }) { unicast 1 2 with byLtn := some 3 } t57 = 3 ∧
      stubReason (inAir { unicast 5 2 with byLtn := some 3 }) { unicast 5 2 with byLtn := some 3 } t57 = 3) := by
  decide +kernel

theorem meets_OperationsAnswer_centre :
    (base.rill.inService = true ∧ ∀ o ∈ base.rill.ops, o.tag ≠ 9) ∧
    (flightOp (inAir { unicast 1 2 with partials := [{ ok := 1 }] }) 9 = some { unicast 1 2 with partials := [{ ok := 1 }] } ∧
      8 ≤ packetLen (unicast 1 2) ∧ (unicast 2 2).data.length ≤ packetLen (unicast 2 2)) ∧
    (flightOp (inAir { unicast 2 2 with partials := [nakMrsp (.router t57) [t57] 6] }) 9 =
        some { unicast 2 2 with partials := [nakMrsp (.router t57) [t57] 6] } ∧
      (nakMrsp (.router t57) [t57] 6).nak ≠ 0 ∧ (nakMrsp (.router t57) [t57] 6).firstReason = 6) ∧
    (flightOp (inAir (unicast 5 2)) 9 = some (unicast 5 2) ∧ (unicast 5 2).resent = false ∧
      flightOp (inAir (unicast 2 2)) 9 = some (unicast 2 2) ∧ (unicast 2 2).multi = false) ∧
    (waferRepeat.root.confirm.find? (fun e => !e.failed) = some { act := aStill, repeatAt := some 7000 } ∧
      ∀ e ∈ base.root.confirm, e.failed = true) ∧
    (47 < numFields ∧ (shimOf base 47).lost = false ∧ (shimOf base 47).fails = 0 ∧
      (shimOf { base with shims := [(47, { fails := 1 })] } 47).fails = 1 ∧
      (shimOf { base with shims := [(47, { fails := 1 })] } 47).lost = false ∧ base.alarm.enabled = false) := by
  decide +kernel

/-! Witnesses: the service port and the TAP -/

def portIs (f : PortState → PortState) (s : State) : State := { s with port := f s.port }
def linked : State := portIs (fun p => { p with blockLock := true }) base
def unackedAt (n seq : Nat) : State := portIs (fun p => { p with unacked := (List.range n).map (fun i => { seq := (seq + i) % 4096 }) }) linked
def resettingTo (g : Nat) : State := portIs (fun p => { p with resetting := some g }) linked
def lockLost (t : Nat) : State := portIs (fun p => { p with blockLock := false, lockLostAt := t }) base
/-- NOP of session 7 with TAG 1 and REQ_ID 5 as a DATA frame of GEN 0 and SEQ 0, written out from 13 R404, R405 and R411. -/
def nopOctets : List Byte :=
  [0x01, 0x00, 0x00, 0x00, 0x10, 0x00, 0x00, 0x00, 0x04, 0x00, 0x01, 0x00, 0x00, 0x00, 0x00, 0x00, 0x07, 0x00, 0x05, 0x00, 0x00, 0x00, 0x00, 0x00, 0x79, 0x31, 0x14, 0xD1]
def badOctets : List Byte := nopOctets.set 20 0x06
def sentAs (seq op : Nat) : List Byte := frameOctets 0 0 seq 0 1 (le 1 op ++ zeros 7 ++ le 2 7 ++ le 6 5)

theorem test_frame :
    parseFrame nopOctets = { crcOk := true, gen := 0, length := 16, rxLength := 16, ty := 1, opcode := 4, tag := 1, session := 7, reqId := 5 } ∧
    (parseFrame badOctets).crcOk = false := by decide +kernel

theorem meets_TheLinkCarriesFrames :
    State.reset.port.opened = false ∧
    ((unackedAt 2 4095).port.opened = true ∧ (unackedAt 2 4095).port.blockLock = true ∧
      (unackedAt 2 4095).port.unacked = { seq := 4095 } :: [{ seq := 0 }] ∧ (1 + 4096 - 4095) % 4096 = 2 ∧
      (4095 + 4096 - 4095) % 4096 = 0) ∧
    (linked.port.unacked = [] ∧ (unackedAt 1 0).port.unacked ≠ [] ∧ (unackedAt 1 0).port.timeouts < 15) ∧
    ((portIs (fun p => { p with timeouts := 15 }) (unackedAt 1 0)).port.timeouts = 15 ∧
      (portIs (fun p => { p with timeouts := 15 }) (unackedAt 1 0)).port.resetting = none) ∧
    (linked.port.opened = true ∧ linked.port.resetting = none ∧ linked.port.blockLock = true) ∧
    ((lockLost 0).port.blockLock = false ∧ now (lockLost 0) = 1000 ∧ (lockLost 0).port.resetting = none ∧
      (let s : State := { lockLost 0 with time := { base.time with hub := 1001 } }
       s.port.opened = true ∧ s.port.resetting = none ∧ s.port.blockLock = false ∧ s.port.lockLostAt + 1000 < now s)) ∧
    ((lockLost 0).time.flock ≠ 3 ∧
      (let s : Nat → Nat → State := fun a n => { lockLost 0 with time := { base.time with flock := 3, align := a, holdSince := some 5, hub := n } }
       (s 1 1001).time.align ≠ 2 ∧ (∀ h, (s 2 1000005).time.holdSince = some h → now (s 2 1000005) ≤ h + 1000000) ∧
         (s 2 1000006).time.flock = 3 ∧ (s 2 1000006).time.align = 2 ∧ 5 + 1000000 < now (s 2 1000006))) ∧
    (linked.port.storm = false ∧ 1 ≠ linked.port.gen ∧
      (portIs (fun p => { p with linkUp := true }) linked).port.linkUp = true ∧
      (portIs (fun p => { p with linkUp := false }) linked).port.linkUp = false) ∧
    ((resettingTo 5).port.resetting = some 5 ∧ (resettingTo 5).port.opened = true ∧ (resettingTo 5).port.blockLock = true) ∧
    ((parseFrame badOctets).crcOk = false ∧ linked.port.nakSent = false ∧ (parseFrame nopOctets).gen = linked.port.gen ∧
      (parseFrame nopOctets).ty = 1 ∧ (parseFrame nopOctets).linkRsvd = false ∧ (parseFrame nopOctets).body.length ≤ 2032 ∧
      (parseFrame nopOctets).length ≤ 2048 ∧ (parseFrame nopOctets).length = (parseFrame nopOctets).rxLength ∧
      (parseFrame (sentAs 1 4)).crcOk = true ∧ (parseFrame (sentAs 1 4)).seq ≠ linked.port.rxSeq ∧
      (parseFrame nopOctets).seq = linked.port.rxSeq ∧ (parseFrame nopOctets).session ≠ 65535 ∧ linked.sess.assembling = [] ∧
      (parseFrame nopOctets).frag = 0 ∧ knownOpcode (parseFrame nopOctets).opcode = true ∧ (parseFrame nopOctets).hdrRsvd = false ∧
      (parseFrame nopOctets).flags < 4 ∧ (parseFrame nopOctets).bodyLength = (parseFrame nopOctets).body.length ∧
      knownOpcode (parseFrame (sentAs 0 9)).opcode = false) := by
  decide +kernel

theorem meets_FramesReadBack :
    ((65535 : Nat) < 65536 ∧ (zeros 2048).length ≤ 2048) ∧ (zeros 2032).length ≤ 2032 ∧
    (8 ≤ (zeros 8).length ∧ (zeros 4).length = 4 ∧ unle (zeros 4) ≠ crc32 (zeros 8)) := by decide +kernel

def tapIs (f : TapState → TapState) : State := { base with tap := f base.tap }
def mailbox (ws : List Word) : State := tapIs (fun t => { t with ir := 0x10, alive := true, reqBuf := ws })
/-- NOP under session 0xFFFF: word 0 holds OPCODE 0x04, word 1 SESSION and REQ_ID 1. -/
def nopWords : List Word := [0x04, 0x1FFFF]

theorem meets_TheMailboxServes :
    (State.reset.tap.alive = false ∧ base.lc.code ≠ 4 ∧ base.lc.code ≠ 255 ∧
      ({ base with lc := { base.lc with code := 2 } } : State).lc.code = 2 ∧ ({ base with lc := { base.lc with code := 4 } } : State).lc.code = 4) ∧
    (base.tap.ir ≠ 0x11 ∧ base.tap.ir ≠ 0x10) ∧
    (let s := fun n => tapIs (fun t => { t with ir := 0x11, reqBuf := List.replicate n 0 })
     (s 255).tap.ir = 0x11 ∧ mboxIdle (s 255).tap = true ∧ (s 255).tap.reqBuf.length = 255 ∧ (s 256).tap.reqBuf.length = 256 ∧
      mboxIdle (s 256).tap = true) ∧
    ((tapIs (fun t => { t with ir := 0x11, respBuf := [1, 2] })).tap.respBuf = [1, 2] ∧
      (tapIs (fun t => { t with ir := 0x11, respBuf := [1] })).tap.respWait = [] ∧ base.tap.respBuf = []) ∧
    ((mailbox []).tap.ir = 0x10 ∧ (mailbox []).tap.alive = true ∧ mboxIdle (mailbox []).tap = true ∧ (mailbox []).tap.overflow = false ∧
      (tapIs (fun t => { t with ir := 0x10, alive := true, overflow := true })).tap.overflow = true) ∧
    ((mailbox [0, 0]).tap.reqBuf.length = 2 ∧ (mboxFragment [0, 0]).session ≠ 65535 ∧ (mailbox [0, 0]).tap.discard = false) ∧
    (let f := mboxFragment nopWords
     f.session = 65535 ∧ f.frag = 0 ∧ f.opcode = 4 ∧ knownOpcode f.opcode = true ∧ f.hdrRsvd = false ∧ f.flags < 4 ∧
      f.bodyLength = f.body.length ∧ (mailbox nopWords).sess.assembling = []) := by
  decide +kernel

/-! Witnesses: the block as a whole -/

theorem meets_StepTakesFront :
    base.pending = [] ∧ base.time.running = true ∧ State.reset.time.running = false ∧ base.txn.pressed = false ∧ base.rill.flows = [] ∧
    (∀ w ∈ base.rill.weirs, weirBusy w.2 = false) := by decide
theorem meets_ClosedPortTakesNothing :
    requestHdr (.nop hd) = some hd ∧ hd.session ≠ 65535 ∧ State.reset.port.opened = false := by decide

theorem canonical_reset : Canonical State.reset := by
  unfold Canonical mapsWf
  decide

theorem meets_CanonicalKept : Canonical State.reset ∧ ∃ t, step State.reset = .next t := ⟨canonical_reset, _, rfl⟩
theorem meets_SessionsStaySound : SessionsSound base ∧ ∃ t, step base = .next t := by
  refine ⟨?_, _, rfl⟩
  unfold SessionsSound
  decide
theorem meets_OtpNeverClears : ∃ t, step base = .next t := ⟨_, rfl⟩

/-! Witnesses: rules stated as they stand -/

theorem meets_FarTicksAreRefused :
    AsIntrusive base hd ∧ now base + 2 ^ 40 < 2 ^ 41 ∧ base.time.lstill ≤ 2 ^ 40 ∧ base.root.queue.length < 63 ∧
    base.root.stepKind = 0 ∧ recBusy base = false ∧ regionState base = true ∧ holdsStill base 14 = false ∧
    takeBarred base = false ∧ txnCommitted base = false :=
  ⟨intrusive_of (by decide), by decide⟩

theorem meets_ComparisonsRaiseByRight :
    (AsObserver (printed seen true) hd ∧ (printed seen true).cfg.skS = false ∧
      ownFp (printed seen true) 2 9 3 = some (rec0 0 5 true) ∧ isIntrusive (printed seen true) 7 = false) ∧
    (AsObserver (printed base true) hd ∧ isIntrusive (printed base true) 7 = true ∧
      fpOutcome (rec0 0 5 true) [rec0 1 6 true, rec0 2 6 true] = 2 ∧ fpOutcome (rec0 0 5 true) [rec0 1 5 true] = 0) :=
  ⟨⟨observer_of (by decide), by decide⟩, observer_of (by decide), by decide⟩

theorem meets_IdcodeReads : base.lc.code ≠ 255 ∧ ({ base with lc := { base.lc with code := 255 } } : State).lc.code = 255 := by decide

def regionHang : State := { busyIn { busy3 with hang := { en := true } } with
  root := { base.root with regionsStill := 2 }
  alarm := { base.alarm with enabled := true, wires := [(3, rose)] } }

theorem meets_HangIsRecordedUnderRegion :
    (coreUp (tileOf regionHang t57) = true ∧ NoBank regionHang t57 ∧ EddyReady regionHang t57 ∧ hangCounts (tileOf regionHang t57) = true) ∧
    (regionHang.rill.inService = true ∧ 8 &&& drivenClasses regionHang = 8 ∧ regionStands regionHang = true ∧
      regionHang.alarm.enabled = true ∧ recRuns regionHang = false) :=
  ⟨⟨by decide, by unfold NoBank; decide, ⟨rfl, rfl, rfl, rfl, rfl, rfl, rfl, (by decide : 0 < ringDepth base)⟩, by decide⟩, by decide⟩

/-! Single steps and worked examples of the spec -/

def after (c : Instr) (s : State) : State :=
  match exec c s with
  | .next t => t
  | _ => s
def replies (c : Instr) (s : State) : List Response := sent (after c s)

/-- 00 R13: a zero-length write to tile SRAM from an observer session returns DENIED (5) and not EMPTY. -/
theorem test_order_of_outcomes :
    (replies (.memWrite hd (3 * 2 ^ 56 + 2 ^ 51) [] true) seen).map (·.status) = [5] := by decide +kernel

/-- 13 R426: HUB_INFO answers 40 bytes: 36 and the firmware version's 4. -/
theorem test_hub_info : (replies (.hubInfo hd0) base).map (fun r => (r.status, r.body.length)) = [(0, 40)] := by decide

/-- 03, example "aligning one engine": c = +1,730 before any plan is loaded steps hub time forward by 1,730 ns. -/
theorem test_time_step : now (after (.timeAdjust hd 1730) base) = now base + 1730 := by decide
/-- 03, the same example: with the step barred, c = +12 steers. -/
theorem test_time_steer :
    (let t := after (.timeAdjust hd 12) queued; (now t, t.time.steering, t.time.steerRemain)) = (now queued, true, 12) := by decide
/-- 03 R101: at 100 ppm the 12 ns take 120 µs. -/
theorem test_steer_done :
    (let s := after (.timeAdjust hd 12) queued; let t := after .steerDone s; (now t - now s, t.time.steering, t.time.align)) = (120000, false, 2) := by
  decide

/-- 04 R116: an accepted STILL_AT is queued for its tick. -/
theorem test_still_at :
    (let t := after (.stillAt hd 500000 0) base; (t.root.queue.map (·.tick), (sent t).map (·.status))) = ([500000], [0]) := by decide

/-- 08, example "four elements": the table of mix. -/
theorem test_mix :
    [mix 0 0x3F80, mix 1 0xC000, mix 2 0x3F00, mix 3 0x4040] =
      [0x77E78DCDFD52C14D, 0x70FD8E9B80F28AC8, 0xCD4A3E28DC2A918E, 0x642426709BE1AB05] := by decide +kernel

/-- bfloat16 elements at the start of line 0, with the slice's base, row length and stride. -/
def bf16 (data : BitVec 512) (bytes base rowlen stride : Nat) : Acc :=
  plainLine { fmt := 2, histBase := -40, len := bytes, base := base, rowlen := rowlen, stride := stride } none
    { data := data, be := BitVec.allOnes 64 } {}
/-- 08, the same example: the fingerprints of tiles A, B, P and Q. -/
theorem test_fingerprints :
    [(bf16 0xC0003F80 4 0 2 0).fingerprint, (bf16 0x40403F00 4 2 2 0).fingerprint, (bf16 0x3F003F80 4 0 1 2).fingerprint,
      (bf16 0x4040C000 4 1 1 2).fingerprint] =
      [0xE8E51C697E454C15, 0x316E6499780C3C93, 0x4531CBF6D97D52DB, 0xD521B50C1CD435CD] := by decide +kernel
/-- 08, the same example: the other results: SUM 2.5, SUMSQ 14.25, MAX and ABSMAX 3.0, MIN −2.0, and the histogram. -/
theorem test_dip_results :
    (let a := bf16 0x40403F00C0003F80 8 0 4 0
     (a.elements, a.sumF64, a.sumSq) = (4, 0x4004000000000000, 0x402C800000000000) ∧
      (a.max, a.min, a.absmax) = (0x40400000, 0xC0000000, 0x40400000) ∧
      (mget 0 a.expBins 40, mget 0 a.expBins 41, mget 0 a.expBins 42) = (1, 1, 2) ∧ (a.fingerprint = 0x1A538102F65188A8)) := by
  decide +kernel

/-- 07, example "one step": coefficients m 1, b 0, R −1. -/
def metered : State := { base with cfg := { base.cfg with pmM := 1, pmB := 0, pmR := -1 } }
/-- 07, the same example: the interval's energy is 29,100,000 µJ. -/
theorem test_interval_energy :
    einEnergy metered ⟨0x41, 0x6F00, 0x123456, 7438226000000, 0⟩ ⟨0x42, 0x60AC, 0x123460, 7438227000000, 0⟩ = 29100000 := by decide
/-- 07, the same example: J_PER_TOKEN 55.585546875 and AVG_POWER_W 29,100.0 as binary64. -/
theorem test_step_record :
    (let r := ledgerRates base { step := 52100, noTokens := false, tokens := 2048, energy := 113839200000, start := 7438226000000, end_ := 7442138000000 }
     (r.jPerToken, r.avgPower)) = (0x404BCAF333333333, 0x40DC6B0000000000) := by decide +kernel

/-- 02 R45: a packet of a reserved KIND is dropped and counted as malformed. -/
theorem test_reserved_kind : (tileOf (after (.rillPacketArrive (.router t57) 2 { kind := 9, dest := rillCoord t57 }) base) t57).hang.malformed = 1 := by decide +kernel
/-- 02 R75: the third slip within 1 s marks the link down. -/
theorem test_third_slip :
    (let w := 4 * tileAt 95 0 + 1
     let s := after .steerDone base
     let t := fun s => after (.weirRetrainDone w) (after (.weirSlip w 6) s)
     ((weirOf (t (t s)) w).down, (weirOf (t (t (t s))) w).down)) = (false, true) := by decide +kernel
/-- 13 R438: IDCODE is 0x15C0F54F. -/
theorem test_idcode : (after (.tapInstruction 1) base).tap.capture = 0x15C0F54F := by decide
/-- 13 R439: a word beyond 2,048 bytes sets OVERFLOW. -/
theorem test_mailbox_overflow :
    (after (.mboxDataWrite 1) (tapIs (fun t => { t with ir := 0x11, reqBuf := List.replicate 256 0 }))).tap.overflow = true := by decide +kernel

/-! Commands that are not well formed: for each check one that the check refuses, beside one that it lets pass -/

def badHeaders : List ReqHdr :=
  [{ hd with opcode := 256 }, { hd with session := 65536 }, { hd with tag := 1024 }, { hd with reqId := 2 ^ 48 }, { hd with defect := 65536 }]
def badSets : List TileSet :=
  [{ x0 := 1024 }, { x1 := 1024 }, { y0 := 512 }, { y1 := 512 }, { xstep := 0 }, { xstep := 17 }, { ystep := 0 }, { ystep := 17 },
    { lx0 := 1024 }, { lx1 := 1024 }, { ly0 := 512 }, { ly1 := 512 }]
def badDests : List Dest := [{ endpoint := 2 ^ 64 }, { base := 2 ^ 64 }, { limit := 2 ^ 64 }, { key := 2 ^ 32 }]
def refused (l : List Instr) : Bool := l.all (fun i => !WellFormed.wf i)
def passed (l : List Instr) : Bool := l.all WellFormed.wf

theorem wf_headers : refused (badHeaders.map .nop) = true ∧ passed [.nop hd, .nop hd0] = true := by decide
theorem wf_sets :
    refused (badSets.map (fun d => .census hd d 0 0 0 0)) = true ∧ passed [.census hd oneTile 0 0 0 7] = true ∧
    refused [.traceDrain hd (some { x0 := 1024 }), .eddyRead hd none [2 ^ 64] 1] = true ∧ passed [.traceDrain hd none] = true := by decide
theorem wf_places :
    refused [.hang 368640, .mendNow hd 368640, .foldEpochClose (.router 368640) 1, .foldEpochClose (.junction 48) 1, .foldEpochClose (.port 8) 1,
      .cowAck 48, .logWritten 32, .mcastCopy (.router 368640) 0 ([], true), .rillPacketArrive (.port 8) 0 {}] = true ∧
    passed [.hang 368639, .foldEpochClose (.junction 47) 1, .foldEpochClose (.port 7) 1, .foldEpochClose .centre 1, .cowAck 47, .logWritten 31] = true := by
  decide
theorem wf_requests :
    refused [.sessionOpen hd 256, .grant hd 0 (2 ^ 32) 0 0 0 0, .grant hd 0 0 (2 ^ 192 * 2 ^ 192) 0 0 0, .powerState hd 256, .memRead hd (2 ^ 64) 0,
      .memRead hd 0 (2 ^ 32), .memWrite hd (2 ^ 64) [] true, .springErase hd (2 ^ 32) 0, .mcastWrite hd oneTile 256 0 [],
      .census hd oneTile 0 0 0 8, .timeExchange hd (2 ^ 64) 0, .timeAdjust hd (2 ^ 63), .timeAdjust hd (-(2 ^ 63) - 1),
      .measureTime hd [(48, 0)], .measureTime hd [(0, 65536)], .stillAt hd (2 ^ 64) 0, .stillAt hd 0 256, .stepTick hd 0 0 (2 ^ 32),
      .stepCmd hd 0 0 256 1, .actionCancel hd 0 0 256, .regionSet hd 256 true 0 0 0 0, .regionSet hd 0 true 65536 0 0 0] = true ∧
    passed [.timeAdjust hd (-(2 ^ 63)), .measureTime hd [(47, 65535)], .stepCmd hd 0 255 255 (2 ^ 32 - 1)] = true := by decide +kernel
theorem wf_tiles :
    refused [.timeMark 0 (2 ^ 48) (true, true), .stillWordCapture 0 (2 ^ 16) 0 false false, .stillWordCapture 0 0 (2 ^ 32) false false, .stillAct 0 65536 false, .edgeStillAct 0 8 0,
      .sramWrite 0 { line := 1024 }, .sramWrite 0 { tag := 256 }, .descArrive 0 { tag := 256 }, .descArrive 0 { lines := 128 }, .descClose 0 256,
      .dipAccClose 0 (4, false), .snoopFrameClose 0 (4, false), .stillCopyHoldEnd 0 4 true, .commandStart 0 { layer := 65536 } {}, .commandEnd 0 ({ runs := [{ n := 1, engines := List.replicate 3 {} }] }, false), .contextSwitch 0 4 0,
      .tileErrorEvent 0 35 0 0, .tileErrorEvent 0 42 0 0, .waitDescriptor 0 4 0, .coldReset 16 0, .lastGasp 0] = true ∧
    passed [.tileErrorEvent 0 36 1023 3, .tileErrorEvent 0 41 0 0, .commandEnd 0 ({ runs := [{ n := 1, engines := List.replicate 4 {} }] }, true), .lastGasp 1] = true := by decide
theorem wf_plans :
    refused [.watchLoad hd 256 0 [], .watchLoad hd 1 0 [.comparator {} 4 0 0 0 0], .watchLoad hd 1 0 [.binding 16 0 0 0 0],
      .watchLoad hd 1 0 [.binding 0 8 0 0 0], .watchLoad hd 1 0 [.condition 0 0 8 false 0 0], .watchLoad hd 1 0 [.dip { slot := 4 }],
      .watchLoad hd 1 0 [.capture { slot := 4 }], .foldLoad hd 1 [{ foldId := 256 }], .foldLoad hd 1 [{ vlen := 256 }],
      .cntLoad hd 1 [{ keys := List.replicate 16 0 }], .cntLoad hd 1 [{ epochTmo := 65536 }], .traceLoad hd 1 [{ flushUs := 65536 }],
      .txnOpen hd 65536 0, .txnAdd hd 1 [{ ctxEpoch := 256 }], .txnAdd hd 1 [{ items := [{ kind := 16 }] }],
      .txnAdd hd 1 [{ items := [{ data := List.replicate 512 0 }] }], .stage 0 { ltn := 2 ^ 19 }] = true ∧
    refused (badDests.map (fun d => .watchDrain hd 0 none d)) = true ∧
    passed [.watchLoad hd 255 0 [.comparator {} 3 0 0 0 0], .cntLoad hd 1 [{ keys := List.replicate 15 0 }], .watchDrain hd 0 none {}] = true := by
  decide +kernel
theorem wf_links :
    refused [.rillPacketArrive (.router 0) 0 { kind := 16 }, .rillPacketArrive (.router 0) 16 {}, .mcastCopy (.router 0) (2 ^ 15) ([], true),
      .mcastCopy (.router 0) 0 ([11], true), .mcastBranchTimeout (.router 0) 0 11, .rillReply (2 ^ 15, true),
      .mreadArrive .centre .centre (2 ^ 25) 0 (0, true), .mreadArrive .centre .centre 0 512 (0, true), .weirSlip 0 8, .copyout 0 65536 0, .dataFrame (zeros 4108) false,
      .ackFrame 65536 0, .nakFrame 0 4096 0, .lreset 65536, .tapInstruction 256, .copyDone 0 0 3] = true ∧
    passed [.rillPacketArrive (.router 0) 15 { kind := 15 }, .mcastCopy (.junction 0) 32767 ([10], false), .dataFrame (zeros 4107) false, .lreset 65535] = true := by decide +kernel

end Sys2Proof.Tests
end

section
/-! Every command completes, and none touches the queue of waiting commands (00 R12 to R14). Each function that makes a state
leaves the queue as it was: one lemma a function, in the order of the model's files, cited for the functions that call it.
A command's own lemma says with `Completes` that it answers such a state. Where a function names a table of the whole wafer or a
large constant, its proof names the lemmas one by one instead of leaving them to `simp`: the kernel would compute the table. -/

namespace Sys2Proof.Machine

/-- The command answers a next state, whose queue of waiting commands is that of `s`. -/
def Completes (s : State) (o : Host.Outcome State Fault Refusal) : Prop := ∃ t, o = .next t ∧ t.pending = s.pending

@[simp] theorem completes_next (s t : State) : Completes s (.next t) ↔ t.pending = s.pending := by simp [Completes]

/-! Choices and repetitions -/

@[simp] theorem ite_pending {c : Prop} {_ : Decidable c} (a b : State) :
    (if c then a else b).pending = if c then a.pending else b.pending := apply_ite State.pending c a b

@[simp] theorem when_pending (c : Bool) (f : State → State) (s : State) :
    (when c f s).pending = if c then (f s).pending else s.pending := by
  cases c <;> rfl

@[simp] theorem foldl_pending {α : Type} (f : State → α → State) (hf : ∀ s a, (f s a).pending = s.pending) (l : List α)
    (s : State) : (l.foldl f s).pending = s.pending := by
  induction l generalizing s with
  | nil => rfl
  | cons a l ih => rw [List.foldl_cons, ih, hf]

/-- An event whose condition does not hold changes nothing (log 2). -/
theorem completes_when {c : Bool} {f : State → State} {s : State} (hf : Completes s (.next (f s))) :
    Completes s (.next (when c f s)) := by
  cases c
  · simp
  · exact hf

/-! Parts of the state -/

@[simp] theorem onTiles_pending (ts : List Nat) (f : Nat → Tile → Tile) (s : State) : (onTiles ts f s).pending = s.pending := by
  simp [onTiles]
@[simp] theorem setW1c_pending (o m : Nat) (s : State) : (setW1c o m s).pending = s.pending := by simp [setW1c]
@[simp] theorem failWell_pending (s : State) : (failWell s).pending = s.pending := by simp [failWell]

/-! Sending, answering and admitting -/

@[simp] theorem onSession_pending (id : Nat) (f : Session → Session) (s : State) : (onSession id f s).pending = s.pending := by
  simp [onSession]
@[simp] theorem portSend_pending (r : Response) (s : State) : (portSend r s).pending = s.pending := by simp [portSend]
@[simp] theorem mboxSend_pending (r : Response) (s : State) : (mboxSend r s).pending = s.pending := by simp [mboxSend]
@[simp] theorem send_pending (r : Response) (s : State) : (send r s).pending = s.pending := by simp [send]

@[simp] theorem respond_pending (h : ReqHdr) (st : Status) (body : List Byte) (s : State) :
    (respond h st body s).pending = s.pending := by
  unfold respond
  split <;> simp

@[simp] theorem fail_pending (h : ReqHdr) (c : Check) (s : State) : (fail h c s).pending = s.pending := by simp [fail]

@[simp] theorem respondOpt_pending (h : Option ReqHdr) (st : Status) (body : List Byte) (s : State) :
    (respondOpt h st body s).pending = s.pending := by
  unfold respondOpt
  split <;> simp

@[simp] theorem register_pending (k : ReqKind) (h : ReqHdr) (s : State) : (register k h s).pending = s.pending := by
  simp [register]
@[simp] theorem turnAway_pending (h : ReqHdr) (c : Check) (s : State) : (turnAway h c s).pending = s.pending := by simp [turnAway]
@[simp] theorem wake_pending (k : ReqKind) (s : State) : (wake k s).pending = s.pending := by simp [wake]
@[simp] theorem repeatReply_pending (h : ReqHdr) (e : CacheEntry) (s : State) : (repeatReply h e s).pending = s.pending := by
  unfold repeatReply
  split <;> simp
@[simp] theorem takeUp_pending (h : ReqHdr) (s : State) : (takeUp h s).pending = s.pending := by simp [takeUp]

@[simp] theorem serve_pending (k : ReqKind) (h0 : ReqHdr) (checks : ReqHdr → State → List Check)
    (act : ReqHdr → State → State) (hact : ∀ h t, (act h t).pending = t.pending) (s : State) :
    (serve k h0 checks act s).pending = s.pending := by
  unfold serve
  dsimp only
  split
  · rfl
  · split
    · simp
    · split
      · split <;> simp
      · simp [hact]

@[simp] theorem request_completes (k : ReqKind) (h0 : ReqHdr) (checks : ReqHdr → State → List Check)
    (act : ReqHdr → State → State) (s : State) (hact : ∀ h t, (act h t).pending = t.pending) :
    Completes s (request k h0 checks act s) := by
  simp [request, hact]

@[simp] theorem okWith_pending (body : State → List Byte) (h : ReqHdr) (s : State) : (okWith body h s).pending = s.pending := by
  simp [okWith]

/-! Hub time and the action queue -/

@[simp] theorem markLoaded_pending (plan : Nat) (s : State) : (markLoaded plan s).pending = s.pending := by simp [markLoaded]
@[simp] theorem switchWatch_pending (s : State) : (switchWatch s).pending = s.pending := by simp [switchWatch]
@[simp] theorem startLedger_pending (t : Nat) (s : State) : (startLedger t s).pending = s.pending := by simp [startLedger]

@[simp] theorem pressCentre_pending (s : State) : (pressCentre s).pending = s.pending := by
  unfold pressCentre
  split
  · rfl
  · extract_lets s1 s2
    have h2 : s2.pending = s.pending := by
      unfold s2
      split <;> rfl
    split <;> simp [h2]

@[simp] theorem reachTick_pending (s : State) : (reachTick s).pending = s.pending := by simp [reachTick]
@[simp] theorem elapse_pending (t : Nat) (s : State) : (elapse t s).pending = s.pending := by simp [elapse]
@[simp] theorem enqueue_pending (kind scope tick origin txn : Nat) (s : State) :
    (enqueue kind scope tick origin txn s).pending = s.pending := by simp [enqueue]
@[simp] theorem enqueueOwn_pending (kind scope lo origin : Nat) (s : State) :
    (enqueueOwn kind scope lo origin s).pending = s.pending := by simp [enqueueOwn]
@[simp] theorem pumpOwn_pending (s : State) : (pumpOwn s).pending = s.pending := by
  unfold pumpOwn
  split <;> simp
@[simp] theorem unqueue_pending (p : StillAction → Bool) (s : State) : (unqueue p s).pending = s.pending := by simp [unqueue]
@[simp] theorem dropStep_pending (s : State) : (dropStep s).pending = s.pending := by simp [dropStep]

/-! Eddy rings -/

@[simp] theorem recordAt_pending (t time code data : Nat) (s : State) : (recordAt t time code data s).pending = s.pending := by
  simp [recordAt]
@[simp] theorem record_pending (t code data : Nat) (s : State) : (record t code data s).pending = s.pending := by simp [record]
@[simp] theorem recordLate_pending (t action scope tick : Nat) (s : State) :
    (recordLate t action scope tick s).pending = s.pending := by simp [recordLate]
@[simp] theorem recordKind_pending (t code k data : Nat) (s : State) : (recordKind t code k data s).pending = s.pending := by
  simp [recordKind]
@[simp] theorem thaw_pending (t : Nat) (s : State) : (thaw t s).pending = s.pending := by simp [thaw]

/-! Marks -/

@[simp] theorem beginMark_pending (s : State) : (beginMark s).pending = s.pending := by simp [beginMark]
@[simp] theorem startPeriods_pending (s : State) : (startPeriods s).pending = s.pending := by simp [startPeriods]

/-! How a recovery ends -/

@[simp] theorem wellPut_pending (a : Nat) (bs : List Byte) (s : State) : (wellPut a bs s).pending = s.pending := by simp [wellPut]
@[simp] theorem putWellHead_pending (w : CrashWrite) (s : State) : (putWellHead w s).pending = s.pending := by simp [putWellHead]
@[simp] theorem closeCrash_pending (s : State) : (closeCrash s).pending = s.pending := by
  unfold closeCrash
  split <;> simp

@[simp] theorem setOutcome_pending (outcome : Nat) (s : State) : (setOutcome outcome s).pending = s.pending := by
  unfold setOutcome
  rw [event_pending, closeCrash_pending]
  split <;> rfl

@[simp] theorem endRecovery_pending (outcome : Nat) (s : State) : (endRecovery outcome s).pending = s.pending := by
  simp [endRecovery]
@[simp] theorem enterRom_pending (reason : Nat) (s : State) : (enterRom reason s).pending = s.pending := by simp [enterRom]
@[simp] theorem mendMapFailed_pending (s : State) : (mendMapFailed s).pending = s.pending := by simp [mendMapFailed]

/-! Transactions as the centre runs them -/

@[simp] theorem discardStaged_pending (t cause : Nat) (s : State) : (discardStaged t cause s).pending = s.pending := by
  simp [discardStaged]
@[simp] theorem rinseStub_pending (id t : Nat) (s : State) : (rinseStub id t s).pending = s.pending := by simp [rinseStub]
@[simp] theorem dropPurpose_pending (p : Nat) (s : State) : (dropPurpose p s).pending = s.pending := by
  unfold dropPurpose
  split <;> simp
@[simp] theorem beginStaging_pending (x : Txn) (s : State) : (beginStaging x s).pending = s.pending := by simp [beginStaging]
@[simp] theorem nextCentre_pending (s : State) : (nextCentre s).pending = s.pending := by
  unfold nextCentre
  split <;> simp
@[simp] theorem startCentreAt_pending (tick purpose tmo : Nat) (es : List TxnEntry) (reply : Option ReqHdr) (s : State) :
    (startCentreAt tick purpose tmo es reply s).pending = s.pending := by simp [startCentreAt]
@[simp] theorem startCentre_pending (purpose tmo : Nat) (es : List TxnEntry) (reply : Option ReqHdr) (s : State) :
    (startCentre purpose tmo es reply s).pending = s.pending := by simp [startCentre]
@[simp] theorem closeTxn_pending (st : Status) (body : List Byte) (s : State) : (closeTxn st body s).pending = s.pending := by
  unfold closeTxn
  split <;> simp
@[simp] theorem rinseTargets_pending (id : Nat) (ts : List Nat) (s : State) : (rinseTargets id ts s).pending = s.pending := by
  simp [rinseTargets]
@[simp] theorem closeRinsed_pending (cause : Nat) (x : Txn) (s : State) : (closeRinsed cause x s).pending = s.pending := by
  simp [closeRinsed]

@[simp] theorem rinseWith_pending (cause : Nat) (answered : Bool) (s : State) :
    (rinseWith cause answered s).pending = s.pending := by
  unfold rinseWith
  split <;> simp

@[simp] theorem rinseTxn_pending (cause : Nat) (s : State) : (rinseTxn cause s).pending = s.pending := by simp [rinseTxn]
@[simp] theorem placePress_pending (s : State) : (placePress s).pending = s.pending := by
  unfold placePress
  split <;> simp
@[simp] theorem rinseForAlarm_pending (s : State) : (rinseForAlarm s).pending = s.pending := by
  unfold rinseForAlarm
  split <;> simp
@[simp] theorem fixedTxn_pending (s : State) : (fixedTxn s).pending = s.pending := by
  unfold fixedTxn
  split <;> simp
@[simp] theorem answerOwed_pending (s : State) : (answerOwed s).pending = s.pending := by simp [answerOwed]
@[simp] theorem sessionTxn_pending (id : Nat) (s : State) : (sessionTxn id s).pending = s.pending := by
  unfold sessionTxn
  split <;> simp

/-! Trace partitions -/

@[simp] theorem onPartitions_pending (f : Partition → Partition) (s : State) : (onPartitions f s).pending = s.pending := by
  simp [onPartitions]
@[simp] theorem traceTrigger_pending (cs : BitVec 16) (s : State) : (traceTrigger cs s).pending = s.pending := by
  unfold traceTrigger
  split <;> simp
@[simp] theorem sendChunk_pending (t : Nat) (s : State) : (sendChunk t s).pending = s.pending := by simp [sendChunk]
@[simp] theorem setCredit_pending (s : State) : (setCredit s).pending = s.pending := by
  unfold setCredit
  split <;> simp
@[simp] theorem flushStub_pending (t : Nat) (s : State) : (flushStub t s).pending = s.pending := by simp [flushStub]
@[simp] theorem drainParts_pending (d : Dest) (ps : List Partition) (s : State) : (drainParts d ps s).pending = s.pending := by
  simp [drainParts]
@[simp] theorem sendParts_pending (n : Nat) (s : State) : (sendParts n s).pending = s.pending := by simp [sendParts]
@[simp] theorem paceSend_pending (die : Nat) (s : State) : (paceSend die s).pending = s.pending := by simp [paceSend]

/-! Snapshots as the centre keeps them -/

@[simp] theorem onPond_pending (p : Nat) (f : Pond → Pond) (s : State) : (onPond p f s).pending = s.pending := by simp [onPond]
@[simp] theorem setResLow_pending (s : State) : (setResLow s).pending = s.pending := by simp [setResLow]
@[simp] theorem freeSlots_pending (s : State) : (freeSlots s).pending = s.pending := by simp [freeSlots]
@[simp] theorem recomputeCurrent_pending (s : State) : (recomputeCurrent s).pending = s.pending := by simp [recomputeCurrent]
@[simp] theorem endDrain_pending (st : Status) (body : List Byte) (s : State) : (endDrain st body s).pending = s.pending := by
  simp [endDrain]
@[simp] theorem retirePond_pending (p : Nat) (s : State) : (retirePond p s).pending = s.pending := by simp [retirePond]
@[simp] theorem copyImage_pending (k : SnapTake) (bad : Bool) (t : Nat) (s : State) :
    (copyImage k bad t s).pending = s.pending := by simp [copyImage]
@[simp] theorem shimFault_pending (f message fault number : Nat) (s : State) :
    (shimFault f message fault number s).pending = s.pending := by simp [shimFault]
@[simp] theorem queueRelease_pending (origin : Nat) (s : State) : (queueRelease origin s).pending = s.pending := by
  simp [queueRelease]
@[simp] theorem snapActionDone_pending (s : State) : (snapActionDone s).pending = s.pending := by simp [snapActionDone]
@[simp] theorem releaseAfter_pending (k : SnapTake) (s : State) : (releaseAfter k s).pending = s.pending := by
  unfold releaseAfter
  split <;> simp
@[simp] theorem startTake_pending (id kind : Nat) (autoRel own forced : Bool) (t : Nat) (reply : Option ReqHdr) (s : State) :
    (startTake id kind autoRel own forced t reply s).pending = s.pending := by simp [startTake]
@[simp] theorem endLogs_pending (id : Nat) (s : State) : (endLogs id s).pending = s.pending := by simp [endLogs]
@[simp] theorem reportBreak_pending (cause : Nat) (s : State) : (reportBreak cause s).pending = s.pending := by simp [reportBreak]
@[simp] theorem breakSnap_pending (cause : Nat) (s : State) : (breakSnap cause s).pending = s.pending := by
  unfold breakSnap
  split <;> simp
@[simp] theorem breakHeld_pending (p cause : Nat) (s : State) : (breakHeld p cause s).pending = s.pending := by simp [breakHeld]
@[simp] theorem breakPond_pending (p cause : Nat) (s : State) : (breakPond p cause s).pending = s.pending := by simp [breakPond]
@[simp] theorem commitSnap_pending (s : State) : (commitSnap s).pending = s.pending := by
  unfold commitSnap
  split <;> simp
@[simp] theorem sealSnap_pending (tick : Nat) (s : State) : (sealSnap tick s).pending = s.pending := by
  unfold sealSnap
  split <;> simp
@[simp] theorem alarmSnap_pending (skip : Bool) (s : State) : (alarmSnap skip s).pending = s.pending := by simp [alarmSnap]

/-! Restoring and draining -/

@[simp] theorem undefineWafer_pending (s : State) : (undefineWafer s).pending = s.pending := by
  unfold undefineWafer
  rw [drawFree_pending, onEveryShim_pending, onEveryTile_pending]
@[simp] theorem writeImage_pending (epoch : Nat) (p : Nat × Image) (s : State) : (writeImage epoch p s).pending = s.pending := by
  unfold writeImage
  split <;> simp
@[simp] theorem breakFps_pending (q : Pond) (s : State) : (breakFps q s).pending = s.pending := by simp [breakFps]
@[simp] theorem answerRestore_pending (s : State) : (answerRestore s).pending = s.pending := by simp [answerRestore]
@[simp] theorem finishRestore_pending (s : State) : (finishRestore s).pending = s.pending := by simp [finishRestore]
@[simp] theorem tryFinish_pending (s : State) : (tryFinish s).pending = s.pending := by simp [tryFinish]
@[simp] theorem failRestore_pending (cause : Nat) (s : State) : (failRestore cause s).pending = s.pending := by simp [failRestore]
@[simp] theorem beginRestore_pending (p tr : Nat) (earliest recovery memKept : Bool) (reply : Option ReqHdr) (s : State) :
    (beginRestore p tr earliest recovery memKept reply s).pending = s.pending := by simp [beginRestore]

/-! Recoveries as the centre keeps them -/

@[simp] theorem leaveReady_pending (resumed : Nat) (s : State) : (leaveReady resumed s).pending = s.pending := by
  simp [leaveReady]
@[simp] theorem beginRecovery_pending (c : Nat) (s : State) : (beginRecovery c s).pending = s.pending := by simp [beginRecovery]

/-! The alarm root -/

@[simp] theorem dropReleases_pending (s : State) : (dropReleases s).pending = s.pending := by simp [dropReleases]

@[simp] theorem launchStillAt_pending (scope l : Nat) (s : State) : (launchStillAt scope l s).pending = s.pending := by
  unfold launchStillAt
  dsimp only
  split
  · simp
  · split <;> simp

@[simp] theorem launchAlarmStill_pending (scope : Nat) (s : State) : (launchAlarmStill scope s).2.pending = s.pending := by
  unfold launchAlarmStill
  split <;> simp
@[simp] theorem actOnStill_pending (r : AlarmAction) (strag : Bool) (s : State) : (actOnStill r strag s).pending = s.pending := by
  simp [actOnStill]
@[simp] theorem startAction_pending (c act : Nat) (s : State) : (startAction c act s).pending = s.pending := by
  simp [startAction, apply_ite Prod.snd]
@[simp] theorem abandonAction_pending (s : State) : (abandonAction s).pending = s.pending := by
  unfold abandonAction
  split <;> simp
@[simp] theorem startFixed_pending (s : State) : (startFixed s).pending = s.pending := by simp [startFixed]
@[simp] theorem clearWay_pending (act : Nat) (s : State) : (clearWay act s).pending = s.pending := by simp [clearWay]

@[simp] theorem decodeAction_pending (c act : Nat) (s : State) : (decodeAction c act s).pending = s.pending := by
  unfold decodeAction
  split
  · rfl
  · split
    · simp
    · split <;> simp

@[simp] theorem recordOutcome_pending (cs : BitVec 16) (s : State) : (recordOutcome cs s).pending = s.pending := by
  unfold recordOutcome
  split <;> simp
@[simp] theorem restartRecovery_pending (s : State) : (restartRecovery s).pending = s.pending := by simp [restartRecovery]
@[simp] theorem joinRecovery_pending (cs : BitVec 16) (s : State) : (joinRecovery cs s).pending = s.pending := by
  simp [joinRecovery]
@[simp] theorem acceptClasses_pending (cs : BitVec 16) (s : State) : (acceptClasses cs s).pending = s.pending := by
  simp [acceptClasses]
@[simp] theorem raiseClass_pending (c : Nat) (s : State) : (raiseClass c s).pending = s.pending := by simp [raiseClass]
@[simp] theorem loseDie_pending (s : State) : (loseDie s).pending = s.pending := by simp [loseDie]
@[simp] theorem driveClass_pending (c : Nat) (s : State) : (driveClass c s).pending = s.pending := by simp [driveClass]
@[simp] theorem stubAlarm_pending (t c : Nat) (s : State) : (stubAlarm t c s).pending = s.pending := by simp [stubAlarm]

/-! Register reads -/

@[simp] theorem latchTime_pending (o n : Nat) (s : State) : (latchTime o n s).pending = s.pending := by simp [latchTime]

/-! Register writes -/

@[simp] theorem degrade_pending (s : State) : (degrade s).pending = s.pending := by simp [degrade]
@[simp] theorem holdLock_pending (s : State) : (holdLock s).pending = s.pending := by simp [holdLock]
@[simp] theorem loseLock_pending (s : State) : (loseLock s).pending = s.pending := by simp [loseLock]

@[simp] theorem regainLock_pending (s : State) : (regainLock s).pending = s.pending := by
  unfold regainLock
  extract_lets s1 long s2
  split
  · rfl
  · split <;> simp [s1, s2]

@[simp] theorem writePortCtl_pending (v : Nat) (s : State) : (writePortCtl v s).pending = s.pending := by simp [writePortCtl]
@[simp] theorem centreWrite_pending (o v : Nat) (s : State) : (centreWrite o v s).pending = s.pending := by
  unfold centreWrite
  split <;> simp
@[simp] theorem agentWrite_pending (t o v : Nat) (s : State) : (agentWrite t o v s).pending = s.pending := by
  unfold agentWrite
  split <;> simp
@[simp] theorem edgeWrite_pending (d o v : Nat) (s : State) : (edgeWrite d o v s).pending = s.pending := by
  unfold edgeWrite
  split <;> simp
@[simp] theorem shimWrite_pending (f o v : Nat) (s : State) : (shimWrite f o v s).pending = s.pending := by simp [shimWrite]
@[simp] theorem writeRegs_pending (w : Nat → Nat → State → State) (hw : ∀ o v t, (w o v t).pending = t.pending)
    (o : Nat) (d : List Byte) (s : State) : (writeRegs w o d s).pending = s.pending := by
  simp [writeRegs, hw]

/-! Still censuses and steps -/

@[simp] theorem clearRegion15_pending (s : State) : (clearRegion15 s).pending = s.pending := by simp [clearRegion15]

@[simp] theorem retryLost_pending (scope : Nat) (named : List Nat) (s : State) :
    (retryLost scope named s).2.pending = s.pending := by
  unfold retryLost
  dsimp only
  split <;> simp

@[simp] theorem noteCount_pending (scope : Nat) (c : StillCount) (named : List Nat) (s : State) :
    (noteCount scope c named s).pending = s.pending := by simp [noteCount]
@[simp] theorem failCensus_pending (a : StillAction) (s : State) : (failCensus a s).pending = s.pending := by simp [failCensus]
@[simp] theorem closeStep_pending (s : State) : (closeStep s).pending = s.pending := by simp [closeStep]
@[simp] theorem startFullDrain_pending (s : State) : (startFullDrain s).pending = s.pending := by
  unfold startFullDrain
  split <;> simp

@[simp] theorem alarmOnStill_pending (scope : Nat) (strag : Bool) (s : State) :
    (alarmOnStill scope strag s).pending = s.pending := by
  unfold alarmOnStill
  split <;> simp

@[simp] theorem declareStill_pending (a : StillAction) (strag : Bool) (s : State) :
    (declareStill a strag s).pending = s.pending := by simp [declareStill]
@[simp] theorem finishStill_pending (a : StillAction) (s : State) : (finishStill a s).pending = s.pending := by simp [finishStill]
@[simp] theorem firstCensus_pending (a : StillAction) (s : State) : (firstCensus a s).pending = s.pending := by simp [firstCensus]
@[simp] theorem repeatCensus_pending (a : StillAction) (s : State) : (repeatCensus a s).pending = s.pending := by
  simp [repeatCensus]
@[simp] theorem leaveStragglers_pending (t : Nat) (s : State) : (leaveStragglers t s).pending = s.pending := by
  simp [leaveStragglers]
@[simp] theorem endStillAction_pending (scope : Nat) (s : State) : (endStillAction scope s).pending = s.pending := by
  simp [endStillAction]
@[simp] theorem centreRelease_pending (a : StillAction) (s : State) : (centreRelease a s).pending = s.pending := by
  simp [centreRelease]
@[simp] theorem pruneLaunched_pending (s : State) : (pruneLaunched s).pending = s.pending := by simp [pruneLaunched]

/-! Acceptance of classes -/

@[simp] theorem execAlarmAccept_completes (classes : BitVec 16) (s : State) : Completes s (execAlarmAccept classes s) := by
  simp [execAlarmAccept]
@[simp] theorem execAlarmRearm_completes (h : ReqHdr) (classes : BitVec 16) (s : State) :
    Completes s (execAlarmRearm h classes s) := by simp [execAlarmRearm]

/-! Comparators -/

@[simp] theorem onCore_pending (t : Nat) (f : Core → Core) (s : State) : (onCore t f s).pending = s.pending := by simp [onCore]
@[simp] theorem cmpCount_pending (t src n : Nat) (s : State) : (cmpCount t src n s).pending = s.pending := by simp [cmpCount]
@[simp] theorem cmpEvent_pending (t src : Nat) (p : Nat → Bool) (s : State) : (cmpEvent t src p s).pending = s.pending := by
  simp [cmpEvent]
@[simp] theorem countError_pending (t index place : Nat) (s : State) : (countError t index place s).pending = s.pending := by
  simp [countError]

/-! Dropped packets -/

@[simp] theorem dropPacket_pending (r port reason : Nat) (p : Packet) (s : State) :
    (dropPacket r port reason p s).pending = s.pending := by simp [dropPacket]
@[simp] theorem badWhole_pending (n : Node) (port kind : Nat) (s : State) : (badWhole n port kind s).pending = s.pending := by
  unfold badWhole
  split <;> simp

/-! Fold slots -/

@[simp] theorem keepLoaded_pending (t : Nat) (s : State) : (keepLoaded t s).pending = s.pending := by simp [keepLoaded]
@[simp] theorem addUpward_pending (u : Upward) (s : State) : (addUpward u s).pending = s.pending := by simp [addUpward]

@[simp] theorem sendUp_pending (n : Node) (id epoch : Nat) (p : FoldPartial) (s : State) :
    (sendUp n id epoch p s).pending = s.pending := by
  unfold sendUp
  split <;> simp

@[simp] theorem contribute_pending (t id epoch : Nat) (p : FoldPartial) (s : State) :
    (contribute t id epoch p s).pending = s.pending := by simp [contribute]
@[simp] theorem setSlot_pending (x : FoldSlot) (s : State) : (setSlot x s).pending = s.pending := by simp [setSlot]

@[simp] theorem settleSlot_pending (i : FoldInfo) (k : Nat) (x : FoldSlot) (s : State) :
    (settleSlot i k x s).pending = s.pending := by
  induction k generalizing x s with
  | zero => simp [settleSlot]
  | succ k ih => simp [settleSlot, ih]

@[simp] theorem lateFold_pending (n : Node) (id e : Nat) (s : State) : (lateFold n id e s).pending = s.pending := by
  simp [lateFold]
@[simp] theorem slotArrive_pending (i : FoldInfo) (c e : Nat) (p : FoldPartial) (x : FoldSlot) (s : State) :
    (slotArrive i c e p x s).pending = s.pending := by simp [slotArrive]
@[simp] theorem closeSlot_pending (i : FoldInfo) (x : FoldSlot) (s : State) : (closeSlot i x s).pending = s.pending := by
  simp [closeSlot]
@[simp] theorem dropFolds_pending (ids : List Nat) (s : State) : (dropFolds ids s).pending = s.pending := by simp [dropFolds]
@[simp] theorem runConditions_pending (i : FoldInfo) (r : FoldResult) (s : State) :
    (runConditions i r s).pending = s.pending := by simp [runConditions]
@[simp] theorem storeResult_pending (r : FoldResult) (s : State) : (storeResult r s).pending = s.pending := by simp [storeResult]

/-! Dips -/

@[simp] theorem sendAcc_pending (t : Nat) (d : DipCfg) (a : Acc) (s : State) : (sendAcc t d a s).pending = s.pending := by
  simp [sendAcc]
@[simp] theorem onDipSlot_pending (t n : Nat) (f : DipSlot → DipSlot) (s : State) : (onDipSlot t n f s).pending = s.pending := by
  simp [onDipSlot]
@[simp] theorem closeAcc_pending (t n : Nat) (disturbed : Bool) (a : Acc) (s : State) :
    (closeAcc t n disturbed a s).pending = s.pending := by simp [closeAcc]

@[simp] theorem closeOne_pending (t n : Nat) (older disturbed : Bool) (s : State) :
    (closeOne t n older disturbed s).pending = s.pending := by
  unfold closeOne
  split <;> simp

@[simp] theorem closeAllAccs_pending (t : Nat) (s : State) : (closeAllAccs t s).pending = s.pending := by simp [closeAllAccs]
@[simp] theorem openAcc_pending (t n step : Nat) (s : State) : (openAcc t n step s).pending = s.pending := by simp [openAcc]

@[simp] theorem dipLine_pending (t n : Nat) (q : Desc) (l : SnoopLine) (s : State) : (dipLine t n q l s).pending = s.pending := by
  unfold dipLine
  extract_lets c d s1 f put x b s2
  have h2 : s2.pending = s.pending := by simp [s2, s1]
  split
  · rfl
  · cases b with
    | none => exact h2
    | some a => exact (cmpEvent_pending _ _ _ _).trans h2

@[simp] theorem sendEmpty_pending (t n lo hi : Nat) (s : State) : (sendEmpty t n lo hi s).pending = s.pending := by
  simp [sendEmpty]

/-! Capture slots -/

@[simp] theorem onCap_pending (t n : Nat) (f : CapSlot → CapSlot) (s : State) : (onCap t n f s).pending = s.pending := by
  simp [onCap]
@[simp] theorem onFrame_pending (t n i : Nat) (f : Frame → Frame) (s : State) : (onFrame t n i f s).pending = s.pending := by
  unfold onFrame
  split <;> simp
@[simp] theorem landLine_pending (t : Nat) (p : CapLine) (s : State) : (landLine t p s).pending = s.pending := by simp [landLine]
@[simp] theorem drainLines_pending (t k : Nat) (s : State) : (drainLines t k s).pending = s.pending := by simp [drainLines]
@[simp] theorem drainSome_pending (t : Nat) (s : State) : (drainSome t s).pending = s.pending := by simp [drainSome]

@[simp] theorem closeOneFrame_pending (t n : Nat) (older : Bool) (extra : BitVec 16) (s : State) :
    (closeOneFrame t n older extra s).pending = s.pending := by
  unfold closeOneFrame
  extract_lets s1 d x
  split <;> simp [s1]

@[simp] theorem closeFrame_pending (t n : Nat) (extra : BitVec 16) (s : State) :
    (closeFrame t n extra s).pending = s.pending := by simp [closeFrame]
@[simp] theorem makeFrameRoom_pending (t n : Nat) (s : State) : (makeFrameRoom t n s).pending = s.pending := by
  simp [makeFrameRoom]
@[simp] theorem openFrame_pending (t n step cmdSeq : Nat) (tok : Option (Nat × Nat)) (s : State) :
    (openFrame t n step cmdSeq tok s).pending = s.pending := by simp [openFrame]
@[simp] theorem queueLine_pending (t n frame : Nat) (l : SnoopLine) (s : State) :
    (queueLine t n frame l s).pending = s.pending := by simp [queueLine]

@[simp] theorem capLine_pending (t n : Nat) (q : Desc) (l : SnoopLine) (s : State) : (capLine t n q l s).pending = s.pending := by
  unfold capLine
  dsimp only
  split
  · rfl
  · split <;> simp

@[simp] theorem releaseTile_pending (t : Nat) (r : HeldRelease) (s : State) : (releaseTile t r s).pending = s.pending := by
  simp [releaseTile]
@[simp] theorem settleHold_pending (t : Nat) (s : State) : (settleHold t s).pending = s.pending := by simp [settleHold]
@[simp] theorem copyLines_pending (t n k : Nat) (s : State) : (copyLines t n k s).pending = s.pending := by
  unfold copyLines
  split <;> simp
@[simp] theorem holdSlot_pending (t n : Nat) (cmd : Command) (s : State) : (holdSlot t n cmd s).pending = s.pending := by
  simp [holdSlot]
@[simp] theorem endHold_pending (t n : Nat) (s : State) : (endHold t n s).pending = s.pending := by simp [endHold]
@[simp] theorem finishHold_pending (t n : Nat) (acked : Bool) (extra : BitVec 16) (s : State) :
    (finishHold t n acked extra s).pending = s.pending := by simp [finishHold]
@[simp] theorem breakHolds_pending (t : Nat) (extra : BitVec 16) (s : State) : (breakHolds t extra s).pending = s.pending := by
  simp [breakHolds]
@[simp] theorem pressHolds_pending (t : Nat) (s : State) : (pressHolds t s).pending = s.pending := by simp [pressHolds]
@[simp] theorem awaitHolds_pending (t : Nat) (s : State) : (awaitHolds t s).pending = s.pending := by simp [awaitHolds]
@[simp] theorem closeFrames_pending (t : Nat) (extra : BitVec 16) (s : State) : (closeFrames t extra s).pending = s.pending := by
  simp [closeFrames]

/-! Cycle counters -/

@[simp] theorem addCycles_pending (t : Nat) (c : Cycles) (s : State) : (addCycles t c s).pending = s.pending := by
  simp [addCycles]

@[simp] theorem closeBank_pending (t : Nat) (s : State) : (closeBank t s).pending = s.pending := by
  unfold closeBank
  rw [onTile_pending]
  split
  · split <;> simp
  · rfl

@[simp] theorem closeTileStep_pending (t step : Nat) (s : State) : (closeTileStep t step s).pending = s.pending := by
  simp [closeTileStep]
@[simp] theorem foldStepTile_pending (step t : Nat) (s : State) : (foldStepTile step t s).pending = s.pending := by
  simp [foldStepTile]
@[simp] theorem foldStepAll_pending (step : Nat) (s : State) : (foldStepAll step s).pending = s.pending := by
  unfold foldStepAll
  split <;> simp

/-! Folds -/

@[simp] theorem installFolds_pending (id : Nat) (es : List FoldEntry) (h : ReqHdr) (s : State) :
    (installFolds id es h s).pending = s.pending := by simp [installFolds]
@[simp] theorem execFoldLoad_completes (h : ReqHdr) (id : Nat) (entries : List FoldEntry) (s : State) :
    Completes s (execFoldLoad h id entries s) := by simp [execFoldLoad]
@[simp] theorem execFoldRead_completes (h : ReqHdr) (foldId count : Nat) (s : State) :
    Completes s (execFoldRead h foldId count s) := by simp [execFoldRead]

@[simp] theorem execFoldContrib_completes (tile foldId epoch : Nat) (s : State) :
    Completes s (execFoldContrib tile foldId epoch s) := by
  unfold execFoldContrib
  rw [completes_next]
  split
  · rfl
  · split
    · rfl
    · split
      · simp
      · split <;> simp

@[simp] theorem takeUpward_pending (u : Upward) (s : State) : (takeUpward u s).pending = s.pending := by simp [takeUpward]
@[simp] theorem nodeArrive_pending (i : FoldInfo) (n : Node) (c e : Nat) (p : FoldPartial) (s : State) :
    (nodeArrive i n c e p s).pending = s.pending := by simp [nodeArrive]

@[simp] theorem execFoldArrival_completes (node : Node) (child foldId epoch : Nat) (p : FoldPartial × Bool) (s : State) :
    Completes s (execFoldArrival node child foldId epoch p s) := by
  unfold execFoldArrival
  apply completes_when
  dsimp only
  split
  · simp
  · split <;> simp

@[simp] theorem execFoldEpochClose_completes (node : Node) (foldId : Nat) (s : State) :
    Completes s (execFoldEpochClose node foldId s) := by
  unfold execFoldEpochClose
  rw [completes_next]
  split
  · split <;> simp
  · rfl

@[simp] theorem execCloseEpoch_completes (router foldId : Nat) (s : State) : Completes s (execCloseEpoch router foldId s) := by
  unfold execCloseEpoch
  split <;> simp

@[simp] theorem closeLedger_pending (step e : Nat) (forced : Bool) (s : State) :
    (closeLedger step e forced s).pending = s.pending := by
  unfold closeLedger
  split
  · rfl
  · rw [event_pending, drawFree_pending, onCensus_pending]

@[simp] theorem closeStepAll_pending (e step : Nat) (s : State) : (closeStepAll e step s).pending = s.pending := by
  simp [closeStepAll]
@[simp] theorem showSteps_pending (v : Nat) (s : State) : (showSteps v s).pending = s.pending := by simp [showSteps]
@[simp] theorem storeLc_pending (r : FoldResult) (s : State) : (storeLc r s).pending = s.pending := by
  unfold storeLc
  split <;> simp
@[simp] theorem storeFp_pending (r : FoldResult) (s : State) : (storeFp r s).pending = s.pending := by
  unfold storeFp
  split <;> simp
@[simp] theorem finishFold_pending (i : FoldInfo) (x : FoldSlot) (s : State) : (finishFold i x s).pending = s.pending := by
  simp [finishFold]

@[simp] theorem execFoldResultStore_completes (foldId : Nat) (s : State) : Completes s (execFoldResultStore foldId s) := by
  unfold execFoldResultStore
  rw [completes_next]
  split
  · split <;> simp
  · rfl

/-! Counter plans, the light census and the ledger -/

@[simp] theorem fetchCnt_pending (p : Option CntPlan) (t : Nat) (s : State) : (fetchCnt p t s).pending = s.pending := by
  simp [fetchCnt]
@[simp] theorem loadCnt_pending (id : Nat) (es : List CntEntry) (h : ReqHdr) (s : State) :
    (loadCnt id es h s).pending = s.pending := by simp [loadCnt]
@[simp] theorem execCntLoad_completes (h : ReqHdr) (id : Nat) (entries : List CntEntry) (s : State) :
    Completes s (execCntLoad h id entries s) := by simp [execCntLoad]
@[simp] theorem execCntFold_completes (h : ReqHdr) (step : Nat) (s : State) : Completes s (execCntFold h step s) := by
  simp [execCntFold]
@[simp] theorem execStepDesc_completes (h : ReqHdr) (step tokens : Nat) (s : State) :
    Completes s (execStepDesc h step tokens s) := by simp [execStepDesc]
@[simp] theorem execLcRead_completes (h : ReqHdr) (count : Nat) (s : State) : Completes s (execLcRead h count s) := by
  simp [execLcRead]
@[simp] theorem execLedgerRead_completes (h : ReqHdr) (count : Nat) (s : State) : Completes s (execLedgerRead h count s) := by
  simp [execLedgerRead]
@[simp] theorem fetchRestore_pending (t : Nat) (s : State) : (fetchRestore t s).pending = s.pending := by simp [fetchRestore]
@[simp] theorem reloadCensus_pending (s : State) : (reloadCensus s).pending = s.pending := by simp [reloadCensus]
@[simp] theorem execLcBoundary_completes (s : State) : Completes s (execLcBoundary s) := by simp [execLcBoundary]
@[simp] theorem addEnergy_pending (e b : Nat) (s : State) : (addEnergy e b s).pending = s.pending := by simp [addEnergy]
@[simp] theorem markGap_pending (a b : Nat) (s : State) : (markGap a b s).pending = s.pending := by simp [markGap]

@[simp] theorem takeEin_pending (b : EinReading) (s : State) : (takeEin b s).pending = s.pending := by
  unfold takeEin
  split
  · rfl
  · split
    · rw [markGap_pending, onCensus_pending]
    · rw [addEnergy_pending, onCensus_pending]

@[simp] theorem dropEin_pending (b : Nat) (s : State) : (dropEin b s).pending = s.pending := by
  unfold dropEin
  split <;> simp

@[simp] theorem execPmbusDone_completes (data : List Byte) (pecOk : Bool) (s : State) :
    Completes s (execPmbusDone data pecOk s) := by
  unfold execPmbusDone
  split <;> simp

@[simp] theorem execPmbusTimeout_completes (s : State) : Completes s (execPmbusTimeout s) := by
  unfold execPmbusTimeout
  split <;> simp
@[simp] theorem execPaceRefill_completes (die liveLanes : Nat) (s : State) : Completes s (execPaceRefill die liveLanes s) := by
  simp [execPaceRefill]

/-! Stilling, releasing and stepping -/

@[simp] theorem execStillAt_completes (h : ReqHdr) (tick scope : Nat) (s : State) : Completes s (execStillAt h tick scope s) := by
  simp [execStillAt]
@[simp] theorem execReleaseAt_completes (h : ReqHdr) (tick scope : Nat) (s : State) :
    Completes s (execReleaseAt h tick scope s) := by simp [execReleaseAt]
@[simp] theorem startStep_pending (kind scope t close k : Nat) (s : State) :
    (startStep kind scope t close k s).pending = s.pending := by simp [startStep]
@[simp] theorem execStepTick_completes (h : ReqHdr) (tick scope n : Nat) (s : State) :
    Completes s (execStepTick h tick scope n s) := by simp [execStepTick]
@[simp] theorem armStep_pending (scope k : Nat) (s : State) : (armStep scope k s).pending = s.pending := by simp [armStep]
@[simp] theorem execStepCmd_completes (h : ReqHdr) (tick scope k limit : Nat) (s : State) :
    Completes s (execStepCmd h tick scope k limit s) := by simp [execStepCmd]
@[simp] theorem cancelAction_pending (a : StillAction) (s : State) : (cancelAction a s).pending = s.pending := by
  simp [cancelAction]

@[simp] theorem execActionCancel_completes (h : ReqHdr) (tick scope kind : Nat) (s : State) :
    Completes s (execActionCancel h tick scope kind s) := by
  unfold execActionCancel
  apply request_completes
  intro h t
  split <;> simp

@[simp] theorem writeRegion_pending (n : Nat) (r : Region) (s : State) : (writeRegion n r s).pending = s.pending := by
  simp [writeRegion]
@[simp] theorem execRegionSet_completes (h : ReqHdr) (region : Nat) (valid : Bool) (lx0 lx1 ly0 ly1 : Nat) (s : State) :
    Completes s (execRegionSet h region valid lx0 lx1 ly0 ly1 s) := by simp [execRegionSet]
@[simp] theorem execStillQuery_completes (h : ReqHdr) (s : State) : Completes s (execStillQuery h s) := by simp [execStillQuery]

@[simp] theorem refreshStill_pending (s : State) : (refreshStill s).pending = s.pending := by
  unfold refreshStill
  split
  · split <;> simp
  · split
    · rw [onRoot_pending, noteCount_pending]
    · rfl

@[simp] theorem rebuildStill_pending (s : State) : (rebuildStill s).pending = s.pending := by simp [rebuildStill]
@[simp] theorem execStillQueryRefresh_completes (h : ReqHdr) (s : State) : Completes s (execStillQueryRefresh h s) := by
  simp [execStillQueryRefresh]
@[simp] theorem shareStill_pending (a : StillAction) (s : State) : (shareStill a s).pending = s.pending := by simp [shareStill]
@[simp] theorem launched_pending (a : StillAction) (s : State) : (launched a s).pending = s.pending := by
  unfold launched
  split <;> simp
@[simp] theorem execActionLaunch_completes (s : State) : Completes s (execActionLaunch s) := by
  unfold execActionLaunch
  split <;> simp

@[simp] theorem execStillWordCapture_completes (tile head tickLo : Nat) (p0 p1 : Bool) (s : State) :
    Completes s (execStillWordCapture tile head tickLo p0 p1 s) := by
  unfold execStillWordCapture
  apply completes_when
  extract_lets w action scope s1 x me t late s2
  have h1 : s1.pending = s.pending := elapse_pending _ _
  have h2 : s2.pending = s.pending := (onTile_pending _ _ _).trans h1
  split
  · rw [completes_next, record_pending, onTile_pending, h1]
  · split
    · rw [completes_next, h1]
    · split
      · rw [completes_next, recordLate_pending, h2]
      · rw [completes_next, h2]

@[simp] theorem recordStill_pending (tile scope : Nat) (self : Bool) (fresh : Bool) (s : State) :
    (recordStill tile scope self fresh s).pending = s.pending := by simp [recordStill]

@[simp] theorem execStillAct_completes (tile cycles : Nat) (vpend : Bool) (s : State) :
    Completes s (execStillAct tile cycles vpend s) := by
  unfold execStillAct
  split <;> simp

@[simp] theorem execReleaseAct_completes (tile : Nat) (idle : Bool) (s : State) : Completes s (execReleaseAct tile idle s) := by
  unfold execReleaseAct
  split <;> simp
@[simp] theorem execStubStillNoClock_completes (tile : Nat × Nat) (s : State) : Completes s (execStubStillNoClock tile s) := by
  unfold execStubStillNoClock
  split <;> simp
@[simp] theorem execFreezeSettled_completes (tile : Nat) (s : State) : Completes s (execFreezeSettled tile s) := by
  simp [execFreezeSettled]
@[simp] theorem execFreezeNoack_completes (tile : Nat) (frzAck rfrzAck : Bool) (s : State) :
    Completes s (execFreezeNoack tile frzAck rfrzAck s) := by simp [execFreezeNoack]
@[simp] theorem edgeMark_pending (die tick : Nat) (s : State) : (edgeMark die tick s).pending = s.pending := by
  unfold edgeMark
  split <;> simp

@[simp] theorem execEdgeStillAct_completes (die action tick : Nat) (s : State) :
    Completes s (execEdgeStillAct die action tick s) := by
  unfold execEdgeStillAct
  split <;> simp

@[simp] theorem execStillCensus_completes (s : State) : Completes s (execStillCensus s) := by
  unfold execStillCensus
  split <;> simp
@[simp] theorem execStillCensusRepeat_completes (s : State) : Completes s (execStillCensusRepeat s) := by
  unfold execStillCensusRepeat
  split <;> simp

@[simp] theorem execAutoRelease_completes (s : State) : Completes s (execAutoRelease s) := by
  unfold execAutoRelease
  rw [completes_next]
  split
  · rfl
  · split <;> simp

/-! What a tile's tap reports -/

@[simp] theorem takeLine_pending (t : Nat) (q : Desc) (l : SnoopLine) (s : State) : (takeLine t q l s).pending = s.pending := by
  simp [takeLine]
@[simp] theorem discardOldest_pending (t : Nat) (s : State) : (discardOldest t s).pending = s.pending := by
  unfold discardOldest
  split <;> simp
@[simp] theorem tagLine_pending (t : Nat) (w : SnoopLine) (s : State) : (tagLine t w s).pending = s.pending := by
  unfold tagLine
  split <;> simp
@[simp] theorem execSramWrite_completes (tile : Nat) (w : SnoopLine) (s : State) : Completes s (execSramWrite tile w s) := by
  simp [execSramWrite]

@[simp] theorem execDescArrive_completes (tile : Nat) (d : DescIn) (s : State) : Completes s (execDescArrive tile d s) := by
  unfold execDescArrive
  apply completes_when
  extract_lets s1 c
  split <;> simp [s1]

@[simp] theorem execLineDiscard_completes (tile : Nat) (s : State) : Completes s (execLineDiscard tile s) := by
  simp [execLineDiscard]
@[simp] theorem execDescClose_completes (tile tag : Nat) (s : State) : Completes s (execDescClose tile tag s) := by
  simp [execDescClose]
@[simp] theorem execDipAccClose_completes (tile : Nat) (slot : Nat × Bool) (s : State) :
    Completes s (execDipAccClose tile slot s) := by simp [execDipAccClose]
@[simp] theorem execSnoopFrameClose_completes (tile : Nat) (slot : Nat × Bool) (s : State) :
    Completes s (execSnoopFrameClose tile slot s) := by simp [execSnoopFrameClose]
@[simp] theorem execStillCopyHoldEnd_completes (tile slot : Nat) (acked : Bool) (s : State) :
    Completes s (execStillCopyHoldEnd tile slot acked s) := by simp [execStillCopyHoldEnd]
@[simp] theorem execCommandStart_completes (tile : Nat) (cmd : Command) (cyc : Cycles) (s : State) :
    Completes s (execCommandStart tile cmd cyc s) := by simp [execCommandStart]
@[simp] theorem selfStill_pending (t : Nat) (vpend : Bool) (s : State) : (selfStill t vpend s).pending = s.pending := by
  simp [selfStill]
@[simp] theorem execCommandEnd_completes (tile : Nat) (cyc : Cycles × Bool) (s : State) :
    Completes s (execCommandEnd tile cyc s) := by simp [execCommandEnd]
@[simp] theorem execContextSwitch_completes (tile old new : Nat) (s : State) :
    Completes s (execContextSwitch tile old new s) := by simp [execContextSwitch]
@[simp] theorem execContextLoad_completes (tile : Nat) (s : State) : Completes s (execContextLoad tile s) := by
  simp [execContextLoad]
@[simp] theorem stormCount_pending (t : Nat) (s : State) : (stormCount t s).pending = s.pending := by simp [stormCount]
@[simp] theorem execTileErrorEvent_completes (tile index line port : Nat) (s : State) :
    Completes s (execTileErrorEvent tile index line port s) := by simp [execTileErrorEvent]
@[simp] theorem execWaitDescriptor_completes (tile e : Nat) (d : Word) (s : State) :
    Completes s (execWaitDescriptor tile e d s) := by simp [execWaitDescriptor]
@[simp] theorem execHang_completes (tile : Nat) (s : State) : Completes s (execHang tile s) := by simp [execHang]
@[simp] theorem execCwdtExpiry_completes (tile : Nat) (s : State) : Completes s (execCwdtExpiry tile s) := by
  simp [execCwdtExpiry]

/-! A tile's power and clock -/

@[simp] theorem execDarkPendingRise_completes (tile : Nat) (savedOk : Bool) (s : State) :
    Completes s (execDarkPendingRise tile savedOk s) := by simp [execDarkPendingRise]
@[simp] theorem execDarkPendingFall_completes (tile : Nat) (s : State) : Completes s (execDarkPendingFall tile s) := by
  simp [execDarkPendingFall]
@[simp] theorem execDarkSaveTimeout_completes (tile : Nat) (s : State) : Completes s (execDarkSaveTimeout tile s) := by
  simp [execDarkSaveTimeout]
@[simp] theorem voidHeld_pending (t : Nat) (s : State) : (voidHeld t s).pending = s.pending := by simp [voidHeld]
@[simp] theorem execCorePwrFall_completes (tile : Nat) (s : State) : Completes s (execCorePwrFall tile s) := by
  simp [execCorePwrFall]
@[simp] theorem execCorePwrRise_completes (tile : Nat) (s : State) : Completes s (execCorePwrRise tile s) := by
  simp [execCorePwrRise]
@[simp] theorem execCoreTimeRebuilt_completes (tile : Nat × Bool) (s : State) : Completes s (execCoreTimeRebuilt tile s) := by
  simp [execCoreTimeRebuilt]
@[simp] theorem followThr_pending (s : State) : (followThr s).pending = s.pending := by simp [followThr]
@[simp] theorem execThrRegionChange_completes (tile : Nat) (high stopped : Bool) (s : State) :
    Completes s (execThrRegionChange tile high stopped s) := by simp [execThrRegionChange]
@[simp] theorem execTclkResume_completes (tile : Nat × Bool) (s : State) : Completes s (execTclkResume tile s) := by
  simp [execTclkResume]

@[simp] theorem execVddAonFall_completes (s : State) : Completes s (execVddAonFall s) := by
  unfold execVddAonFall
  apply completes_when
  rw [completes_next, drawFree_pending, setW1c_pending, onRoot_pending, onBoot_pending, onEveryTile_pending]

/-! Debug transactions -/

@[simp] theorem execTxnOpen_completes (h : ReqHdr) (mapEpoch tmo : Nat) (s : State) :
    Completes s (execTxnOpen h mapEpoch tmo s) := by simp [execTxnOpen]
@[simp] theorem execTxnAdd_completes (h : ReqHdr) (txn : Nat) (entries : List TxnEntry) (s : State) :
    Completes s (execTxnAdd h txn entries s) := by simp [execTxnAdd]
@[simp] theorem closeEmpty_pending (h : ReqHdr) (s : State) : (closeEmpty h s).pending = s.pending := by simp [closeEmpty]

@[simp] theorem execTxnCommit_completes (h : ReqHdr) (txn tick : Nat) (s : State) : Completes s (execTxnCommit h txn tick s) := by
  unfold execTxnCommit
  apply request_completes
  intro h t
  split <;> simp

@[simp] theorem dropWaiting_pending (s : State) : (dropWaiting s).pending = s.pending := by simp [dropWaiting]
@[simp] theorem execTxnRinse_completes (h : ReqHdr) (txn : Nat) (s : State) : Completes s (execTxnRinse h txn s) := by
  simp [execTxnRinse]
@[simp] theorem execTxnQuery_completes (h : ReqHdr) (s : State) : Completes s (execTxnQuery h s) := by simp [execTxnQuery]
@[simp] theorem takeStage_pending (t : Nat) (p : StagePkt) (s : State) : (takeStage t p s).pending = s.pending := by
  simp [takeStage]
@[simp] theorem noteReply_pending (t reason : Nat) (p : StagePkt) (s : State) : (noteReply t reason p s).pending = s.pending := by
  simp [noteReply]
@[simp] theorem execStage_completes (tile : Nat) (p : StagePkt) (s : State) : Completes s (execStage tile p s) := by
  simp [execStage]
@[simp] theorem execRinse_completes (tile txn : Nat) (s : State) : Completes s (execRinse tile txn s) := by simp [execRinse]
@[simp] theorem execStageDeadline_completes (tile : Nat) (s : State) : Completes s (execStageDeadline tile s) := by
  simp [execStageDeadline]
@[simp] theorem restage_pending (x : Txn) (s : State) : (restage x s).pending = s.pending := by simp [restage]
@[simp] theorem execTxnCheck_completes (s : State) : Completes s (execTxnCheck s) := by
  unfold execTxnCheck
  split <;> simp
@[simp] theorem execPressPlaceTimeout_completes (s : State) : Completes s (execPressPlaceTimeout s) := by
  simp [execPressPlaceTimeout]
@[simp] theorem execFenceEnd_completes (s : State) : Completes s (execFenceEnd s) := by simp [execFenceEnd]
@[simp] theorem replaceFrames_pending (t : Nat) (s : State) : (replaceFrames t s).pending = s.pending := by
  unfold replaceFrames
  split <;> simp
@[simp] theorem closeBankWork_pending (t : Nat) (s : State) : (closeBankWork t s).pending = s.pending := by simp [closeBankWork]
@[simp] theorem switchBank_pending (t : Nat) (sel : Bool) (s : State) : (switchBank t sel s).pending = s.pending := by
  simp [switchBank]
@[simp] theorem pressBank_pending (i : Item) (t : Nat) (s : State) : (pressBank i t s).pending = s.pending := by simp [pressBank]
@[simp] theorem pressIdent_pending (v : Nat) (t : Nat) (s : State) : (pressIdent v t s).pending = s.pending := by
  simp [pressIdent]
@[simp] theorem pressDctl_pending (v : Nat) (t : Nat) (s : State) : (pressDctl v t s).pending = s.pending := by simp [pressDctl]
@[simp] theorem setPartition_pending (t : Nat) (stream : Bool) (s : State) : (setPartition t stream s).pending = s.pending := by
  simp [setPartition]
@[simp] theorem pressEddyCtl_pending (v : Nat) (t : Nat) (s : State) : (pressEddyCtl v t s).pending = s.pending := by
  simp [pressEddyCtl]
@[simp] theorem pressReg_pending (t o v : Nat) (s : State) : (pressReg t o v s).pending = s.pending := by
  unfold pressReg
  split <;> simp
@[simp] theorem pressAreg_pending (i : Item) (t : Nat) (s : State) : (pressAreg i t s).pending = s.pending := by simp [pressAreg]
@[simp] theorem pressItem_pending (t : Nat) (s : State) (i : Item) : (pressItem t s i).pending = s.pending := by
  unfold pressItem
  split <;> simp
@[simp] theorem copyItem_pending (t : Nat) (s : State) (i : Item) : (copyItem t s i).pending = s.pending := by
  unfold copyItem
  split <;> simp
@[simp] theorem setReload_pending (t : Nat) (s : State) : (setReload t s).pending = s.pending := by simp [setReload]
@[simp] theorem endPress_pending (t tstate : Nat) (s : State) : (endPress t tstate s).pending = s.pending := by simp [endPress]
@[simp] theorem execPressAct_completes (tile : Nat) (s : State) : Completes s (execPressAct tile s) := by
  unfold execPressAct
  split <;> simp
@[simp] theorem execPressApplyDone_completes (tile : Nat) (s : State) : Completes s (execPressApplyDone tile s) := by
  simp [execPressApplyDone]

/-! Snapshots -/

@[simp] theorem takeOwn_pending (id kind tick : Nat) (autoRel forced : Bool) (reply : Option ReqHdr) (s : State) :
    (takeOwn id kind tick autoRel forced reply s).pending = s.pending := by simp [takeOwn]
@[simp] theorem execSnapTake_completes (h : ReqHdr) (id : Nat) (autoRel : Bool) (tick : Nat) (s : State) :
    Completes s (execSnapTake h id autoRel tick s) := by simp [execSnapTake]
@[simp] theorem openEpoch_pending (e : Nat) (s : State) : (openEpoch e s).pending = s.pending := by simp [openEpoch]
@[simp] theorem execSnapGo_completes (s : State) : Completes s (execSnapGo s) := by
  unfold execSnapGo
  split <;> simp
@[simp] theorem execCowAck_completes (field : Nat) (s : State) : Completes s (execCowAck field s) := by simp [execCowAck]
@[simp] theorem execCowAckTimeout_completes (field : Nat) (nak : Bool) (s : State) :
    Completes s (execCowAckTimeout field nak s) := by simp [execCowAckTimeout]
@[simp] theorem execImageCopyDone_completes (tile : Nat × Bool) (s : State) : Completes s (execImageCopyDone tile s) := by
  unfold execImageCopyDone
  split <;> simp
@[simp] theorem execVpendFall_completes (tile : Nat) (s : State) : Completes s (execVpendFall tile s) := by simp [execVpendFall]
@[simp] theorem execShimDone_completes (field : Nat) (s : State) : Completes s (execShimDone field s) := by
  unfold execShimDone
  split <;> simp

@[simp] theorem execSnapCopyTimeout_completes (s : State) : Completes s (execSnapCopyTimeout s) := by
  unfold execSnapCopyTimeout
  rw [completes_next]
  split
  · rfl
  · split <;> simp

@[simp] theorem makeRoom_pending (f g n : Nat) (s : State) : (makeRoom f g n s).pending = s.pending := by
  induction n generalizing s with
  | zero => rfl
  | succ n ih => simp [makeRoom, ih]

@[simp] theorem execSlotReq_completes (field granule : Nat) (write : List (Nat × Byte)) (s : State) :
    Completes s (execSlotReq field granule write s) := by simp [execSlotReq]
@[simp] theorem execCopyDone_completes (field granule answer : Nat) (s : State) :
    Completes s (execCopyDone field granule answer s) := by simp [execCopyDone]

@[simp] theorem execIngCopy_completes (die srcEngine srcDie : Nat) (unit : List Byte) (s : State) :
    Completes s (execIngCopy die srcEngine srcDie unit s) := by
  unfold execIngCopy
  rw [completes_next]
  dsimp only
  split <;> simp

@[simp] theorem execMkSeen_completes (die engine peerDie snapId kind : Nat) (s : State) :
    Completes s (execMkSeen die engine peerDie snapId kind s) := by
  unfold execMkSeen
  rw [completes_next]
  dsimp only
  split <;> simp

@[simp] theorem execLogWritten_completes (die : Nat) (s : State) : Completes s (execLogWritten die s) := by
  unfold execLogWritten
  split <;> simp
@[simp] theorem execMarkerTimeout_completes (die : Nat × Bool) (s : State) : Completes s (execMarkerTimeout die s) := by
  simp [execMarkerTimeout]
@[simp] theorem execEgFrozenRise_completes (die : Nat) (s : State) : Completes s (execEgFrozenRise die s) := by
  simp [execEgFrozenRise]
@[simp] theorem execEgFrozenTimeout_completes (die : Nat) (s : State) : Completes s (execEgFrozenTimeout die s) := by
  simp [execEgFrozenTimeout]
@[simp] theorem execEgFrozenFall_completes (die : Nat) (s : State) : Completes s (execEgFrozenFall die s) := by
  simp [execEgFrozenFall]
@[simp] theorem execSnapRestore_completes (h : ReqHdr) (id : Nat) (memKept : Bool) (tr : Nat) (s : State) :
    Completes s (execSnapRestore h id memKept tr s) := by simp [execSnapRestore]
@[simp] theorem copyBack_pending (f g : Nat) (s : State) : (copyBack f g s).pending = s.pending := by simp [copyBack]
@[simp] theorem execCbDone_completes (field granule answer : Nat) (s : State) :
    Completes s (execCbDone field granule answer s) := by simp [execCbDone]
@[simp] theorem startDrain_pending (p : Nat) (full : Bool) (dest : Dest) (h : ReqHdr) (s : State) :
    (startDrain p full dest h s).pending = s.pending := by simp [startDrain]
@[simp] theorem execSnapDrain_completes (h : ReqHdr) (id : Nat) (full : Bool) (dest : Dest) (s : State) :
    Completes s (execSnapDrain h id full dest s) := by simp [execSnapDrain]
@[simp] theorem execAsofData_completes (field : Nat) (ok : Bool) (s : State) : Completes s (execAsofData field ok s) := by
  simp [execAsofData]
@[simp] theorem execDrainDone_completes (s : State) : Completes s (execDrainDone s) := by simp [execDrainDone]
@[simp] theorem execSnapPlan_completes (h : ReqHdr) (p0 period k baseId : Nat) (forceNext : Bool) (s : State) :
    Completes s (execSnapPlan h p0 period k baseId forceNext s) := by simp [execSnapPlan]
@[simp] theorem execSnapPlanStop_completes (h : ReqHdr) (s : State) : Completes s (execSnapPlanStop h s) := by
  simp [execSnapPlanStop]
@[simp] theorem execSnapPlanPoint_completes (s : State) : Completes s (execSnapPlanPoint s) := by
  unfold execSnapPlanPoint
  split <;> simp
@[simp] theorem execPeerSet_completes (h : ReqHdr) (die : Nat) (cut : Bool) (entries : List (Nat × Nat)) (s : State) :
    Completes s (execPeerSet h die cut entries s) := by simp [execPeerSet]
@[simp] theorem execSnapDrop_completes (h : ReqHdr) (id : Nat) (s : State) : Completes s (execSnapDrop h id s) := by
  simp [execSnapDrop]
@[simp] theorem execSnapQuery_completes (h : ReqHdr) (s : State) : Completes s (execSnapQuery h s) := by simp [execSnapQuery]
@[simp] theorem execControllerFatalState_completes (field : Nat) (s : State) :
    Completes s (execControllerFatalState field s) := by simp [execControllerFatalState]

/-! Watch plans and captured frames -/

@[simp] theorem fetchBank_pending (p : Option WatchPlan) (t : Nat) (s : State) : (fetchBank p t s).pending = s.pending := by
  simp [fetchBank]
@[simp] theorem fetchBanks_pending (p : Option WatchPlan) (s : State) : (fetchBanks p s).pending = s.pending := by
  simp [fetchBanks]
@[simp] theorem loadWatch_pending (id activate : Nat) (es : List WatchEntry) (h : ReqHdr) (s : State) :
    (loadWatch id activate es h s).pending = s.pending := by simp [loadWatch]
@[simp] theorem removeWatch_pending (h : ReqHdr) (s : State) : (removeWatch h s).pending = s.pending := by simp [removeWatch]

@[simp] theorem execWatchLoad_completes (h : ReqHdr) (id activate : Nat) (entries : List WatchEntry) (s : State) :
    Completes s (execWatchLoad h id activate entries s) := by
  unfold execWatchLoad
  split <;> simp

@[simp] theorem execWatchRemove_completes (h : ReqHdr) (s : State) : Completes s (execWatchRemove h s) := by
  simp [execWatchRemove]
@[simp] theorem execFpRead_completes (h : ReqHdr) (group count tensor : Nat) (s : State) :
    Completes s (execFpRead h group count tensor s) := by simp [execFpRead]
@[simp] theorem raiseSdc_pending (own : FpRecord) (peers : List FpRecord) (s : State) :
    (raiseSdc own peers s).pending = s.pending := by simp [raiseSdc]

@[simp] theorem execFpCompare_completes (h : ReqHdr) (group tensor step : Nat) (peers : List FpRecord) (s : State) :
    Completes s (execFpCompare h group tensor step peers s) := by
  unfold execFpCompare
  apply request_completes
  intro h t
  split <;> simp

@[simp] theorem execSymLoad_completes (h : ReqHdr) (build : Nat) (recs : List SymRecord) (s : State) :
    Completes s (execSymLoad h build recs s) := by simp [execSymLoad]
@[simp] theorem execPmapLoad_completes (h : ReqHdr) (build : Nat) (recs : List MapRecord) (s : State) :
    Completes s (execPmapLoad h build recs s) := by simp [execPmapLoad]
@[simp] theorem execWatchStatus_completes (h : ReqHdr) (s : State) : Completes s (execWatchStatus h s) := by
  simp [execWatchStatus]
@[simp] theorem execWatchReset_completes (h : ReqHdr) (entry : Nat) (s : State) : Completes s (execWatchReset h entry s) := by
  simp [execWatchReset]
@[simp] theorem drainTo_pending (d : Dest) (bs : List Byte) (s : State) : (drainTo d bs s).pending = s.pending := by
  simp [drainTo]
@[simp] theorem execWatchDrain_completes (h : ReqHdr) (entry : Nat) (set : Option TileSet) (dest : Dest) (s : State) :
    Completes s (execWatchDrain h entry set dest s) := by simp [execWatchDrain]
@[simp] theorem captureSlot_pending (t n : Nat) (s : State) : (captureSlot t n s).pending = s.pending := by simp [captureSlot]

@[simp] theorem execCaptureNow_completes (h : ReqHdr) (entry : Nat) (s : State) : Completes s (execCaptureNow h entry s) := by
  unfold execCaptureNow
  apply request_completes
  intro h t
  simp

/-! Eddy reads and trace plans -/

@[simp] theorem execEddyRead_completes (h : ReqHdr) (set : Option TileSet) (addrs : List Nat) (count : Nat) (s : State) :
    Completes s (execEddyRead h set addrs count s) := by simp [execEddyRead]
@[simp] theorem execEddyFreezeTimeout_completes (tile : Nat) (s : State) : Completes s (execEddyFreezeTimeout tile s) := by
  simp [execEddyFreezeTimeout]
@[simp] theorem execEddyGap_completes (tile : Nat) (s : State) : Completes s (execEddyGap tile s) := by simp [execEddyGap]
@[simp] theorem activateTrace_pending (h : ReqHdr) (s : State) : (activateTrace h s).pending = s.pending := by
  simp [activateTrace]
@[simp] theorem loadTrace_pending (id : Nat) (es : List TraceEntry) (h : ReqHdr) (s : State) :
    (loadTrace id es h s).pending = s.pending := by simp [loadTrace]
@[simp] theorem removeTrace_pending (h : ReqHdr) (s : State) : (removeTrace h s).pending = s.pending := by simp [removeTrace]

@[simp] theorem execTraceLoad_completes (h : ReqHdr) (id : Nat) (entries : List TraceEntry) (s : State) :
    Completes s (execTraceLoad h id entries s) := by
  unfold execTraceLoad
  split <;> simp

@[simp] theorem execTraceRemove_completes (h : ReqHdr) (s : State) : Completes s (execTraceRemove h s) := by
  simp [execTraceRemove]
@[simp] theorem execTraceRearm_completes (h : ReqHdr) (s : State) : Completes s (execTraceRearm h s) := by simp [execTraceRearm]

@[simp] theorem execTraceDrain_completes (h : ReqHdr) (set : Option TileSet) (s : State) :
    Completes s (execTraceDrain h set s) := by
  unfold execTraceDrain
  apply request_completes
  intro h t
  split <;> simp

@[simp] theorem execTraceStatus_completes (h : ReqHdr) (first count : Nat) (s : State) :
    Completes s (execTraceStatus h first count s) := by simp [execTraceStatus]
@[simp] theorem execStreamChunkSend_completes (tile : Nat) (flush : Bool) (s : State) :
    Completes s (execStreamChunkSend tile flush s) := by simp [execStreamChunkSend]

@[simp] theorem execEddyChunkArrive_completes (tile : Nat) (recs : List Eddy) (s : State) :
    Completes s (execEddyChunkArrive tile recs s) := by
  unfold execEddyChunkArrive
  apply completes_when
  dsimp only
  split <;> simp

@[simp] theorem execStillOnFullRaise_completes (tile : Nat) (s : State) : Completes s (execStillOnFullRaise tile s) := by
  simp [execStillOnFullRaise]

@[simp] theorem execTraceDrainRelease_completes (s : State) : Completes s (execTraceDrainRelease s) := by
  unfold execTraceDrainRelease
  rw [completes_next]
  split
  · rfl
  · split <;> simp

@[simp] theorem execWfgBuild_completes (h : ReqHdr) (s : State) : Completes s (execWfgBuild h s) := by simp [execWfgBuild]

/-! Crash records -/

@[simp] theorem startCrash_pending (s : State) : (startCrash s).pending = s.pending := by simp [startCrash]
@[simp] theorem commitCrash_pending (w : CrashWrite) (s : State) : (commitCrash w s).2.pending = s.pending := by
  simp [commitCrash]
@[simp] theorem startLastGasp_pending (txn accepted onset : Nat) (s : State) :
    (startLastGasp txn accepted onset s).pending = s.pending := by simp [startLastGasp]
@[simp] theorem commitLastGasp_pending (w : CrashWrite) (s : State) : (commitLastGasp w s).pending = s.pending := by
  simp [commitLastGasp]
@[simp] theorem springPut_pending (a : Nat) (bs : List Byte) (s : State) : (springPut a bs s).pending = s.pending := by
  simp [springPut]
@[simp] theorem toPending_pending (d : DefectRec) (s : State) : (toPending d s).pending = s.pending := by
  unfold toPending
  split <;> simp
@[simp] theorem storeDefect_pending (ok : Bool) (d : DefectRec) (s : State) : (storeDefect ok d s).pending = s.pending := by
  unfold storeDefect
  split <;> simp

/-! Mends -/

@[simp] theorem retireTile_pending (t : Nat) (s : State) : (retireTile t s).pending = s.pending := by simp [retireTile]
@[simp] theorem fetchRole_pending (v : State) (t : Nat) (s : State) : (fetchRole v t s).pending = s.pending := by
  simp [fetchRole]
@[simp] theorem startMend_pending (ds : List Nat) (reply : Option ReqHdr) (s : State) :
    (startMend ds reply s).pending = s.pending := by simp [startMend]
@[simp] theorem addDefect_pending (kind cls snap press t : Nat) (s : State) :
    (addDefect kind cls snap press t s).pending = s.pending := by simp [addDefect]
@[simp] theorem noteMend_pending (t : Nat) (s : State) : (noteMend t s).pending = s.pending := by simp [noteMend]
@[simp] theorem reapplyTrace_pending (ds : List Nat) (s : State) : (reapplyTrace ds s).pending = s.pending := by
  unfold reapplyTrace
  split <;> simp
@[simp] theorem startRestore_pending (s : State) : (startRestore s).pending = s.pending := by
  unfold startRestore
  split <;> simp

@[simp] theorem afterMend_pending (s : State) : (afterMend s).pending = s.pending := by
  unfold afterMend
  extract_lets press s1 s2 snap s3 s4
  split
  · simp [s1]
  · have h4 : s4.pending = s.pending := by simp [s4, s3, s2]
    split
    · rw [startRestore_pending, h4]
    · exact h4

@[simp] theorem lostMend_pending (s : State) : (lostMend s).pending = s.pending := by simp [lostMend]

/-! Recoveries and the last gasp -/

@[simp] theorem prunePartitions_pending (s : State) : (prunePartitions s).pending = s.pending := by simp [prunePartitions]
@[simp] theorem afterPress_pending (purpose : Nat) (ok : Bool) (s : State) : (afterPress purpose ok s).pending = s.pending := by
  unfold afterPress
  split <;> simp
@[simp] theorem finishPress_pending (x : Txn) (s : State) : (finishPress x s).pending = s.pending := by simp [finishPress]
@[simp] theorem execPressConfirm_completes (s : State) : Completes s (execPressConfirm s) := by
  unfold execPressConfirm
  split <;> simp
@[simp] theorem execPressRecount_completes (s : State) : Completes s (execPressRecount s) := by
  unfold execPressRecount
  split <;> simp

@[simp] theorem retireAll_pending (mend : Bool) (us : List Nat) (s : State) : (retireAll mend us s).2.pending = s.pending := by
  induction us generalizing s with
  | nil => rfl
  | cons u r ih =>
    unfold retireAll
    dsimp only
    split <;> simp [ih]

@[simp] theorem noteSpares_pending (c : Nat) (ds : List Nat) (s : State) : (noteSpares c ds s).pending = s.pending := by
  simp [noteSpares]
@[simp] theorem decideRecovery_pending (c : Nat) (s : State) : (decideRecovery c s).pending = s.pending := by
  simp [decideRecovery]

@[simp] theorem execRecoveryStart_completes (s : State) : Completes s (execRecoveryStart s) := by
  unfold execRecoveryStart
  rw [completes_next]
  split
  · rfl
  · split
    · rfl
    · extract_lets us s1 s2
      have h2 : s2.pending = s.pending := by
        unfold s2
        split <;> simp [s1]
      rw [decideRecovery_pending, h2]

@[simp] theorem execRecoveryReady_completes (s : State) : Completes s (execRecoveryReady s) := by simp [execRecoveryReady]
@[simp] theorem execRecOverrun_completes (s : State) : Completes s (execRecOverrun s) := by simp [execRecOverrun]
@[simp] theorem setRecord_pending (q : Nat) (w : Option CrashWrite) (s : State) : (setRecord q w s).pending = s.pending := by
  simp [setRecord]
@[simp] theorem failRecord_pending (q : Nat) (w : CrashWrite) (s : State) : (failRecord q w s).pending = s.pending := by
  simp [failRecord]
@[simp] theorem freeBus_pending (s : State) : (freeBus s).pending = s.pending := by simp [freeBus]
@[simp] theorem execWellWriteDone_completes (s : State) : Completes s (execWellWriteDone s) := by
  unfold execWellWriteDone
  split <;> simp
@[simp] theorem execWellBurstTimeout_completes (s : State) : Completes s (execWellBurstTimeout s) := by
  unfold execWellBurstTimeout
  split <;> simp
@[simp] theorem execDefectRecordWrite_completes (ok : Bool) (s : State) : Completes s (execDefectRecordWrite ok s) := by
  unfold execDefectRecordWrite
  split <;> simp
@[simp] theorem execSpringProgramTimeout_completes (s : State) : Completes s (execSpringProgramTimeout s) := by
  unfold execSpringProgramTimeout
  split <;> simp
@[simp] theorem execLastGasp_completes (lowCycles : Nat) (s : State) : Completes s (execLastGasp lowCycles s) := by
  simp [execLastGasp]
@[simp] theorem execPfWarnRise_completes (s : State) : Completes s (execPfWarnRise s) := by simp [execPfWarnRise]
@[simp] theorem execCrashList_completes (h : ReqHdr) (count : Nat) (s : State) : Completes s (execCrashList h count s) := by
  simp [execCrashList]
@[simp] theorem execRecPolicy_completes (h : ReqHdr) (cls action image : Nat) (s : State) :
    Completes s (execRecPolicy h cls action image s) := by simp [execRecPolicy]
@[simp] theorem execMendNow_completes (h : ReqHdr) (tile : Nat) (s : State) : Completes s (execMendNow h tile s) := by
  simp [execMendNow]
@[simp] theorem flushSlot_pending (s : State) (i : Nat) : (flushSlot s i).pending = s.pending := by
  unfold flushSlot
  split <;> simp
@[simp] theorem execDefectFlush_completes (h : ReqHdr) (s : State) : Completes s (execDefectFlush h s) := by
  simp [execDefectFlush]

/-! The time base -/

@[simp] theorem execTimeExchange_completes (h : ReqHdr) (rxAt txAt : Nat) (s : State) :
    Completes s (execTimeExchange h rxAt txAt s) := by simp [execTimeExchange]
@[simp] theorem stepTime_pending (c : Int) (s : State) : (stepTime c s).pending = s.pending := by simp [stepTime]
@[simp] theorem startSteer_pending (c : Int) (s : State) : (startSteer c s).pending = s.pending := by simp [startSteer]
@[simp] theorem execTimeAdjust_completes (h : ReqHdr) (c : Int) (s : State) : Completes s (execTimeAdjust h c s) := by
  simp [execTimeAdjust]
@[simp] theorem execSteerDone_completes (s : State) : Completes s (execSteerDone s) := by simp [execSteerDone]
@[simp] theorem measure_pending (echo : List (Nat × Nat)) (s : State) : (measure echo s).pending = s.pending := by simp [measure]
@[simp] theorem remeasure_pending (echo : List (Nat × Nat)) (s : State) : (remeasure echo s).pending = s.pending := by
  simp [remeasure]
@[simp] theorem execMeasureTime_completes (h : ReqHdr) (echo : List (Nat × Nat)) (s : State) :
    Completes s (execMeasureTime h echo s) := by simp [execMeasureTime]
@[simp] theorem execMeasureTimeRemark_completes (h : ReqHdr) (echo : List (Nat × Nat)) (s : State) :
    Completes s (execMeasureTimeRemark h echo s) := by simp [execMeasureTimeRemark]
@[simp] theorem execTimeMarkLaunch_completes (s : State) : Completes s (execTimeMarkLaunch s) := by
  unfold execTimeMarkLaunch
  split <;> simp
@[simp] theorem execTimeMark_completes (tile word : Nat) (parity : Bool × Bool) (s : State) :
    Completes s (execTimeMark tile word parity s) := by simp [execTimeMark]
@[simp] theorem execFlockLocked_completes (s : State) : Completes s (execFlockLocked s) := by simp [execFlockLocked]
@[simp] theorem execFlockHold_completes (s : State) : Completes s (execFlockHold s) := by simp [execFlockHold]
@[simp] theorem execFlockHoldTimeout_completes (s : State) : Completes s (execFlockHoldTimeout s) := by
  unfold execFlockHoldTimeout
  split <;> simp
@[simp] theorem execRefclkLoss_completes (s : State) : Completes s (execRefclkLoss s) := by simp [execRefclkLoss]
@[simp] theorem execRefclkReturn_completes (s : State) : Completes s (execRefclkReturn s) := by simp [execRefclkReturn]

/-! OTP, Spring and the cold state -/

@[simp] theorem otpProgram_pending (o : Nat) (bs : List Byte) (s : State) : (otpProgram o bs s).pending = s.pending := by
  simp [otpProgram]
@[simp] theorem programCopies_pending (k : Nat) (s : State) : (programCopies k s).pending = s.pending := by simp [programCopies]
@[simp] theorem redecode_pending (s : State) : (redecode s).pending = s.pending := by simp [redecode]
@[simp] theorem springErase_pending (a n : Nat) (s : State) : (springErase a n s).pending = s.pending := by simp [springErase]
@[simp] theorem wipeDone_pending (s : State) : (wipeDone s).pending = s.pending := by simp [wipeDone]

@[simp] theorem wipeBroken_pending (s : State) : (wipeBroken s).pending = s.pending := by
  unfold wipeBroken
  rw [drawFree_pending, onXspi_pending, foldl_pending, otpProgram_pending, otpProgram_pending]
  exact fun _ _ => rfl

@[simp] theorem openPort_pending (s : State) : (openPort s).pending = s.pending := by simp [openPort]
@[simp] theorem romMode_pending (reason : Nat) (s : State) : (romMode reason s).pending = s.pending := by simp [romMode]
@[simp] theorem bootDone_pending (s : State) : (bootDone s).pending = s.pending := by simp [bootDone]
@[simp] theorem completeIntents_pending (wipeOk : Bool) (s : State) : (completeIntents wipeOk s).pending = s.pending := by
  simp [completeIntents]

@[simp] theorem identity_pending (s : State) : (identity s).pending = s.pending := by
  unfold identity
  split
  · rfl
  · split
    · rfl
    · split
      · rfl
      · rw [onSess_pending, otpProgram_pending, otpProgram_pending, otpProgram_pending]

@[simp] theorem takeBlock_pending (b : CfgBlock) (s : State) : (takeBlock b s).pending = s.pending := by
  unfold takeBlock
  split <;> simp

@[simp] theorem cfgStep_pending (p : List Nat × State) (b : CfgBlock) : (cfgStep p b).2.pending = p.2.pending := by
  unfold cfgStep
  dsimp only
  split
  · rfl
  · split
    · rfl
    · split <;> simp

theorem foldl_cfgStep_pending (bs : List CfgBlock) (p : List Nat × State) : (bs.foldl cfgStep p).2.pending = p.2.pending := by
  induction bs generalizing p with
  | nil => rfl
  | cons b bs ih => rw [List.foldl_cons, ih, cfgStep_pending]

@[simp] theorem checkWell_pending (s : State) : (checkWell s).pending = s.pending := by simp [checkWell]
@[simp] theorem coldState_pending (s : State) : (coldState s).pending = s.pending := by
  unfold coldState
  rw [redecode_pending]
@[simp] theorem cutTransition_pending (s : State) : (cutTransition s).pending = s.pending := by simp [cutTransition]
@[simp] theorem coldReset_pending (s : State) : (coldReset s).pending = s.pending := by simp [coldReset]

/-! The life cycle and the firmware image -/

@[simp] theorem execLcTransition_completes (h : ReqHdr) (target : Nat) (token : BitVec 256) (s : State) :
    Completes s (execLcTransition h target token s) := by simp [execLcTransition]
@[simp] theorem transitionOver_pending (s : State) : (transitionOver s).pending = s.pending := by simp [transitionOver]
@[simp] theorem wipeFailed_pending (s : State) : (wipeFailed s).pending = s.pending := by
  unfold wipeFailed
  rw [enterRom_pending, respondOpt_pending, onLc_pending, wipeBroken_pending]
@[simp] theorem execLcTransitionDone_completes (wipeOk pfFell : Bool) (s : State) :
    Completes s (execLcTransitionDone wipeOk pfFell s) := by simp [execLcTransitionDone]
@[simp] theorem queueOps_pending (h : ReqHdr) (ops : List SpringOp) (s : State) : (queueOps h ops s).pending = s.pending := by
  simp [queueOps]
@[simp] theorem springApply_pending (p : SpringOp) (s : State) : (springApply p s).pending = s.pending := by simp [springApply]

@[simp] theorem execSpringOperationDone_completes (s : State) : Completes s (execSpringOperationDone s) := by
  unfold execSpringOperationDone
  rw [completes_next]
  split
  · rfl
  · split <;> simp

@[simp] theorem execFwWrite_completes (h : ReqHdr) (offset : Nat) (data : List Byte) (s : State) :
    Completes s (execFwWrite h offset data s) := by simp [execFwWrite]
@[simp] theorem execFwCommit_completes (h : ReqHdr) (length : Nat) (s : State) : Completes s (execFwCommit h length s) := by
  simp [execFwCommit]

/-! Warm resets -/

@[simp] theorem resetCore_pending (kind t : Nat) (s : State) : (resetCore kind t s).pending = s.pending := by simp [resetCore]
@[simp] theorem execEngineReset_completes (s : State) : Completes s (execEngineReset s) := by simp [execEngineReset]
@[simp] theorem execAgentReset_completes (h : ReqHdr) (addr : Nat) (s : State) : Completes s (execAgentReset h addr s) := by
  simp [execAgentReset]
@[simp] theorem clearW1c_pending (s : State) : (clearW1c s).pending = s.pending := by simp [clearW1c]
@[simp] theorem discardQueue_pending (s : State) : (discardQueue s).pending = s.pending := by simp [discardQueue]
@[simp] theorem dropRequests_pending (s : State) : (dropRequests s).pending = s.pending := by simp [dropRequests]

@[simp] theorem warmTxn_pending (s : State) : (warmTxn s).pending = s.pending := by
  unfold warmTxn
  extract_lets s1 s2 s3
  have h2 : s2.pending = s.pending := by simp [s2, s1]
  split
  · simp [h2]
  · split
    · split <;> simp [h2]
    · simp [s3, h2]

@[simp] theorem restartCopy_pending (k : SnapTake) (s : State) : (restartCopy k s).pending = s.pending := by simp [restartCopy]
@[simp] theorem warmTake_pending (s : State) : (warmTake s).pending = s.pending := by
  unfold warmTake
  split <;> simp
@[simp] theorem warmRestore_pending (s : State) : (warmRestore s).pending = s.pending := by simp [warmRestore]
@[simp] theorem warmAlarm_pending (s : State) : (warmAlarm s).pending = s.pending := by
  unfold warmAlarm
  split <;> simp
@[simp] theorem warmRecovery_pending (s : State) : (warmRecovery s).pending = s.pending := by simp [warmRecovery]
@[simp] theorem warmResume_pending (s : State) : (warmResume s).pending = s.pending := by simp [warmResume]
@[simp] theorem warmStop_pending (s : State) : (warmStop s).pending = s.pending := by simp [warmStop]
@[simp] theorem centreWarm_pending (cause : Nat) (copyOk : Bool) (s : State) :
    (centreWarm cause copyOk s).pending = s.pending := by simp [centreWarm]
@[simp] theorem execWarmReset_completes (cause : Nat) (copyOk : Bool) (s : State) :
    Completes s (execWarmReset cause copyOk s) := by simp [execWarmReset]
@[simp] theorem execHubWatchdogExpiry_completes (copyOk : Bool) (s : State) : Completes s (execHubWatchdogExpiry copyOk s) := by
  simp [execHubWatchdogExpiry]
@[simp] theorem execCentreReset_completes (h : ReqHdr) (copyOk : Bool) (s : State) :
    Completes s (execCentreReset h copyOk s) := by simp [execCentreReset]
@[simp] theorem execPlanRestore_completes (tile : Nat) (ok : Bool) (s : State) : Completes s (execPlanRestore tile ok s) := by
  simp [execPlanRestore]

/-! Operations in flight on the Rill -/

@[simp] theorem wakeLinks_pending (ls : List Nat) (s : State) : (wakeLinks ls s).pending = s.pending := by simp [wakeLinks]
@[simp] theorem onOp_pending (tag : Nat) (f : RillOp → RillOp) (s : State) : (onOp tag f s).pending = s.pending := by simp [onOp]
@[simp] theorem sendOp_pending (o : RillOp) (s : State) : (sendOp o s).pending = s.pending := by simp [sendOp]
@[simp] theorem dropOp_pending (tag : Nat) (s : State) : (dropOp tag s).pending = s.pending := by simp [dropOp]
@[simp] theorem endOp_pending (o : RillOp) (st : Status) (body : List Byte) (s : State) :
    (endOp o st body s).pending = s.pending := by simp [endOp]
@[simp] theorem resendOp_pending (o : RillOp) (s : State) : (resendOp o s).pending = s.pending := by simp [resendOp]
@[simp] theorem addReply_pending (tag : Nat) (p : Mrsp) (ts : List Nat) (s : State) :
    (addReply tag p ts s).pending = s.pending := by simp [addReply]

@[simp] theorem stubAct_pending (op tile tag : Nat) (answer : RillOp → Mrsp) (effect : RillOp → State → State)
    (heffect : ∀ o t, (effect o t).pending = t.pending) (s : State) :
    (stubAct op tile tag answer effect s).pending = s.pending := by
  unfold stubAct
  split <;> simp [heffect]

@[simp] theorem writeTile_pending (t : Nat) (o : RillOp) (s : State) : (writeTile t o s).pending = s.pending := by
  simp [writeTile]
@[simp] theorem execStubRead_completes (tile tag : Nat) (s : State) : Completes s (execStubRead tile tag s) := by
  simp [execStubRead]
@[simp] theorem execStubWrite_completes (tile tag : Nat) (s : State) : Completes s (execStubWrite tile tag s) := by
  simp [execStubWrite]
@[simp] theorem execStubCensus_completes (tile tag : Nat) (s : State) : Completes s (execStubCensus tile tag s) := by
  simp [execStubCensus]
@[simp] theorem execCoreTimeout_completes (tile tag : Nat) (s : State) : Completes s (execCoreTimeout tile tag s) := by
  unfold execCoreTimeout
  split <;> simp
@[simp] theorem finishMulti_pending (o : RillOp) (s : State) : (finishMulti o s).pending = s.pending := by simp [finishMulti]
@[simp] theorem retryStale_pending (o : RillOp) (s : State) : (retryStale o s).pending = s.pending := by
  unfold retryStale
  split <;> simp
@[simp] theorem nextPacket_pending (o : RillOp) (p : Mrsp) (s : State) : (nextPacket o p s).pending = s.pending := by
  simp [nextPacket]

@[simp] theorem execRillReply_completes (tag : Nat × Bool) (s : State) : Completes s (execRillReply tag s) := by
  unfold execRillReply
  apply completes_when
  split
  · simp
  · split
    · simp
    · split
      · simp
      · split <;> simp

@[simp] theorem shimFails_pending (f : Nat) (s : State) : (shimFails f s).pending = s.pending := by simp [shimFails]
@[simp] theorem edgeFails_pending (d : Nat) (s : State) : (edgeFails d s).pending = s.pending := by simp [edgeFails]

@[simp] theorem execRillResponseTimeout_completes (kind arg : Nat) (s : State) :
    Completes s (execRillResponseTimeout kind arg s) := by
  unfold execRillResponseTimeout
  apply completes_when
  split
  · split <;> simp
  · split <;> simp
  · simp
  · simp
  · split <;> simp
  · simp

/-! Memory reads and writes -/

@[simp] theorem partnerAnswers_pending (a : Nat) (s : State) : (partnerAnswers a s).pending = s.pending := by
  unfold partnerAnswers
  split <;> simp
@[simp] theorem readMemory_pending (a n : Nat) (h : ReqHdr) (s : State) : (readMemory a n h s).pending = s.pending := by
  simp [readMemory]
@[simp] theorem execMemRead_completes (h : ReqHdr) (addr length : Nat) (s : State) :
    Completes s (execMemRead h addr length s) := by simp [execMemRead]
@[simp] theorem writeOtp_pending (o : Nat) (data : List Byte) (otpOk : Bool) (h : ReqHdr) (s : State) :
    (writeOtp o data otpOk h s).pending = s.pending := by simp [writeOtp]

@[simp] theorem writeMemory_pending (a : Nat) (data : List Byte) (otpOk : Bool) (h : ReqHdr) (s : State) :
    (writeMemory a data otpOk h s).pending = s.pending := by
  unfold writeMemory
  split <;> simp

@[simp] theorem execMemWrite_completes (h : ReqHdr) (addr : Nat) (data : List Byte) (otpOk : Bool) (s : State) :
    Completes s (execMemWrite h addr data otpOk s) := by simp [execMemWrite]
@[simp] theorem execSpringErase_completes (h : ReqHdr) (offset length : Nat) (s : State) :
    Completes s (execSpringErase h offset length s) := by simp [execSpringErase]
@[simp] theorem execMcastWrite_completes (h : ReqHdr) (set : TileSet) (space offset : Nat) (data : List Byte) (s : State) :
    Completes s (execMcastWrite h set space offset data s) := by simp [execMcastWrite]
@[simp] theorem execCensus_completes (h : ReqHdr) (set : TileSet) (offset : Nat) (mask value : Word) (test : Nat) (s : State) :
    Completes s (execCensus h set offset mask value test s) := by simp [execCensus]

/-! Whole packets on the Rill -/

@[simp] theorem onRouter_pending (n : Node) (f : RouterState → RouterState) (s : State) :
    (onRouter n f s).pending = s.pending := by simp [onRouter]

@[simp] theorem execMcastCopy_completes (node : Node) (tag : Nat) (credit : List Nat × Bool) (s : State) :
    Completes s (execMcastCopy node tag credit s) := by
  unfold execMcastCopy
  rw [completes_next]
  split
  · rfl
  · dsimp only
    split
    · rfl
    · split <;> simp

@[simp] theorem execMcastBranchTimeout_completes (node : Node) (tag branch : Nat) (s : State) :
    Completes s (execMcastBranchTimeout node tag branch s) := by
  unfold execMcastBranchTimeout
  split <;> simp

@[simp] theorem execMrspCombine_completes (node : Node) (tag : Nat × Bool) (s : State) :
    Completes s (execMrspCombine node tag s) := by
  unfold execMrspCombine
  split <;> simp

@[simp] theorem execCombinerTimeout_completes (node : Node) (tag branch : Nat) (s : State) :
    Completes s (execCombinerTimeout node tag branch s) := by
  unfold execCombinerTimeout
  rw [completes_next]
  split
  · split <;> simp
  · rfl

@[simp] theorem execMreadArrive_completes (holder sender : Node) (addr len : Nat) (plan : Nat × Bool) (s : State) :
    Completes s (execMreadArrive holder sender addr len plan s) := by simp [execMreadArrive]

@[simp] theorem execMdataReturn_completes (holder : Node) (addr len plan : Nat) (data : List Word × Bool) (s : State) :
    Completes s (execMdataReturn holder addr len plan data s) := by
  unfold execMdataReturn
  apply completes_when
  dsimp only
  split
  · simp
  · split <;> simp

@[simp] theorem execFetch_completes (tile : Nat) (restore : Bool) (plan : Nat) (s : State) :
    Completes s (execFetch tile restore plan s) := by
  unfold execFetch
  apply completes_when
  split
  · simp
  · split
    · simp
    · split <;> simp

@[simp] theorem execCopyout_completes (tile offset len : Nat) (s : State) : Completes s (execCopyout tile offset len s) := by
  simp [execCopyout]
@[simp] theorem onWeir_pending (w : Nat) (f : Weir → Weir) (s : State) : (onWeir w f s).pending = s.pending := by simp [onWeir]
@[simp] theorem execLinkGate_completes (link : Nat) (s : State) : Completes s (execLinkGate link s) := by simp [execLinkGate]
@[simp] theorem execEdgeLinkDown_completes (die : Nat) (overflow : Bool) (s : State) :
    Completes s (execEdgeLinkDown die overflow s) := by simp [execEdgeLinkDown]

/-! Sessions and hub requests -/

@[simp] theorem disown_pending (id : Nat) (s : State) : (disown id s).pending = s.pending := by simp [disown]
@[simp] theorem closeSession_pending (id : Nat) (s : State) : (closeSession id s).pending = s.pending := by simp [closeSession]
@[simp] theorem takeOver_pending (id : Nat) (s : State) : (takeOver id s).pending = s.pending := by simp [takeOver]
@[simp] theorem openMailbox_pending (kind : Nat) (h : ReqHdr) (s : State) : (openMailbox kind h s).pending = s.pending := by
  simp [openMailbox]
@[simp] theorem openSession_pending (kind : Nat) (h : ReqHdr) (s : State) : (openSession kind h s).pending = s.pending := by
  simp [openSession]
@[simp] theorem execSessionOpen_completes (h : ReqHdr) (kind : Nat) (s : State) : Completes s (execSessionOpen h kind s) := by
  simp [execSessionOpen]
@[simp] theorem spendNonce_pending (id : Nat) (s : State) : (spendNonce id s).pending = s.pending := by simp [spendNonce]
@[simp] theorem grantAct_pending (nonce : BitVec 128) (rights x y r sg : Nat) (h : ReqHdr) (s : State) :
    (grantAct nonce rights x y r sg h s).pending = s.pending := by simp [grantAct]
@[simp] theorem execGrant_completes (h : ReqHdr) (nonce : BitVec 128) (rights x y r sg : Nat) (s : State) :
    Completes s (execGrant h nonce rights x y r sg s) := by simp [execGrant]
@[simp] theorem execSessionClose_completes (h : ReqHdr) (s : State) : Completes s (execSessionClose h s) := by
  simp [execSessionClose]
@[simp] theorem execSessionTimeout_completes (session : Nat) (s : State) : Completes s (execSessionTimeout session s) := by
  unfold execSessionTimeout
  split <;> simp
@[simp] theorem execHubInfo_completes (h : ReqHdr) (s : State) : Completes s (execHubInfo h s) := by simp [execHubInfo]
@[simp] theorem execStatusRead_completes (h : ReqHdr) (s : State) : Completes s (execStatusRead h s) := by simp [execStatusRead]
@[simp] theorem execStatusReadClear_completes (h : ReqHdr) (s : State) : Completes s (execStatusReadClear h s) := by
  simp [execStatusReadClear]
@[simp] theorem execNop_completes (h : ReqHdr) (s : State) : Completes s (execNop h s) := by simp [execNop]
@[simp] theorem execPowerState_completes (h : ReqHdr) (state : Nat) (s : State) : Completes s (execPowerState h state s) := by
  simp [execPowerState]
@[simp] theorem execReturnToActiveDone_completes (s : State) : Completes s (execReturnToActiveDone s) := by
  simp [execReturnToActiveDone]

/-! The port, the TAP and the mailbox -/

@[simp] theorem control_pending (ty reason gen : Nat) (s : State) : (control ty reason gen s).pending = s.pending := by
  simp [control]
@[simp] theorem startReset_pending (s : State) : (startReset s).pending = s.pending := by simp [startReset]
@[simp] theorem completeReset_pending (g : Nat) (s : State) : (completeReset g s).pending = s.pending := by simp [completeReset]
@[simp] theorem answerReset_pending (g : Nat) (s : State) : (answerReset g s).pending = s.pending := by simp [answerReset]

@[simp] theorem execLreset_completes (gen : Nat) (s : State) : Completes s (execLreset gen s) := by
  unfold execLreset
  apply completes_when
  dsimp only
  split <;> simp

@[simp] theorem execLresetAck_completes (gen : Nat) (s : State) : Completes s (execLresetAck gen s) := by simp [execLresetAck]
@[simp] theorem execLresetRepeat_completes (s : State) : Completes s (execLresetRepeat s) := by
  unfold execLresetRepeat
  split <;> simp
@[simp] theorem execHostSilentTimeout_completes (s : State) : Completes s (execHostSilentTimeout s) := by
  simp [execHostSilentTimeout]
@[simp] theorem execBlockLockLost_completes (s : State) : Completes s (execBlockLockLost s) := by simp [execBlockLockLost]
@[simp] theorem execBlockLockRegained_completes (s : State) : Completes s (execBlockLockRegained s) := by
  simp [execBlockLockRegained]
@[simp] theorem takeAck_pending (ack : Nat) (s : State) : (takeAck ack s).pending = s.pending := by
  unfold takeAck
  split <;> simp
@[simp] theorem resend_pending (s : State) : (resend s).pending = s.pending := by simp [resend]
@[simp] theorem validFrame_pending (gen ack : Nat) (s : State) : (validFrame gen ack s).pending = s.pending := by
  simp [validFrame]
@[simp] theorem execAckFrame_completes (gen ack : Nat) (s : State) : Completes s (execAckFrame gen ack s) := by
  simp [execAckFrame]
@[simp] theorem execKeepalive_completes (gen ack : Nat) (s : State) : Completes s (execKeepalive gen ack s) := by
  simp [execKeepalive]
@[simp] theorem execNakFrame_completes (gen ack reason : Nat) (s : State) : Completes s (execNakFrame gen ack reason s) := by
  simp [execNakFrame]
@[simp] theorem execPortAckTimeout_completes (s : State) : Completes s (execPortAckTimeout s) := by simp [execPortAckTimeout]
@[simp] theorem onAssembling_pending (g : List Assembly → List Assembly) (s : State) :
    (onAssembling g s).pending = s.pending := by simp [onAssembling]
@[simp] theorem dropAssembly_pending (f : DataFrame) (s : State) : (dropAssembly f s).pending = s.pending := by
  simp [dropAssembly]
@[simp] theorem badFragment_pending (c : Check) (f : DataFrame) (s : State) : (badFragment c f s).pending = s.pending := by
  simp [badFragment]
@[simp] theorem takeFragment_pending (f : DataFrame) (s : State) : (takeFragment f s).pending = s.pending := by
  simp [takeFragment]
@[simp] theorem sendNak_pending (reason : Nat) (s : State) : (sendNak reason s).pending = s.pending := by simp [sendNak]
@[simp] theorem countCrc_pending (s : State) : (countCrc s).pending = s.pending := by simp [countCrc]
@[simp] theorem execDataFrame_completes (octets : List Byte) (aborted : Bool) (s : State) :
    Completes s (execDataFrame octets aborted s) := by simp [execDataFrame]
@[simp] theorem execStatusFrame_completes (s : State) : Completes s (execStatusFrame s) := by simp [execStatusFrame]
@[simp] theorem execTapReset_completes (s : State) : Completes s (execTapReset s) := by simp [execTapReset]
@[simp] theorem execTapInstruction_completes (code : Nat) (s : State) : Completes s (execTapInstruction code s) := by
  simp [execTapInstruction]
@[simp] theorem execMboxDataWrite_completes (w : Word) (s : State) : Completes s (execMboxDataWrite w s) := by
  simp [execMboxDataWrite]
@[simp] theorem execMboxDataRead_completes (s : State) : Completes s (execMboxDataRead s) := by simp [execMboxDataRead]
@[simp] theorem execMboxGo_completes (s : State) : Completes s (execMboxGo s) := by simp [execMboxGo]
@[simp] theorem execMboxAbort_completes (s : State) : Completes s (execMboxAbort s) := by simp [execMboxAbort]

/-! Packets on the Rill's links -/

@[simp] theorem onFlow_pending (id : Nat) (n : Node) (f : Flow → Flow) (s : State) : (onFlow id n f s).pending = s.pending := by
  simp [onFlow]
@[simp] theorem enterFlow_pending (n : Node) (port : Nat) (p : Packet) (s : State) :
    (enterFlow n port p s).pending = s.pending := by simp [enterFlow]

@[simp] theorem flowIn_pending (id : Nat) (n : Node) (port : Nat) (p : Packet) (k : Nat) (s : State) :
    (flowIn id n port p k s).pending = s.pending := by
  unfold flowIn
  split
  · simp
  · dsimp only
    split <;> simp

@[simp] theorem takeSlot_pending (w : Nat) (e : WeirSlot) (s : State) : (takeSlot w e s).pending = s.pending := by
  unfold takeSlot
  extract_lets d s1
  have h1 : s1.pending = s.pending := by
    unfold s1
    split
    · rfl
    · split <;> simp
  split
  · exact h1
  · rw [flowIn_pending, h1]

@[simp] theorem execRillPacketArrive_completes (node : Node) (port : Nat) (pkt : Packet) (s : State) :
    Completes s (execRillPacketArrive node port pkt s) := by
  unfold execRillPacketArrive
  apply completes_when
  dsimp only
  split <;> simp

@[simp] theorem execWeirSlip_completes (weir separation : Nat) (s : State) : Completes s (execWeirSlip weir separation s) := by
  simp [execWeirSlip]
@[simp] theorem execWeirRetrainDone_completes (weir : Nat) (s : State) : Completes s (execWeirRetrainDone weir s) := by
  simp [execWeirRetrainDone]

/-! Cold reset and start -/

@[simp] theorem execColdReset_completes (cause lowNs : Nat) (s : State) : Completes s (execColdReset cause lowNs s) := by
  simp [execColdReset]
@[simp] theorem execStart_completes (s : State) : Completes s (execStart s) := by simp [execStart]
@[simp] theorem toPhase_pending (n : Nat) (s : State) : (toPhase n s).pending = s.pending := by simp [toPhase]
@[simp] theorem resetDone_pending (s : State) : (resetDone s).pending = s.pending := by simp [resetDone]
@[simp] theorem otpDone_pending (r : PhaseReport) (s : State) : (otpDone r s).pending = s.pending := by simp [otpDone]
@[simp] theorem springDone_pending (r : PhaseReport) (s : State) : (springDone r s).pending = s.pending := by simp [springDone]
@[simp] theorem imageDone_pending (s : State) : (imageDone s).pending = s.pending := by simp [imageDone]

@[simp] theorem configDone_pending (s : State) : (configDone s).pending = s.pending := by
  unfold configDone
  extract_lets r s1 s2 s3 s4 s5
  have h1 : s1.pending = s.pending := by rw [onCfg_pending, foldl_cfgStep_pending]
  have h4 : s4.pending = s.pending := by rw [checkWell_pending, onBoot_pending, onEveryShim_pending, h1]
  have h5 : s5.pending = s.pending := by
    unfold s5
    split
    · split <;> simp
    · split <;> simp [h1, h4]
  split <;> simp [h5]

@[simp] theorem rillDone_pending (r : PhaseReport) (s : State) : (rillDone r s).pending = s.pending := by simp [rillDone]
@[simp] theorem treesDone_pending (r : PhaseReport) (s : State) : (treesDone r s).pending = s.pending := by simp [treesDone]
@[simp] theorem mapDone_pending (r : PhaseReport) (s : State) : (mapDone r s).pending = s.pending := by simp [mapDone]

@[simp] theorem censusDone_pending (r : PhaseReport) (s : State) : (censusDone r s).pending = s.pending := by
  unfold censusDone
  rw [openPort_pending, toPhase_pending, onBoot_pending, startPeriods_pending, markLoaded_pending,
    onCensus_pending, onEveryTile_pending]

@[simp] theorem execStartPhaseDone_completes (r : PhaseReport) (s : State) : Completes s (execStartPhaseDone r s) := by
  unfold execStartPhaseDone
  rw [completes_next]
  split
  · rfl
  · split <;> simp

/-! The dispatch -/

theorem exec_completes (c : Instr) (s : State) : Completes s (exec c s) := by
  cases c <;> simp [exec]

/-- Settles O51: each arm of the dispatch is one direct call of a definition that completes. -/
theorem everyCommandCompletes : Obligations.EveryCommandCompletes := exec_completes

end Sys2Proof.Machine
end

section
/-! Hub time, one tile at a time, and the records of an eddy ring: what each leaves as it was. -/

namespace Sys2Proof.Machine

/-! Moving hub time (03 R84) changes no tile and nothing of the Rill -/

theorem switchWatch_frame (s : State) :
    switchWatch s = { s with alarm := (switchWatch s).alarm, plans := (switchWatch s).plans } := rfl

theorem event_frame (n : Nat) (s : State) : event n s = { s with port := (event n s).port } := rfl

/-- What the centre changes at a press tick (05 R177, 06 R207). -/
theorem pressCentre_frame (s : State) : pressCentre s = { s with
    mapEpoch := (pressCentre s).mapEpoch
    alarm := (pressCentre s).alarm
    txn := (pressCentre s).txn
    plans := (pressCentre s).plans
    folds := (pressCentre s).folds
    census := (pressCentre s).census
    port := (pressCentre s).port } := by
  unfold pressCentre
  split
  · rfl
  · extract_lets s1 s2
    have h2 : s2 = { s with mapEpoch := s2.mapEpoch, txn := s2.txn } := by
      unfold s2
      split <;> rfl
    split
    · rw [event_frame, switchWatch_frame, h2]
    · rw [event_frame, startLedger, h2]; rfl
    · rw [event_frame, h2]; rfl
    · rw [h2]

/-- What the passing of hub time changes: the time, and at a press tick the centre's own part of the press. -/
theorem elapse_frame (t : Nat) (s : State) : elapse t s = { s with
    mapEpoch := (elapse t s).mapEpoch
    time := { s.time with hub := (elapse t s).time.hub }
    alarm := (elapse t s).alarm
    txn := (elapse t s).txn
    plans := (elapse t s).plans
    folds := (elapse t s).folds
    census := (elapse t s).census
    port := (elapse t s).port } := by
  unfold elapse reachTick
  split
  · split
    · rw [pressCentre_frame]; rfl
    · rfl
  · rfl

@[simp] theorem elapse_tiles (t : Nat) (s : State) : (elapse t s).tiles = s.tiles := by rw [elapse_frame]
@[simp] theorem elapse_rill (t : Nat) (s : State) : (elapse t s).rill = s.rill := by rw [elapse_frame]

theorem tileOf_of_tiles {s t : State} (h : t.tiles = s.tiles) (k : Nat) : tileOf t k = tileOf s k := by
  unfold tileOf; rw [h]

@[simp] theorem tileOf_elapse (t : Nat) (s : State) (k : Nat) : tileOf (elapse t s) k = tileOf s k :=
  tileOf_of_tiles (elapse_tiles t s) k

/-! One tile at a time -/

theorem OnlyTile.refl (s : State) (k : Nat) : OnlyTile s s k := ⟨rfl, fun _ _ => rfl⟩

theorem OnlyTile.trans {s t u : State} {k : Nat} (h : OnlyTile s t k) (g : OnlyTile t u k) : OnlyTile s u k := by
  obtain ⟨h1, h2⟩ := h
  obtain ⟨g1, g2⟩ := g
  refine ⟨?_, fun v hv => (g2 v hv).trans (h2 v hv)⟩
  rw [← h1, ← g1]

theorem onTile_onlyTile (k : Nat) (f : Tile → Tile) (s : State) : OnlyTile s (onTile k f s) k := by
  refine ⟨?_, fun u hu => tileOf_onTile_ne f s hu⟩
  unfold onTile
  split <;> rfl

@[simp] theorem now_onTile (k : Nat) (f : Tile → Tile) (s : State) : now (onTile k f s) = now s := by simp [now]

/-! A record changes its stub's ring and nothing else (10 R301) -/

/-- `t` is `e` but for tile `k`, which is `x` but for its eddies. -/
def Retiled (e t : State) (k : Nat) (x : Tile) : Prop := OnlyTile e t k ∧ ∃ w, tileOf t k = { x with eddy := w }

theorem onTile_retiled (k : Nat) (f : Tile → Tile) (s : State) (hk : k < numTiles) :
    Retiled s (onTile k f s) k (f (tileOf s k)) :=
  ⟨onTile_onlyTile k f s, _, tileOf_onTile_self f s hk⟩

theorem recordAt_retiled {e t : State} {k : Nat} {x : Tile} (time code data : Nat) (hk : k < numTiles) (h : Retiled e t k x) :
    Retiled e (recordAt k time code data t) k x := by
  obtain ⟨h1, w, hw⟩ := h
  unfold recordAt
  split
  · exact ⟨h1, w, hw⟩
  · refine ⟨h1.trans (onTile_onlyTile _ _ _), ?_⟩
    rw [tileOf_onTile_self _ _ hk, hw]
    dsimp only
    split
    · exact ⟨_, rfl⟩
    · split
      · exact ⟨_, rfl⟩
      · exact ⟨w, rfl⟩

theorem recordKind_retiled {e t : State} {k : Nat} {x : Tile} (code kd data : Nat) (hk : k < numTiles) (h : Retiled e t k x) :
    Retiled e (recordKind k code kd data t) k x := by
  unfold recordKind
  split
  · exact recordAt_retiled _ _ _ hk h
  · exact h

theorem recordAt_onlyTile (k time code data : Nat) (s : State) : OnlyTile s (recordAt k time code data s) k := by
  unfold recordAt
  split
  · exact .refl s k
  · exact onTile_onlyTile _ _ _

theorem recordKind_onlyTile (k code kd data : Nat) (s : State) : OnlyTile s (recordKind k code kd data s) k := by
  unfold recordKind
  split
  · exact recordAt_onlyTile _ _ _ _ _
  · exact .refl s k

theorem OnlyTile.folds {s t : State} {k : Nat} (h : OnlyTile s t k) : t.folds = s.folds := by rw [← h.1]

end Sys2Proof.Machine
end

section
namespace Sys2Proof.Machine

/-! The fields of a still-tree word (02 R79) -/

theorem wireWord_lt (head lo : Nat) : wireWord head lo < 2 ^ 48 := by unfold wireWord; omega

theorem wordAction_eq (head lo : Nat) : wordAction (wireWord head lo) = wireWord head lo % 2 ^ 48 / 2 ^ 45 := by
  have := wireWord_lt head lo
  simp only [wordAction, bits]; omega

theorem wordScope_eq (head lo : Nat) : wordScope (wireWord head lo) = wireWord head lo % 2 ^ 45 / 2 ^ 41 := by
  simp only [wordScope, bits]; omega

theorem wordTick_eq (w : Nat) : wordTick w = w % 2 ^ 32 := by simp [wordTick, bits]

/-! What a stub makes of a word (02 R80, R81) -/

/-- The captured action, with its tick widened about the stub's own time (02 R80). -/
def capturedAction (me action scope lo : Nat) : StillAction :=
  { kind := action, scope := scope, tick := widen32 me lo, late := decide (widen32 me lo < me) }

/-- The tile that has taken a sound word: MISSED clears, a STILL arms a RUNNING tile, and a PRESS a STAGED stub. -/
def withAction (a : StillAction) (x : Tile) : Tile :=
  { x with
    still := { x.still with missed := false, state := armedState a.kind x, pending := x.still.pending ++ [a] }
    txn := { x.txn with tstate := if a.kind = 3 then 3 else x.txn.tstate } }

theorem withAction_rest (a : StillAction) (x : Tile) (w : StubEddy) :
    { { withAction a x with eddy := w } with still := x.still, txn := x.txn, eddy := x.eddy } = x := rfl

theorem withAction_still (a : StillAction) (x : Tile) : (withAction a x).still = { x.still with
    missed := false
    state := if a.kind = 1 ∧ x.still.state = 0 then 1 else x.still.state
    pending := x.still.pending ++ [a] } := by
  simp [withAction, armedState]

theorem withAction_still_press {a : StillAction} {x : Tile} (h : a.kind = 3) : (withAction a x).still = { x.still with
    missed := false, pending := x.still.pending ++ [a] } := by
  simp [withAction_still, h]

theorem withAction_txn_press {a : StillAction} {x : Tile} (h : a.kind = 3) :
    (withAction a x).txn = { x.txn with tstate := 3 } := by
  simp [withAction, h]

theorem withAction_txn_other {a : StillAction} {x : Tile} (h : a.kind ≠ 3) : (withAction a x).txn = x.txn := by
  simp [withAction, h]

theorem stillWordCapture_unsound (s : State) (k head lo : Nat) (p0 p1 : Bool) (hs : s.rill.inService = true)
    (hk : k < numTiles) (hp : parityOk (wireWord head lo) p0 p1 = false) :
    let w := wireWord head lo
    let e := elapse (arrival s k (wordAction w) (wordScope w) (wordTick w)) s
    ∃ t, exec (.stillWordCapture k head lo p0 p1) s = .next t ∧
      Retiled e t k { tileOf s k with still := { (tileOf s k).still with missed := true } } := by
  intro w e
  refine ⟨_, rfl, ?_⟩
  simp only [when, inService, hs, hk, decide_true, Bool.and_self, if_true, hp, Bool.not_false]
  have hx := onTile_retiled k (fun x => { x with still := { x.still with missed := true } }) e hk
  rw [tileOf_elapse] at hx
  exact recordAt_retiled _ _ _ hk hx

theorem stillWordCapture_taken (s : State) (k head lo : Nat) (p0 p1 : Bool) (hs : s.rill.inService = true)
    (hk : k < numTiles) (hp : parityOk (wireWord head lo) p0 p1 = true)
    (hi : inScope (tileOf s k) (wordScope (wireWord head lo)) = true)
    (ha : wordAction (wireWord head lo) = 1 ∨ wordAction (wireWord head lo) = 2 ∨
      (wordAction (wireWord head lo) = 3 ∧ (tileOf s k).txn.tstate = 2)) :
    let w := wireWord head lo
    let e := elapse (arrival s k (wordAction w) (wordScope w) (wordTick w)) s
    ∃ t, exec (.stillWordCapture k head lo p0 p1) s = .next t ∧
      Retiled e t k (withAction (capturedAction (stubNow e k) (wordAction w) (wordScope w) (wordTick w)) (tileOf s k)) := by
  intro w e
  refine ⟨_, rfl, ?_⟩
  have hb : (!(wordAction w == 1 || wordAction w == 2 || wordAction w == 3) || !inScope (tileOf e k) (wordScope w) ||
      (wordAction w == 3 && (tileOf e k).txn.tstate != 2)) = false := by
    rw [tileOf_elapse]
    rcases ha with h | h | ⟨h, h2⟩ <;> simp [w, h, hi]
    exact h2
  simp only [when, inService, hs, hk, decide_true, Bool.and_self, if_true, hp, Bool.not_true, Bool.false_eq_true, if_false]
  rw [if_neg (by rw [hb]; decide)]
  have hx := onTile_retiled k (withAction (capturedAction (stubNow e k) (wordAction w) (wordScope w) (wordTick w))) e hk
  rw [tileOf_elapse] at hx
  split
  · exact recordAt_retiled _ _ _ hk hx
  · exact hx

theorem stillWordCapture_other (s : State) (k head lo : Nat) (p0 p1 : Bool) (hs : s.rill.inService = true)
    (hk : k < numTiles) (hp : parityOk (wireWord head lo) p0 p1 = true)
    (h : inScope (tileOf s k) (wordScope (wireWord head lo)) = false ∨
      (wordAction (wireWord head lo) = 3 ∧ (tileOf s k).txn.tstate ≠ 2)) :
    exec (.stillWordCapture k head lo p0 p1) s = .next (elapse (arrival s k (wordAction (wireWord head lo))
      (wordScope (wireWord head lo)) (wordTick (wireWord head lo))) s) := by
  simp only [exec, execStillWordCapture, when, inService, hs, hk, decide_true, Bool.and_self, if_true, hp, Bool.not_true,
    Bool.false_eq_true, if_false, tileOf_elapse]
  rw [if_pos (by rcases h with h | ⟨h, h2⟩ <;> simp [*])]

/-! What a STILL does at its tick (04 R108, R122, R140, R141) -/

theorem stillAct_retiled (s : State) (k cycles : Nat) (a : StillAction) (vp : Bool) (hk : k < numTiles)
    (ht : takeAction 1 (tileOf s k) = some a) (hm : mayAct (tileOf s k) = true) :
    let e := elapse (reachAt s k a.tick) s
    ∃ t, exec (.stillAct k cycles vp) s = .next t ∧
      Retiled e t k (freeze a.scope a.tick (now e) cycles vp (dropPending a (stopHang (stubNow e k) (tileOf s k)))) := by
  intro e
  refine ⟨_, rfl, ?_⟩
  simp only [ht, when, hm, if_true]
  refine recordAt_retiled _ _ _ hk ⟨(onTile_onlyTile k _ _).trans (onTile_onlyTile k _ _), ?_⟩
  rw [tileOf_onTile_self _ _ hk, tileOf_onTile_self _ _ hk, tileOf_elapse, now_onTile]
  exact ⟨_, rfl⟩

/-- The tile whose stub has taken the STILL `a` for a core without clock (04 R140). -/
def stubStill (a : StillAction) (cycles : Nat) (x : Tile) : Tile :=
  { x with still := { x.still with
    pending := x.still.pending.erase a
    mask := x.still.mask ||| (1 <<< a.scope)
    actTick := a.tick
    stepCyc := if x.still.mask == 0 then stepCycles cycles x else x.still.stepCyc
    stepping := false
    state := if x.still.frz && x.still.mask != 0 then x.still.state else 2 } }

theorem stubStillNoClock_retiled (s : State) (k cycles : Nat) (a : StillAction) (hk : k < numTiles)
    (ht : stubAction 1 (tileOf s k) = some a) (hp : (tileOf s k).power.pwrOk = true) (hc : (tileOf s k).power.noClock = true) :
    let e := elapse (reachAt s k a.tick) s
    ∃ t, exec (.stubStillNoClock (k, cycles)) s = .next t ∧
      Retiled e t k (stubStill a cycles (stopHang (stubNow e k) (tileOf s k))) := by
  intro e
  refine ⟨_, rfl, ?_⟩
  simp only [ht, when, hp, hc, Bool.and_self, if_true]
  refine recordAt_retiled _ _ _ hk ⟨(onTile_onlyTile k _ _).trans (onTile_onlyTile k _ _), ?_⟩
  rw [tileOf_onTile_self _ _ hk, tileOf_onTile_self _ _ hk, tileOf_elapse]
  exact ⟨_, rfl⟩


/-- What a STILL leaves of a tile at its tick: all but its still state, its eddies and the hang watchdog's count. -/
def KeptByStill (x y : Tile) : Prop :=
  { y with still := x.still, eddy := x.eddy, hang := x.hang } = x ∧
    y.hang = { x.hang with elapsed := y.hang.elapsed, since := y.hang.since }

theorem freeze_kept (scope tick e cycles me : Nat) (vp : Bool) (a : StillAction) (x : Tile) (w : StubEddy) :
    KeptByStill x { freeze scope tick e cycles vp (dropPending a (stopHang me x)) with eddy := w } := by
  unfold freeze
  dsimp only
  split
  · exact ⟨rfl, rfl⟩
  · split <;> exact ⟨rfl, rfl⟩

theorem stepCycles_eq (cycles : Nat) (x : Tile) :
    stepCycles cycles x = if x.still.stepping ∧ x.still.stepK = 0 then min cycles 65535 else x.still.stepCyc := by
  simp [stepCycles]

theorem stubStill_still (a : StillAction) (cycles me : Nat) (x : Tile) :
    (stubStill a cycles (stopHang me x)).still = { x.still with
      pending := x.still.pending.erase a
      mask := x.still.mask ||| (1 <<< a.scope)
      actTick := a.tick
      stepCyc := if x.still.mask = 0 then (if x.still.stepping ∧ x.still.stepK = 0 then min cycles 65535 else x.still.stepCyc)
        else x.still.stepCyc
      stepping := false
      state := if x.still.frz ∧ x.still.mask ≠ 0 then x.still.state else 2 } := by
  simp [stubStill, stopHang, stepCycles_eq]

theorem stubStill_kept (a : StillAction) (cycles me : Nat) (x : Tile) (w : StubEddy) :
    KeptByStill x { stubStill a cycles (stopHang me x) with eddy := w } := ⟨rfl, rfl⟩

/-- What every STILL notes on its tile (04 R108). -/
theorem freeze_notes (scope tick e cycles : Nat) (vp : Bool) (x : Tile) :
    (freeze scope tick e cycles vp x).still.mask = x.still.mask ||| (1 <<< scope) ∧
    (freeze scope tick e cycles vp x).still.actTick = tick ∧
    (freeze scope tick e cycles vp x).still.pending = x.still.pending ∧
    (freeze scope tick e cycles vp x).still.stepping = false := by
  unfold freeze
  dsimp only
  split
  · exact ⟨rfl, rfl, rfl, rfl⟩
  · split <;> exact ⟨rfl, rfl, rfl, rfl⟩

theorem freeze_running (scope tick e cycles : Nat) (vp : Bool) (x : Tile) (hp : x.power.pwrOk = true) (hm : x.still.mask = 0) :
    (freeze scope tick e cycles vp x).still = { x.still with
      mask := x.still.mask ||| (1 <<< scope)
      actTick := tick
      state := 2
      frz := true
      frzAck := false
      rfrzAck := false
      vpend := vp
      edgeAt := e
      lateFrz := decide (tick + 1000 < ownTime x e)
      stepCyc := stepCycles cycles x
      stepping := false } := by
  unfold freeze
  dsimp only
  rw [if_neg (by simp [hp]), if_pos (by simp [hm])]
  rfl

theorem freeze_still (scope tick e cycles : Nat) (vp : Bool) (x : Tile) (hp : x.power.pwrOk = true) (hm : x.still.mask ≠ 0) :
    (freeze scope tick e cycles vp x).still = { x.still with
      mask := x.still.mask ||| (1 <<< scope)
      actTick := tick
      vpend := vp
      stepping := false } := by
  unfold freeze
  dsimp only
  rw [if_neg (by simp [hp]), if_neg (by simpa using hm)]

theorem freeze_dark (scope tick e cycles : Nat) (vp : Bool) (x : Tile) (hp : x.power.pwrOk = false) :
    (freeze scope tick e cycles vp x).still.state = 6 := by
  simp [freeze, hp]

theorem stillAct_idle (s : State) (k cycles : Nat) (vp : Bool) (h : takeAction 1 (tileOf s k) = none ∨ mayAct (tileOf s k) = false) :
    exec (.stillAct k cycles vp) s = .next s := by
  simp only [exec, execStillAct]
  cases ha : takeAction 1 (tileOf s k) with
  | none => rfl
  | some a =>
    have hm : mayAct (tileOf s k) = false := by simpa [ha] using h
    simp [when, hm]

theorem stubStillNoClock_idle (s : State) (k cycles : Nat)
    (h : stubAction 1 (tileOf s k) = none ∨ (tileOf s k).power.pwrOk = false ∨ (tileOf s k).power.noClock = false) :
    exec (.stubStillNoClock (k, cycles)) s = .next s := by
  simp only [exec, execStubStillNoClock]
  cases ha : stubAction 1 (tileOf s k) with
  | none => rfl
  | some a =>
    have hm : ((tileOf s k).power.pwrOk && (tileOf s k).power.noClock) = false := by
      rcases h with h | h | h
      · simp [ha] at h
      · simp [h]
      · simp [h]
    simp [when, hm]

/-- Settles O13, by what a captured word, and then the STILL it holds, make of their tile. -/
theorem stillsReachTheTile : Obligations.StillsReachTheTile := by
  refine ⟨fun s k head lo p0 p1 hs hk => ?_, stillAct_idle, stubStillNoClock_idle, fun s k cycles a hk => ?_⟩
  · intro word
    have hw : word % 2 ^ 48 = word := Nat.mod_eq_of_lt (wireWord_lt head lo)
    rw [← wordAction_eq, ← wordScope_eq, ← wordTick_eq, hw]
    intro action scope sound e x n arrived act
    refine ⟨fun hp => ?_, fun hp hi ha => ?_, fun hp hi ha hst => ?_, fun hp h => ?_⟩
    · obtain ⟨t, ht, ho, w, hx⟩ := stillWordCapture_unsound s k head lo p0 p1 hs hk hp
      exact ⟨t, ht, ⟨ho, by rw [hx]⟩, by rw [hx], by rw [hx]⟩
    · obtain ⟨t, ht, ho, w, hx⟩ := stillWordCapture_taken s k head lo p0 p1 hs hk hp hi (by tauto)
      have h3 : action ≠ 3 := by omega
      refine ⟨t, ht, ⟨ho, by rw [hx]; exact withAction_rest act x w⟩, ?_, ?_⟩
      · rw [hx]; exact withAction_txn_other h3
      · rw [hx]; exact withAction_still act x
    · obtain ⟨t, ht, ho, w, hx⟩ := stillWordCapture_taken s k head lo p0 p1 hs hk hp hi (.inr (.inr ⟨ha, hst⟩))
      refine ⟨t, ht, ⟨ho, by rw [hx]; exact withAction_rest act x w⟩, ?_, ?_⟩
      · rw [hx]; exact withAction_txn_press ha
      · rw [hx]; exact withAction_still_press (a := act) ha
    · exact stillWordCapture_other s k head lo p0 p1 hs hk hp h
  · intro e x cyc rest
    constructor
    · intro ha hm vp
      obtain ⟨t, ht, ho, w, hx⟩ := stillAct_retiled s k cycles a vp hk ha hm
      have hs : (tileOf t k).still = (freeze a.scope a.tick (now e) cycles vp (dropPending a (stopHang (stubNow e k) x))).still := by
        rw [hx]
      refine ⟨t, ht, ⟨ho, by rw [hx]; exact freeze_kept _ _ _ _ _ _ _ x w⟩, ?_⟩
      rw [hs]
      obtain ⟨h1, h2, h3, h4⟩ := freeze_notes a.scope a.tick (now e) cycles vp (dropPending a (stopHang (stubNow e k) x))
      refine ⟨h1, h2, h3, h4, fun hp hz => ?_, fun hp hz => ?_, fun hp => freeze_dark _ _ _ _ _ _ hp⟩
      · rw [freeze_running _ _ _ _ _ (dropPending a (stopHang (stubNow e k) x)) hp hz]
        exact ⟨rfl, rfl, rfl, rfl, rfl, rfl, stepCycles_eq cycles x, rfl⟩
      · rw [freeze_still _ _ _ _ _ (dropPending a (stopHang (stubNow e k) x)) hp hz]
        exact ⟨rfl, rfl, rfl⟩
    · intro ha hp hc
      obtain ⟨t, ht, ho, w, hx⟩ := stubStillNoClock_retiled s k cycles a hk ha hp hc
      refine ⟨t, ht, ⟨ho, by rw [hx]; exact stubStill_kept a cycles _ x w⟩, ?_⟩
      rw [hx]
      exact stubStill_still a cycles _ x

end Sys2Proof.Machine
end

section
/-! Fold plans and the order in which contributions combine (02 R63 to R66, R72). -/

namespace Sys2Proof.Machine

/-! Loading a plan (02 R72) -/

theorem nodeOver_assembling (s : State) (as : List Assembly) (is : List FoldInfo) (n : Node) :
    nodeOver { s with sess := { s.sess with assembling := as } } is n = nodeOver s is n := rfl

theorem overEntry_congr {s t : State} (h : ∀ is n, nodeOver t is n = nodeOver s is n) (es : List (List FoldInfo)) :
    ∀ base k, overEntry t base k es = overEntry s base k es := by
  have hf : ∀ is, firstOver t is = firstOver s is := fun is => by simp only [firstOver, h]
  induction es with
  | nil => intro base k; rfl
  | cons e r ih => intro base k; simp only [overEntry, hf, ih]

/-- The conditions of a fold plan do not look at the requests under way. -/
theorem foldChecks_assembling (es : List FoldEntry) (h : ReqHdr) (s : State) (as : List Assembly) :
    foldChecks es h { s with sess := { s.sess with assembling := as } } = foldChecks es h s := by
  have hl : ∀ base is, limitCheck { s with sess := { s.sess with assembling := as } } base is = limitCheck s base is :=
    fun base is => by simp only [limitCheck, overEntry_congr (nodeOver_assembling s as)]
  simp only [foldChecks, hl]
  rfl

theorem find_unstamped (l : List Session) (id : Nat) :
    (l.find? (fun x => x.id == id)).map (·.intrusive) = ((l.map unstamped).find? (fun x => x.id == id)).map (·.intrusive) := by
  rw [List.find?_map, Option.map_map]
  rfl

/-- A taken request leaves which session is intrusive. -/
theorem isIntrusive_taken {s w : State} {h : ReqHdr} (ht : Taken s w h) (id : Nat) : isIntrusive w id = isIntrusive s id := by
  have hi : ∀ u : State, isIntrusive u id = ((findSession u id).map (·.intrusive)).getD false := by
    intro u
    unfold isIntrusive
    cases findSession u id <;> rfl
  obtain ⟨ss, as, c, m, rfl, hss⟩ := ht
  rw [hi, hi]
  unfold findSession
  split
  · rfl
  · rw [find_unstamped, find_unstamped s.sess.sessions, hss]

/-- `installFolds` before it answers. -/
def withFoldPlan (id : Nat) (es : List FoldEntry) (owner : Nat) (intrusive : Bool) (s : State) : State :=
  let ids := optList s.plans.fold (fun p => p.entries.map (·.foldId)) ++ es.map (·.foldId)
  { s with
    plans := { s.plans with
      fold := some { id := id, entries := es, owner := some owner, intrusiveOwner := intrusive }
      moved := s.plans.moved.filter (fun m => m.plan != 0) }
    folds := { s.folds with
      slots := s.folds.slots.filter (fun x => !ids.contains x.foldId)
      upward := s.folds.upward.filter (fun u => !ids.contains u.foldId) } }

theorem installFolds_eq (id : Nat) (es : List FoldEntry) (h : ReqHdr) (s : State) :
    installFolds id es h s = respond h .ok [] (withFoldPlan id es h.session (isIntrusive s h.session) s) := rfl

theorem withFoldPlan_taken {s w : State} {h : ReqHdr} (id : Nat) (es : List FoldEntry) (owner : Nat) (b : Bool) (ht : Taken s w h) :
    Taken (withFoldPlan id es owner b s) (withFoldPlan id es owner b w) h := by
  obtain ⟨ss, as, c, m, rfl, hss⟩ := ht
  exact ⟨ss, as, c, m, rfl, hss⟩


theorem foldLoad_answered (s : State) (h : ReqHdr) (id : Nat) (es : List FoldEntry) (ho : AsObserver s h)
    (hc : ∀ c ∈ foldChecks es { h with opcode := 0x42 } s, c.bad = false) :
    ∃ t, exec (.foldLoad h id es) s = .next t ∧
      Answered (withFoldPlan id es h.session (isIntrusive s h.session) s) t 0x42 h .ok [] := by
  refine ok_request { op := 0x42, classC := true } h (foldChecks es) (installFolds id es) s _ .ok [] ho.1
    (obs_allowed ho _ rfl) (fun as => ?_) rfl (fun w hw => ?_)
  · rw [foldChecks_assembling]
    exact pick_none _ hc
  · refine ⟨_, withFoldPlan_taken id es h.session (isIntrusive s h.session) hw, ?_⟩
    rw [installFolds_eq, isIntrusive_taken hw]

/-- An empty plan that no owner bars. -/
theorem foldChecks_nil (h : ReqHdr) (s : State) (hp : s.plans.fold = none) : pick (foldChecks [] h s) = some (emptyIf true) := by
  simp [foldChecks, hp, pick, pickStep, limitCheck, overEntry, denied, emptyIf]

theorem foldEntryBad_of {s : State} {e : FoldEntry} (h : 0xF8 ≤ e.foldId ∨ e.vlen = 0) : foldEntryBad s e = true := by
  unfold foldEntryBad
  rcases h with h | h <;> simp [h]

/-- A failed check goes before all that follow it, unless one of them is of an earlier status (00 R13). -/
theorem pick_first {c : Check} {l : List Check} (hc : c.bad = true) (hl : ∀ x ∈ l, statusRank c.st ≤ statusRank x.st) :
    pick (c :: l) = some c := by
  have hk : l.foldl pickStep (some c) = some c := by
    induction l with
    | nil => rfl
    | cons x r ih =>
      have hx : pickStep (some c) x = some c := by
        have := hl x (by simp)
        unfold pickStep
        split
        · exact if_neg (by omega)
        · rfl
      rw [List.foldl_cons, hx]
      exact ih fun y hy => hl y (by simp [hy])
  have h0 : pickStep none c = some c := by simp [pickStep, hc]
  rw [pick, List.foldl_cons, h0, hk]

/-- A MALFORMED entry goes before whatever else its plan breaks (00 R13). -/
theorem foldChecks_malformed (h : ReqHdr) (s : State) (e : FoldEntry) (hb : foldEntryBad s e = true) :
    pick (foldChecks [e] h s) = some (badEntry .malformed true 0) := by
  have hs : (pick [badEntry .malformed true 0]).isSome = true := rfl
  simp only [foldChecks, List.length_singleton, List.range_one, List.map_cons, List.map_nil, List.getD_cons_zero, hb, hs, if_true,
    List.append_assoc, List.singleton_append, List.append_nil]
  refine pick_first rfl fun x hx => ?_
  have hx' : x.st = .absent ∨ x.st = .denied ∨ x.st = .refused ∨ x.st = .empty := by
    fin_cases hx
    · exact .inl rfl
    · exact .inr (.inl rfl)
    · exact .inr (.inr (.inl rfl))
    · exact .inr (.inr (.inr rfl))
  rcases hx' with h | h | h | h <;> rw [h] <;> decide

theorem foldLoad_checked (s : State) (h : ReqHdr) (id : Nat) (es : List FoldEntry) (c : Check) (ho : AsObserver s h)
    (hc : pick (foldChecks es { h with opcode := 0x42 } s) = some c) :
    ∃ t, exec (.foldLoad h id es) s = .next t ∧ Answered s t 0x42 h c.st (failBody c) :=
  bad_request { op := 0x42, classC := true } h (foldChecks es) (installFolds id es) s c ho.1 (obs_allowed ho _ rfl)
    (fun as => by rw [foldChecks_assembling]; exact hc)

/-! Reading results (13 R428) -/

/-- What FOLD_READ answers. -/
def foldBody (id n : Nat) (s : State) : List Byte :=
  (lastN n (s.folds.results.filter (fun r => r.foldId == id))).flatMap resultBytes

theorem foldRead_answered (s : State) (h : ReqHdr) (id n : Nat) (ho : AsObserver s h) (h1 : 1 ≤ n) (h2 : n ≤ 16) :
    ∃ t, exec (.foldRead h id n) s = .next t ∧ Answered s t 0x43 h .ok (foldBody id n s) := by
  refine ok_request { op := 0x43, classC := false } h _ _ s s .ok _ ho.1 (obs_allowed ho _ rfl) (fun as => ?_) rfl (fun w hw => ?_)
  · refine pick_none _ fun c hc => ?_
    rw [List.mem_singleton.1 hc]
    simp [badField]
    omega
  · refine ⟨w, hw, ?_⟩
    obtain ⟨ss, as, c, m, rfl, hss⟩ := hw
    rfl

theorem foldRead_malformed (s : State) (h : ReqHdr) (id n : Nat) (ho : AsObserver s h) (hn : n = 0 ∨ 16 < n) :
    ∃ t, exec (.foldRead h id n) s = .next t ∧ Answered s t 0x43 h .malformed (detail { reason := 0x10, index := 1 }) := by
  refine bad_request { op := 0x43, classC := false } h _ _ s (badField true 1) ho.1 (obs_allowed ho _ rfl) (fun as => ?_)
  have hb : (n == 0 || decide (16 < n)) = true := by rcases hn with rfl | hn <;> simp [*]
  rw [hb]
  rfl

/-! Combining (02 R63 to R66) -/

/-- With each child named once, what a child contributed does not depend on the order of arrival. -/
theorem find_child_perm {a b : List (Nat × FoldPartial)} (hp : a.Perm b) (hn : (a.map (·.1)).Nodup) (c : Nat) :
    a.find? (fun g => g.1 == c) = b.find? (fun g => g.1 == c) := by
  induction hp with
  | nil => rfl
  | cons x h ih =>
    simp only [List.find?_cons]
    rw [ih (List.nodup_cons.1 (by simpa using hn)).2]
  | swap x y l =>
    have hxy : y.1 ≠ x.1 := by simp at hn; tauto
    simp only [List.find?_cons]
    by_cases hx : x.1 = c
    · have hy : (y.1 == c) = false := by simpa [← hx] using hxy
      simp only [hy]
    · simp only [show (x.1 == c) = false by simpa using hx]
  | trans h1 h2 ih1 ih2 => rw [ih1 hn, ih2 ((h1.map _).nodup_iff.1 hn)]

theorem combineAll_perm (i : FoldInfo) {a b : List (Nat × FoldPartial)} (hp : a.Perm b) (hn : (a.map (·.1)).Nodup) :
    combineAll i a = combineAll i b := by
  simp only [combineAll, find_child_perm hp hn]

theorem isNan_zero (v : Nat) : isNan 0 v = false := rfl

theorem combineElem_max (a b : Nat) : (combineElem 1 0 a b).1 = max a b := by
  simp only [combineElem, isNan_zero, orderKey, Bool.or_self, Bool.false_eq_true, if_false, if_true]
  split <;> omega

theorem combineElem_min (a b : Nat) : (combineElem 2 0 a b).1 = min a b := by
  simp only [combineElem, isNan_zero, orderKey, Bool.or_self, Bool.false_eq_true, if_false]
  rw [if_neg (by decide)]
  split <;> simp only <;> omega

theorem combineElem_sum (a b : Nat) : combineElem 0 0 a b = ((a + b) % 2 ^ 64, false) := rfl

theorem combine_fields (i : FoldInfo) (p q : FoldPartial) : (combine i p q).count = (p.count + q.count) % 2 ^ 20 ∧
    (combine i p q).darkSeen = (p.darkSeen || q.darkSeen) ∧ (combine i p q).missCount = min 255 (p.missCount + q.missCount) ∧
    (combine i p q).missAt = min p.missAt q.missAt := by
  refine ⟨rfl, rfl, rfl, ?_⟩
  simp only [combine, decide_eq_true_eq]
  split <;> omega

/-- No identity of MAX or MIN is a NaN (02 R76). -/
theorem identityOf_number {op : Nat} (ty : Nat) (h : op = 1 ∨ op = 2) : isNan ty (identityOf op ty) = false := by
  by_cases h2 : ty = 2
  · subst h2; rcases h with rfl | rfl <;> decide
  · by_cases h3 : ty = 3
    · subst h3; rcases h with rfl | rfl <;> decide
    · simp [isNan, h2, h3]

theorem quietElem_nan {op ty v : Nat} (h : op = 1 ∨ op = 2) (hn : isNan ty (quietElem op ty v) = true) :
    quietElem op ty v = if ty = 2 then nan64 else nan32 := by
  have ho : (op == 1 || op == 2) = true := by rcases h with rfl | rfl <;> rfl
  unfold quietElem at hn ⊢
  rw [ho, Bool.true_and] at hn ⊢
  split at hn
  · next hv => rw [if_pos hv]
  · next hv => exact absurd hn hv

theorem combineAll_quiet (i : FoldInfo) (g : List (Nat × FoldPartial)) (h : i.op = 1 ∨ i.op = 2) (v : Nat)
    (hv : v ∈ (combineAll i g).data) (hn : isNan i.ty v = true) : v = if i.ty = 2 then nan64 else nan32 := by
  unfold combineAll at hv
  dsimp only at hv
  split at hv
  · rw [List.eq_of_mem_replicate hv, identityOf_number _ h] at hn
    cases hn
  · obtain ⟨u, -, rfl⟩ := List.mem_map.1 hv
    exact quietElem_nan h hn

/-- Settles O29, by the outcomes of the two requests and the rules of combining. -/
theorem foldPlansAndOrder : Obligations.FoldPlansAndOrder := by
  refine ⟨fun s h ho => ⟨fun id es hc => foldLoad_answered s h id es ho hc, fun id hp => ?_, fun id e he => ?_,
    fun id n h1 h2 => foldRead_answered s h id n ho h1 h2, fun id n hn => foldRead_malformed s h id n ho hn⟩,
    fun i a b => combineAll_perm i, fun a b c => ?_, combine_fields, combineAll_quiet⟩
  · exact foldLoad_checked s h id [] _ ho (foldChecks_nil _ s hp)
  · exact foldLoad_checked s h id [e] _ ho (foldChecks_malformed _ s e (foldEntryBad_of he))
  · refine ⟨rfl, rfl, rfl, combineElem_max a b, combineElem_min a b, rfl, ?_⟩
    simp only [combineElem_sum]
    omega

end Sys2Proof.Machine
end

section
/-! How contributions travel to the centre and close their epochs (02 R65 to R72). -/

namespace Sys2Proof.Machine

/-! What a dropped packet and a late contribution change -/

theorem lateFold_onlyTile (n : Node) (id e : Nat) (s : State) : OnlyTile s (lateFold n id e s) (nodeStub n) :=
  (onTile_onlyTile _ _ _).trans (recordKind_onlyTile _ _ _ _ _)

theorem lateFold_counts (n : Node) (id e : Nat) (s : State) (hn : nodeStub n < numTiles) :
    (tileOf (lateFold n id e s) (nodeStub n)).hang.foldLate = (tileOf s (nodeStub n)).hang.foldLate + 1 := by
  obtain ⟨-, w, hw⟩ := recordKind_retiled 0x13 3 (id * 2 ^ 56 + e * 2 ^ 40) hn (onTile_retiled (nodeStub n)
    (fun x => { x with hang := { x.hang with foldLate := x.hang.foldLate + 1 } }) s hn)
  unfold lateFold
  rw [hw]


theorem dropPacket_folds (r port reason : Nat) (p : Packet) (s : State) : (dropPacket r port reason p s).folds = s.folds := by
  unfold dropPacket
  rw [(recordKind_onlyTile _ _ _ _ _).folds, onTile_folds]
  split <;> rfl

theorem badWhole_folds (n : Node) (port kind : Nat) (s : State) : (badWhole n port kind s).folds = s.folds := by
  cases n with
  | router r => exact dropPacket_folds _ _ _ _ _
  | junction f => exact dropPacket_folds _ _ _ _ _
  | port k => rfl
  | centre => rfl

/-! Contributions (02 R65, R76) -/

theorem foldContrib_other (s : State) (i : FoldInfo) (k e : Nat) (hi : foldInfo s i.id = some i)
    (hm : foldMember s i k = false) : exec (.foldContrib k i.id e) s = .next s := by
  simp [exec, execFoldContrib, hi, hm]

theorem foldContrib_member (s : State) (i : FoldInfo) (k e : Nat) (c : FoldEntry) (hs : s.rill.inService = true)
    (hi : foldInfo s i.id = some i) (hm : foldMember s i k = true) (ha : i.all = false)
    (hc : (optList s.plans.fold (fun p => p.entries)).find? (fun q => q.foldId == i.id) = some c) :
    exec (.foldContrib k i.id e) s = .next (contribute k i.id (e % 65536)
      (if coreDark (tileOf s k) then identityPartial i true else planContribution s k i c) s) := by
  simp only [exec, execFoldContrib, hi, inService, hs, hm, ha, hc, Bool.not_true, Bool.or_self, Bool.false_eq_true, if_false]
  split <;> rfl

/-! A contribution that arrives (02 R67, R68) -/

@[simp] theorem now_takeUpward (u : Upward) (s : State) : now (takeUpward u s) = now s := rfl


theorem foldArrival_held (s : State) (n : Node) (c id e : Nat) (p : FoldPartial) (ok : Bool) (hl : linkHeld s n c = true) :
    exec (.foldArrival n c id e (p, ok)) s = .next s := by
  simp [exec, execFoldArrival, when, hl]

theorem foldArrival_bad (s : State) (n : Node) (c id e : Nat) (p : FoldPartial) (hs : s.rill.inService = true)
    (hl : linkHeld s n c = false) :
    exec (.foldArrival n c id e (p, false)) s = .next (badWhole n c 4 (takeUpward ⟨n, c, id, e, p⟩ s)) := by
  simp [exec, execFoldArrival, when, hl, inService, hs]

/-- A sound contribution leaves its way and reaches its node. -/
theorem foldArrival_sound (s : State) (i : FoldInfo) (n : Node) (c e : Nat) (p : FoldPartial) (hs : s.rill.inService = true)
    (hi : foldInfo s i.id = some i) (hl : linkHeld s n c = false) (he : e < 65536) :
    exec (.foldArrival n c i.id e (p, true)) s = .next (nodeArrive i n c e p (takeUpward ⟨n, c, i.id, e, p⟩ s)) := by
  have hi' : foldInfo (takeUpward ⟨n, c, i.id, e, p⟩ s) i.id = some i := hi
  simp [exec, execFoldArrival, when, hl, inService, hs, hi', Nat.mod_eq_of_lt he]

theorem nodeArrive_unexpected {s : State} {i : FoldInfo} {n : Node} {c : Nat} (e : Nat) (p : FoldPartial)
    (h : c ∉ expectedOf s i n) : nodeArrive i n c e p s = s := by
  simp [nodeArrive, h]

theorem nodeArrive_forward {s : State} {i : FoldInfo} {n m : Node} {b c : Nat} (e : Nat) (p : FoldPartial)
    (h : expectedOf s i n = [c]) (hm : parentOf n = some (m, b)) :
    nodeArrive i n c e p s = addUpward ⟨m, b, i.id, e, p⟩ s := by
  have hn : n ≠ .centre := by rintro rfl; cases hm
  simp [nodeArrive, h, hn, sendUp, hm]

theorem findSlot_spec {s : State} {n : Node} {id : Nat} {x : FoldSlot} (h : findSlot s n id = some x) :
    x ∈ s.folds.slots ∧ x.node = n ∧ x.foldId = id := by
  have hp := List.find?_some h
  simp only [Bool.and_eq_true, beq_iff_eq] at hp
  exact ⟨List.mem_of_find?_eq_some h, hp⟩

theorem nodeArrive_slot {s : State} {i : FoldInfo} {n : Node} {c : Nat} {x : FoldSlot} (e : Nat) (p : FoldPartial)
    (hx : findSlot s n i.id = some x) (hn : 2 ≤ (expectedOf s i n).length ∨ n = .centre) (hc : c ∈ expectedOf s i n) :
    nodeArrive i n c e p s = slotArrive i c e p x s := by
  have h1 : ((expectedOf s i n).length == 1 && n != .centre) = false := by
    rcases hn with h | rfl
    · have : (expectedOf s i n).length ≠ 1 := by omega
      simp [this]
    · simp
  have h2 : slotFor s i n e = x := by simp [slotFor, hx]
  simp [nodeArrive, hc, h1, h2]

/-- While the link of a child is free its slot holds nothing of that child for the next epoch. -/
theorem held_of_linkFree {s : State} {n : Node} {c : Nat} {x : FoldSlot} (hl : linkHeld s n c = false) (hx : x ∈ s.folds.slots)
    (hn : x.node = n) : x.held.any (fun g => g.1 == c) = false := by
  have h := List.any_eq_false.1 hl x hx
  rw [hn, beq_self_eq_true, Bool.true_and] at h
  exact Bool.eq_false_iff.2 h

/-! What a slot makes of a contribution (02 R68) -/

/-- The slot with a contribution to its open epoch. -/
def slotWith (t c : Nat) (p : FoldPartial) (x : FoldSlot) : FoldSlot :=
  { x with
    got := x.got ++ [(c, p)]
    firstAt := match x.firstAt with
      | none => some t
      | some u => some u }

theorem slotArrive_open {s : State} {i : FoldInfo} {c e : Nat} {x : FoldSlot} (p : FoldPartial) (he : e = x.epoch)
    (hc : ∀ g ∈ x.got, g.1 ≠ c) : slotArrive i c e p x s = settleSlot i 2 (slotWith (now s) c p x) s := by
  have hg : x.got.any (fun g => g.1 == c) = false := by simpa using hc
  unfold slotArrive
  rw [if_pos (by rw [hg]; simp [he])]
  rfl

theorem slotArrive_next {s : State} {i : FoldInfo} {c e : Nat} {x : FoldSlot} (p : FoldPartial) (he : e = (x.epoch + 1) % 65536)
    (hn : e ≠ x.epoch) (hh : x.held.any (fun g => g.1 == c) = false) :
    slotArrive i c e p x s = setSlot { x with held := x.held ++ [(c, p)] } s := by
  unfold slotArrive
  rw [if_neg (by simp [hn]), if_pos (by rw [hh]; simp [he])]

theorem slotArrive_late {s : State} {i : FoldInfo} {c e : Nat} {x : FoldSlot} (p : FoldPartial) (_hlt : e < 65536)
    (h : (e = x.epoch ∧ ∃ g ∈ x.got, g.1 = c) ∨ (e ≠ x.epoch ∧ e ≠ (x.epoch + 1) % 65536)) :
    slotArrive i c e p x s = lateFold x.node i.id e s := by
  unfold slotArrive
  rcases h with ⟨he, hg⟩ | ⟨h1, h2⟩
  · have hg' : x.got.any (fun g => g.1 == c) = true := by simpa using hg
    have hn : e ≠ (x.epoch + 1) % 65536 := by omega
    rw [if_neg (by simp [hg']), if_neg (by simp [hn])]
  · rw [if_neg (by simp [h1]), if_neg (by simp [h2])]

theorem settleSlot_waits (i : FoldInfo) (k : Nat) (x : FoldSlot) (s : State) (h : slotFull x = false ∨ x.node = .centre) :
    settleSlot i k x s = setSlot x s := by
  cases k with
  | zero => rfl
  | succ k =>
    have hb : (slotFull x && x.node != .centre) = false := by rcases h with h | h <;> simp [h]
    simp [settleSlot, hb]

theorem settleSlot_sends (i : FoldInfo) (k : Nat) (x : FoldSlot) (s : State) (hf : slotFull x = true) (hn : x.node ≠ .centre) :
    settleSlot i (k + 1) x s =
      settleSlot i k (nextEpochSlot (now s) x) (sendUp x.node x.foldId x.epoch (slotPartial i x) s) := by
  simp [settleSlot, hf, hn]

theorem sendUp_parent {n m : Node} {b : Nat} (hp : parentOf n = some (m, b)) (id e : Nat) (p : FoldPartial) (s : State) :
    sendUp n id e p s = addUpward ⟨m, b, id, e, p⟩ s := by
  simp [sendUp, hp]

/-! Deadlines (02 R69) -/

/-- Closing an epoch sends what the slot has and opens the next one with what it held for it. -/
theorem closeSlot_eq {i : FoldInfo} {x : FoldSlot} {m : Node} {b : Nat} (s : State) (hp : parentOf x.node = some (m, b))
    (hh : slotFull { x with got := x.held } = false) :
    closeSlot i x s = setSlot (nextEpochSlot (now s) x) (addUpward ⟨m, b, x.foldId, x.epoch, slotPartial i x⟩ s) := by
  unfold closeSlot
  rw [settleSlot_waits i 2 (nextEpochSlot (now s) x) _ (.inl hh), sendUp_parent hp]

theorem slotPartial_missing (i : FoldInfo) (x : FoldSlot) (hf : slotFull x = false) :
    (slotPartial i x).missCount = min 255 ((combineAll i x.got).missCount + 1) := by
  have hm : x.expected.filter (fun c => !x.got.any (fun g => g.1 == c)) ≠ [] := by
    intro h
    rw [List.filter_eq_nil_iff] at h
    have : slotFull x = true := List.all_eq_true.2 fun c hc => by simpa using h c hc
    rw [hf] at this
    cases this
  simp [slotPartial, hm]

/-! Results (02 R71) -/

theorem event_events (n : Nat) (s : State) : (event n s).port.events = s.port.events ||| (1 <<< n) := rfl

theorem acceptClasses_none (s : State) : acceptClasses 0 s = s := by simp [acceptClasses]

theorem runConditions_none (i : FoldInfo) (r : FoldResult) (s : State) (h : ∀ c ∈ s.plans.conditions, c.foldId ≠ i.id) :
    runConditions i r s = s := by
  have hc : ∀ c ∈ s.plans.conditions, condHolds i r c = false := fun c hc => by simp [condHolds, h c hc]
  have hf : s.plans.conditions.filter (condHolds i r) = [] := by
    rw [List.filter_eq_nil_iff]
    intro c hm
    simp [hc c hm]
  have hm : s.plans.conditions.map (fun c => if condHolds i r c then { c with fired := true } else c) = s.plans.conditions := by
    conv_rhs => rw [← List.map_id s.plans.conditions]
    exact List.map_congr_left fun c hm => by simp [hc c hm]
  unfold runConditions
  rw [hf]
  dsimp only [onPlans]
  rw [hm]
  exact acceptClasses_none s

theorem mem_keepResult_self (r : FoldResult) (rs : List FoldResult) : r ∈ keepResult r rs := by
  refine List.mem_append_right _ ?_
  rw [List.drop_append_of_le_length (by omega)]
  simp

theorem mem_keepResult_other (r q : FoldResult) (rs : List FoldResult) (h : q.foldId ≠ r.foldId) :
    q ∈ keepResult r rs ↔ q ∈ rs := by
  have hn : q ∉ (rs.filter (fun x => x.foldId == r.foldId) ++ [r]).drop
      ((rs.filter (fun x => x.foldId == r.foldId)).length + 1 - 16) := by
    intro hq
    have := List.mem_of_mem_drop hq
    simp only [List.mem_append, List.mem_filter, beq_iff_eq, List.mem_singleton] at this
    rcases this with h1 | rfl
    · exact h h1.2
    · exact h rfl
  unfold keepResult
  rw [List.mem_append, or_iff_left hn, List.mem_filter]
  simp [h]

theorem keepResult_bound (r : FoldResult) (rs : List FoldResult) :
    ((keepResult r rs).filter (fun q => q.foldId == r.foldId)).length ≤ 16 := by
  have ho : (rs.filter (fun x => x.foldId != r.foldId)).filter (fun q => q.foldId == r.foldId) = [] := by
    simp [List.filter_filter]
  unfold keepResult
  rw [List.filter_append, ho, List.nil_append]
  refine (List.length_filter_le _ _).trans ?_
  simp
  omega

theorem findSlot_setSlot (x : FoldSlot) (s : State) : findSlot (setSlot x s) x.node x.foldId = some x := by
  have hn : (s.folds.slots.filter (fun y => !(y.node == x.node && y.foldId == x.foldId))).find?
      (fun y => y.node == x.node && y.foldId == x.foldId) = none := by
    rw [List.find?_eq_none]
    intro y hy
    have hf : (y.node == x.node && y.foldId == x.foldId) = false := by
      simpa only [Bool.not_eq_true'] using (List.mem_filter.1 hy).2
    simp only [hf, Bool.false_eq_true, not_false_eq_true]
  unfold findSlot setSlot
  simp only [onFolds_folds, List.find?_append, hn]
  simp

theorem storeFp_none {r : FoldResult} {s : State} (h : replicaOf s r.foldId = none) : storeFp r s = s := by
  simp [storeFp, h]

/-- A stored result without conditions of its own: what the centre changes for it. -/
theorem foldResultStore_eq (s : State) (i : FoldInfo) (x : FoldSlot) (d : Nat) (hi : foldInfo s i.id = some i)
    (hx : findSlot s .centre i.id = some x) (hd : x.firstAt = some d) (hf : slotFull x = true) (ha : i.all = false)
    (hr : replicaOf s i.id = none) (hc : ∀ c ∈ s.plans.conditions, c.foldId ≠ i.id) :
    exec (.foldResultStore i.id) s =
      .next (storeResult (resultOf s i x.epoch (slotPartial i x)) (setSlot (nextEpochSlot (now s) x) s)) := by
  simp only [exec, execFoldResultStore, hi, hx, slotDeadline, hd, Option.map_some, hf, if_true, finishFold, ha,
    Bool.false_eq_true, if_false]
  generalize ht : storeResult (resultOf s i x.epoch (slotPartial i x)) (setSlot (nextEpochSlot (now s) x) s) = t
  have hp : t.plans = s.plans := by rw [← ht]; rfl
  have hr' : replicaOf t i.id = none := by rw [← hr]; unfold replicaOf; rw [hp]
  rw [storeFp_none hr', runConditions_none i _ t (hp ▸ hc)]

/-- Settles O30, by what a node, a slot, a deadline and the centre make of a fold's contributions. -/
theorem foldsTravelAndClose : Obligations.FoldsTravelAndClose := by
  refine ⟨fun s i hs hi => ⟨fun k e hm => foldContrib_other s i k e hi hm,
    fun k e c hm ha hc => foldContrib_member s i k e c hs hi hm ha hc,
    fun n c e p ok hl => foldArrival_held s n c i.id e p ok hl,
    fun n c e p hl => ⟨_, foldArrival_bad s n c i.id e p hs hl, badWhole_folds _ _ _ _⟩,
    fun n c e p he hl => ?_⟩, ⟨fun s n id r hx => ?_, fun s i x m b hi _ hx hn hp hf hh => ?_, fun s i x d hi hx hd hf ha hr hc => ?_⟩⟩
  · rw [foldArrival_sound s i n c e p hs hi hl he]
    refine ⟨fun hex m b hp => ?_, fun hc => ?_, fun x hx hex hc => ?_⟩
    · rw [nodeArrive_forward e p (s := takeUpward ⟨n, c, i.id, e, p⟩ s) hex hp]; rfl
    · rw [nodeArrive_unexpected e p (s := takeUpward ⟨n, c, i.id, e, p⟩ s) hc]; rfl
    · obtain ⟨hm, rfl, hid⟩ := findSlot_spec hx
      rw [nodeArrive_slot e p (s := takeUpward ⟨x.node, c, i.id, e, p⟩ s) hx hex hc]
      refine ⟨fun he hg hf => ?_, fun he hg hf hf2 m b hp => ?_, fun he hne => ?_, fun h => ?_⟩
      · rw [slotArrive_open p he hg, now_takeUpward, settleSlot_waits i 2 (slotWith (now s) c p x) _ hf, ← hid]
        rfl
      · have hn : x.node ≠ .centre := by intro h; rw [h] at hp; cases hp
        rw [slotArrive_open p he hg, now_takeUpward, settleSlot_sends i 1 (slotWith (now s) c p x) _ hf hn, now_takeUpward,
          settleSlot_waits i 1 (nextEpochSlot (now s) (slotWith (now s) c p x)) _ (.inl hf2),
          sendUp_parent (n := (slotWith (now s) c p x).node) hp, he, ← hid]
        rfl
      · rw [slotArrive_next p he hne (held_of_linkFree hl hm rfl), ← hid]
        rfl
      · rw [slotArrive_late p he h]
        have ho := lateFold_onlyTile x.node i.id e (takeUpward ⟨x.node, c, i.id, e, p⟩ s)
        exact ⟨_, rfl, ho.1, ho.2, lateFold_counts x.node i.id e (takeUpward ⟨x.node, c, i.id, e, p⟩ s)⟩
  · refine ⟨?_, fun hn => ?_, fun hn => ?_⟩
    · simp only [exec, execFoldEpochClose, hx]; cases foldInfo s id <;> rfl
    · subst hn; simp only [exec, execCloseEpoch, hx]; cases foldInfo s id <;> rfl
    · subst hn; simp only [exec, execFoldResultStore, hx]; cases foldInfo s id <;> rfl
  · obtain ⟨-, -, hid⟩ := findSlot_spec hx
    refine ⟨fun d hd => ?_, fun hd => ?_, fun r hr => ?_, slotPartial_missing i x hf⟩
    · simp only [exec, execFoldEpochClose, hi, hx, slotDeadline, hd, Option.map_some, beq_iff_eq, hn, if_false]
      rw [closeSlot_eq _ hp hh, ← hid]
      rfl
    · simp only [exec, execFoldEpochClose, hi, hx, slotDeadline, hd, Option.map_none]
    · simp only [exec, execCloseEpoch, hi, ← hr, hx]
      rw [closeSlot_eq _ hp hh, ← hid]
      rfl
  · obtain ⟨-, hn, hid⟩ := findSlot_spec hx
    refine ⟨_, resultOf s i x.epoch (slotPartial i x), foldResultStore_eq s i x d hi hx hd hf ha hr hc, mem_keepResult_self _ _,
      rfl, rfl, rfl, rfl, rfl, rfl, rfl, fun q hq => mem_keepResult_other _ _ _ hq, keepResult_bound (resultOf s i x.epoch (slotPartial i x)) _, ?_, ?_, rfl⟩
    · rw [← hn, ← hid]
      exact findSlot_setSlot (nextEpochSlot (now s) x) s
    · rw [storeResult, event_events]
      simp [evFold]

end Sys2Proof.Machine
end

section
/-! What the Rill's nodes, weirs and links do with whole packets (02 R42 to R62, R75). -/

namespace Sys2Proof.Machine

/-! Dropped packets (02 R45, R49) -/

/-- The hang register that counts a dropped packet. -/
def countDrop (reason : Nat) (x : Tile) : Tile :=
  { x with hang := { x.hang with
    malformed := if reason = 2 then x.hang.malformed else x.hang.malformed + 1
    crcBad := if reason = 2 then x.hang.crcBad + 1 else x.hang.crcBad } }

/-- A packet that is dropped draws a free channel number where none is stated, and else changes only its router's stub. -/
theorem dropPacket_onlyTile (r port reason : Nat) (p : Packet) (s : State) :
    OnlyTile (if reason = 0 then drawFree s else s) (dropPacket r port reason p s) r :=
  (onTile_onlyTile r _ _).trans (recordKind_onlyTile r _ _ _ _)

theorem dropPacket_retiled (r port reason : Nat) (p : Packet) (s : State) (hr : r < numTiles) :
    Retiled (if reason = 0 then drawFree s else s) (dropPacket r port reason p s) r (countDrop reason (tileOf s r)) := by
  have hx : tileOf (if reason = 0 then drawFree s else s) r = tileOf s r := by split <;> rfl
  rw [← hx]
  exact recordKind_retiled _ _ _ hr (onTile_retiled r (countDrop reason) _ hr)

theorem OnlyTile.rill {s t : State} {k : Nat} (h : OnlyTile s t k) : t.rill = s.rill := by rw [← h.1]

theorem dropPacket_rill (r port reason : Nat) (p : Packet) (s : State) : (dropPacket r port reason p s).rill = s.rill := by
  rw [(dropPacket_onlyTile r port reason p s).rill]
  split <;> rfl

/-- A whole packet with a bad CRC changes nothing of the Rill but the centre's count. -/
theorem badWhole_rill (n : Node) (port kind : Nat) (s : State) :
    (badWhole n port kind s).rill = { s.rill with crcBad := (badWhole n port kind s).rill.crcBad } := by
  cases n with
  | router r => simp only [badWhole, dropPacket_rill]
  | junction f => simp only [badWhole, dropPacket_rill]
  | port k => rfl
  | centre => rfl

/-! The buffers of a node -/

theorem routerOf_onRouter (n q : Node) (f : RouterState → RouterState) (s : State) :
    routerOf (onRouter n f s) q = if nodeKey q = nodeKey n then f (routerOf s n) else routerOf s q := mget_mmod _ _ _ _ _

@[simp] theorem routerOf_onRouter_self (n : Node) (f : RouterState → RouterState) (s : State) :
    routerOf (onRouter n f s) n = f (routerOf s n) := by simp [routerOf_onRouter]

theorem routerOf_of_routers {s t : State} (h : t.rill.routers = s.rill.routers) (n : Node) : routerOf t n = routerOf s n := by
  unfold routerOf; rw [h]

@[simp] theorem routerOf_badWhole (m : Node) (port kind : Nat) (s : State) (n : Node) :
    routerOf (badWhole m port kind s) n = routerOf s n := routerOf_of_routers (by rw [badWhole_rill]) n

theorem weirOf_of_weirs {s t : State} (h : t.rill.weirs = s.rill.weirs) (w : Nat) : weirOf t w = weirOf s w := by
  unfold weirOf; rw [h]

theorem weirOf_onWeir (w v : Nat) (f : Weir → Weir) (s : State) :
    weirOf (onWeir w f s) v = if v = w then f (weirOf s w) else weirOf s v := mget_mmod _ _ _ _ _

/-! A packet that comes from outside (02 R45) -/

/-- The packet as it enters: what the centre sends carries the centre's SRC (02 R44). -/
def portPacket (n : Node) (port : Nat) (p : Packet) : Packet :=
  match n with
  | .port _ => if port = 1 then { p with src := centreSrc } else p
  | _ => p

/-- What a node makes of a packet from outside the Rill. -/
def enterPort (n : Node) (port : Nat) (p : Packet) (s : State) : State :=
  match shapeBad n (portPacket n port p), n with
  | some k, .router r => dropPacket r port k (portPacket n port p) s
  | _, _ => enterFlow n port (portPacket n port p) s

theorem rillPacketArrive_eq (s : State) (n : Node) (port : Nat) (p : Packet) (hs : s.rill.inService = true)
    (hn : nodeExists n = true) (hp : hasPort n port = true) (hd : destExists p = true) :
    exec (.rillPacketArrive n port p) s = .next (enterPort n port p s) := by
  have hc : (inService s && nodeExists n && hasPort n port && destExists p) = true := by
    simp only [hn, hp, hd, inService, hs, Bool.and_self]
  clear hn hp
  simp only [exec]
  unfold execRillPacketArrive
  rw [hc]
  rfl

theorem enterPort_fits {s : State} {n : Node} {port : Nat} {p : Packet} (hb : shapeBad n (portPacket n port p) = none) :
    enterPort n port p s = enterFlow n port (portPacket n port p) s := by
  unfold enterPort
  rw [hb]

theorem enterPort_bad {s : State} {r port k : Nat} {p : Packet} (hb : shapeBad (.router r) p = some k) :
    enterPort (.router r) port p s = dropPacket r port k p s := by
  unfold enterPort portPacket
  dsimp only
  rw [hb]

theorem shapeBad_of_fits {r m : Nat} {p : Packet} (hm : largestLen p.kind = some m) (hl : p.len ≤ m) :
    shapeBad (.router r) p = none := by
  simp [shapeBad, hm, hl]

theorem shapeBad_of_long {r m : Nat} {p : Packet} (hm : largestLen p.kind = some m) (hl : m < p.len) :
    shapeBad (.router r) p = some 1 := by
  simp [shapeBad, hm, hl]

theorem shapeBad_of_reserved {r : Nat} {p : Packet} (hk : largestLen p.kind = none) : shapeBad (.router r) p = some 0 := by
  simp [shapeBad, hk]

theorem largestLen_reserved {k : Nat} (h : 9 ≤ k) : largestLen k = none := by
  obtain ⟨j, rfl⟩ := Nat.exists_eq_add_of_le' h
  rfl

theorem rillCoord_x {r : Nat} (hr : r < numTiles) : rillCoord r / 512 = tileX r := by
  unfold numTiles at hr
  unfold rillCoord tileX tileY
  omega

theorem rillCoord_y {r : Nat} (hr : r < numTiles) : rillCoord r % 512 = tileY r := by
  unfold numTiles at hr
  unfold rillCoord tileX tileY
  omega

theorem outPort_own (s : State) {r : Nat} (p : Packet) (hr : r < numTiles) (hu : pktUp p = false) (hd : p.dest = rillCoord r) :
    outPort s (.router r) p = 0 := by
  simp [outPort, routerOut, hu, hd, rillCoord_x hr, rillCoord_y hr]

/-! Multicast copies (02 R56, R57) -/

/-- A multicast under tag `g` has come to a node that copies it and holds nothing of it. -/
structure CopyComes (s : State) (n : Node) (g : Nat) (o : RillOp) : Prop where
  service : s.rill.inService = true
  flight : flightOp s g = some o
  multi : o.multi = true
  branches : treeBranches s o n ≠ []
  reached : copyReached s o n = true
  noBuffer : ∀ b ∈ (routerOf s n).mcast, b.tag ≠ g
  noCombiner : ∀ c ∈ (routerOf s n).combiners, c.tag ≠ g

theorem mcastCopy_eq (s : State) (n : Node) (g : Nat) (credit : List Nat) (ok : Bool) (o : RillOp)
    (h : CopyComes s n g o) :
    exec (.mcastCopy n g (credit, ok)) s = .next (
      if !ok then
        badWhole n (inputPort s o n) 2 (onRouter n (fun q => { q with
          input := q.input.filter (fun h => h != g)
          combiners := q.combiners ++ [{ tag := g }] }) s)
      else if isRouter n && decide (2 ≤ (routerOf s n).mcast.length) then
        onRouter n (fun q => { q with input := if q.input.contains g then q.input else q.input ++ [g] }) s
      else onRouter n (copyOut g (now s) { tag := g, branches := treeBranches s o n, since := now s } credit) s) := by
  obtain ⟨hs, ho, hm, hb, hr, hf, hc⟩ := h
  have h1 : (routerOf s n).mcast.find? (fun b => b.tag == g) = none := by
    rw [List.find?_eq_none]
    intro b hb
    simpa using hf b hb
  have h2 : (routerOf s n).combiners.any (fun c => c.tag == g) = false := by
    rw [List.any_eq_false]
    intro c hc'
    simpa using hc c hc'
  simp only [exec, execMcastCopy, ho, inService, hs, hm, hr, hb, h1, h2, Bool.not_true, decide_false, Bool.or_self,
    Bool.false_eq_true, if_false]

/-- A node that holds nothing of a multicast keeps the branches without credit and notes when the other copies left. -/
theorem copyOut_fresh (g t : Nat) (bs credit : List Nat) (q : RouterState) (hf : ∀ b ∈ q.mcast, b.tag ≠ g)
    (hc : ∀ c ∈ q.combiners, c.tag ≠ g) :
    (copyOut g t { tag := g, branches := bs, since := t } credit q).mcast = q.mcast ++
      (if bs.filter (fun d => !credit.contains d) = [] then []
       else [{ tag := g, branches := bs.filter (fun d => !credit.contains d), since := t }]) ∧
    (copyOut g t { tag := g, branches := bs, since := t } credit q).combiners = q.combiners ++
      [{ tag := g, copies := (bs.filter (fun d => credit.contains d)).map (fun d => (d, t)) }] := by
  have h1 : q.mcast.filter (fun c => c.tag != g) = q.mcast := by
    rw [List.filter_eq_self]
    intro b hb
    simpa using hf b hb
  have h2 : q.combiners.filter (fun c => c.tag != g) = q.combiners := by
    rw [List.filter_eq_self]
    intro c hc'
    simpa using hc c hc'
  have h3 : q.combiners.find? (fun c => c.tag == g) = none := by
    rw [List.find?_eq_none]
    intro c hc'
    simpa using hc c hc'
  constructor
  · simp only [copyOut, h1]
  · simp only [copyOut, h2, h3, Option.map_none, Option.getD_none, List.nil_append]

/-- Routes depend on what the Rill marks bad alone (02 R43). -/
theorem servedBy_congr {s t : State} (hr : t.rill = s.rill) (f : Nat) : servedBy t f = servedBy s f := by
  unfold servedBy; rw [hr]

theorem entryColumn_congr {s t : State} (hr : t.rill = s.rill) (f : Nat) : entryColumn t f = entryColumn s f := by
  unfold entryColumn columnFor columnIntact rowUsable
  rw [servedBy_congr hr, hr]

theorem exitX_congr {s t : State} (hr : t.rill = s.rill) (r : Nat) : exitX t r = exitX s r := by
  unfold exitX; rw [hr]

theorem outPort_congr {s t : State} (hr : t.rill = s.rill) (n : Node) (p : Packet) : outPort t n p = outPort s n p := by
  have hx : exitX t = exitX s := funext (exitX_congr hr)
  have hu : upExit t = upExit s := funext fun f => funext fun q => by unfold upExit; rw [entryColumn_congr hr]
  have hv : servedBy t = servedBy s := funext (servedBy_congr hr)
  cases n with
  | router r => unfold outPort routerOut; rw [hx]
  | junction f => unfold outPort junctionOut; rw [hu, hv]
  | port k => rfl
  | centre => rfl

theorem pathFrom_congr {s t : State} (hr : t.rill = s.rill) (p : Packet) : ∀ k n, pathFrom t p k n = pathFrom s p k n := by
  intro k
  induction k with
  | zero => intro n; rfl
  | succ k ih => intro n; simp only [pathFrom, outPort_congr hr, ih]

theorem branchTo_congr {s t : State} (hr : t.rill = s.rill) (n : Node) (u : Nat) : branchTo t n u = branchTo s n u := by
  simp only [branchTo, pathTo, pathFrom_congr hr, entryColumn_congr hr]

/-- The members of a set depend on the tiles alone (02 R55). -/
theorem members_congr {s t : State} (ht : t.tiles = s.tiles) (d : TileSet) : members t d = members s d := by
  have hi : inSet t d = inSet s d := funext fun u => by unfold inSet ltnOf tileOf; rw [ht]
  simp only [members, hi, ht]

theorem branchTiles_congr {s t : State} (ht : t.tiles = s.tiles) (hr : t.rill = s.rill) (o : RillOp) (n : Node) (b : Nat) :
    branchTiles t o n b = branchTiles s o n b := by
  simp only [branchTiles, members_congr ht, branchTo_congr hr]

theorem mcastBranchTimeout_eq (s : State) (n : Node) (g d : Nat) (o : RillOp) (b : McastBuf) (ho : flightOp s g = some o)
    (hb : (routerOf s n).mcast.find? (fun b => b.tag == g) = some b) (hd : d ∈ b.branches) :
    let e := elapse (b.since + 20000) s
    let ts := branchTiles s o n d
    exec (.mcastBranchTimeout n g d) s = .next (onRouter n (fun q => { q with mcast := (q.mcast.map (fun c =>
        if c.tag == g then { c with branches := c.branches.erase d } else c)).filter (fun c => c.branches != []) })
      (onOp g (fun o => { o with dropped := o.dropped ++ ts }) (addReply g (nakMrsp n ts 1) ts e))) := by
  intro e ts
  have hd' : (!b.branches.contains d) = false := by simpa using hd
  simp only [exec, execMcastBranchTimeout, ho, hb, hd', Bool.false_eq_true, if_false,
    branchTiles_congr (elapse_tiles (b.since + 20000) s) (elapse_rill (b.since + 20000) s)]
  rfl

/-! Operations in flight -/

theorem flightOp_spec {s : State} {g : Nat} {o : RillOp} (h : flightOp s g = some o) : o ∈ s.rill.ops ∧ o.tag = g := by
  obtain ⟨hf, -⟩ := Option.filter_eq_some_iff.1 h
  exact ⟨List.mem_of_find?_eq_some hf, by simpa using List.find?_some hf⟩

theorem onOp_ops (g : Nat) (f : RillOp → RillOp) (s : State) :
    (onOp g f s).rill.ops = s.rill.ops.map (fun o => if o.tag == g then f o else o) := rfl

@[simp] theorem routerOf_onOp (g : Nat) (f : RillOp → RillOp) (s : State) (n : Node) : routerOf (onOp g f s) n = routerOf s n := rfl

theorem mem_onOp {g : Nat} {o : RillOp} {s : State} (f : RillOp → RillOp) (ho : o ∈ s.rill.ops) (hg : o.tag = g) :
    f o ∈ (onOp g f s).rill.ops := by
  rw [onOp_ops]
  exact List.mem_map.2 ⟨o, ho, by simp [hg]⟩

/-- Two changes of one operation are one. -/
theorem map_op_map_op (g : Nat) (f h : RillOp → RillOp) (hf : ∀ o, (f o).tag = o.tag) (l : List RillOp) :
    (l.map (fun o => if o.tag == g then f o else o)).map (fun o => if o.tag == g then h o else o) =
      l.map (fun o => if o.tag == g then h (f o) else o) := by
  rw [List.map_map]
  refine List.map_congr_left fun o _ => ?_
  by_cases hg : o.tag = g <;> simp [hg, hf]

/-! Combined replies (02 R58) -/

theorem mergeMrsp_counts (a b : Mrsp) : (mergeMrsp a b).ok = a.ok + b.ok ∧ (mergeMrsp a b).nak = a.nak + b.nak := ⟨rfl, rfl⟩

theorem mergeAll_counts (n : Node) (ps : List Mrsp) :
    (mergeAll n ps).ok = (ps.map (·.ok)).sum ∧ (mergeAll n ps).nak = (ps.map (·.nak)).sum := by
  have h : ∀ (l : List Mrsp) (a : Mrsp), (l.foldl mergeMrsp a).ok = a.ok + (l.map (·.ok)).sum ∧
      (l.foldl mergeMrsp a).nak = a.nak + (l.map (·.nak)).sum := by
    intro l
    induction l with
    | nil => intro a; simp
    | cons b r ih =>
      intro a
      obtain ⟨h1, h2⟩ := ih (mergeMrsp a b)
      simp only [List.foldl_cons, List.map_cons, List.sum_cons, h1, h2, mergeMrsp_counts, Nat.add_assoc, and_self]
  obtain ⟨h1, h2⟩ := h ps { origin := n }
  simp only [mergeAll, h1, h2, Nat.zero_add, and_self]

/-- A node that copied the packet under tag `g` has sent every copy, and every member behind it has been counted. -/
structure CombineReady (s : State) (n : Node) (g : Nat) (o : RillOp) : Prop where
  flight : flightOp s g = some o
  copied : ∃ c ∈ (routerOf s n).combiners, c.tag = g
  sent : ∀ b ∈ (routerOf s n).mcast, b.tag ≠ g
  behind : nodeMembers s o n ≠ []
  counted : ∀ u ∈ nodeMembers s o n, u ∈ o.counted

/-- What a node does with the replies behind it once every member has been counted. -/
theorem mrspCombine_eq (s : State) (n : Node) (g : Nat) (ok : Bool) (o : RillOp) (h : CombineReady s n g o) :
    let rest := o.partials.filter (fun p => !behind s n p)
    let v := onRouter n (fun q => { q with combiners := q.combiners.filter (fun c => c.tag != g) }) s
    let up := ((nodeMembers s o n).head?.bind (upstreamOf v n)).getD (.centre, 0)
    exec (.mrspCombine n (g, ok)) s = .next (
      if ok then onOp g (fun x => { x with partials := rest ++ [mergeAll n (o.partials.filter (behind s n))] }) v
      else badWhole up.1 up.2 3 (onOp g (fun x => { x with
        partials := rest
        counted := x.counted.filter (fun t => !(nodeMembers s o n).contains t) }) v)) := by
  intro rest v up
  obtain ⟨ho, hc, hb, hm, ha⟩ := h
  have h1 : (routerOf s n).combiners.any (fun c => c.tag == g) = true := by simpa using hc
  have h2 : (routerOf s n).mcast.any (fun b => b.tag == g) = false := by
    rw [List.any_eq_false]
    intro b hb'
    simpa using hb b hb'
  have h3 : (nodeMembers s o n).all o.counted.contains = true := by simpa using ha
  simp only [exec, execMrspCombine, ho, h1, h2, h3, hm, Bool.not_true, decide_false, Bool.or_self, Bool.false_eq_true, if_false]
  rfl

theorem combinerTimeout_eq (s : State) (n : Node) (g d at0 : Nat) (o : RillOp) (c : Combiner) (ho : flightOp s g = some o)
    (hc : (routerOf s n).combiners.find? (fun c => c.tag == g) = some c) (hp : c.copies.find? (fun p => p.1 == d) = some (d, at0))
    (hu : ∃ u ∈ branchTiles s o n d, u ∉ o.counted) :
    let ts := branchTiles s o n d
    let late := fun (m : Mrsp) => m.origin != n && branchTo s n (replyTile m) == some d
    exec (.combinerTimeout n g d) s = .next (addReply g (nakMrsp n ts 9) ts (onOp g (fun o => { o with
      partials := o.partials.filter (fun m => !late m)
      counted := o.counted.filter (fun t => !ts.contains t) }) (elapse (at0 + 24000) s))) := by
  intro ts late
  have h : (branchTiles s o n d).all o.counted.contains = false := by simpa using hu
  simp only [exec, execCombinerTimeout, ho, hc, hp, h, Bool.false_eq_true, if_false]
  rfl

/-! Read merging (02 R61, R62) -/

theorem mreadArrive_barred (s : State) (a b : Node) (addr len plan : Nat) (c : Bool) (hm : mayAsk a b = false) :
    exec (.mreadArrive a b addr len (plan, c)) s = .next s := by
  simp only [exec, execMreadArrive, when, hm, Bool.and_false, Bool.false_eq_true, if_false]

theorem mreadArrive_bad (s : State) (a b : Node) (addr len plan : Nat) (hs : s.rill.inService = true) (hm : mayAsk a b = true) :
    exec (.mreadArrive a b addr len (plan, false)) s = .next (badWhole a (askPort b) 6 s) := by
  simp only [exec, execMreadArrive, when, inService, hs, hm, Bool.and_self, if_true, Bool.not_false]

/-- The entry that a sender's MREAD makes. -/
def askEntry (addr len plan : Nat) (b : Node) : MergeEntry := { address := addr, length := len, plan := plan, requesters := [b] }

theorem merges_iff (addr len plan : Nat) (b : Node) : merges (askEntry addr len plan b) = true ↔ plan ≠ 0 ∧ len ≤ 256 := by
  unfold merges askEntry
  rw [Bool.and_eq_true, bne_iff_ne, decide_eq_true_iff]

theorem mreadArrive_opens (s : State) (a b : Node) (addr len plan : Nat) (hs : s.rill.inService = true) (hm : mayAsk a b = true)
    (he : s.rill.merge = []) (hp : plan ≠ 0) (hl : len ≤ 256) :
    exec (.mreadArrive a b addr len (plan, true)) s = .next { s with rill := { s.rill with
      merge := [(a, askEntry addr len plan b)], forwarded := s.rill.forwarded ++ [(a, askEntry addr len plan b)] } } := by
  have hg : merges (askEntry addr len plan b) = true := (merges_iff _ _ _ _).2 ⟨hp, hl⟩
  unfold askEntry at hg ⊢
  simp [exec, execMreadArrive, when, inService, hs, hm, hg, he, onRill]

theorem mreadArrive_passes (s : State) (a b : Node) (addr len plan : Nat) (hs : s.rill.inService = true) (hm : mayAsk a b = true)
    (hp : plan = 0 ∨ 256 < len) :
    exec (.mreadArrive a b addr len (plan, true)) s = .next { s with rill := { s.rill with
      forwarded := s.rill.forwarded ++ [(a, askEntry addr len plan b)] } } := by
  have hg : merges (askEntry addr len plan b) = false := by
    rw [Bool.eq_false_iff, ne_eq, merges_iff]
    omega
  unfold askEntry at hg ⊢
  simp [exec, execMreadArrive, when, inService, hs, hm, hg, onRill]

theorem mreadArrive_joins (s : State) (a b : Node) (addr len plan : Nat) (rs : List Node) (hs : s.rill.inService = true)
    (hm : mayAsk a b = true) (hp : plan ≠ 0) (hl : len ≤ 256) (hb : b ∉ rs)
    (he : s.rill.merge = [(a, { askEntry addr len plan b with requesters := rs })]) :
    exec (.mreadArrive a b addr len (plan, true)) s = .next { s with rill := { s.rill with
      merge := [(a, { askEntry addr len plan b with requesters := rs ++ [b] })] } } := by
  have hg : merges (askEntry addr len plan b) = true := (merges_iff _ _ _ _).2 ⟨hp, hl⟩
  unfold askEntry at hg he ⊢
  simp [exec, execMreadArrive, when, inService, hs, hm, hg, he, onRill, sameKey, hb]

theorem mdataReturn_closes (s : State) (a b : Node) (addr len plan : Nat) (rs : List Node) (d : List Word)
    (hs : s.rill.inService = true) (he : s.rill.merge = [(a, { askEntry addr len plan b with requesters := rs })])
    (hf : s.rill.forwarded = [(a, askEntry addr len plan b)]) :
    exec (.mdataReturn a addr len plan (d, true)) s = .next { s with rill := { s.rill with
      merge := []
      forwarded := []
      multicast := s.rill.multicast ++ [(a, rs, d)] } } := by
  unfold askEntry at he hf
  simp [exec, execMdataReturn, when, inService, hs, he, hf, onRill, sameKey]

theorem mdataReturn_bad (s : State) (a : Node) (addr len plan : Nat) (d : List Word) (hs : s.rill.inService = true) :
    exec (.mdataReturn a addr len plan (d, false)) s = .next (badWhole a 8 7 s) := by
  simp only [exec, execMdataReturn, when, inService, hs, if_true, Bool.not_false]

/-! Fetches and COPYOUT (02 R47, R61) -/

theorem fetch_bank (s : State) (k : Nat) (p : WatchPlan) (hk : k < numTiles) (hs : s.rill.inService = true)
    (hf : fetches s k = true) (hl : (tileOf s k).txn.ltnValid = true) (hw : s.plans.watchNext = some p) :
    exec (.fetch k false p.id) s = .next (fetchBank (some p) k s) := by
  simp only [exec, execFetch, when, inService, hs, hk, hf, hl, hw, decide_true, Bool.and_self, if_true, Bool.false_eq_true,
    if_false, Bool.not_true, Bool.or_self]

theorem takeBank_spec (p : Option WatchPlan) (s : State) (t : Nat) (x : Tile) :
    inactiveBank (takeBank p s t x).core = bankMap (bankWords s p t) ∧ activeBank (takeBank p s t x).core = activeBank x.core ∧
      { takeBank p s t x with core := x.core } = x := by
  unfold takeBank inactiveBank activeBank
  cases h : x.core.active <;> simp [h]

theorem fetch_restored (s : State) (k n : Nat) (hr : (tileOf s k).plan.reload = false) :
    exec (.fetch k true n) s = .next s := by
  simp only [exec, execFetch, when, fetchRestore, hr, Bool.not_false, Bool.or_true, if_true, ite_self]

theorem copyout_sends (s : State) (k o n : Nat) (hk : k < numTiles) (hs : s.rill.inService = true)
    (ha : (tileOf s k).power.answers = true) (hc : coreUp (tileOf s k) = true) (hn : o + n ≤ 49152) :
    exec (.copyout k o n) s = .next { s with rill := { s.rill with
      bulk := s.rill.bulk ++ [(k, bytesAt 0 (tileOf s k).engine.sram o n)] } } := by
  simp only [exec, execCopyout, when, inService, hs, hk, ha, coreDark, hc, hn, decide_true, Bool.not_true, Bool.not_false, Bool.and_self,
    if_true, onRill]

theorem copyout_dark (s : State) (k o n : Nat) (hc : coreUp (tileOf s k) = false) :
    exec (.copyout k o n) s = .next s := by
  simp only [exec, execCopyout, when, coreDark, hc, Bool.not_false, Bool.not_true, Bool.and_false, Bool.false_and, Bool.false_eq_true,
    if_false]

/-! Weirs (02 R74, R75) -/

/-- What an entry read from weir `w` changes: packets in buffers, the credits that senders see, and at the weir's own router
the drop of a malformed packet; no weir's entries or separation, and no slip is counted. -/
structure SlotTaken (w : Nat) (s t : State) : Prop where
  time : t.time = s.time
  rill : { t.rill with flows := s.rill.flows, weirs := s.rill.weirs } = s.rill
  weir : ∀ v, { weirOf t v with used := (weirOf s v).used } = weirOf s v
  tile : ∀ u, u ≠ weirTile w → tileOf t u = tileOf s u
  slips : (tileOf t (weirTile w)).hang.slips = (tileOf s (weirTile w)).hang.slips

theorem SlotTaken.refl (w : Nat) (s : State) : SlotTaken w s s := ⟨rfl, rfl, fun _ => rfl, fun _ _ => rfl, rfl⟩

theorem SlotTaken.trans {w : Nat} {s t u : State} (h : SlotTaken w s t) (g : SlotTaken w t u) : SlotTaken w s u where
  time := g.time.trans h.time
  rill := by rw [← h.rill, ← g.rill]
  weir v := by rw [← h.weir v, ← g.weir v]
  tile x hx := (g.tile x hx).trans (h.tile x hx)
  slips := g.slips.trans h.slips

/-- A change of the packets in buffers alone. -/
theorem SlotTaken.of_flows (w : Nat) (s : State) (fs : List Flow) :
    SlotTaken w s (onRill (fun q => { q with flows := fs }) s) := ⟨rfl, rfl, fun _ => rfl, fun _ _ => rfl, rfl⟩

theorem SlotTaken.of_used (w v : Nat) (f : Weir → Map Nat) (s : State) :
    SlotTaken w s (onWeir v (fun x => { x with used := f x }) s) := by
  refine ⟨rfl, rfl, fun x => ?_, fun _ _ => rfl, rfl⟩
  rw [weirOf_onWeir]
  split
  · next h => rw [h]
  · rfl

theorem dropPacket_slips (r port reason : Nat) (p : Packet) (s : State) (hr : r < numTiles) :
    (tileOf (dropPacket r port reason p s) r).hang.slips = (tileOf s r).hang.slips := by
  obtain ⟨-, w, hw⟩ := dropPacket_retiled r port reason p s hr
  rw [hw]
  rfl

theorem dropPacket_taken {w r : Nat} (port reason : Nat) (p : Packet) (s : State) (hr : r < numTiles) (hw : weirTile w = r) :
    SlotTaken w s (dropPacket r port reason p s) := by
  obtain ⟨h1, h2⟩ := dropPacket_onlyTile r port reason p s
  have hrill := dropPacket_rill r port reason p s
  refine ⟨?_, by rw [hrill], fun v => by unfold weirOf; rw [hrill], fun u hu => ?_, ?_⟩
  · have h : (dropPacket r port reason p s).time = (if reason = 0 then drawFree s else s).time := by rw [← h1]
    rw [h]
    split <;> rfl
  · rw [h2 u (hw ▸ hu)]
    split <;> rfl
  · rw [hw]
    exact dropPacket_slips r port reason p s hr

/-- The node at the far end of a weir is the router that counts its slips, or a junction, which drops no packet (02 R45). -/
theorem weirEnd_router {w r : Nat} (h : (weirEnd w).1 = .router r) : weirTile w = r ∧ r < numTiles := by
  unfold weirEnd at h
  split at h
  · next hw =>
    obtain rfl : w / 4 = r := by simpa using h
    exact ⟨by unfold weirTile; rw [if_pos hw], hw⟩
  · simp at h

theorem flowIn_taken (w id : Nat) (p : Packet) (k : Nat) (s : State) :
    SlotTaken w s (flowIn id (weirEnd w).1 (weirEnd w).2 p k s) := by
  unfold flowIn
  split
  · exact .of_flows _ _ _
  · extract_lets bad t
    have ht : SlotTaken w s t := .of_flows _ _ _
    split
    · next r _ hr =>
      obtain ⟨hw, hlt⟩ := weirEnd_router hr
      exact ht.trans (dropPacket_taken _ _ _ _ hlt hw)
    · exact ht

/-- An entry read brings its flits to the weir's far end, and its credits to the sender of the opposite direction. -/
theorem takeSlot_taken (w : Nat) (e : WeirSlot) (s : State) : SlotTaken w s (takeSlot w e s) := by
  unfold takeSlot
  extract_lets d t
  have ht : SlotTaken w s t := by
    unfold t
    split
    · exact .refl w s
    · split
      · exact .refl w s
      · split
        · exact .refl w s
        · exact .of_used _ _ _ s
  split
  · exact ht
  · exact ht.trans (flowIn_taken _ _ _ _ _)

theorem takeSlots_taken (w : Nat) (es : List WeirSlot) (s : State) : SlotTaken w s (es.foldl (fun s e => takeSlot w e s) s) := by
  induction es generalizing s with
  | nil => exact .refl w s
  | cons e es ih => exact (takeSlot_taken w e s).trans (ih _)

/-- The slips of a weir that count at a slip of now: those of the last second and this one. -/
def slipsNow (s : State) (w : Nat) : List Nat :=
  (weirOf s w).slipTimes.filter (fun t => decide (now s < t + 1000000000)) ++ [now s]

/-- The entries that a separation of 2 has read too early. -/
def earlySlots (v : Weir) (n : Nat) : List WeirSlot := if n = 2 then v.slots.take (v.slots.length - 2) else []

/-- The weir after a slip to separation `n`. -/
def slippedWeir (ts : List Nat) (early : List WeirSlot) (n : Nat) (v : Weir) : Weir :=
  { v with
    separation := n
    slots := v.slots.drop early.length ++ List.replicate (n - v.slots.length) {}
    retraining := true
    slipTimes := ts
    down := decide (3 ≤ ts.length) }

/-- The stub at a weir counts a slip and records it. -/
def countSlip (w : Nat) (s : State) : State :=
  recordKind (weirTile w) 0x12 2 (w % 4 * 2 ^ 62)
    (onTile (weirTile w) (fun x => { x with hang := { x.hang with slips := x.hang.slips + 1 } }) s)

/-- A slip up to the count at the stub. -/
def slipCounted (w n : Nat) (s : State) : State :=
  countSlip w ((earlySlots (weirOf s w) n).foldl (fun s e => takeSlot w e s)
    (onWeir w (slippedWeir (slipsNow s w) (earlySlots (weirOf s w) n) n) s))

/-- The centre marks a weir's link bad (02 R75). -/
def markLink (w : Nat) (s : State) : State :=
  onRill (fun q => { q with badLinks := q.badLinks ++
    ((linkNo (weirEnd w).1 (weirEnd w).2).toList.filter (fun l => !q.badLinks.contains l)) }) s

theorem weirSlip_idle (s : State) (w n : Nat) (h : weirExists w = false ∨ (n ≠ 2 ∧ n ≠ 6) ∨ (weirOf s w).down = true) :
    exec (.weirSlip w n) s = .next s := by
  have hc : (inService s && weirExists w && (n == 2 || n == 6) && !(weirOf s w).down) = false := by
    rcases h with h | ⟨h2, h6⟩ | h
    · simp [h]
    · simp [h2, h6]
    · simp [h]
  simp only [exec, execWeirSlip, when, hc, Bool.false_eq_true, if_false]

theorem weirSlip_eq (s : State) (w n : Nat) (hs : s.rill.inService = true) (he : weirExists w = true) (hn : n = 2 ∨ n = 6)
    (hd : (weirOf s w).down = false) :
    exec (.weirSlip w n) s = .next (
      if 3 ≤ (slipsNow s w).length then markLink w (slipCounted w n s) else slipCounted w n s) := by
  have hc : (inService s && weirExists w && (n == 2 || n == 6) && !(weirOf s w).down) = true := by
    rcases hn with rfl | rfl <;> simp [inService, hs, he, hd]
  simp only [exec, execWeirSlip, hc, when, decide_eq_true_eq, if_true]
  rfl

theorem countSlip_onlyTile (w : Nat) (s : State) : OnlyTile s (countSlip w s) (weirTile w) :=
  (onTile_onlyTile _ _ _).trans (recordKind_onlyTile _ _ _ _ _)

theorem countSlip_slips (w : Nat) (s : State) (h : weirTile w < numTiles) :
    (tileOf (countSlip w s) (weirTile w)).hang.slips = (tileOf s (weirTile w)).hang.slips + 1 := by
  obtain ⟨-, x, hx⟩ := recordKind_retiled 0x12 2 (w % 4 * 2 ^ 62) h
    (onTile_retiled (weirTile w) (fun x => { x with hang := { x.hang with slips := x.hang.slips + 1 } }) s h)
  unfold countSlip
  rw [hx]

/-- What a slip changes at its weir, and what it leaves. -/
theorem slipCounted_spec (w n : Nat) (s : State) :
    (∃ m, weirOf (slipCounted w n s) w = { slippedWeir (slipsNow s w) (earlySlots (weirOf s w) n) n (weirOf s w) with used := m }) ∧
      (slipCounted w n s).rill.badLinks = s.rill.badLinks ∧
      (weirTile w < numTiles → (tileOf (slipCounted w n s) (weirTile w)).hang.slips = (tileOf s (weirTile w)).hang.slips + 1) ∧
      ∀ u, u ≠ weirTile w → tileOf (slipCounted w n s) u = tileOf s u := by
  have hx := takeSlots_taken w (earlySlots (weirOf s w) n)
    (onWeir w (slippedWeir (slipsNow s w) (earlySlots (weirOf s w) n) n) s)
  unfold slipCounted
  generalize (earlySlots (weirOf s w) n).foldl (fun s e => takeSlot w e s) _ = x at hx ⊢
  have ho : (countSlip w x).rill = x.rill := (countSlip_onlyTile w x).rill
  refine ⟨⟨(weirOf x w).used, ?_⟩, ?_, fun h => ?_, fun u hu => ?_⟩
  · have h := hx.weir w
    rw [weirOf_onWeir, if_pos rfl] at h
    rw [weirOf_of_weirs (congrArg RillState.weirs ho)]
    exact congrArg (fun v : Weir => { v with used := (weirOf x w).used }) h
  · rw [ho]
    exact (congrArg RillState.badLinks hx.rill).trans rfl
  · rw [countSlip_slips w x h, hx.slips]
    rfl
  · rw [(countSlip_onlyTile w x).2 u hu, hx.tile u hu]
    rfl

/-- A separation of 6 has read no entry: no packet moves and no other weir changes. -/
theorem slipCounted_six (w : Nat) (s : State) :
    (slipCounted w 6 s).rill = (onWeir w (slippedWeir (slipsNow s w) [] 6) s).rill := by
  unfold slipCounted
  rw [(countSlip_onlyTile w _).rill]
  rfl

theorem mem_markLink {w l : Nat} (s : State) (h : linkNo (weirEnd w).1 (weirEnd w).2 = some l) :
    l ∈ (markLink w s).rill.badLinks := by
  by_cases hl : l ∈ s.rill.badLinks <;> simp [markLink, onRill, h, hl]

theorem weirSlip_spec (s : State) (w n : Nat) (hs : s.rill.inService = true) (he : weirExists w = true) (hn : n = 2 ∨ n = 6)
    (hd : (weirOf s w).down = false) :
    let ts := slipsNow s w
    ∃ t, exec (.weirSlip w n) s = .next t ∧ (weirOf t w).separation = n ∧ (weirOf t w).retraining = true ∧
      (weirOf t w).slipTimes = ts ∧ (weirOf t w).down = decide (3 ≤ ts.length) ∧
      (n = 6 → (weirOf s w).slots.length = 4 → (weirOf t w).slots = (weirOf s w).slots ++ List.replicate 2 ({} : WeirSlot) ∧
        t.rill.flows = s.rill.flows ∧ ∀ v, v ≠ w → weirOf t v = weirOf s v) ∧
      (n = 2 → (weirOf s w).slots.length = 4 → (weirOf t w).slots = (weirOf s w).slots.drop 2) ∧
      (ts.length < 3 → t.rill.badLinks = s.rill.badLinks) ∧
      (3 ≤ ts.length → ∀ l, linkNo (weirEnd w).1 (weirEnd w).2 = some l → l ∈ t.rill.badLinks) ∧
      (weirTile w < numTiles → (tileOf t (weirTile w)).hang.slips = (tileOf s (weirTile w)).hang.slips + 1) ∧
      ∀ u, u ≠ weirTile w → tileOf t u = tileOf s u := by
  intro ts
  obtain ⟨⟨m, hw⟩, hb, hc, ht⟩ := slipCounted_spec w n s
  refine ⟨_, weirSlip_eq s w n hs he hn hd, ?_⟩
  generalize hg : (if 3 ≤ (slipsNow s w).length then markLink w (slipCounted w n s) else slipCounted w n s) = t
  have htile : ∀ u, tileOf t u = tileOf (slipCounted w n s) u := by
    intro u; rw [← hg]; split <;> rfl
  have hweir : ∀ v, weirOf t v = weirOf (slipCounted w n s) v := by
    intro v; rw [← hg]; split <;> rfl
  have hflow : t.rill.flows = (slipCounted w n s).rill.flows := by rw [← hg]; split <;> rfl
  rw [hweir w, hw]
  refine ⟨rfl, rfl, rfl, rfl, ?_, ?_, fun h => ?_, fun h l hl => ?_, ?_, fun u hu => (htile u).trans (ht u hu)⟩
  · rintro rfl h4
    refine ⟨by simp [slippedWeir, earlySlots, h4], by rw [hflow, slipCounted_six]; rfl, fun v hv => ?_⟩
    rw [hweir v]
    unfold weirOf
    rw [slipCounted_six]
    exact (weirOf_onWeir w v _ s).trans (if_neg hv)
  · rintro rfl h4
    simp [slippedWeir, earlySlots, h4]
  · rw [← hg, if_neg (Nat.not_le.2 h), hb]
  · rw [← hg, if_pos h]
    exact mem_markLink _ hl
  · rw [htile]
    exact hc

theorem weirRetrainDone_idle (s : State) (w : Nat) (h : (weirOf s w).retraining = false) :
    exec (.weirRetrainDone w) s = .next s := by
  simp only [exec, execWeirRetrainDone, when, h, Bool.false_eq_true, if_false]

theorem weirRetrainDone_spec (s : State) (w : Nat) (h : (weirOf s w).retraining = true) :
    ∃ t, exec (.weirRetrainDone w) s = .next t ∧ (weirOf t w).separation = 4 ∧
      (weirOf t w).retraining = false ∧ (weirOf t w).slots = List.replicate 4 {} ∧ (weirOf t w).down = (weirOf s w).down ∧
      (weirOf t w).slipTimes = (weirOf s w).slipTimes ∧ t.rill.ops = s.rill.ops ∧ t.time = s.time ∧
      ∀ v, v ≠ w → (weirOf t v).separation = (weirOf s v).separation ∧ (weirOf t v).slots = (weirOf s v).slots := by
  have hx := takeSlots_taken w (weirOf s w).slots (onWeir w (fun v => { v with
    separation := 4
    slots := List.replicate 4 {}
    retraining := false }) s)
  have hw := hx.weir w
  rw [weirOf_onWeir, if_pos rfl] at hw
  have he : exec (.weirRetrainDone w) s = .next ((weirOf s w).slots.foldl (fun s e => takeSlot w e s)
      (onWeir w (fun v => { v with
        separation := 4
        slots := List.replicate 4 {}
        retraining := false }) s)) := by
    simp only [exec, execWeirRetrainDone, when, h, if_true]
  refine ⟨_, he, congrArg Weir.separation hw, congrArg Weir.retraining hw, congrArg Weir.slots hw,
    (congrArg Weir.down hw).trans rfl, (congrArg Weir.slipTimes hw).trans rfl, (congrArg RillState.ops hx.rill).trans rfl,
    hx.time, fun v hv => ?_⟩
  have hv' := hx.weir v
  rw [weirOf_onWeir, if_neg hv] at hv'
  exact ⟨(congrArg Weir.separation hv').trans rfl, (congrArg Weir.slots hv').trans rfl⟩

/-! Links and edge agents (15 R474, 05 R157) -/

theorem linkGate_quiet (s : State) (n : Nat) (hs : s.rill.inService = true) (hn : n < 170) (hg : n ∉ s.rill.gated)
    (hq : s.boot.quiet = true) :
    exec (.linkGate n) s = .next { s with rill := { s.rill with gated := s.rill.gated ++ [n] } } := by
  simp [exec, execLinkGate, when, inService, hs, hn, hg, hq, onRill]

theorem linkGate_awake (s : State) (n : Nat) (hq : s.boot.quiet = false) : exec (.linkGate n) s = .next s := by
  simp only [exec, execLinkGate, when, hq, Bool.and_false, Bool.false_and, Bool.false_eq_true, if_false]

/-- A class driven at a moment reads high for 8 ns, and no other wire changes (02 R78). -/
theorem driveClass_driven (c : Nat) (s : State) : Driven s (driveClass c s) c := by
  refine ⟨rfl, ?_, fun b hb => ?_⟩
  · simp only [driveClass, onAlarm, mget_mmod, if_true]
    split <;> rfl
  · simp only [driveClass, onAlarm, mget_mmod, hb, if_false]

theorem edgeLinkDown_drives (s : State) (d : Nat) (b : Bool) (hs : s.rill.inService = true) (hd : d < numDies)
    (hb : b = false ∨ (edgeOf s d).cut = true) :
    exec (.edgeLinkDown d b) s = .next (driveClass 6 s) := by
  have hc : (!b || (edgeOf s d).cut) = true := by
    rcases hb with rfl | h
    · rfl
    · rw [h, Bool.or_true]
  simp only [exec, execEdgeLinkDown, when, inService, hs, hd, hc, decide_true, Bool.and_self, if_true]

theorem edgeLinkDown_whole (s : State) (d : Nat) (hc : (edgeOf s d).cut = false) :
    exec (.edgeLinkDown d true) s = .next s := by
  simp only [exec, execEdgeLinkDown, when, hc, Bool.not_true, Bool.or_self, Bool.and_false, Bool.false_eq_true, if_false]

/-! The clauses of PacketsTravel -/

theorem rillPacketArrive_off (s : State) (n : Node) (port : Nat) (p : Packet)
    (h : (inService s && nodeExists n && hasPort n port && destExists p) = false) :
    exec (.rillPacketArrive n port p) s = .next s := by
  simp only [exec]
  unfold execRillPacketArrive
  rw [h]
  rfl

theorem rillPacketArrive_barred (s : State) (n : Node) (port : Nat) (p : Packet)
    (h : (nodeExists n && hasPort n port && destExists p) = false) : exec (.rillPacketArrive n port p) s = .next s := by
  refine rillPacketArrive_off s n port p ?_
  rw [← Bool.and_false (inService s), ← h]
  simp only [Bool.and_assoc]

/-- Out of service the Rill takes nothing in and moves nothing. -/
theorem outOfService_still (s : State) (hs : s.rill.inService = false) :
    (∀ r p k, exec (.rillPacketArrive r p k) s = .next s) ∧ (∀ r g c, exec (.mcastCopy r g c) s = .next s) ∧
    (∀ a b c d e, exec (.mreadArrive a b c d e) s = .next s) ∧ (∀ a b c d e, exec (.mdataReturn a b c d e) s = .next s) ∧
    (∀ k b n, exec (.fetch k b n) s = .next s) ∧ (∀ k o n, exec (.copyout k o n) s = .next s) ∧
    (∀ w n, exec (.weirSlip w n) s = .next s) ∧ (∀ n, exec (.linkGate n) s = .next s) ∧
    ∀ d b, exec (.edgeLinkDown d b) s = .next s := by
  have hi : inService s = false := hs
  refine ⟨?_, ?_, ?_, ?_, ?_, ?_, ?_, ?_, ?_⟩ <;> intros
  · exact rillPacketArrive_off _ _ _ _ (by rw [hi]; rfl)
  · next g _ => cases ho : flightOp s g <;>
      simp only [exec, execMcastCopy, ho, hi, Bool.not_false, Bool.true_or, if_true]
  · simp only [exec, execMreadArrive, when, hi, Bool.false_and, Bool.false_eq_true, if_false]
  · simp only [exec, execMdataReturn, when, hi, Bool.false_eq_true, if_false]
  · simp only [exec, execFetch, when, hi, Bool.false_and, Bool.false_eq_true, if_false]
  · simp only [exec, execCopyout, when, hi, Bool.false_and, Bool.false_eq_true, if_false]
  · simp only [exec, execWeirSlip, when, hi, Bool.false_and, Bool.false_eq_true, if_false]
  · simp only [exec, execLinkGate, when, hi, Bool.false_and, Bool.false_eq_true, if_false]
  · simp only [exec, execEdgeLinkDown, when, hi, Bool.false_and, Bool.false_eq_true, if_false]

theorem nodeExists_router {r : Nat} (h : nodeExists (.router r) = true) : r < numTiles := of_decide_eq_true h

/-- A router drops a packet that is too long or of a reserved kind; the latter draws a free channel number. -/
theorem rillPacketArrive_dropped (s : State) (r port k : Nat) (p : Packet) (hs : s.rill.inService = true)
    (hn : nodeExists (.router r) = true) (hp : hasPort (.router r) port = true) (hd : destExists p = true)
    (hb : shapeBad (.router r) p = some k) (hk : k ≠ 2) :
    ∃ t, exec (.rillPacketArrive (.router r) port p) s = .next t ∧ OnlyTile (if k = 0 then drawFree s else s) t r ∧
      (tileOf t r).hang = { (tileOf s r).hang with malformed := (tileOf s r).hang.malformed + 1 } ∧
      { tileOf t r with hang := (tileOf s r).hang, eddy := (tileOf s r).eddy } = tileOf s r := by
  obtain ⟨h1, w, hw⟩ := dropPacket_retiled r port k p s (nodeExists_router hn)
  refine ⟨_, rillPacketArrive_eq s _ port p hs hn hp hd, ?_⟩
  rw [enterPort_bad hb, hw]
  refine ⟨h1, ?_, rfl⟩
  simp only [countDrop, if_neg hk]

/-- A copy whose header arrives whole, at a node that has a buffer for it. -/
theorem mcastCopy_copies (s : State) (n : Node) (g : Nat) (credit : List Nat) (o : RillOp)
    (h : CopyComes s n g o)
    (hroom : isRouter n = false ∨ (routerOf s n).mcast.length < 2) :
    let stay := (treeBranches s o n).filter (fun d => !credit.contains d)
    let go := (treeBranches s o n).filter (fun d => credit.contains d)
    ∃ t, exec (.mcastCopy n g (credit, true)) s = .next t ∧ { t with rill := s.rill } = s ∧
      (routerOf t n).mcast = (routerOf s n).mcast ++ (if stay = [] then [] else [{ tag := g, branches := stay, since := now s }]) ∧
      (routerOf t n).combiners = (routerOf s n).combiners ++ [{ tag := g, copies := go.map (fun d => (d, now s)) }] ∧
      ∀ q, nodeKey q ≠ nodeKey n → routerOf t q = routerOf s q := by
  have hfull : (isRouter n && decide (2 ≤ (routerOf s n).mcast.length)) = false := by
    rcases hroom with h | h
    · rw [h, Bool.false_and]
    · rw [decide_eq_false (Nat.not_le.2 h), Bool.and_false]
  have he := mcastCopy_eq s n g credit true o h
  rw [hfull] at he
  obtain ⟨h1, h2⟩ := copyOut_fresh g (now s) (treeBranches s o n) credit (routerOf s n) h.noBuffer h.noCombiner
  refine ⟨_, he, rfl, ?_, ?_, fun q hq => (routerOf_onRouter n q _ s).trans (if_neg hq)⟩
  · exact (congrArg RouterState.mcast (routerOf_onRouter_self n _ s)).trans h1
  · exact (congrArg RouterState.combiners (routerOf_onRouter_self n _ s)).trans h2

theorem mcastCopy_waits (s : State) (n : Node) (g : Nat) (credit : List Nat) (o : RillOp)
    (h : CopyComes s n g o)
    (hn : isRouter n = true) (hfull : 2 ≤ (routerOf s n).mcast.length) :
    ∃ t, exec (.mcastCopy n g (credit, true)) s = .next t ∧ g ∈ (routerOf t n).input ∧
      (routerOf t n).mcast = (routerOf s n).mcast ∧ (routerOf t n).combiners = (routerOf s n).combiners := by
  have he := mcastCopy_eq s n g credit true o h
  rw [hn, decide_eq_true hfull] at he
  refine ⟨_, he, ?_⟩
  simp only [Bool.not_true, Bool.false_eq_true, Bool.and_self, if_true, if_false, routerOf_onRouter_self, and_true]
  split
  · next h => simpa using h
  · simp

theorem mcastCopy_drops (s : State) (n : Node) (g : Nat) (credit : List Nat) (o : RillOp)
    (h : CopyComes s n g o) :
    ∃ t, exec (.mcastCopy n g (credit, false)) s = .next t ∧ (routerOf t n).mcast = (routerOf s n).mcast ∧
      (routerOf t n).combiners = (routerOf s n).combiners ++ [{ tag := g }] ∧ t.rill.ops = s.rill.ops ∧
      ∀ r, n = .router r → r < numTiles →
        (tileOf t r).hang = { (tileOf s r).hang with crcBad := (tileOf s r).hang.crcBad + 1 } := by
  refine ⟨_, mcastCopy_eq s n g credit false o h, ?_⟩
  simp only [Bool.not_false, if_true, routerOf_badWhole, routerOf_onRouter_self, true_and]
  refine ⟨by rw [badWhole_rill]; rfl, ?_⟩
  rintro r rfl hlt
  obtain ⟨-, w, hw⟩ := dropPacket_retiled r (inputPort s o (.router r)) 2 { kind := 2 } (onRouter (.router r) (fun q => { q with
    input := q.input.filter (fun h => h != g)
    combiners := q.combiners ++ [{ tag := g }] }) s) hlt
  simp only [badWhole, hw, countDrop, if_true]
  rfl

theorem mcastBranchTimeout_spec (s : State) (n : Node) (g d : Nat) (o : RillOp) (b : McastBuf) (ho : flightOp s g = some o)
    (hb : (routerOf s n).mcast.find? (fun b => b.tag == g) = some b) (hd : d ∈ b.branches) :
    let ts := branchTiles s o n d
    ∃ t, exec (.mcastBranchTimeout n g d) s = .next t ∧ now t = now (elapse (b.since + 20000) s) ∧ t.tiles = s.tiles ∧
      t.rill.ops = s.rill.ops.map (fun x => if x.tag == g then { x with
        partials := x.partials ++ [nakMrsp n ts 1]
        counted := x.counted ++ ts
        dropped := x.dropped ++ ts } else x) ∧
      ∀ c ∈ (routerOf t n).mcast, c.tag = g → c.branches ≠ [] := by
  intro ts
  refine ⟨_, mcastBranchTimeout_eq s n g d o b ho hb hd, rfl, elapse_tiles _ _, ?_, fun c hc _ => ?_⟩
  · have h := map_op_map_op g (fun x : RillOp => { x with partials := x.partials ++ [nakMrsp n ts 1], counted := x.counted ++ ts })
      (fun x => { x with dropped := x.dropped ++ ts }) (fun _ => rfl) s.rill.ops
    rw [← h, ← elapse_rill (b.since + 20000) s]
    rfl
  · rw [routerOf_onRouter_self] at hc
    simpa using (List.mem_filter.1 hc).2

theorem mrspCombine_merges (s : State) (n : Node) (g : Nat) (o : RillOp) (h : CombineReady s n g o) :
    ∃ t m, exec (.mrspCombine n (g, true)) s = .next t ∧ { t with rill := s.rill } = s ∧
      m.ok = ((o.partials.filter (behind s n)).map (·.ok)).sum ∧ m.nak = ((o.partials.filter (behind s n)).map (·.nak)).sum ∧
      (∃ x ∈ t.rill.ops, x = { o with partials := o.partials.filter (fun p => !behind s n p) ++ [m] }) ∧
      ∀ c ∈ (routerOf t n).combiners, c.tag ≠ g := by
  obtain ⟨hmem, hg⟩ := flightOp_spec h.flight
  obtain ⟨h1, h2⟩ := mergeAll_counts n (o.partials.filter (behind s n))
  refine ⟨_, _, mrspCombine_eq s n g true o h, rfl, h1, h2, ⟨_, mem_onOp _ hmem hg, rfl⟩, fun c hc => ?_⟩
  simp only [if_true, routerOf_onOp, routerOf_onRouter_self] at hc
  simpa using (List.mem_filter.1 hc).2

theorem mrspCombine_drops (s : State) (n : Node) (g : Nat) (o : RillOp) (h : CombineReady s n g o) :
    ∃ t, exec (.mrspCombine n (g, false)) s = .next t ∧ (∃ x ∈ t.rill.ops, x = { o with
      partials := o.partials.filter (fun p => !behind s n p)
      counted := o.counted.filter (fun u => !(nodeMembers s o n).contains u) }) ∧ ∀ c ∈ (routerOf t n).combiners, c.tag ≠ g := by
  obtain ⟨hmem, hg⟩ := flightOp_spec h.flight
  refine ⟨_, mrspCombine_eq s n g false o h, ?_, fun c hc => ?_⟩
  · rw [if_neg Bool.false_ne_true, badWhole_rill]
    exact ⟨_, mem_onOp _ hmem hg, rfl⟩
  · simp only [Bool.false_eq_true, if_false, routerOf_badWhole, routerOf_onOp, routerOf_onRouter_self] at hc
    simpa using (List.mem_filter.1 hc).2

theorem combinerTimeout_spec (s : State) (n : Node) (g d at0 : Nat) (o : RillOp) (c : Combiner) (ho : flightOp s g = some o)
    (hc : (routerOf s n).combiners.find? (fun c => c.tag == g) = some c) (hp : c.copies.find? (fun p => p.1 == d) = some (d, at0))
    (hu : ∃ u ∈ branchTiles s o n d, u ∉ o.counted) :
    ∃ t x, exec (.combinerTimeout n g d) s = .next t ∧ now t = now (elapse (at0 + 24000) s) ∧ x ∈ t.rill.ops ∧ x.tag = g ∧
      nakMrsp n (branchTiles s o n d) 9 ∈ x.partials ∧ ∀ u ∈ branchTiles s o n d, u ∈ x.counted := by
  obtain ⟨hmem, hg⟩ := flightOp_spec ho
  rw [← elapse_rill (at0 + 24000) s] at hmem
  refine ⟨_, _, combinerTimeout_eq s n g d at0 o c ho hc hp hu, rfl, mem_onOp _ (mem_onOp _ hmem hg) hg, hg, ?_, fun u hu => ?_⟩
  · exact List.mem_append_right _ (List.mem_singleton.2 rfl)
  · exact List.mem_append_right _ hu

/-- A read or a reply with a bad CRC opens, joins and closes no entry. -/
theorem badWhole_merges (n : Node) (port kind : Nat) (s : State) :
    (badWhole n port kind s).rill.merge = s.rill.merge ∧ (badWhole n port kind s).rill.forwarded = s.rill.forwarded ∧
      (badWhole n port kind s).rill.multicast = s.rill.multicast := by
  rw [badWhole_rill]
  exact ⟨rfl, rfl, rfl⟩

theorem fetch_bank_spec (s : State) (k : Nat) (p : WatchPlan) (hk : k < numTiles) (hs : s.rill.inService = true)
    (hf : fetches s k = true) (hl : (tileOf s k).txn.ltnValid = true) (hw : s.plans.watchNext = some p) :
    ∃ t, exec (.fetch k false p.id) s = .next t ∧ OnlyTile s t k ∧ inactiveBank (tileOf t k).core = bankMap (bankWords s (some p) k) ∧
      activeBank (tileOf t k).core = activeBank (tileOf s k).core ∧ { tileOf t k with core := (tileOf s k).core } = tileOf s k := by
  refine ⟨_, fetch_bank s k p hk hs hf hl hw, onTile_onlyTile _ _ _, ?_⟩
  have ht : tileOf (fetchBank (some p) k s) k = takeBank (some p) s k (tileOf s k) := tileOf_onTile_self _ _ hk
  rw [ht]
  exact takeBank_spec (some p) s k (tileOf s k)

/-- Settles O45: what each row of the Rill's nodes, weirs and links does with a whole packet, clause by clause. -/
theorem packetsTravel : Obligations.PacketsTravel := by
  unfold Obligations.PacketsTravel
  refine ⟨outOfService_still, rillPacketArrive_barred, ?_, ?_, mcastBranchTimeout_spec, ?_, combinerTimeout_spec, ?_, ?_, weirSlip_idle,
    weirSlip_spec, fun s w => ⟨weirRetrainDone_idle s w, weirRetrainDone_spec s w⟩,
    fun s n hs hn hg => ⟨linkGate_quiet s n hs hn hg, linkGate_awake s n⟩, fun s d b hs hd => ⟨fun hb => ?_, ?_⟩⟩
  · intro s n port p hs hn hp hd enters
    have he := rillPacketArrive_eq s n port p hs hn hp hd
    refine ⟨?_, ?_, ?_, ?_, ?_, ?_⟩
    · rintro r m rfl hm hl
      rw [enterPort_fits (shapeBad_of_fits hm hl)] at he
      exact he
    · rintro f rfl
      exact he
    · rintro k rfl
      exact he
    · rintro r m rfl hm hl
      exact rillPacketArrive_dropped s r port 1 p hs hn hp hd (shapeBad_of_long hm hl) (by decide)
    · rintro r rfl hk
      obtain ⟨t, h1, h2, h3, -⟩ := rillPacketArrive_dropped s r port 0 p hs hn hp hd
        (shapeBad_of_reserved (largestLen_reserved hk)) (by decide)
      exact ⟨t, h1, h2.rill, h3⟩
    · rintro r rfl hu hdest
      exact outPort_own s p (nodeExists_router hn) hu hdest
  · intro s n g credit o hs ho hm hb hr hf hc stay go
    have h : CopyComes s n g o := ⟨hs, ho, hm, hb, hr, hf, hc⟩
    exact ⟨mcastCopy_copies s n g credit o h, mcastCopy_waits s n g credit o h, mcastCopy_drops s n g credit o h⟩
  · intro s n g o ho hc hb hm ha
    have h : CombineReady s n g o := ⟨ho, hc, hb, hm, ha⟩
    exact ⟨mrspCombine_merges s n g o h, mrspCombine_drops s n g o h⟩
  · intro s a b addr len plan hs
    refine ⟨fun hm c => mreadArrive_barred s a b addr len plan c hm, ?_⟩
    intro hm e
    refine ⟨?_, ?_, ?_, ?_, ?_, fun d => ?_⟩
    · exact mreadArrive_opens s a b addr len plan hs hm
    · exact mreadArrive_passes s a b addr len plan hs hm
    · intro rs hp hl hb he
      exact mreadArrive_joins s a b addr len plan rs hs hm hp hl hb he
    · intro rs d he hf
      exact mdataReturn_closes s a b addr len plan rs d hs he hf
    · obtain ⟨h1, h2, -⟩ := badWhole_merges a (askPort b) 6 s
      exact ⟨_, mreadArrive_bad s a b addr len plan hs hm, h1, h2⟩
    · obtain ⟨h1, -, h3⟩ := badWhole_merges a 8 7 s
      exact ⟨_, mdataReturn_bad s a addr len plan d hs, h1, h3⟩
  · intro s k hk hs
    exact ⟨fun p => fetch_bank_spec s k p hk hs, fun hr n => fetch_restored s k n hr, fun o n ha hc => copyout_sends s k o n hk hs ha hc,
      fun o n => copyout_dark s k o n⟩
  · exact ⟨_, edgeLinkDown_drives s d b hs hd hb, driveClass_driven 6 s, rfl⟩
  · rintro rfl hc
    exact edgeLinkDown_whole s d hc

end Sys2Proof.Machine
end

section
/-! What stubs and the centre answer to operations on the Rill (02 R47, R48, R59, R60, R76, R77; 04 R135; 12 R368). -/

namespace Sys2Proof.Machine

/-! The passing of hub time (03 R84) sends nothing -/

/-- Hub time after a wait, whatever a press tick within it does. -/
theorem now_elapse (t : Nat) (s : State) :
    now (elapse t s) = if s.time.running && decide (now s < t) then t % 2 ^ 64 else now s := by
  unfold elapse reachTick
  split
  · split
    · rw [pressCentre_frame]; rfl
    · rfl
  · rfl

theorem sent_event (n : Nat) (s : State) : sent (event n s) = sent s := rfl

/-- What a press sets in the port: its event bits. -/
theorem pressCentre_sent (s : State) : sent (pressCentre s) = sent s := by
  unfold pressCentre
  split
  · rfl
  · extract_lets s1 s2
    have h2 : sent s2 = sent s := by
      unfold s2
      split <;> rfl
    rw [← h2]
    split
    · rw [sent_event]; rfl
    · rw [sent_event, startLedger]; rfl
    · rw [sent_event]; rfl
    · rfl

@[simp] theorem elapse_sent (t : Nat) (s : State) : sent (elapse t s) = sent s := by
  unfold elapse reachTick
  split
  · split
    · rw [pressCentre_sent]; rfl
    · rfl
  · rfl

@[simp] theorem elapse_sess (t : Nat) (s : State) : (elapse t s).sess = s.sess := by rw [elapse_frame]

/-! Answers to requests that wait (13 R416, R417) -/

/-- The answer to an outstanding request of a session on the port goes out under its own tag. -/
theorem respond_replied (h : ReqHdr) (st : Status) (body : List Byte) (s : State) : Replied s (respond h st body s) h st body := by
  intro hmem hport
  obtain ⟨o, ho, htag⟩ : ∃ o, outTag s h = some o ∧ o.tag = h.tag := by
    unfold outTag
    cases hf : s.sess.outstanding.find? (fun o => o.session == h.session && o.reqId == h.reqId && o.tag == h.tag) with
    | none => simpa using List.find?_eq_none.1 hf h hmem
    | some o =>
      have := List.find?_some hf
      simp only [Bool.and_eq_true, beq_iff_eq] at this
      exact ⟨o, rfl, this.2⟩
  unfold respond
  simp only [ho, htag]
  rw [send_port _ _ hport]
  exact (portSend_spec _ _).1

@[simp] theorem respond_rill (h : ReqHdr) (st : Status) (body : List Byte) (s : State) : (respond h st body s).rill = s.rill := by
  unfold respond send
  extract_lets r s1
  split
  · rfl
  · split <;> rfl

@[simp] theorem respond_tiles (h : ReqHdr) (st : Status) (body : List Byte) (s : State) : (respond h st body s).tiles = s.tiles := by
  unfold respond send
  extract_lets r s1
  split
  · rfl
  · split <;> rfl

/-- What has been sent and what waits for an answer are all that a reply depends on. -/
theorem Replied.of_same {s u t : State} {h : ReqHdr} {st : Status} {body : List Byte} (hs : sent u = sent s) (ho : u.sess = s.sess)
    (hr : Replied u t h st body) : Replied s t h st body := by
  intro hmem hport
  rw [← hs]
  exact hr (ho ▸ hmem) hport

/-- An operation that ends is forgotten and its request answered. -/
theorem endOp_spec (o : RillOp) (st : Status) (body : List Byte) (s : State) (h : ReqHdr) (hr : o.reply = some h) :
    Replied s (endOp o st body s) h st body ∧ (endOp o st body s).rill.ops = s.rill.ops.filter (fun x => x.tag != o.tag) ∧
      (endOp o st body s).tiles = s.tiles := by
  unfold endOp respondOpt
  rw [hr]
  refine ⟨.of_same rfl rfl (respond_replied h st body (dropOp o.tag s)), ?_, ?_⟩
  · rw [respond_rill]; rfl
  · rw [respond_tiles]; rfl

/-! A stub takes an operation (02 R60, R76, R77) -/

section
variable {s : State} {k g : Nat} {o : RillOp}

/-- A stub that has acted, or whose tile has been counted, does nothing more. -/
theorem stubAct_done (op : Nat) (answer : RillOp → Mrsp) (effect : RillOp → State → State) (ho : flightOp s g = some o)
    (h : k ∈ o.acted ∨ k ∈ o.counted) : stubAct op k g answer effect s = s := by
  unfold stubAct
  simp only [ho]
  refine if_pos ?_
  rcases h with h | h <;> simp [h]

theorem coreTimeout_done (ho : flightOp s g = some o) (h : k ∈ o.acted ∨ k ∈ o.counted) : exec (.coreTimeout k g) s = .next s := by
  simp only [exec, execCoreTimeout, ho]
  refine congrArg Host.Outcome.next (if_pos ?_)
  rcases h with h | h <;> simp [h]

/-- The operation notes that a stub has acted. -/
def markActed (g k : Nat) : State → State := onOp g (fun o => { o with acted := o.acted ++ [k] })

/-- What the operation holds once a stub has acted and answered. -/
def gathered (k : Nat) (p : Mrsp) (x : RillOp) : RillOp :=
  { x with acted := x.acted ++ [k], partials := x.partials ++ [p], counted := x.counted ++ [k] }

/-- An answer gathered in a state whose Rill is that at which the stub acted. -/
theorem addReply_rill (p : Mrsp) (u : State) (hu : u.rill = (markActed g k s).rill) :
    (addReply g p [k] u).rill = { s.rill with ops := s.rill.ops.map (fun x => if x.tag == g then gathered k p x else x) } := by
  have h := map_op_map_op g (fun o : RillOp => { o with acted := o.acted ++ [k] })
    (fun o => { o with partials := o.partials ++ [p], counted := o.counted ++ [k] }) (fun _ => rfl) s.rill.ops
  unfold addReply onOp onRill
  dsimp only
  rw [hu]
  exact congrArg (fun l => { s.rill with ops := l }) h

/-- Operation `o` is in flight under tag `g` and has reached tile `k`, whose stub answers and has not yet acted on it. -/
structure Takes (s : State) (k g : Nat) (o : RillOp) : Prop where
  flight : flightOp s g = some o
  service : s.rill.inService = true
  tile : k < numTiles
  addressed : addresses s o k = true
  reached : reaches s o k = true
  powered : (tileOf s k).power.answers = true
  unacted : k ∉ o.acted
  uncounted : k ∉ o.counted

variable (ht : Takes s k g o)
include ht

/-- A stub that refuses answers its reason. -/
theorem stubAct_refuses (answer : RillOp → Mrsp) (effect : RillOp → State → State) (hn : stubReason s o k ≠ 0) :
    stubAct o.op k g answer effect s = addReply g (nakMrsp (.router k) [k] (stubReason s o k)) [k] (markActed g k s) := by
  obtain ⟨ho, hs, hk, ha, hr, hp, h1, h2⟩ := ht
  have hn' : (stubReason (onOp g (fun o => { o with acted := o.acted ++ [k] }) s) o k != 0) = true := bne_iff_ne.2 hn
  unfold stubAct
  simp only [ho, inService, hs, hk, ha, hr, hp, h1, h2, hn', bne_self_eq_false, decide_true, Bool.not_true, List.contains_eq_mem,
    decide_false, Bool.or_self, Bool.false_eq_true, if_false, if_true]
  rfl

/-- A stub that does not refuse carries the operation out and answers. -/
theorem stubAct_acts (answer : RillOp → Mrsp) (effect : RillOp → State → State) (hn : stubReason s o k = 0) :
    ∃ d f, stubAct o.op k g answer effect s = addReply g { answer o with origin := .router k, digest := d, flags := f } [k]
      (effect o (drawFree (markActed g k s))) := by
  obtain ⟨ho, hs, hk, ha, hr, hp, h1, h2⟩ := ht
  have hn' : (stubReason (onOp g (fun o => { o with acted := o.acted ++ [k] }) s) o k != 0) = false := bne_eq_false_iff_eq.2 hn
  refine ⟨BitVec.ofNat 64 (Config.freeNat s.boot.freeCount (2 * k)), Config.freeNat s.boot.freeCount (2 * k + 1) % 2 ^ 32, ?_⟩
  unfold stubAct
  simp only [ho, inService, hs, hk, ha, hr, hp, h1, h2, hn', bne_self_eq_false, decide_true, Bool.not_true, List.contains_eq_mem,
    decide_false, Bool.or_self, Bool.false_eq_true, if_false]
  rfl

theorem coreTimeout_answers (hc : coreOp o = true) (hn : stubReason s o k = 0) :
    exec (.coreTimeout k g) s = .next (addReply g (nakMrsp (.router k) [k] 6) [k]
      (elapse ((reachedAt s o k).getD 0 + 1000) (markActed g k s))) := by
  obtain ⟨ho, hs, hk, ha, hr, hp, h1, h2⟩ := ht
  simp only [exec, execCoreTimeout, ho, inService, hs, hk, ha, hr, hp, h1, h2, hc, hn, bne_self_eq_false, decide_true, Bool.not_true,
    List.contains_eq_mem, decide_false, Bool.or_self, Bool.false_eq_true, if_false]
  rfl

end

theorem coreTimeout_idle {s : State} {k g : Nat} {o : RillOp} (ho : flightOp s g = some o)
    (h : coreOp o = false ∨ stubReason s o k ≠ 0) : exec (.coreTimeout k g) s = .next s := by
  simp only [exec, execCoreTimeout, ho]
  refine congrArg Host.Outcome.next (if_pos ?_)
  rcases h with h | h <;> simp [h]

/-! The centre: replies and timeouts (02 R49, R60) -/

theorem rillReply_stray (s : State) (g : Nat) (hs : s.rill.inService = true) (h : ∀ o ∈ s.rill.ops, o.tag ≠ g) :
    exec (.rillReply (g, true)) s = .next { s with rill := { s.rill with stray := s.rill.stray + 1 } } := by
  have hf : flightOp s g = none := by
    unfold flightOp
    rw [List.find?_eq_none.2 (by simpa using h)]
    rfl
  have ha : s.rill.ops.any (fun o => o.tag == g) = false := by
    rw [List.any_eq_false]
    simpa using h
  simp only [exec, execRillReply, when, inService, hs, hf, ha, Bool.not_true, Bool.false_eq_true, if_true, if_false, onRill]

theorem rillReply_bad (s : State) (g : Nat) (hs : s.rill.inService = true) :
    exec (.rillReply (g, false)) s = .next { s with rill := { s.rill with
      crcBad := s.rill.crcBad + 1
      ops := s.rill.ops.map (fun x => if x.tag == g then { x with partials := [], counted := [] } else x) } } := by
  simp only [exec, execRillReply, when, inService, hs, Bool.not_false, if_true, onRill, onOp]

/-- The reply of a unicast that is not stale for the first time. -/
theorem rillReply_unicast (s : State) (g : Nat) (o : RillOp) (p : Mrsp) (r : List Mrsp) (hs : s.rill.inService = true)
    (ho : flightOp s g = some o) (hm : o.multi = false) (hp : o.partials = p :: r) (h3 : p.nak ≠ 0 → p.firstReason ≠ 3) :
    exec (.rillReply (g, true)) s = .next (if p.nak = 0 then nextPacket o p s
      else endOp o (reasonStatus p.firstReason) (detail (rillReason true p.firstReason o.target)) s) := by
  have hn : (if p.nak = 0 then nextPacket o p s else if (decide (p.firstReason = 3) && !o.staleResent) = true then retryStale o s
      else endOp o (reasonStatus p.firstReason) (detail (rillReason true p.firstReason o.target)) s) =
      if p.nak = 0 then nextPacket o p s
      else endOp o (reasonStatus p.firstReason) (detail (rillReason true p.firstReason o.target)) s := by
    split
    · rfl
    · next h => rw [decide_eq_false (h3 h), Bool.false_and, if_neg Bool.false_ne_true]
  simp only [exec, execRillReply, when, inService, hs, ho, hm, hp, Bool.not_true, Bool.false_eq_true, if_true, if_false]
  exact congrArg Host.Outcome.next hn

theorem nextPacket_read (s : State) (o : RillOp) (p : Mrsp) (hop : o.op = 1) (hl : o.length ≤ packetLen o) :
    nextPacket o p s = endOp o .ok (o.data ++ p.data) s := by
  simp only [nextPacket, hop, hl, if_true]

theorem nextPacket_write (s : State) (o : RillOp) (p : Mrsp) (hop : o.op = 2) (hl : o.data.length ≤ packetLen o) :
    nextPacket o p s = endOp o .ok [] s := by
  simp [nextPacket, hop, hl]

/-- A READ or CENSUS without a reply goes out once more. -/
theorem responseTimeout_resends (s : State) (g : Nat) (o : RillOp) (hs : s.rill.inService = true) (ho : flightOp s g = some o)
    (hop : o.op = 1 ∨ o.op = 5) (hr : o.resent = false) :
    exec (.rillResponseTimeout 0 g) s =
      .next (resendOp { o with resent := true } (elapse (o.sentAt + s.time.rillTmo * 1000) s)) := by
  have hc : ((o.op == 1 || o.op == 5) && !o.resent) = true := by
    rcases hop with h | h <;> simp [h, hr]
  simp only [exec, execRillResponseTimeout, when, inService, hs, ho, hc, if_true]

theorem responseTimeout_ends (s : State) (g : Nat) (o : RillOp) (hs : s.rill.inService = true) (ho : flightOp s g = some o)
    (hop : (o.op ≠ 1 ∧ o.op ≠ 5) ∨ o.resent = true) (hm : o.multi = false) :
    exec (.rillResponseTimeout 0 g) s = .next (endOp o .timeout (detail (rillReason true 9 o.target))
      (elapse (o.sentAt + s.time.rillTmo * 1000) s)) := by
  have hc : ((o.op == 1 || o.op == 5) && !o.resent) = false := by
    rcases hop with ⟨h1, h5⟩ | h
    · simp [h1, h5]
    · simp [h]
  simp only [exec, execRillResponseTimeout, when, inService, hs, ho, hc, hm, Bool.false_eq_true, if_true, if_false]

/-- A still census without an answer (04 R135). -/
theorem responseTimeout_census (s : State) (e : Confirm) (hs : s.rill.inService = true)
    (he : s.root.confirm.find? (fun e => !e.failed) = some e) :
    exec (.rillResponseTimeout 1 0) s = .next (failCensus e.act
      (elapse (e.repeatAt.getD (e.act.tick + 1000) + 2 * s.time.rillTmo * 1000) s)) := by
  simp only [exec, execRillResponseTimeout, when, inService, hs, he, if_true]

theorem responseTimeout_failed (s : State) (hs : s.rill.inService = true) (h : ∀ e ∈ s.root.confirm, e.failed = true) :
    exec (.rillResponseTimeout 1 0) s = .next s := by
  have hf : s.root.confirm.find? (fun e => !e.failed) = none := by
    rw [List.find?_eq_none]
    intro e he
    simp [h e he]
  simp only [exec, execRillResponseTimeout, when, inService, hs, hf, if_true]

/-! Partners of the centre (12 R368) -/

/-- A shim counts a failed request; the second in a row loses it. -/
def missShim (f : Nat) (s : State) : State :=
  onShim f (fun q => { q with fails := q.fails + 1, lost := decide (1 ≤ q.fails) }) s

theorem responseTimeout_shim (s : State) (f : Nat) (hs : s.rill.inService = true) (hf : f < numFields) (hl : (shimOf s f).lost = false) :
    exec (.rillResponseTimeout 2 f) s = .next (if (shimOf (missShim f s) f).lost then loseDie (missShim f s) else missShim f s) := by
  simp only [exec, execRillResponseTimeout, when, inService, hs, shimFails, hf, hl, decide_true, Bool.not_true, Bool.or_self,
    Bool.false_eq_true, if_true, if_false]
  rfl

theorem missShim_spec (s : State) (f : Nat) (hf : f < numFields) :
    OnlyShim s (missShim f s) f ∧
      shimOf (missShim f s) f = { shimOf s f with fails := (shimOf s f).fails + 1, lost := decide (1 ≤ (shimOf s f).fails) } := by
  refine ⟨⟨?_, fun u hu => ?_⟩, ?_⟩
  · unfold missShim onShim
    split <;> rfl
  · unfold missShim
    rw [shimOf_onShim, if_neg (fun h => hu h.2)]
  · unfold missShim
    rw [shimOf_onShim, if_pos ⟨hf, rfl⟩]

/-- A lost die whose class 7 the root does not take: a recovery in progress alone remembers it. -/
theorem loseDie_disabled (s : State) (h : s.alarm.enabled = false) :
    loseDie s = onRec (fun r => { r with dieLoss := recRuns s }) s := by
  have hr : raiseClass 7 (onRec (fun r => { r with dieLoss := true }) s) = onRec (fun r => { r with dieLoss := true }) s := by
    unfold raiseClass acceptClasses
    exact if_pos (by simp [onRec, h])
  unfold loseDie
  rw [hr]
  show (if recRuns s then _ else _) = _
  cases recRuns s <;> rfl

theorem shimTimeout_first (s : State) (f : Nat) (hs : s.rill.inService = true) (hf : f < numFields) (hl : (shimOf s f).lost = false)
    (h0 : (shimOf s f).fails = 0) : exec (.rillResponseTimeout 2 f) s = .next (missShim f s) := by
  rw [responseTimeout_shim s f hs hf hl, (missShim_spec s f hf).2, h0]
  rfl

theorem shimTimeout_second (s : State) (f : Nat) (hs : s.rill.inService = true) (hf : f < numFields) (hl : (shimOf s f).lost = false)
    (h1 : (shimOf s f).fails = 1) (hd : s.alarm.enabled = false) :
    exec (.rillResponseTimeout 2 f) s = .next (onRec (fun r => { r with dieLoss := recRuns s }) (missShim f s)) := by
  obtain ⟨⟨hframe, -⟩, hmiss⟩ := missShim_spec s f hf
  have hr : (missShim f s).alarm = s.alarm ∧ recRuns (missShim f s) = recRuns s := by
    constructor
    · exact (congrArg State.alarm hframe).trans rfl
    · exact (congrArg recRuns hframe).trans rfl
  rw [responseTimeout_shim s f hs hf hl, hmiss, h1, loseDie_disabled _ (by rw [hr.1, hd]), hr.2]
  rfl

/-! The last flit of a request leaves the Rill at its tile's router (02 R47, R48) -/

/-- The one packet in the Rill is a request at a router, whose last flit is about to go to the router's own tile. -/
structure Leaving (s : State) (f : Flow) (r : Nat) : Prop where
  weirs : s.rill.weirs = []
  flows : s.rill.flows = [f]
  node : f.node = .router r
  port : f.port ≤ 5
  keep : f.drop = false
  whole : f.got = pktFlits f.pkt
  last : f.gone + 1 = pktFlits f.pkt
  out : f.out = 0
  kind : f.pkt.kind = 0

namespace Leaving

variable {s : State} {f : Flow} {r : Nat}

theorem gone_ne (h : Leaving s f r) : f.gone ≠ 0 := by
  have := h.last
  unfold pktFlits at this
  omega

theorem flowVc_eq (h : Leaving s f r) : flowVc f = 0 := by
  unfold flowVc
  rw [h.kind]
  rfl

theorem flowOut_eq (h : Leaving s f r) : flowOut s f = 0 := by
  have := h.gone_ne
  simp [flowOut, this, h.out]

theorem credit (h : Leaving s f r) (vc : Nat) : creditFor s f.node 0 vc = 4 := by
  rw [h.node]
  rfl

theorem ready (h : Leaving s f r) : flowReady s f = true := by
  have hflit : f.gone < f.got := by
    have h1 := h.last
    have h2 := h.whole
    omega
  simp [flowReady, h.flowOut_eq, h.flows, h.keep, h.credit, h.flowVc_eq, inBuf, h.gone_ne, hflit]

/-- The router serves the packet at the port to its tile, and no other port has one to serve. -/
theorem served_eq (h : Leaving s f r) (o : Nat) : served s [f] o = if o = 0 then some f else none := by
  unfold served
  by_cases ho : o = 0
  · subst ho
    have hg : grantVc (now s / 2) (fun v => [f].any (fun g => flowVc g == v)) = some 0 := by
      unfold grantVc
      extract_lets v
      have hv : v ≠ 0 := by
        unfold v
        split_ifs <;> decide
      simp [h.flowVc_eq, hv.symm, List.range_succ]
    simp only [List.filter_cons, h.flowOut_eq, beq_self_eq_true, if_true, List.filter_nil, hg]
    have hp : (fun p => [f].find? (fun g => flowVc g == 0 && g.port == p)) = fun p => if f.port = p then some f else none := by
      funext p
      by_cases hp : f.port = p <;> simp [h.flowVc_eq, hp]
    rw [hp]
    have := h.port
    interval_cases f.port <;> rfl
  · have hf : [f].filter (fun g => flowOut s g == o) = [] := by simp [h.flowOut_eq, Ne.symm ho]
    have hg : grantVc (now s / 2) (fun _ => false) = none := rfl
    simp only [hf, if_neg ho, List.any_nil, hg]

theorem moves_eq (h : Leaving s f r) : moves s = [(f, 0, 1)] := by
  have hg : f.got - f.gone = 1 := by
    have h1 := h.last
    have h2 := h.whole
    omega
  have hl : linkRate f.node 0 = 1 := by rw [h.node]; rfl
  simp [moves, h.flows, h.ready, h.served_eq, List.range_succ, List.eraseDups_cons, hg, hl, h.credit]

/-- The state once the packet has left its buffer and the credits for its last flit are on their way. -/
def left (f : Flow) (s : State) : State :=
  returnCredit f.node f.port (flowVc f) 1 (onFlow f.id f.node (fun g => { g with gone := g.gone + 1, out := 0 }) s)

theorem rillCycle_eq (h : Leaving s f r) : rillCycle s = deliver f.node f.port 0 f.pkt (left f s) := by
  have ht : turnWeirs s = s := by simp [turnWeirs, h.weirs]
  have hone : onFlow f.id f.node (fun g => { g with got := g.got + 0 }) s = s := by
    have hlast := h.last
    have hm : ((s.rill.flows.map (fun g => if g.id == f.id && g.node == f.node then { g with got := g.got + 0 } else g)).filter
        (fun g => g.gone != pktFlits g.pkt)) = s.rill.flows := by
      have hne : f.gone ≠ pktFlits f.pkt := by omega
      simp [h.flows, hne]
    unfold onFlow onRill
    dsimp only
    rw [hm]
  have hf : feedFlow f s = s := by
    unfold feedFlow
    extract_lets ahead room
    split
    · rfl
    · have hz : min (linkRate f.node f.port) (min (pktFlits f.pkt - f.got) room) = 0 := by simp [h.whole]
      rw [hz]
      exact hone
  have hd : drainFlow f s = s := by simp [drainFlow, h.keep]
  have hlink : linkTo f.node 0 = none := by rw [h.node]; rfl
  unfold rillCycle
  simp only [ht, h.flows, List.foldl_cons, List.foldl_nil, hf, hd, h.moves_eq]
  unfold moveFlits
  simp only [hlink, h.last, if_true]
  rfl

theorem returnCredit_rill (n : Node) (p vc k : Nat) (s : State) :
    (returnCredit n p vc k s).rill = { s.rill with weirs := (returnCredit n p vc k s).rill.weirs } := by
  unfold returnCredit
  split
  · split <;> rfl
  · rfl

theorem returnCredit_tiles (n : Node) (p vc k : Nat) (s : State) : (returnCredit n p vc k s).tiles = s.tiles := by
  unfold returnCredit
  split
  · split <;> rfl
  · rfl

theorem left_rill (h : Leaving s f r) : (left f s).rill.flows = [] ∧ (left f s).rill.delivered = s.rill.delivered ∧
    (left f s).rill.nextPkt = s.rill.nextPkt ∧ (left f s).tiles = s.tiles := by
  unfold left
  rw [returnCredit_tiles, returnCredit_rill]
  refine ⟨?_, rfl, rfl, rfl⟩
  simp [onFlow, onRill, h.flows, h.last]

/-- A request that the stub takes is delivered to the tile's agent. -/
theorem rillCycle_delivers (h : Leaving s f r) (hc : f.pkt.crcOk = true) (hk : pktRefusal (tileOf s r) f.pkt = 0) :
    (rillCycle s).rill.flows = [] ∧ (rillCycle s).rill.delivered = s.rill.delivered ++ [(.router r, 0, f.pkt)] := by
  obtain ⟨hf, hd, -, ht⟩ := h.left_rill
  have hk' : pktRefusal (tileOf (left f s) r) f.pkt = 0 := by rw [tileOf_of_tiles ht, hk]
  have he : rillCycle s = addDelivered (.router r) 0 f.pkt (left f s) := by
    rw [h.rillCycle_eq, h.node]
    simp [deliver, hc, hk']
  rw [he]
  simp only [addDelivered, onRill, hf, hd, and_self]

/-- A request that the stub refuses is answered by a reply that enters the router. -/
theorem rillCycle_refuses (h : Leaving s f r) (hc : f.pkt.crcOk = true) (hk : pktRefusal (tileOf s r) f.pkt ≠ 0)
    (ha : (tileOf s r).power.answers = true) :
    (rillCycle s).rill.delivered = s.rill.delivered ∧ (rillCycle s).rill.flows = [{
      id := s.rill.nextPkt
      node := .router r
      pkt := reasonRsp (left f s) r (pktRefusal (tileOf s r) f.pkt) f.pkt
      feed := true }] := by
  obtain ⟨hf, hd, hn, ht⟩ := h.left_rill
  have hk' : pktRefusal (tileOf (left f s) r) f.pkt = pktRefusal (tileOf s r) f.pkt := by rw [tileOf_of_tiles ht]
  have ha' : (tileOf (left f s) r).power.answers = true := by rw [tileOf_of_tiles ht, ha]
  have he : rillCycle s =
      enterFlow (.router r) 0 (reasonRsp (left f s) r (pktRefusal (tileOf s r) f.pkt) f.pkt) (left f s) := by
    rw [h.rillCycle_eq, h.node]
    simp [deliver, hc, hk', hk, ha', h.kind]
  rw [he]
  simp only [enterFlow, onRill, hf, hd, hn, List.nil_append, and_self]

end Leaving

theorem pktRefusal_lt (x : Tile) (p : Packet) : pktRefusal x p < 16 := by
  unfold pktRefusal
  split_ifs <;> decide

/-- The reply carries its reason (02 R46). -/
theorem pktReason_reasonRsp (s : State) (r k : Nat) (p : Packet) (hk : k < 16) : pktReason (reasonRsp s r k p) = k := by
  simp only [pktReason, reasonRsp, bits, pack, List.foldl_cons, List.foldl_nil, BitVec.toNat_ofNat]
  omega

/-- The cycle in which the packet leaves: hub time steps to an even tick, and nothing else changes before it. -/
theorem step_leaving {s : State} {f : Flow} {r : Nat} (h : Leaving s f r) (hp : s.pending = []) (hs : s.rill.inService = true)
    (hr : s.time.running = true) (hn : s.txn.pressed = false) (ho : now s % 2 = 1) :
    ∃ u, step s = .next (rillCycle u) ∧ u.rill = s.rill ∧ u.tiles = s.tiles := by
  have ht : tick s = onTime (fun x => { x with hub := (x.hub + 1) % 2 ^ 64 }) s := by
    unfold tick reachTick
    rw [if_pos hr]
    exact if_neg (by simp [onTime, hn])
  have he : now (tick s) % 2 = 0 := by
    rw [ht]
    show (now s + 1) % 2 ^ 64 % 2 = 0
    omega
  have hrill : (tick s).rill = s.rill := by rw [ht]; rfl
  have hrun : (tick s).time.running = true := by rw [ht]; exact hr
  refine ⟨tick s, ?_, hrill, by rw [ht]; rfl⟩
  unfold step rillTick
  rw [hp]
  refine congrArg Host.Outcome.next (if_pos ?_)
  simp [inService, hrill, hs, hrun, he, h.flows]

theorem Leaving.of_rill {s u : State} {f : Flow} {r : Nat} (h : Leaving s f r) (hu : u.rill = s.rill) : Leaving u f r :=
  { h with
    weirs := by rw [hu, h.weirs]
    flows := by rw [hu, h.flows] }

/-- An operation outside the OP table is refused with reason 7. -/
theorem pktRefusal_reserved (x : Tile) (p : Packet) (ho : 9 < pktOp p ∨ pktOp p = 0) (hl : pktLchk p = false)
    (hc : pktCchk p = false) : pktRefusal x p = 7 := by
  have h : (decide (pktOp p = 0) || decide (9 < pktOp p)) = true := by simpa using ho.symm
  simp only [pktRefusal, hl, hc, Bool.false_and, Bool.false_eq_true, if_false, h, if_true]

/-! The clauses of OperationsAnswer -/

/-- What a write of tile SRAM stores. -/
def storeSram (o : RillOp) (x : Tile) : Tile :=
  { x with engine := { x.engine with sram := storeBytes 0 x.engine.sram o.offset (o.data.take (packetLen o)) } }

section
variable {s : State} {k g : Nat} {o : RillOp} (ht : Takes s k g o)
include ht

/-- What a stub answers with a reason is gathered, and nothing else changes. -/
theorem stubAct_refuses_spec (answer : RillOp → Mrsp) (effect : RillOp → State → State) (hn : stubReason s o k ≠ 0) :
    { stubAct o.op k g answer effect s with rill := s.rill } = s ∧
      (stubAct o.op k g answer effect s).rill = { s.rill with ops := s.rill.ops.map (fun x =>
        if x.tag == g then gathered k (nakMrsp (.router k) [k] (stubReason s o k)) x else x) } := by
  rw [stubAct_refuses ht answer effect hn]
  exact ⟨rfl, addReply_rill _ _ rfl⟩

/-- An answer that changes nothing at its tile: the free words of the reply are drawn and the reply is gathered. -/
theorem stubAct_answers_spec (answer : RillOp → Mrsp) (hn : stubReason s o k = 0) :
    ∃ p, { stubAct o.op k g answer (fun _ s => s) s with rill := s.rill } = drawFree s ∧
      (stubAct o.op k g answer (fun _ s => s) s).rill = { s.rill with ops := s.rill.ops.map (fun x =>
        if x.tag == g then gathered k p x else x) } ∧
      p.ok = (answer o).ok ∧ p.nak = (answer o).nak ∧ p.data = (answer o).data ∧ p.list = (answer o).list := by
  obtain ⟨d, f, he⟩ := stubAct_acts ht answer (fun _ s => s) hn
  refine ⟨{ answer o with origin := .router k, digest := d, flags := f }, ?_⟩
  rw [he]
  exact ⟨rfl, addReply_rill _ _ rfl, rfl, rfl, rfl, rfl⟩

/-- A write to tile SRAM, carried out whole and answered. -/
theorem stubWrite_sram (hop : o.op = 2) (hsp : o.space = 3) (hn : stubReason s o k = 0) :
    ∃ t p, exec (.stubWrite k g) s = .next t ∧ { t with rill := s.rill, tiles := s.tiles } = drawFree s ∧
      t.rill = { s.rill with ops := s.rill.ops.map (fun x => if x.tag == g then gathered k p x else x) } ∧ p.ok = 1 ∧ p.nak = 0 ∧
      (∀ u, u ≠ k → tileOf t u = tileOf s u) ∧
      tileOf t k = { tileOf s k with engine := { (tileOf s k).engine with
        sram := storeBytes 0 (tileOf s k).engine.sram o.offset (o.data.take (packetLen o)) } } := by
  obtain ⟨d, f, he⟩ := stubAct_acts ht (fun _ => { ok := 1 }) (writeTile k) hn
  rw [hop] at he
  have hw : writeTile k o (drawFree (markActed g k s)) = onTile k (storeSram o) (drawFree (markActed g k s)) := if_pos hsp
  rw [hw] at he
  have hself : tileOf (onTile k (storeSram o) (drawFree (markActed g k s))) k = storeSram o (tileOf s k) := tileOf_onTile_self _ _ ht.tile
  have honly := onTile_onlyTile k (storeSram o) (drawFree (markActed g k s))
  generalize onTile k (storeSram o) (drawFree (markActed g k s)) = u at he hself honly
  refine ⟨_, _, congrArg Host.Outcome.next he, ?_, addReply_rill _ _ honly.rill, rfl, rfl, honly.2, hself⟩
  have hframe := congrArg (fun w : State => { w with rill := s.rill }) honly.1
  exact hframe

/-- A write to registers, carried out whole. -/
theorem stubWrite_regs (hop : o.op = 2) (hsp : o.space ≠ 3) (hn : stubReason s o k = 0) :
    ∃ t, exec (.stubWrite k g) s = .next t ∧
      t.tiles = (writeRegs (agentWrite k) o.offset (o.data.take (packetLen o)) (drawFree (markActed g k s))).tiles := by
  obtain ⟨d, f, he⟩ := stubAct_acts ht (fun _ => { ok := 1 }) (writeTile k) hn
  rw [hop] at he
  refine ⟨_, congrArg Host.Outcome.next he, ?_⟩
  have hw : writeTile k o (drawFree (markActed g k s)) =
      writeRegs (agentWrite k) o.offset (o.data.take (packetLen o)) (drawFree (markActed g k s)) := if_neg hsp
  rw [hw]
  rfl

theorem coreTimeout_spec (hc : coreOp o = true) (hn : stubReason s o k = 0) :
    ∃ t, exec (.coreTimeout k g) s = .next t ∧ t.tiles = s.tiles ∧ now t = now (elapse ((reachedAt s o k).getD 0 + 1000) s) ∧
      t.rill = { s.rill with ops := s.rill.ops.map (fun x =>
        if x.tag == g then gathered k (nakMrsp (.router k) [k] 6) x else x) } := by
  refine ⟨_, coreTimeout_answers ht hc hn, elapse_tiles _ _, ?_, addReply_rill _ _ (elapse_rill _ _)⟩
  show now (elapse _ (markActed g k s)) = _
  rw [now_elapse, now_elapse]
  rfl

end

/-- The operation sent again under a new tag, with hub time at the timeout; nothing is sent to the host. -/
theorem resendOp_spec (o : RillOp) (s : State) :
    sent (resendOp o s) = sent s ∧ (resendOp o s).rill.ops = s.rill.ops.filter (fun x => x.tag != o.tag) ++ [{ o with
      tag := s.rill.nextTag
      mapEpoch := s.mapEpoch
      sentAt := now s
      partials := []
      counted := []
      dropped := []
      acted := [] }] := ⟨rfl, rfl⟩

/-- Settles O46: what a stub answers to an operation, how a request leaves the Rill, and how the centre ends an operation. -/
theorem operationsAnswer : Obligations.OperationsAnswer := by
  unfold Obligations.OperationsAnswer
  refine ⟨?_, ?_, ?_, rillReply_stray, rillReply_bad, ?_, ?_, ?_⟩
  · intro s k g o ho h
    refine ⟨congrArg Host.Outcome.next (stubAct_done _ _ _ ho h), congrArg Host.Outcome.next (stubAct_done _ _ _ ho h),
      congrArg Host.Outcome.next (stubAct_done _ _ _ ho h), coreTimeout_done ho h⟩
  · intro s k g o ho hs hk ha hr hp h1 h2 answered acts drew
    have ht : Takes s k g o := ⟨ho, hs, hk, ha, hr, hp, h1, h2⟩
    refine ⟨fun hn => ?_, fun hn => ⟨fun hop => ?_, fun hop => ?_, ?_, ?_⟩, ?_, coreTimeout_idle ho⟩
    · intro done
      have h := fun answer effect => stubAct_refuses_spec ht answer effect hn
      refine ⟨fun hop => ⟨_, rfl, ?_⟩, fun hop => ⟨_, rfl, ?_⟩, fun hop => ⟨_, rfl, ?_⟩⟩ <;> rw [← hop] <;> exact h _ _
    · obtain ⟨p, hf, hg, h1, h2, h3, -⟩ := stubAct_answers_spec ht
        (fun o => { ok := 1, data := readTile s k o }) hn
      rw [hop] at hf hg
      exact ⟨_, p, rfl, hf, hg, h1, h2, h3⟩
    · obtain ⟨p, hf, hg, h1, h2, -, h4⟩ := stubAct_answers_spec ht
        (fun o => if meetsCensus s k o then { ok := 1, list := [k] } else {}) hn
      rw [hop] at hf hg
      refine ⟨_, p, rfl, hf, hg, ?_⟩
      rw [h1, h2, h4]
      split <;> exact ⟨rfl, rfl, rfl⟩
    · exact fun hop hsp => stubWrite_sram ht hop hsp hn
    · exact fun hop hsp => stubWrite_regs ht hop hsp hn
    · exact fun hc hn => coreTimeout_spec ht hc hn
  · rintro s f r p hp hs hr hn hodd hw hfl hnode hport rfl hdrop hgot hgone hout hkind hcrc
    have h : Leaving s f r := ⟨hw, hfl, hnode, hport, hdrop, hgot, hgone, hout, hkind⟩
    obtain ⟨u, hstep, hrill, htiles⟩ := step_leaving h hp hs hr hn hodd
    have hu : Leaving u f r := h.of_rill hrill
    have ht : tileOf u r = tileOf s r := tileOf_of_tiles htiles r
    refine ⟨fun hk => ?_, fun hk ha => ?_, pktRefusal_reserved _ _⟩
    · obtain ⟨h1, h2⟩ := hu.rillCycle_delivers hcrc (by rw [ht, hk])
      exact ⟨_, hstep, h1, by rw [h2, hrill]⟩
    · obtain ⟨h1, h2⟩ := hu.rillCycle_refuses hcrc (by rw [ht]; exact hk) (by rw [ht, ha])
      rw [ht, hrill] at h2
      exact ⟨_, _, hstep, by rw [h1, hrill], h2, rfl, rfl, rfl, pktReason_reasonRsp _ _ _ _ (pktRefusal_lt _ _)⟩
  · intro s g o p r h hs ho hm hp hh
    obtain ⟨-, hg⟩ := flightOp_spec ho
    refine ⟨fun hn hop hl => ?_, fun hn hop hl => ?_, fun hn h3 => ?_⟩
    · have he := rillReply_unicast s g o p r hs ho hm hp (fun h => absurd hn h)
      rw [if_pos hn, nextPacket_read s o p hop hl] at he
      obtain ⟨h1, h2, h3⟩ := endOp_spec o .ok (o.data ++ p.data) s h hh
      exact ⟨_, he, h1, hg ▸ h2, h3⟩
    · have he := rillReply_unicast s g o p r hs ho hm hp (fun h => absurd hn h)
      rw [if_pos hn, nextPacket_write s o p hop hl] at he
      obtain ⟨h1, h2, -⟩ := endOp_spec o .ok [] s h hh
      exact ⟨_, he, h1, hg ▸ h2⟩
    · have he := rillReply_unicast s g o p r hs ho hm hp (fun _ => h3)
      rw [if_neg hn] at he
      obtain ⟨h1, h2, -⟩ := endOp_spec o (reasonStatus p.firstReason) (detail (rillReason true p.firstReason o.target)) s h hh
      exact ⟨_, he, hg ▸ h2, h1⟩
  · intro s g o hs ho e
    obtain ⟨-, hg⟩ := flightOp_spec ho
    have hrill : e.rill = s.rill := elapse_rill _ _
    refine ⟨fun hop hr => ?_, fun h hh hop hm => ?_⟩
    · obtain ⟨h1, h2⟩ := resendOp_spec { o with resent := true } e
      refine ⟨_, responseTimeout_resends s g o hs ho hop hr, h1.trans (elapse_sent _ _), ?_⟩
      rw [h2, hrill, ← hg]
    · obtain ⟨h1, h2, -⟩ := endOp_spec o .timeout (detail (rillReason true 9 o.target)) e h hh
      refine ⟨_, responseTimeout_ends s g o hs ho hop hm, ?_, h1.of_same (elapse_sent _ _) (elapse_sess _ _)⟩
      rw [h2, hrill, hg]
  · intro s hs
    refine ⟨fun e he => ⟨_, responseTimeout_census s e hs he, rfl⟩, responseTimeout_failed s hs, fun f hf hl => ?_⟩
    obtain ⟨hshim, hmiss⟩ := missShim_spec s f hf
    refine ⟨fun h0 => ⟨_, shimTimeout_first s f hs hf hl h0, hshim, ?_⟩, fun h1 hd =>
      ⟨_, shimTimeout_second s f hs hf hl h1 hd, ?_, rfl⟩⟩
    · have hlost : decide (1 ≤ 0) = (shimOf s f).lost := by rw [hl]; rfl
      rw [hmiss, h0, hlost]
    · exact (congrArg Shim.lost hmiss).trans (by rw [h1]; rfl)

end Sys2Proof.Machine
end

section
/-! The cycle of an empty queue (03 R84): hub time passes and the Rill's links move flits. -/

namespace Sys2Proof.Machine

/-! The passing of hub time -/

/-- Outside a press whose centre's part is still to be done, hub time is all that its passing changes. -/
theorem reachTick_idle {s : State} (h : s.txn.pressed = false ∨ s.txn.centreDone = true) : reachTick s = s := by
  have hc : (s.txn.pressed && !s.txn.centreDone) = false := by rcases h with h | h <;> simp [h]
  unfold reachTick
  rw [hc, Bool.false_and, if_neg Bool.false_ne_true]

theorem elapse_idle {s : State} (n : Nat) (h : s.txn.pressed = false ∨ s.txn.centreDone = true) :
    elapse n s = if s.time.running ∧ now s < n then { s with time := { s.time with hub := n % 2 ^ 64 } } else s := by
  have hr : reachTick (onTime (fun x => { x with hub := n % 2 ^ 64 }) s) = onTime (fun x => { x with hub := n % 2 ^ 64 }) s :=
    reachTick_idle h
  unfold elapse
  rw [hr]
  simp only [Bool.and_eq_true, decide_eq_true_eq]
  rfl

theorem tick_idle {s : State} (h : s.txn.pressed = false ∨ s.txn.centreDone = true) :
    tick s = if s.time.running then { s with time := { s.time with hub := (s.time.hub + 1) % 2 ^ 64 } } else s := by
  have hr : reachTick (onTime (fun x => { x with hub := (x.hub + 1) % 2 ^ 64 }) s) =
      onTime (fun x => { x with hub := (x.hub + 1) % 2 ^ 64 }) s := reachTick_idle h
  unfold tick
  rw [hr]
  rfl

@[simp] theorem reachTick_time (s : State) : (reachTick s).time = s.time := by
  unfold reachTick
  split
  · rw [pressCentre_frame]
  · rfl

@[simp] theorem reachTick_tiles (s : State) : (reachTick s).tiles = s.tiles := by
  unfold reachTick
  split
  · rw [pressCentre_frame]
  · rfl

theorem tick_time (s : State) :
    (tick s).time = if s.time.running then { s.time with hub := (s.time.hub + 1) % 2 ^ 64 } else s.time := by
  unfold tick
  split <;> simp

@[simp] theorem tick_tiles (s : State) : (tick s).tiles = s.tiles := by
  unfold tick
  split <;> simp

@[simp] theorem tick_pending (s : State) : (tick s).pending = s.pending := by
  unfold tick
  split <;> simp

/-! What a cycle of the Rill changes at the tiles (02 R45, R49) -/

/-- `t` is `s` after packets moved on the Rill: neither hub time nor the queue of commands has changed, and of a tile at most
its stub's counts and its record of dropped packets. -/
structure Conveyed (s t : State) : Prop where
  time : t.time = s.time
  pending : t.pending = s.pending
  tile : ∀ k, { tileOf t k with hang := (tileOf s k).hang, eddy := (tileOf s k).eddy } = tileOf s k

namespace Conveyed

theorem refl (s : State) : Conveyed s s := ⟨rfl, rfl, fun _ => rfl⟩

theorem trans {s t u : State} (h : Conveyed s t) (g : Conveyed t u) : Conveyed s u where
  time := g.time.trans h.time
  pending := g.pending.trans h.pending
  tile k := by rw [← h.tile k, ← g.tile k]

theorem of_rill (f : RillState → RillState) (s : State) : Conveyed s (onRill f s) := ⟨rfl, rfl, fun _ => rfl⟩

theorem of_tile (k : Nat) (f : Tile → Tile) (s : State) (hf : ∀ x, { f x with hang := x.hang, eddy := x.eddy } = x) :
    Conveyed s (onTile k f s) where
  time := by simp
  pending := by simp
  tile u := by
    rw [tileOf_onTile]
    split
    · next h => rw [h.2, hf]
    · rfl

theorem foldl {α : Type} (f : State → α → State) (hf : ∀ s a, Conveyed s (f s a)) (l : List α) (s : State) :
    Conveyed s (l.foldl f s) := by
  induction l generalizing s with
  | nil => exact refl s
  | cons a l ih => exact (hf s a).trans (ih _)

end Conveyed

theorem recordKind_conveyed (k code kd data : Nat) (s : State) : Conveyed s (recordKind k code kd data s) := by
  unfold recordKind record recordAt
  split
  · split
    · exact .refl s
    · refine .of_tile _ _ _ fun x => ?_
      dsimp only
      split
      · rfl
      · split <;> rfl
  · exact .refl s

theorem dropPacket_conveyed (r port reason : Nat) (p : Packet) (s : State) : Conveyed s (dropPacket r port reason p s) := by
  have hd : Conveyed s (if reason = 0 then drawFree s else s) := by
    split
    · exact ⟨rfl, rfl, fun _ => rfl⟩
    · exact .refl s
  exact (hd.trans (.of_tile r (countDrop reason) _ fun _ => rfl)).trans (recordKind_conveyed _ _ _ _ _)

theorem onFlow_conveyed (id : Nat) (n : Node) (f : Flow → Flow) (s : State) : Conveyed s (onFlow id n f s) := .of_rill _ s

theorem onWeir_conveyed (w : Nat) (f : Weir → Weir) (s : State) : Conveyed s (onWeir w f s) := .of_rill _ s

theorem returnCredit_conveyed (n : Node) (p vc k : Nat) (s : State) : Conveyed s (returnCredit n p vc k s) := by
  unfold returnCredit
  split
  · split
    · exact onWeir_conveyed _ _ s
    · exact .refl s
  · exact .refl s

theorem deliver_conveyed (n : Node) (port o : Nat) (p : Packet) (s : State) : Conveyed s (deliver n port o p s) := by
  unfold deliver
  split
  · split
    · exact dropPacket_conveyed _ _ _ _ s
    · split
      · exact dropPacket_conveyed _ _ _ _ s
      · exact .refl s
    · exact .of_rill _ s
  · split
    · dsimp only
      split
      · split
        · exact .of_rill _ s
        · exact .refl s
      · exact .of_rill _ s
    · exact .of_rill _ s

theorem flowIn_conveyed (id : Nat) (n : Node) (port : Nat) (p : Packet) (k : Nat) (s : State) :
    Conveyed s (flowIn id n port p k s) := by
  unfold flowIn
  split
  · exact onFlow_conveyed _ _ _ s
  · extract_lets bad t
    have ht : Conveyed s t := .of_rill _ s
    clear_value t bad
    split
    · exact ht.trans (dropPacket_conveyed _ _ _ _ t)
    · exact ht

theorem moveFlits_conveyed (m : Flow × Nat × Nat) (s : State) : Conveyed s (moveFlits m s) := by
  unfold moveFlits
  extract_lets f t
  have ht : Conveyed s t := (onFlow_conveyed _ _ _ s).trans (returnCredit_conveyed _ _ _ _ _)
  split
  · split
    · exact ht.trans (deliver_conveyed _ _ _ _ t)
    · exact ht
  · next u _ _ _ _ =>
    have hu : Conveyed s u := ht.trans (.of_rill _ t)
    split
    · exact hu.trans (flowIn_conveyed _ _ _ _ _ u)
    · exact hu.trans (onWeir_conveyed _ _ u)

theorem takeSlot_conveyed (w : Nat) (e : WeirSlot) (s : State) : Conveyed s (takeSlot w e s) := by
  unfold takeSlot
  extract_lets d t
  have ht : Conveyed s t := by
    unfold t
    split
    · exact .refl s
    · split
      · exact .refl s
      · split
        · exact .refl s
        · exact onWeir_conveyed _ _ s
  split
  · exact ht
  · exact ht.trans (flowIn_conveyed _ _ _ _ _ t)

theorem turnWeirs_conveyed (s : State) : Conveyed s (turnWeirs s) :=
  .foldl _ (fun s _ => (onWeir_conveyed _ _ s).trans (takeSlot_conveyed _ _ _)) _ s

theorem feedFlow_conveyed (f : Flow) (s : State) : Conveyed s (feedFlow f s) := by
  unfold feedFlow
  extract_lets ahead room
  split
  · exact .refl s
  · exact onFlow_conveyed _ _ _ s

theorem drainFlow_conveyed (f : Flow) (s : State) : Conveyed s (drainFlow f s) := by
  unfold drainFlow
  split
  · exact (onFlow_conveyed _ _ _ s).trans (returnCredit_conveyed _ _ _ _ _)
  · exact .refl s

theorem rillCycle_conveyed (s : State) : Conveyed s (rillCycle s) := by
  unfold rillCycle
  extract_lets t u v
  have ht : Conveyed s t := turnWeirs_conveyed s
  have hu : Conveyed s u := ht.trans (.foldl _ (fun s f => feedFlow_conveyed f s) _ t)
  have hv : Conveyed s v := hu.trans (.foldl _ (fun s f => drainFlow_conveyed f s) _ u)
  exact hv.trans (.foldl _ (fun s m => moveFlits_conveyed m s) _ v)

theorem rillTick_conveyed (s : State) : Conveyed s (rillTick s) := by
  unfold rillTick
  split
  · exact rillCycle_conveyed s
  · exact .refl s

/-- A Rill that holds nothing stays as it is. -/
theorem rillTick_empty {s : State} (hf : s.rill.flows = []) (hw : ∀ w ∈ s.rill.weirs, weirBusy w.2 = false) :
    rillTick s = s := by
  have hb : s.rill.weirs.any (fun v => weirBusy v.2) = false := by
    rw [List.any_eq_false]
    exact fun w hm => by rw [hw w hm]; exact Bool.false_ne_true
  unfold rillTick
  rw [hf, hb]
  simp

theorem rillTick_stopped {s : State} (h : s.time.running = false) : rillTick s = s := by simp [rillTick, h]

/-! One step -/

theorem step_empty {s : State} (h : s.pending = []) : step s = .next (rillTick (tick s)) := by simp only [step, h]

/-- The cycle of an empty queue. -/
theorem step_empty_conveyed {s : State} (h : s.pending = []) :
    ∃ t, step s = .next t ∧ Conveyed (tick s) t := ⟨_, step_empty h, rillTick_conveyed _⟩

theorem step_empty_idle {s : State} (hp : s.txn.pressed = false ∨ s.txn.centreDone = true) (h : s.pending = [])
    (hf : s.rill.flows = []) (hw : ∀ w ∈ s.rill.weirs, weirBusy w.2 = false) :
    step s = .next (if s.time.running then { s with time := { s.time with hub := (s.time.hub + 1) % 2 ^ 64 } } else s) := by
  rw [step_empty h, tick_idle hp]
  split
  · exact congrArg Host.Outcome.next (rillTick_empty hf hw)
  · exact congrArg Host.Outcome.next (rillTick_empty hf hw)

theorem step_empty_stopped {s : State} (h : s.pending = []) (hr : s.time.running = false) : step s = .next s := by
  have ht : tick s = s := by simp [tick, hr]
  rw [step_empty h, ht, rillTick_stopped hr]

/-- Settles O50, by what a cycle of the Rill leaves as it was; the cycle of an empty queue is the model's choice (log 1). -/
theorem stepTakesFront : Obligations.StepTakesFront := by
  refine ⟨fun _ _ _ => rfl, fun s h => ⟨fun hr hp hf hw => ?_, fun hr => ?_, step_empty_stopped h⟩, fun _ _ _ => ⟨rfl, rfl⟩⟩
  · rw [step_empty_idle (.inl hp) h hf hw, if_pos hr]
  · obtain ⟨t, hs, ht⟩ := step_empty_conveyed h
    refine ⟨t, hs, ?_, ?_, fun k => ?_⟩
    · rw [now, ht.time, tick_time, if_pos hr]; rfl
    · rw [ht.pending, tick_pending, h]
    · have hk := ht.tile k
      rwa [tileOf_of_tiles (tick_tiles s)] at hk

/-- Settles O53: each clause is evaluated at the reset state, whose collections are empty. -/
theorem resetHolds : Obligations.ResetHolds := by
  have hc : Canonical State.reset := by
    unfold Canonical mapsWf
    decide
  have hs : SessionsSound State.reset := by
    unfold SessionsSound
    decide
  have ht : ∀ k, (tileOf State.reset k).still.frz = false ∧ (tileOf State.reset k).still.mask = 0 := fun _ => ⟨rfl, rfl⟩
  exact ⟨hc, hs, rfl, rfl, rfl, rfl, rfl, rfl, rfl, rfl, rfl, by decide, rfl, rfl, rfl, rfl, rfl, rfl, rfl, rfl, rfl, rfl, rfl,
    rfl, rfl, rfl, rfl, rfl, rfl, rfl, rfl, rfl, ht, rfl⟩

end Sys2Proof.Machine
end

section
/-! Hub time, marks and the clock sources (03 R84 to R90, R94). -/

namespace Sys2Proof.Machine

/-! Hub time (03 R84) -/

theorem elapse_reaches {s : State} {n : Nat} (hn : n < 2 ^ 64) (hr : s.time.running = true) :
    now (elapse n s) = max (now s) n := by
  rw [now_elapse, hr, Bool.true_and]
  split
  · next h =>
    rw [decide_eq_true_eq] at h
    rw [Nat.mod_eq_of_lt hn, max_eq_right h.le]
  · next h =>
    rw [decide_eq_true_eq, not_lt] at h
    rw [max_eq_left h]

/-- Of the hub's time the passing of hub time changes the count alone. -/
theorem elapse_time (n : Nat) (s : State) : (elapse n s).time = { s.time with hub := now (elapse n s) } := by
  conv_lhs => rw [elapse_frame]
  rfl

/-! Marks (03 R94) -/

theorem timeMarkLaunch_none (s : State) (h : s.time.markTick = none) : exec .timeMarkLaunch s = .next s := by
  simp only [exec, execTimeMarkLaunch, h]

theorem timeMarkLaunch_some (s : State) (m : Nat) (h : s.time.markTick = some m) :
    exec .timeMarkLaunch s = .next { elapse m s with
      time := { (elapse m s).time with markTick := none, markAt := m }
      root := { (elapse m s).root with lastLaunch := m } } := by
  simp only [exec, execTimeMarkLaunch, h]
  rfl

/-- The time of a stub that captures a mark `word`, launched at `launch`, one field delay `d` (in 1/8 ns) before: it loads its
counter if it is `ok`, and is disarmed. -/
def markedTime (ok : Bool) (launch d word : Nat) (x : StubTime) : StubTime :=
  { x with
    off8 := if ok then ((8 * (x.hi * 2 ^ 32 + word % 2 ^ 32 : Int) + x.comp - (8 * launch + d)) % (2 ^ 67 : Int)).toNat else x.off8
    unset := !ok
    compAtMark := if ok then x.comp else x.compAtMark
    armedHi := false
    armedComp := false
    marking := false }

theorem markOffset_word (launch d word : Nat) (x : Tile) : markOffset launch d (wordTick (word % 2 ^ 48)) x =
    ((8 * (x.time.hi * 2 ^ 32 + word % 2 ^ 32 : Int) + x.time.comp - (8 * launch + d)) % (2 ^ 67 : Int)).toNat := by
  have hw : wordTick (word % 2 ^ 48) = word % 2 ^ 32 := by rw [wordTick_eq]; omega
  rw [hw, markOffset]
  push_cast
  rfl

/-- What a mark makes of its tile: the stub's time, MISSED, its eddies and the count of its hang watchdog. -/
theorem timeMark_retiled (s : State) (k word : Nat) (p0 p1 : Bool) (hs : s.rill.inService = true) (hk : k < numTiles) :
    let d := mget 0 s.time.fieldDelay (fieldOf k)
    let x := tileOf s k
    let good := parityOk (word % 2 ^ 48) p0 p1
    ∃ t n m, exec (.timeMark k word (p0, p1)) s = .next t ∧ Retiled (elapse (s.time.markAt + (d + 7) / 8) s) t k { x with
      time := markedTime (good && x.time.armedHi && x.time.armedComp) s.time.markAt d word x.time
      still := { x.still with missed := !good }
      hang := { x.hang with elapsed := n, since := m } } := by
  intro d x good
  have hc : (inService s && decide (k < numTiles)) = true := by simp [inService, hs, hk]
  simp -zeta only [exec, execTimeMark, when, hc, if_true]
  extract_lets w e y old good' ok s1 s2 s3 s4
  have hx : tileOf e k = x := tileOf_elapse _ s k
  have hm : s1.time.markAt = s.time.markAt := by
    unfold s1 e
    rw [onTile_time, elapse_time]
  have h1 : tileOf s1 k = stopHang (stubNow e k) x := hx ▸ tileOf_onTile_self _ e hk
  have h3 : OnlyTile e s3 k := ((onTile_onlyTile k _ e).trans (onTile_onlyTile k _ s1)).trans (onTile_onlyTile k _ s2)
  have hok : ok = (good && x.time.armedHi && x.time.armedComp) := by
    unfold ok y
    rw [hx]
  have h2 : tileOf s2 k = { stopHang (stubNow e k) x with
      time := markedTime ok s.time.markAt d word x.time, still := { x.still with missed := !good } } := by
    refine (tileOf_onTile_self _ s1 hk).trans ?_
    rw [h1, hm, markOffset_word]
    rfl
  have hu : Retiled e s3 k { x with
      time := markedTime ok s.time.markAt d word x.time
      still := { x.still with missed := !good }
      hang := { x.hang with elapsed := hangCount (stubNow e k) x, since := stubNow s2 k } } :=
    ⟨h3, x.eddy, (tileOf_onTile_self _ s2 hk).trans (h2 ▸ rfl)⟩
  rw [← hok]
  refine ⟨_, hangCount (stubNow e k) x, stubNow s2 k, rfl, recordAt_retiled _ _ _ hk ?_⟩
  unfold s4
  split
  · exact hu
  · exact recordAt_retiled _ _ _ hk hu

/-! Clock sources (03 R88 to R90) -/

theorem flockLocked_locks (s : State) (he : s.time.flockEn = true) (hf : s.time.flock = 1 ∨ s.time.flock = 3) :
    exec .flockLocked s = .next { s with time := { s.time with flock := 2, holdSince := none } } := by
  have hc : (s.time.flockEn && (s.time.flock == 1 || s.time.flock == 3)) = true := by rcases hf with h | h <;> simp [he, h]
  simp only [exec, execFlockLocked, hc, when_true]
  rfl

theorem flockLocked_idle (s : State) (h : s.time.flockEn = false ∨ (s.time.flock ≠ 1 ∧ s.time.flock ≠ 3)) :
    exec .flockLocked s = .next s := by
  have hc : (s.time.flockEn && (s.time.flock == 1 || s.time.flock == 3)) = false := by
    rcases h with h | ⟨h1, h3⟩
    · simp [h]
    · simp [h1, h3]
  simp only [exec, execFlockLocked, hc, when_false]

/-- A locked loop enters hold (03 R89). -/
theorem holdLock_eq (s : State) : holdLock s = { s with
    time := if s.time.flock = 2 then { s.time with flock := 3, holdSince := some s.time.hub } else s.time } := by
  unfold holdLock
  split <;> rfl

/-- Block lock lost: a locked loop enters hold (03 R89, 13 R409). -/
theorem loseLock_locked (s : State) (h : s.port.blockLock = true) : loseLock s = { s with
    port := { s.port with blockLock := false, lockLostAt := now s }
    time := if s.time.flock = 2 then { s.time with flock := 3, holdSince := some s.time.hub } else s.time } := by
  rw [loseLock, if_pos h, holdLock_eq]
  rfl

theorem flockHold_holds (s : State) (h : s.time.flock = 2) :
    exec .flockHold s = .next { s with
      time := { s.time with flock := 3, holdSince := some s.time.hub }
      port := if s.port.blockLock then { s.port with blockLock := false, lockLostAt := s.time.hub } else s.port } := by
  simp only [exec, execFlockHold, h, beq_self_eq_true, when_true]
  cases hb : s.port.blockLock
  · rw [if_neg Bool.false_ne_true, holdLock_eq, if_pos h]
    rfl
  · rw [if_pos rfl, loseLock_locked s hb, if_pos h]
    rfl

theorem flockHold_idle (s : State) (h : s.time.flock ≠ 2) : exec .flockHold s = .next s := by
  simp only [exec, execFlockHold, beq_eq_false_iff_ne.2 h, when_false]

/-- A hold that has lasted more than 1 ms is no longer timed, and degrades an alignment to SYSTEM. -/
theorem flockHoldTimeout_ends (s : State) (n : Nat) (hn : s.time.holdSince = some n) (hf : s.time.flock = 3) :
    exec .flockHoldTimeout s = .next (onTime (fun x => { x with holdSince := none }) (degrade (elapse (n + 1000001) s))) := by
  simp only [exec, execFlockHoldTimeout, hn, hf, if_true]

theorem degrade_system {s : State} (h : s.time.align = 2) :
    degrade s = raiseClass 7 { s with time := { s.time with align := 3 } } := by
  simp only [degrade, h, if_true]
  rfl

theorem degrade_other {s : State} (h : s.time.align ≠ 2) : degrade s = s := by simp only [degrade, if_neg h]

theorem align_elapse (n : Nat) (s : State) : (elapse n s).time.align = s.time.align := by rw [elapse_time]

/-! The clauses of TimeMoves -/

theorem timeMark_spec (s : State) (k word : Nat) (p0 p1 : Bool) (hs : s.rill.inService = true) (hk : k < numTiles) :
    let d := mget 0 s.time.fieldDelay (fieldOf k)
    let e := elapse (s.time.markAt + (d + 7) / 8) s
    let x := tileOf s k
    let good := parityOk (word % 2 ^ 48) p0 p1
    ∃ t, exec (.timeMark k word (p0, p1)) s = .next t ∧ { t with tiles := e.tiles } = e ∧
      (∀ u, u ≠ k → tileOf t u = tileOf s u) ∧
      (tileOf t k).time = markedTime (good && x.time.armedHi && x.time.armedComp) s.time.markAt d word x.time ∧
      { tileOf t k with time := x.time, still := x.still, eddy := x.eddy, hang := x.hang } = x ∧
      (tileOf t k).hang = { x.hang with elapsed := (tileOf t k).hang.elapsed, since := (tileOf t k).hang.since } ∧
      (tileOf t k).still = { x.still with missed := !good } := by
  intro d e x good
  obtain ⟨t, n, m, ht, ⟨hrest, hothers⟩, w, hw⟩ := timeMark_retiled s k word p0 p1 hs hk
  refine ⟨t, ht, hrest, fun u hu => (hothers u hu).trans (tileOf_elapse _ s u), ?_⟩
  rw [hw]
  exact ⟨rfl, rfl, rfl, rfl⟩

theorem flockHoldTimeout_other (s : State) (n : Nat) (hn : s.time.holdSince = some n) (hf : s.time.flock = 3)
    (ha : s.time.align ≠ 2) : ∃ e, e = elapse (n + 1000001) s ∧
      exec .flockHoldTimeout s = .next { e with time := { e.time with holdSince := none } } := by
  refine ⟨_, rfl, ?_⟩
  rw [flockHoldTimeout_ends s n hn hf, degrade_other (by rwa [align_elapse])]
  rfl

theorem flockHoldTimeout_system (s : State) (n : Nat) (hn : s.time.holdSince = some n) (hf : s.time.flock = 3)
    (ha : s.time.align = 2) : ∃ e r, e = elapse (n + 1000001) s ∧ r = raiseClass 7 { e with time := { e.time with align := 3 } } ∧
      exec .flockHoldTimeout s = .next { r with time := { r.time with holdSince := none } } := by
  refine ⟨_, _, rfl, rfl, ?_⟩
  rw [flockHoldTimeout_ends s n hn hf, degrade_system (by rwa [align_elapse])]
  rfl

theorem elapse_keeps (n : Nat) (s : State) : let t := elapse n s
    t.tiles = s.tiles ∧ t.sess = s.sess ∧ t.snap = s.snap ∧ t.root = s.root ∧ t.recov = s.recov ∧ t.xspi = s.xspi ∧
      t.rill = s.rill ∧ t.shims = s.shims ∧ t.edges = s.edges ∧ t.pending = s.pending ∧ sent t = sent s := by
  intro t
  have h : t = _ := elapse_frame n s
  rw [h]
  exact ⟨rfl, rfl, rfl, rfl, rfl, rfl, rfl, rfl, rfl, rfl, elapse_sent n s⟩

theorem step_empty_now {s : State} (h : s.pending = []) : ∃ t, step s = .next t ∧
    now t = if s.time.running then (now s + 1) % 2 ^ 64 else now s := by
  obtain ⟨t, hs, ht⟩ := step_empty_conveyed h
  refine ⟨t, hs, ?_⟩
  rw [now, ht.time, tick_time]
  split <;> rfl

/-- Settles O7: hub time by its one rule `elapse`, marks by what a captured word makes of its tile, and the clock sources row by
row. That class 7 is raised at every REFCLK_LOSS is the model's reading (log 102). -/
theorem timeMoves : Obligations.TimeMoves :=
  ⟨⟨fun _ h => step_empty_now h, fun _ hp h => step_empty_idle hp h, fun _ n h => elapse_idle n h, fun _ _ => elapse_reaches,
      fun s n => elapse_keeps n s⟩,
    ⟨fun s m h => ⟨_, timeMarkLaunch_some s m h, rfl⟩, timeMarkLaunch_none, timeMark_spec⟩,
    flockLocked_locks, flockLocked_idle, flockHold_holds, flockHold_idle,
    fun s n hn hf => ⟨flockHoldTimeout_other s n hn hf, flockHoldTimeout_system s n hn hf⟩, fun _ => rfl, fun _ => rfl⟩

end Sys2Proof.Machine
end

section
/-! Exchanging, adjusting and measuring hub time (03 R92, R93, R99, R101, R103). -/

namespace Sys2Proof.Machine

/-! The bookkeeping of requests touches nothing of the time base -/

/-- A press notes that the centre has done its part, and takes the map epoch that the transaction carries. -/
def pressEpoch (x : Txn) (s : State) : State :=
  match epochOf x with
  | some e => { onTxn (fun t => { t with centreDone := true }) s with mapEpoch := e }
  | none => onTxn (fun t => { t with centreDone := true }) s

/-- What the centre changes at a press by the transaction's purpose. -/
def pressPart (purpose : Nat) (s : State) : State :=
  match purpose with
  | 1 => event 15 (switchWatch s)
  | 2 => event 15 (startLedger s.txn.t (markLoaded 2 (onPlans (fun p => { p with cnt := p.cntNext, cntNext := none }) s)))
  | 3 => event 15 (onPlans (fun p => { p with trace := p.traceNext, traceNext := none, traceRemoving := false }) s)
  | _ => s

theorem pressCentre_none {s : State} (h : s.txn.active = none) : pressCentre s = s := by
  unfold pressCentre
  rw [h]

theorem pressCentre_some {s : State} {x : Txn} (h : s.txn.active = some x) :
    pressCentre s = pressPart x.purpose (pressEpoch x s) := by
  unfold pressCentre
  rw [h]
  rfl

theorem event_onSess (n : Nat) (g : SessionState → SessionState) (s : State) : event n (onSess g s) = onSess g (event n s) := rfl

theorem pressPart_onSess (n : Nat) (g : SessionState → SessionState) (s : State) :
    pressPart n (onSess g s) = onSess g (pressPart n s) := by
  unfold pressPart
  split
  · rw [← event_onSess]
    rfl
  · rw [← event_onSess]
    rfl
  · rw [← event_onSess]
    rfl
  · rfl

theorem pressEpoch_onSess (x : Txn) (g : SessionState → SessionState) (s : State) :
    pressEpoch x (onSess g s) = onSess g (pressEpoch x s) := by
  unfold pressEpoch
  split <;> rfl

theorem pressCentre_onSess (g : SessionState → SessionState) (s : State) :
    pressCentre (onSess g s) = onSess g (pressCentre s) := by
  cases h : s.txn.active with
  | none => rw [pressCentre_none h, pressCentre_none (s := onSess g s) h]
  | some x => rw [pressCentre_some h, pressCentre_some (s := onSess g s) h, pressEpoch_onSess, pressPart_onSess]

theorem elapse_onSess (n : Nat) (g : SessionState → SessionState) (s : State) :
    elapse n (onSess g s) = onSess g (elapse n s) := by
  unfold elapse reachTick
  rw [apply_ite (onSess g), apply_ite (onSess g), ← pressCentre_onSess]
  rfl

/-- What moves with the bookkeeping of requests keeps a request taken. -/
theorem Taken.map {s w : State} {h : ReqHdr} (F : State → State) (hF : ∀ g s, F (onSess g s) = onSess g (F s))
    (hs : (F s).sess = s.sess) (hw : Taken s w h) : Taken (F s) (F w) h := by
  obtain ⟨ss, as, c, m, rfl, hss⟩ := hw
  refine ⟨ss, as, c, m, (hF (fun q => { q with
    sessions := ss, outstanding := q.outstanding ++ [h], assembling := as, cache := c, maxReqId0 := m }) s).trans ?_, ?_⟩
  · rw [onSess, hs]
  · rw [hs, hss]

/-- A taken request differs from the state before it in the bookkeeping of requests alone. -/
theorem Taken.eq_onSess {s w : State} {h : ReqHdr} (hw : Taken s w h) : ∃ g, w = onSess g s := by
  obtain ⟨ss, as, c, m, rfl, -⟩ := hw
  exact ⟨fun _ => _, rfl⟩

theorem Answered.rest {u t : State} {op : Nat} {h : ReqHdr} {st : Status} {body : List Byte} (ha : Answered u t op h st body) :
    { t with port := u.port, sess := u.sess } = u := by
  obtain ⟨-, -, ht, -⟩ := ha
  rw [ht]

/-- A request whose conditions hold, and whose effect `F` moves with the bookkeeping of requests, is answered after `F`. -/
theorem effect_request (k : ReqKind) (h : ReqHdr) (checks : ReqHdr → State → List Check) (act : ReqHdr → State → State)
    (s : State) (F : State → State) (body : List Byte) (hr : Ready s h) (ha : Allowed s k h)
    (hc : ∀ as, pick (checks { h with opcode := k.op } { s with sess := { s.sess with assembling := as } }) = none)
    (hF : ∀ g s, F (onSess g s) = onSess g (F s)) (hs : (F s).sess = s.sess)
    (hact : ∀ g, act { h with opcode := k.op } (onSess g s) = respond { h with opcode := k.op } .ok body (F (onSess g s))) :
    ∃ t, request k h checks act s = .next t ∧ Answered (F s) t k.op h .ok body := by
  refine ok_request k h checks act s (F s) .ok body hr ha hc (by rw [hs]) fun w hw => ⟨F w, hw.map F hF hs, ?_⟩
  obtain ⟨g, rfl⟩ := hw.eq_onSess
  exact hact g

/-! Exchange (03 R99) -/

theorem event_port {p : PortState} (n : Nat) {s : State} (h : s.port = p) : (event n s).port = { p with
    events := (event n s).port.events
    newEvents := (event n s).port.newEvents
    w1c := (event n s).port.w1c
    w1cAt := (event n s).port.w1cAt } := by
  subst h
  rfl

theorem pressPart_port {p : PortState} (n : Nat) {s : State} (h : s.port = p) : (pressPart n s).port = { p with
    events := (pressPart n s).port.events
    newEvents := (pressPart n s).port.newEvents
    w1c := (pressPart n s).port.w1c
    w1cAt := (pressPart n s).port.w1cAt } := by
  unfold pressPart
  split
  · exact event_port 15 (by simp only [switchWatch, markLoaded, onPlans_port, onAlarm_port, h])
  · exact event_port 15 (by simp only [startLedger, markLoaded, onFolds_port, onCensus_port, onPlans_port, h])
  · exact event_port 15 (by simp only [onPlans_port, h])
  · rw [h]

/-- Of the port a press changes the event bits alone (13 R424). -/
theorem pressCentre_port (s : State) : (pressCentre s).port = { s.port with
    events := (pressCentre s).port.events
    newEvents := (pressCentre s).port.newEvents
    w1c := (pressCentre s).port.w1c
    w1cAt := (pressCentre s).port.w1cAt } := by
  cases h : s.txn.active with
  | none => rw [pressCentre_none h]
  | some x =>
    have hx : (pressEpoch x s).port = s.port := by
      unfold pressEpoch
      split <;> rfl
    rw [pressCentre_some h]
    exact pressPart_port _ hx

theorem elapse_port (n : Nat) (s : State) : (elapse n s).port = { s.port with
    events := (elapse n s).port.events
    newEvents := (elapse n s).port.newEvents
    w1c := (elapse n s).port.w1c
    w1cAt := (elapse n s).port.w1cAt } := by
  unfold elapse reachTick
  split
  · split
    · rw [pressCentre_port]
      rfl
    · rfl
  · rfl

theorem txLatency_elapse (n : Nat) (s : State) : txLatency (elapse n s) = txLatency s := by
  have hp : (elapse n s).port.fecActive = s.port.fecActive := by rw [elapse_port]
  have hc : (elapse n s).cfg = s.cfg := by rw [elapse_frame]
  rw [txLatency, hp, hc]
  rfl

theorem timeExchange_answers (s : State) (h : ReqHdr) (rx tx : Nat) (ho : AsObserver s h) :
    ∃ t, exec (.timeExchange h rx tx) s = .next t ∧ Answered (elapse tx s) t 0x20 h .ok
      (le 8 (min rx (now s) - rxLatency s) ++ le 8 (now (elapse tx s) + txLatency s)) := by
  refine effect_request _ h _ _ s (elapse tx) _ ho.1 (obs_allowed ho _ rfl) (fun _ => rfl) (elapse_onSess tx) (elapse_sess tx s)
    fun g => ?_
  have hb : now (elapse tx (onSess g s)) + txLatency (elapse tx (onSess g s)) = now (elapse tx s) + txLatency s := by
    rw [txLatency_elapse, elapse_onSess]
    rfl
  dsimp only
  rw [hb]
  rfl

end Sys2Proof.Machine
end

section
/-! Preparing a mark, and adjusting hub time (03 R94, R101). -/

namespace Sys2Proof.Machine

/-! Preparing a mark (03 R94) -/

@[simp] theorem armStub_off8 (m d : Nat) (x : Tile) : (armStub m d x).time.off8 = x.time.off8 := by
  unfold armStub
  split <;> rfl

theorem armStub_frame (m d : Nat) (x : Tile) : armStub m d x = { x with time := (armStub m d x).time } := by
  unfold armStub
  split <;> rfl

theorem armStub_arms (m d : Nat) {x : Tile} (h : x.power.answers = true) :
    (armStub m d x).time.armedHi = true ∧ (armStub m d x).time.armedComp = true ∧ (armStub m d x).time.comp = d := by
  unfold armStub
  rw [if_pos h]
  exact ⟨rfl, rfl, rfl⟩

theorem onEveryTile_frame (f : Nat → Tile → Tile) (s : State) : onEveryTile f s = { s with tiles := (onEveryTile f s).tiles } := by
  unfold onEveryTile
  generalize mapBelow ({} : Tile) numTiles _ _ = m
  rfl

theorem onEveryTile_onSess (f : Nat → Tile → Tile) (g : SessionState → SessionState) (s : State) :
    onEveryTile f (onSess g s) = onSess g (onEveryTile f s) := by
  unfold onEveryTile
  rw [onSess_tiles]
  generalize mapBelow ({} : Tile) numTiles _ _ = m
  rfl

/-- The tick that the centre chooses for a mark. -/
def markChoice (s : State) : Nat := firstFree (markBarred s) 1100 (markFrom s)

theorem beginMark_eq (s : State) : beginMark s =
    onEveryTile (fun t x => armStub (markChoice s) (mget 0 s.time.fieldDelay (fieldOf t)) x)
      (onTime (fun t => { t with markTick := some (markChoice s) }) s) := by
  unfold beginMark markChoice
  rfl

theorem beginMark_time (s : State) : (beginMark s).time = { s.time with markTick := some (markChoice s) } := by
  rw [beginMark_eq, onEveryTile_time]
  rfl

theorem beginMark_port (s : State) : (beginMark s).port = s.port := by
  rw [beginMark_eq, onEveryTile_port]
  rfl

/-- Preparing a mark sets its tick and arms the stubs. -/
theorem beginMark_rest (s : State) : { beginMark s with time := s.time, tiles := s.tiles } = s := by
  rw [beginMark_eq, onEveryTile_frame]
  rfl

theorem tileOf_beginMark (s : State) {k : Nat} (hk : k < numTiles) :
    tileOf (beginMark s) k = armStub (markChoice s) (mget 0 s.time.fieldDelay (fieldOf k)) (tileOf s k) := by
  rw [beginMark_eq, tileOf_onEveryTile _ _ k hk]
  rfl

theorem beginMark_onSess (g : SessionState → SessionState) (s : State) : beginMark (onSess g s) = onSess g (beginMark s) := by
  have hm : markChoice (onSess g s) = markChoice s := by
    unfold markChoice
    congr 1
  rw [beginMark_eq, beginMark_eq, hm, ← onEveryTile_onSess]
  rfl

/-! Adjustment (03 R101) -/

/-- A stub's counter takes back what hub time steps, and so keeps its own value. -/
theorem off8_keeps (old new a : Nat) :
    (8 * new + ((a + 8 * old - 8 * new : Int) % (2 ^ 67 : Int)).toNat) % 2 ^ 67 = (8 * old + a) % 2 ^ 67 := by
  omega

/-- Hub time takes the step c. -/
def stepHub (c : Int) (s : State) : State :=
  setW1c 0x110 (2 ^ 7) (onTime (fun t => { t with hub := addTime t.hub c, stepped := true, align := 2 }) s)

/-- Every stub's counter takes back the step from the RCLK edge `old`. -/
def keepStubs (old : Nat) (s : State) : State :=
  onEveryTile (fun _ x => { x with time := { x.time with
    off8 := ((x.time.off8 + 8 * old - 8 * rclkNow s : Int) % (2 ^ 67 : Int)).toNat } }) s

/-- The next status frame is due at the next multiple of 10 us. -/
def dueFrame (s : State) : State := onPort (fun p => { p with frameDue := (now s / 10000 + 1) * 10000 }) s

theorem stepTime_eq (c : Int) (s : State) :
    stepTime c s = beginMark (dueFrame (startPeriods (keepStubs (rclkNow s) (stepHub c s)))) := by
  unfold stepTime
  rfl

theorem keepStubs_onSess (old : Nat) (g : SessionState → SessionState) (s : State) :
    keepStubs old (onSess g s) = onSess g (keepStubs old s) := onEveryTile_onSess _ g s

theorem startPeriods_onSess (g : SessionState → SessionState) (s : State) :
    startPeriods (onSess g s) = onSess g (startPeriods s) :=
  onEveryTile_onSess _ g (onCensus (fun c => { c with p0 := now s, nextK := 1 }) s)

theorem stepTime_onSess (c : Int) (g : SessionState → SessionState) (s : State) :
    stepTime c (onSess g s) = onSess g (stepTime c s) := by
  have hh : stepHub c (onSess g s) = onSess g (stepHub c s) := rfl
  have hd : ∀ u, dueFrame (onSess g u) = onSess g (dueFrame u) := fun _ => rfl
  rw [stepTime_eq, stepTime_eq, hh, keepStubs_onSess, startPeriods_onSess, hd, beginMark_onSess]
  rfl

/-- Hub time after a step; a mark is prepared. -/
theorem stepTime_time (c : Int) (s : State) : (stepTime c s).time = { s.time with
    hub := addTime s.time.hub c
    stepped := true
    align := 2
    markTick := (stepTime c s).time.markTick } := by
  simp only [stepTime_eq, beginMark_time, dueFrame, startPeriods, keepStubs, stepHub, setW1c, onPort_time, onEveryTile_time,
    onCensus_time, onTime_time]

theorem stepTime_marks (c : Int) (s : State) : (stepTime c s).time.markTick.isSome = true := by
  rw [stepTime_eq, beginMark_time]
  rfl

theorem stepTime_sent (c : Int) (s : State) : sent (stepTime c s) = sent s := by
  simp only [sent, stepTime_eq, beginMark_port, dueFrame, startPeriods, keepStubs, stepHub, setW1c, onPort_port,
    onEveryTile_port, onCensus_port, onTime_port]

theorem stepTime_rest (c : Int) (s : State) :
    { stepTime c s with time := s.time, tiles := s.tiles, census := s.census, port := s.port } = s := by
  have h : ∀ u : State, { u with time := s.time, tiles := s.tiles, census := s.census, port := s.port } = s →
      { beginMark u with time := s.time, tiles := s.tiles, census := s.census, port := s.port } = s := fun u hu => by
    rw [← beginMark_rest u] at hu
    exact hu
  rw [stepTime_eq]
  refine h _ ?_
  rw [dueFrame, startPeriods, onEveryTile_frame, keepStubs, onEveryTile_frame]
  rfl

theorem tileOf_startPeriods (s : State) {k : Nat} (hk : k < numTiles) :
    ∃ p, tileOf (startPeriods s) k = { tileOf s k with plan := { (tileOf s k).plan with lcBase := p } } := by
  refine ⟨if (tileOf s k).power.answers then now s else (tileOf s k).plan.lcBase, (tileOf_onEveryTile _ _ k hk).trans ?_⟩
  show (if (tileOf s k).power.answers = true then _ else tileOf s k) = _
  split <;> rfl

/-- The tile of a stub after a step: its counter has taken it back, its light census counts from now, and it is armed. -/
theorem tileOf_stepTime (c : Int) (s : State) {k : Nat} (hk : k < numTiles) : ∃ m d p, tileOf (stepTime c s) k =
    armStub m d { tileOf s k with
      time := { (tileOf s k).time with
        off8 := (((tileOf s k).time.off8 + 8 * rclkNow s - 8 * rclkNow (stepTime c s) : Int) % (2 ^ 67 : Int)).toNat }
      plan := { (tileOf s k).plan with lcBase := p } } := by
  have hn : rclkNow (stepTime c s) = rclkNow (stepHub c s) := by
    unfold rclkNow now
    rw [stepTime_time]
    rfl
  have hkeep : tileOf (keepStubs (rclkNow s) (stepHub c s)) k = _ := tileOf_onEveryTile _ (stepHub c s) k hk
  have hd : ∀ u, tileOf (dueFrame u) k = tileOf u k := fun _ => rfl
  obtain ⟨p, hp⟩ := tileOf_startPeriods (keepStubs (rclkNow s) (stepHub c s)) hk
  rw [hn, stepTime_eq, tileOf_beginMark _ hk, hd, hp, hkeep]
  exact ⟨_, _, p, rfl⟩

/-- A step leaves every stub's own time, and of a tile it changes the stub's time and its light census alone. -/
theorem stepTime_stub (c : Int) (s : State) {k : Nat} (hk : k < numTiles) :
    stub8 (stepTime c s) k = stub8 s k ∧ { tileOf (stepTime c s) k with
      time := (tileOf s k).time
      plan := { (tileOf (stepTime c s) k).plan with lcBase := (tileOf s k).plan.lcBase } } = tileOf s k := by
  obtain ⟨m, d, p, h⟩ := tileOf_stepTime c s hk
  constructor
  · rw [stub8, h, armStub_off8]
    exact off8_keeps _ _ _
  · rw [h, armStub_frame]

/-- The conditions of TIME_ADJUST. -/
def adjustChecks (steering may : Bool) (c : Int) : List Check :=
  [busy steering, refuse (!may && decide (100000 < c.natAbs)), emptyIf (c == 0)]

theorem timeAdjust_eq (s : State) (h : ReqHdr) (c : Int) : exec (.timeAdjust h c) s =
    request { op := 0x21, classC := true, need := .intrusive } h (fun _ s => adjustChecks s.time.steering (mayStep s) c)
      (fun h s => if mayStep s then respond h .ok [0] (stepTime c s) else respond h .ok [1] (startSteer c s)) s := rfl

theorem adjustChecks_good {may : Bool} {c : Int} (hc : c ≠ 0) (h : may = true ∨ c.natAbs ≤ 100000) :
    pick (adjustChecks false may c) = none := by
  have hfar : (!may && decide (100000 < c.natAbs)) = false := by
    rcases h with rfl | h
    · rfl
    · rw [decide_eq_false (Nat.not_lt.2 h), Bool.and_false]
  rw [adjustChecks, hfar, beq_eq_false_iff_ne.2 hc]
  rfl

theorem timeAdjust_steps (s : State) (h : ReqHdr) (c : Int) (hi : AsIntrusive s h) (hc : c ≠ 0) (hs : s.time.steering = false)
    (hm : mayStep s = true) : ∃ t, exec (.timeAdjust h c) s = .next t ∧ Answered (stepTime c s) t 0x21 h .ok [0] := by
  rw [timeAdjust_eq]
  refine effect_request _ h _ _ s (stepTime c) [0] hi.1.1 (int_allowed hi _ rfl) (fun as => ?_) (stepTime_onSess c)
    (congrArg State.sess (stepTime_rest c s) :) fun g => if_pos hm
  show pick (adjustChecks s.time.steering (mayStep s) c) = none
  rw [hs]
  exact adjustChecks_good hc (.inl hm)

theorem timeAdjust_steers (s : State) (h : ReqHdr) (c : Int) (hi : AsIntrusive s h) (hc : c ≠ 0) (hs : s.time.steering = false)
    (hm : mayStep s = false) (hn : c.natAbs ≤ 100000) : ∃ t, exec (.timeAdjust h c) s = .next t ∧
      Answered { s with time := { s.time with steering := true, steerRemain := c, steerFrom := s.time.hub, steerAcc := 0 } }
        t 0x21 h .ok [1] := by
  rw [timeAdjust_eq]
  refine effect_request _ h _ _ s (startSteer c) [1] hi.1.1 (int_allowed hi _ rfl) (fun as => ?_) (fun _ _ => rfl) rfl
    fun g => if_neg (by rw [show mayStep (onSess g s) = mayStep s from rfl, hm]; exact Bool.false_ne_true)
  show pick (adjustChecks s.time.steering (mayStep s) c) = none
  rw [hs]
  exact adjustChecks_good hc (.inr hn)

theorem timeAdjust_far (s : State) (h : ReqHdr) (c : Int) (hi : AsIntrusive s h) (hc : c ≠ 0) (hs : s.time.steering = false)
    (hm : mayStep s = false) (hn : 100000 < c.natAbs) : ∃ t, exec (.timeAdjust h c) s = .next t ∧
      Answered s t 0x21 h .refused (detail { reason := 0x12 }) := by
  rw [timeAdjust_eq]
  refine bad_request _ h _ _ s (refuse true) hi.1.1 (int_allowed hi _ rfl) fun as => ?_
  show pick (adjustChecks s.time.steering (mayStep s) c) = some (refuse true)
  rw [hs, hm, adjustChecks, decide_eq_true hn, beq_eq_false_iff_ne.2 hc]
  rfl

theorem timeAdjust_busy (s : State) (h : ReqHdr) (c : Int) (hi : AsIntrusive s h) (hs : s.time.steering = true) :
    ∃ t, exec (.timeAdjust h c) s = .next t ∧ Answered s t 0x21 h .busy (detail {}) := by
  rw [timeAdjust_eq]
  refine bad_request _ h _ _ s (busy true) hi.1.1 (int_allowed hi _ rfl) fun as => ?_
  show pick (adjustChecks s.time.steering (mayStep s) c) = some (busy true)
  rw [hs, adjustChecks]
  generalize (!mayStep s && decide (100000 < c.natAbs)) = far
  generalize (c == 0) = zero
  cases far <;> cases zero <;> rfl

/-- A step as the statement has it: what the answered state is. -/
theorem timeAdjust_steps_spec (s : State) (h : ReqHdr) (c : Int) (hi : AsIntrusive s h) (hc : c ≠ 0)
    (hs : s.time.steering = false) (hm : mayStep s = true) : ∃ t, exec (.timeAdjust h c) s = .next t ∧
      sent t = sent s ++ fragmentsOf (mkResponse { h with opcode := 0x21 } .ok [0]) ∧
      t.time = { s.time with hub := addTime s.time.hub c, stepped := true, align := 2, markTick := t.time.markTick } ∧
      t.time.markTick.isSome = true ∧
      (∀ k, k < numTiles → stub8 t k = stub8 s k ∧
        { tileOf t k with time := (tileOf s k).time, plan := { (tileOf t k).plan with lcBase := (tileOf s k).plan.lcBase } } =
          tileOf s k) ∧
      { t with time := s.time, tiles := s.tiles, census := s.census, port := s.port, sess := s.sess } = s := by
  obtain ⟨t, ht, ha⟩ := timeAdjust_steps s h c hi hc hs hm
  have htime : t.time = (stepTime c s).time := (congrArg State.time ha.rest :)
  have htiles : t.tiles = (stepTime c s).tiles := (congrArg State.tiles ha.rest :)
  refine ⟨t, ht, ?_, ?_, ?_, fun k hk => ?_, ?_⟩
  · rw [ha.1, stepTime_sent]
  · rw [htime]
    exact stepTime_time c s
  · rw [htime]
    exact stepTime_marks c s
  · have hstub : stub8 t k = stub8 (stepTime c s) k := by
      unfold stub8 rclkNow now tileOf
      rw [htime, htiles]
    rw [hstub, tileOf_of_tiles htiles]
    exact stepTime_stub c s hk
  · have hr := stepTime_rest c s
    rw [← ha.rest] at hr
    exact hr

/-! The end of a steer (03 R101) -/

theorem steerDone_ends (s : State) (hs : s.time.steering = true) : exec .steerDone s = .next
    { elapse (steerEnd s) s with time :=
      { (elapse (steerEnd s) s).time with steering := false, steerRemain := 0, steerAcc := 0, align := 2 } } := by
  simp only [exec, execSteerDone, hs, when_true]
  rfl

theorem steerDone_idle (s : State) (hs : s.time.steering = false) : exec .steerDone s = .next s := by
  simp only [exec, execSteerDone, hs, when_false]

end Sys2Proof.Machine
end

section
/-! Measuring the delays of the fields (03 R92, R93, R103). -/

namespace Sys2Proof.Machine

/-! The measurement (03 R92, R93) -/

/-- The echo intervals of a field. -/
def intervals (echo : List (Nat × Nat)) (f : Nat) : List Nat := (echo.filter (fun e => e.1 == f)).map (·.2)

/-- A field's delay after the measurement: what its intervals give, and without any the old one. -/
def echoDelay (echo : List (Nat × Nat)) (s : State) (f : Nat) : Nat :=
  if intervals echo f = [] then mget 0 s.time.fieldDelay f
  else (2 * median2 (intervals echo f) + mget 0 s.cfg.fanout f) % 65536

/-- The measurement of one field. -/
def measureField (echo : List (Nat × Nat)) (s : State) (f : Nat) : State :=
  if (intervals echo f).isEmpty then s
  else onTime (fun t => { t with fieldDelay := mput 0 t.fieldDelay f (fieldDelayOf s f (intervals echo f) % 65536) }) s

/-- What follows from the fields' delays: L_still and the list of over-latency fields. -/
def settle (s : State) : State :=
  onRill (fun r => { r with overLat := overLatFields s }) (onTime (fun t => { t with lstill := lstillOf (delays s) }) s)

theorem measure_eq (echo : List (Nat × Nat)) (s : State) :
    measure echo s = settle ((List.range numFields).foldl (measureField echo) s) := rfl

theorem measureField_frame (echo : List (Nat × Nat)) (s : State) (f : Nat) : measureField echo s f =
    { s with time := { s.time with fieldDelay := (measureField echo s f).time.fieldDelay } } := by
  unfold measureField
  split <;> rfl

theorem measureField_delay (echo : List (Nat × Nat)) (s : State) (f g : Nat) :
    mget 0 (measureField echo s f).time.fieldDelay g = if g = f then echoDelay echo s f else mget 0 s.time.fieldDelay g := by
  unfold measureField echoDelay
  simp only [List.isEmpty_iff]
  split
  · split
    · next h => rw [h]
    · rfl
  · exact mget_mput _ _ _ _ _

/-- Measuring one field leaves what every other, or a second measurement of it, comes to. -/
theorem echoDelay_measureField (echo : List (Nat × Nat)) (s : State) (f g : Nat) :
    echoDelay echo (measureField echo s f) g = echoDelay echo s g := by
  have hc : (measureField echo s f).cfg = s.cfg := by rw [measureField_frame]
  conv_lhs => unfold echoDelay
  rw [measureField_delay, hc]
  by_cases hg : g = f
  · subst hg
    unfold echoDelay
    split <;> simp [*]
  · rw [if_neg hg]
    rfl

theorem measureFields_spec (echo : List (Nat × Nat)) (l : List Nat) (s : State) :
    let t := l.foldl (measureField echo) s
    t = { s with time := { s.time with fieldDelay := t.time.fieldDelay } } ∧
    ∀ f, mget 0 t.time.fieldDelay f = if f ∈ l then echoDelay echo s f else mget 0 s.time.fieldDelay f := by
  induction l generalizing s with
  | nil => exact ⟨rfl, fun f => (if_neg List.not_mem_nil).symm⟩
  | cons a l ih =>
    obtain ⟨h1, h2⟩ := ih (measureField echo s a)
    refine ⟨?_, fun f => ?_⟩
    · rw [List.foldl_cons, h1, measureField_frame]
    · rw [List.foldl_cons, h2, echoDelay_measureField, measureField_delay]
      by_cases hf : f = a
      · subst hf; simp
      · simp [hf]

/-- The delays of all fields after the measurement. -/
def echoDelays (echo : List (Nat × Nat)) (s : State) : List Nat := (List.range 48).map (echoDelay echo s)

theorem measure_delay (echo : List (Nat × Nat)) (s : State) {f : Nat} (hf : f < 48) :
    mget 0 (measure echo s).time.fieldDelay f = echoDelay echo s f := by
  rw [measure_eq]
  exact ((measureFields_spec echo _ s).2 f).trans (if_pos (List.mem_range.2 hf))

theorem delays_measure (echo : List (Nat × Nat)) (s : State) : delays (measure echo s) = echoDelays echo s :=
  List.map_congr_left fun _ hf => measure_delay echo s (List.mem_range.1 hf)

/-- L_still follows from the delays measured. -/
theorem measure_lstill (echo : List (Nat × Nat)) (s : State) : (measure echo s).time.lstill = lstillOf (echoDelays echo s) := by
  rw [← delays_measure]
  rfl

/-- What a measurement changes. -/
theorem measure_frame (echo : List (Nat × Nat)) (s : State) : measure echo s = { s with
    time := { s.time with fieldDelay := (measure echo s).time.fieldDelay, lstill := (measure echo s).time.lstill }
    rill := { s.rill with overLat := (measure echo s).rill.overLat } } := by
  rw [measure_eq, settle, (measureFields_spec echo _ s).1]
  rfl

/-- No field's delay is above 90 ns (01 R34). -/
def AllNear (echo : List (Nat × Nat)) (s : State) : Prop := ∀ f, f < 48 → echoDelay echo s f ≤ 720

theorem measure_overLat {echo : List (Nat × Nat)} {s : State} (h : AllNear echo s) : (measure echo s).rill.overLat = [] := by
  have he : (measure echo s).rill.overLat = overLatFields (measure echo s) := rfl
  rw [he, overLatFields, List.filter_eq_nil_iff]
  intro f hf
  have hlt := List.mem_range.1 hf
  rw [measure_delay echo s hlt, decide_eq_true_eq, Nat.not_lt]
  exact h f hlt

/-! The re-measurement and its answer (03 R103, 01 R34) -/

/-- DRIFT is set where a stub's compensation is more than 1 ns off its field's delay (03 R103). -/
def noteDrift (s : State) : State :=
  if drifted s then setW1c 0x110 (2 ^ 6) (onTime (fun t => { t with drift := true }) s) else s

theorem noteDrift_frame (s : State) : noteDrift s = { s with
    time := { s.time with drift := (noteDrift s).time.drift }
    port := { s.port with w1c := (noteDrift s).port.w1c, w1cAt := (noteDrift s).port.w1cAt } } := by
  unfold noteDrift
  split <;> rfl

/-- A re-measurement without an over-latency field: no class is raised. -/
def remeasured (echo : List (Nat × Nat)) (s : State) : State := noteDrift (measure echo s)

theorem remeasure_near {echo : List (Nat × Nat)} {s : State} (h : AllNear echo s) : remeasure echo s = remeasured echo s := by
  have hr : (noteDrift (measure echo s)).rill.overLat.isEmpty = true := by
    rw [noteDrift_frame]
    exact List.isEmpty_iff.2 (measure_overLat h)
  exact if_pos hr

theorem measureFields_onSess (echo : List (Nat × Nat)) (l : List Nat) (g : SessionState → SessionState) (s : State) :
    l.foldl (measureField echo) (onSess g s) = onSess g (l.foldl (measureField echo) s) := by
  induction l generalizing s with
  | nil => rfl
  | cons a l ih =>
    have ha : measureField echo (onSess g s) a = onSess g (measureField echo s a) := by
      unfold measureField
      split <;> rfl
    rw [List.foldl_cons, List.foldl_cons, ha, ih]

theorem noteDrift_onSess (g : SessionState → SessionState) (s : State) : noteDrift (onSess g s) = onSess g (noteDrift s) := by
  unfold noteDrift
  rw [show drifted (onSess g s) = drifted s from rfl]
  split <;> rfl

theorem remeasured_onSess (echo : List (Nat × Nat)) (g : SessionState → SessionState) (s : State) :
    remeasured echo (onSess g s) = onSess g (remeasured echo s) := by
  rw [remeasured, measure_eq, measureFields_onSess, remeasured, measure_eq, ← noteDrift_onSess]
  rfl

/-- What a re-measurement without an over-latency field changes. -/
theorem remeasured_frame {echo : List (Nat × Nat)} {s : State} (h : AllNear echo s) : remeasured echo s = { s with
    time := (remeasured echo s).time
    rill := { s.rill with overLat := [] }
    port := { s.port with w1c := (remeasured echo s).port.w1c, w1cAt := (remeasured echo s).port.w1cAt } } := by
  have hm := measure_frame echo s
  rw [measure_overLat h] at hm
  have hd := noteDrift_frame (measure echo s)
  rw [remeasured, hd, hm]

theorem noteDrift_time (s : State) : (noteDrift s).time = { s.time with drift := (noteDrift s).time.drift } := by
  unfold noteDrift
  split <;> rfl

theorem remeasured_time (echo : List (Nat × Nat)) (s : State) : (remeasured echo s).time = { s.time with
    fieldDelay := (measure echo s).time.fieldDelay
    lstill := lstillOf (echoDelays echo s)
    drift := (remeasured echo s).time.drift } := by
  have hm : (measure echo s).time = { s.time with
      fieldDelay := (measure echo s).time.fieldDelay, lstill := (measure echo s).time.lstill } :=
    (congrArg State.time (measure_frame echo s) :)
  refine (noteDrift_time (measure echo s)).trans ?_
  rw [← measure_lstill, hm]
  rfl

/-- The answer of MEASURE_TIME. -/
def measureAnswer (echo : List (Nat × Nat)) (s : State) : List Byte :=
  le 4 (lstillOf (echoDelays echo s)) ++ (echoDelays echo s).flatMap (le 4)

theorem measureBody_of_time {s t : State} (h : t.time.fieldDelay = s.time.fieldDelay) (hl : t.time.lstill = s.time.lstill) :
    measureBody t = measureBody s := by
  unfold measureBody delays
  rw [h, hl]

theorem measureBody_measure (echo : List (Nat × Nat)) (s : State) : measureBody (measure echo s) = measureAnswer echo s := by
  rw [measureBody, measure_lstill, delays_measure]
  rfl

theorem measureBody_remeasured (echo : List (Nat × Nat)) (s : State) :
    measureBody (remeasured echo s) = measureAnswer echo s := by
  rw [← measureBody_measure]
  refine measureBody_of_time ?_ ?_
  · rw [remeasured_time]
  · rw [remeasured_time, measure_lstill]

theorem remeasured_delay (echo : List (Nat × Nat)) (s : State) {f : Nat} (hf : f < 48) :
    mget 0 (remeasured echo s).time.fieldDelay f = echoDelay echo s f := by
  rw [remeasured_time]
  exact measure_delay echo s hf

theorem remeasured_sess (echo : List (Nat × Nat)) (s : State) : (remeasured echo s).sess = s.sess := by
  rw [remeasured, noteDrift_frame, measure_frame]

theorem measureTime_answers (s : State) (h : ReqHdr) (echo : List (Nat × Nat)) (hi : AsIntrusive s h) (hn : AllNear echo s) :
    ∃ t, exec (.measureTime h echo) s = .next t ∧ Answered (remeasured echo s) t 0x22 h .ok (measureAnswer echo s) := by
  refine effect_request _ h _ _ s (remeasured echo) _ hi.1.1 (int_allowed hi _ rfl) (fun _ => rfl) (remeasured_onSess echo)
    (remeasured_sess echo s) fun g => ?_
  have hr : remeasure echo (onSess g s) = remeasured echo (onSess g s) := remeasure_near hn
  have hb : measureBody (remeasured echo (onSess g s)) = measureAnswer echo s := measureBody_remeasured echo (onSess g s)
  rw [← hb, ← hr]
  rfl

theorem measureTimeRemark_refused (s : State) (h : ReqHdr) (echo : List (Nat × Nat)) (hi : AsIntrusive s h)
    (hs : s.root.wstate ≠ 3 ∨ s.root.queue ≠ []) : ∃ t, exec (.measureTimeRemark h echo) s = .next t ∧
      Answered s t 0x22 h .refused (detail { reason := 0x12 }) := by
  have hc : (s.root.wstate != 3 || !s.root.queue.isEmpty) = true := by
    rcases hs with hs | hs <;> simp [hs]
  refine bad_request _ h _ _ s (refuse true) hi.1.1 (int_allowed hi _ rfl) fun as => ?_
  show pick [refuse (s.root.wstate != 3 || !s.root.queue.isEmpty)] = some (refuse true)
  rw [hc]
  rfl

theorem measureTimeRemark_answers (s : State) (h : ReqHdr) (echo : List (Nat × Nat)) (hi : AsIntrusive s h)
    (hw : s.root.wstate = 3) (hq : s.root.queue = []) (hn : AllNear echo s) :
    ∃ t, exec (.measureTimeRemark h echo) s = .next t ∧
      Answered (beginMark (remeasured echo s)) t 0x22 h .ok (measureAnswer echo s) := by
  have hsess : (beginMark (remeasured echo s)).sess = s.sess :=
    (congrArg State.sess (beginMark_rest (remeasured echo s)) :).trans (remeasured_sess echo s)
  refine effect_request _ h _ _ s (fun s => beginMark (remeasured echo s)) _ hi.1.1 (int_allowed hi _ rfl) (fun as => ?_)
    (fun g s => by rw [remeasured_onSess, beginMark_onSess]) hsess fun g => ?_
  · show pick [refuse (s.root.wstate != 3 || !s.root.queue.isEmpty)] = none
    rw [hw, hq]
    rfl
  · have hr : remeasure echo (onSess g s) = remeasured echo (onSess g s) := remeasure_near hn
    have hb : measureBody (beginMark (remeasured echo (onSess g s))) = measureAnswer echo s := by
      rw [← measureBody_remeasured echo s, remeasured_onSess]
      refine measureBody_of_time ?_ ?_ <;> rw [beginMark_time] <;> rfl
    rw [← hb, ← hr]
    rfl

/-! The clauses of TimeIsAdjustedAndMeasured -/

theorem measureTime_spec (s : State) (h : ReqHdr) (echo : List (Nat × Nat)) (hi : AsIntrusive s h) (hn : AllNear echo s) :
    ∃ t, exec (.measureTime h echo) s = .next t ∧
      Answered { s with
        time := t.time
        rill := { s.rill with overLat := [] }
        port := { s.port with w1c := t.port.w1c, w1cAt := t.port.w1cAt } } t 0x22 h .ok (measureAnswer echo s) ∧
      t.time = { s.time with fieldDelay := t.time.fieldDelay, lstill := lstillOf (echoDelays echo s), drift := t.time.drift } ∧
      ∀ f, f < 48 → mget 0 t.time.fieldDelay f = echoDelay echo s f := by
  obtain ⟨t, ht, ha⟩ := measureTime_answers s h echo hi hn
  have htime : t.time = (remeasured echo s).time := (congrArg State.time ha.rest :)
  have hw : t.port.w1c = (remeasured echo s).port.w1c ∧ t.port.w1cAt = (remeasured echo s).port.w1cAt := by
    rw [ha.2.2.1]
    exact ⟨rfl, rfl⟩
  refine ⟨t, ht, ?_, ?_, fun f hf => ?_⟩
  · rw [htime, hw.1, hw.2, ← remeasured_frame hn]
    exact ha
  · rw [htime]
    refine (remeasured_time echo s).trans ?_
    rw [remeasured_time]
  · rw [htime]
    exact remeasured_delay echo s hf

theorem fieldOf_lt {k : Nat} (hk : k < numTiles) : fieldOf k < 48 := by
  unfold numTiles at hk
  unfold fieldOf tileX tileY
  omega

/-- `v` with the parts of `s` that a re-measurement with its mark may change. -/
def outsideMark (s v : State) : State :=
  { v with time := s.time, tiles := s.tiles, rill := s.rill, port := s.port, sess := s.sess }

theorem measureTimeRemark_spec (s : State) (h : ReqHdr) (echo : List (Nat × Nat)) (hi : AsIntrusive s h)
    (hw : s.root.wstate = 3) (hq : s.root.queue = []) (hn : AllNear echo s) :
    ∃ t, exec (.measureTimeRemark h echo) s = .next t ∧
      sent t = sent s ++ fragmentsOf (mkResponse { h with opcode := 0x22 } .ok (measureAnswer echo s)) ∧
      t.time.lstill = lstillOf (echoDelays echo s) ∧ t.time.markTick.isSome = true ∧
      (∀ f, f < 48 → mget 0 t.time.fieldDelay f = echoDelay echo s f) ∧
      (∀ k, k < numTiles → (tileOf s k).power.answers = true → (tileOf t k).time.armedHi = true ∧
        (tileOf t k).time.armedComp = true ∧ (tileOf t k).time.comp = echoDelay echo s (fieldOf k)) ∧
      (∀ k, k < numTiles → { tileOf t k with time := (tileOf s k).time } = tileOf s k) ∧
      { t with time := s.time, tiles := s.tiles, rill := s.rill, port := s.port, sess := s.sess } = s := by
  obtain ⟨t, ht, ha⟩ := measureTimeRemark_answers s h echo hi hw hq hn
  have hrest := remeasured_frame hn
  generalize hu : remeasured echo s = u at ha hrest
  have htime : t.time = { u.time with markTick := some (markChoice u) } :=
    (congrArg State.time ha.rest :).trans (beginMark_time u)
  have htiles : t.tiles = (beginMark u).tiles := (congrArg State.tiles ha.rest :)
  have htile : ∀ k, tileOf u k = tileOf s k := fun k => by rw [hrest]; rfl
  have hk : ∀ k, k < numTiles → tileOf t k = armStub (markChoice u) (mget 0 u.time.fieldDelay (fieldOf k)) (tileOf s k) :=
    fun k hk => by rw [tileOf_of_tiles htiles, tileOf_beginMark u hk, htile]
  refine ⟨t, ht, ?_, ?_, ?_, fun f hf => ?_, fun k hlt hans => ?_, fun k hlt => ?_, ?_⟩
  · have hs : sent (beginMark u) = sent s := by
      rw [sent, beginMark_port, hrest]
      rfl
    rw [ha.1, hs]
  · rw [htime, ← hu, remeasured_time]
  · rw [htime]
    rfl
  · rw [htime, ← hu]
    exact remeasured_delay echo s hf
  · rw [hk k hlt, ← remeasured_delay echo s (fieldOf_lt hlt), hu]
    exact armStub_arms _ _ hans
  · rw [hk k hlt, armStub_frame]
  · have h1 : outsideMark s t = outsideMark s (beginMark u) := (congrArg (outsideMark s) ha.rest :)
    have h2 : outsideMark s (beginMark u) = outsideMark s u := (congrArg (outsideMark s) (beginMark_rest u) :)
    have h3 : outsideMark s u = s := (congrArg (outsideMark s) hrest :)
    exact h1.trans (h2.trans h3)

/-- The steer's end, as the statement has it. -/
theorem steerDone_spec (s : State) (hs : s.time.steering = true) : ∃ t, exec .steerDone s = .next t ∧
    t = { elapse (steerEnd s) s with time :=
      { (elapse (steerEnd s) s).time with steering := false, steerRemain := 0, steerAcc := 0, align := 2 } } :=
  ⟨_, steerDone_ends s hs, rfl⟩

/-- Settles O8, request by request: each effect moves with the bookkeeping of requests, and what it changes is said once. That
the latencies of the PORT block round to the nearest nanosecond is the model's reading (log 108). -/
theorem timeIsAdjustedAndMeasured : Obligations.TimeIsAdjustedAndMeasured :=
  ⟨⟨timeExchange_answers,
      fun s h c hi hc hs => ⟨timeAdjust_steps_spec s h c hi hc hs, timeAdjust_steers s h c hi hc hs, timeAdjust_far s h c hi hc hs⟩,
      timeAdjust_busy, steerDone_spec, steerDone_idle⟩,
    fun s h echo hi => ⟨measureTime_spec s h echo hi, measureTimeRemark_refused s h echo hi,
      measureTimeRemark_spec s h echo hi⟩⟩

end Sys2Proof.Machine
end

section
/-! The port's link: what a closed port does, acknowledging and resending (13 R402 to R409). -/

namespace Sys2Proof.Machine

theorem hears_open {s : State} (ho : s.port.opened = true) (hb : s.port.blockLock = true) : hears s = true := by
  rw [hears, ho, hb]
  rfl

/-- A closed port hears nothing. -/
theorem hears_closed {s : State} (h : s.port.opened = false) : hears s = false := by
  rw [hears, h]
  rfl

/-! A closed port (13 R402) -/

theorem validFrame_deaf {g a : Nat} {s : State} (h : (hears s && g == s.port.gen) = false) : validFrame g a s = s :=
  if_neg (by rw [h]; exact Bool.false_ne_true)

theorem closedPort_idle (s : State) (h : s.port.opened = false) :
    (∀ g a, exec (.ackFrame g a) s = .next s ∧ exec (.keepalive g a) s = .next s ∧ ∀ r, exec (.nakFrame g a r) s = .next s) ∧
    (∀ o b, exec (.dataFrame o b) s = .next s) ∧ exec .statusFrame s = .next s ∧ exec .hostSilentTimeout s = .next s ∧
    ∀ g, exec (.lreset g) s = .next s ∧ exec (.lresetAck g) s = .next s := by
  have hh := hears_closed h
  have hg : ∀ g, (hears s && g == s.port.gen) = false := fun g => by rw [hh, Bool.false_and]
  refine ⟨fun g a => ⟨?_, ?_, fun r => ?_⟩, fun o b => ?_, ?_, ?_, fun g => ⟨?_, ?_⟩⟩
  · exact congrArg Host.Outcome.next (validFrame_deaf (hg g))
  · exact congrArg Host.Outcome.next (validFrame_deaf (hg g))
  · simp only [exec, execNakFrame, hg, when_false]
  · simp only [exec, execDataFrame, hh, when_false]
  · simp only [exec, execStatusFrame, h, when_false]
  · simp only [exec, execHostSilentTimeout, h, when_false]
  · simp only [exec, execLreset, hh, when_false]
  · simp only [exec, execLresetAck, hh, Bool.false_and, when_false]

/-! Acknowledging and resending (13 R404, R407) -/

/-- A frame of another GEN is none of the link's. -/
theorem validFrame_other {g : Nat} (a : Nat) {s : State} (h : g ≠ s.port.gen) : validFrame g a s = s :=
  validFrame_deaf (by rw [beq_eq_false_iff_ne.2 h, Bool.and_false])

/-- A valid frame shows the link alive. -/
def alive (s : State) : State := onPort (fun p => { p with lastValid := now s }) s

theorem validFrame_current (a : Nat) {s : State} (h : hears s = true) :
    validFrame s.port.gen a s = takeAck a (alive s) :=
  if_pos (by rw [h, beq_self_eq_true]; rfl)

theorem takeAck_empty (a : Nat) {s : State} (h : s.port.unacked = []) : takeAck a s = s := by
  unfold takeAck
  rw [h]

theorem takeAck_none {a : Nat} {s : State} {f : TxFrame} {r : List TxFrame} (h : s.port.unacked = f :: r)
    (hn : (a + 4096 - f.seq) % 4096 = 0) : takeAck a s = s := by
  unfold takeAck
  simp only [h, hn]
  rfl

/-- The port with the first `n` frames of the window acknowledged, before those that wait move up. -/
def acked (n t : Nat) (p : PortState) : PortState :=
  { p with
    unacked := p.unacked.drop n
    timeouts := 0
    ackedAt := ((p.unacked.drop n).head?.map (·.sentAt)).getD t }

theorem takeAck_frees {a n : Nat} {s : State} {f : TxFrame} {r : List TxFrame} (h : s.port.unacked = f :: r)
    (hn : n = (a + 4096 - f.seq) % 4096) (h1 : 1 ≤ n) (h2 : n ≤ r.length + 1) :
    takeAck a s = onPort (fun p => pump (now s) (acked n (now s) p)) s := by
  have hc : ¬ (n = 0 || decide ((f :: r).length < n)) = true := by
    rw [List.length_cons]
    simp
    omega
  unfold takeAck acked
  simp only [h, ← hn]
  rw [if_neg (by simpa using hc)]
  simp only [onPort, h]

/-- Frames that wait move up without touching the time of the oldest unacknowledged one. -/
theorem pump_ackedAt (t : Nat) (p : PortState) {q : TxFrame} {l : List TxFrame} (h : p.unacked = q :: l) :
    (pump t p).ackedAt = p.ackedAt := by
  have h2 := (pumpSteps_spec t (List.range (min 64 p.txWait.length)) p).2
  unfold pump
  rw [if_neg (by rw [h]; exact List.cons_ne_nil q l)]
  rw [h2]

theorem pump_timeouts (t : Nat) (p : PortState) : (pump t p).timeouts = p.timeouts := by rw [(pump_spec t p).2]

theorem pump_lastValid (t : Nat) (p : PortState) : (pump t p).lastValid = p.lastValid := by rw [(pump_spec t p).2]

/-- An acknowledgement of the current GEN frees the frames it names and nothing else. -/
theorem validFrame_acks {a n : Nat} {s : State} {f : TxFrame} {r : List TxFrame} (hh : hears s = true)
    (h : s.port.unacked = f :: r) (hn : n = (a + 4096 - f.seq) % 4096) (h1 : 1 ≤ n) (h2 : n ≤ r.length + 1) :
    let t := validFrame s.port.gen a s
    { t with port := s.port } = s ∧ sent t = (sent s).drop n ∧ t.port.timeouts = 0 ∧ t.port.lastValid = now s ∧
      ∀ q l, (f :: r).drop n = q :: l → t.port.ackedAt = q.sentAt := by
  intro t
  have ha : (alive s).port.unacked = f :: r := h
  have ht : t = onPort (fun p => pump (now s) (acked n (now s) { p with lastValid := now s })) s := by
    unfold t
    rw [validFrame_current a hh, takeAck_frees ha hn h1 h2]
    rfl
  have hlen : n ≤ s.port.unacked.length := by rw [h]; exact h2
  rw [ht]
  refine ⟨rfl, ?_, ?_, ?_, fun q l hq => ?_⟩
  · simp only [sent, onPort_port, List.map_append, (pump_spec _ _).1]
    rw [List.drop_append_of_le_length (by simpa using hlen)]
    simp only [acked, List.map_drop]
  · simp only [onPort_port, pump_timeouts]
    rfl
  · simp only [onPort_port, pump_lastValid]
    rfl
  · have hd : (acked n (now s) { s.port with lastValid := now s }).unacked = q :: l := by rw [← hq, ← h]; rfl
    simp only [onPort_port, pump_ackedAt _ _ hd]
    simp only [acked, h, hq]
    rfl

theorem validFrame_repeat {a : Nat} {s : State} {f : TxFrame} {r : List TxFrame} (hh : hears s = true)
    (h : s.port.unacked = f :: r) (hn : (a + 4096 - f.seq) % 4096 = 0) :
    validFrame s.port.gen a s = { s with port := { s.port with lastValid := now s } } := by
  have ha : (alive s).port.unacked = f :: r := h
  rw [validFrame_current a hh, takeAck_none ha hn]
  rfl

theorem resend_eq {s : State} (h : s.port.unacked ≠ []) : resend s = { s with port := { s.port with
    resends := satAdd 16 s.port.resends 1
    unacked := s.port.unacked.map (fun f => { f with sentAt := now s })
    ackedAt := now s } } := by
  unfold resend
  rw [if_neg h]
  rfl

theorem nakFrame_resends {a w : Nat} {s : State} {f : TxFrame} {r : List TxFrame} (hh : hears s = true)
    (h : s.port.unacked = f :: r) (hn : (a + 4096 - f.seq) % 4096 = 0) :
    exec (.nakFrame s.port.gen a w) s = .next { s with port := { s.port with
      lastValid := now s
      resends := satAdd 16 s.port.resends 1
      unacked := s.port.unacked.map (fun f => { f with sentAt := now s })
      ackedAt := now s } } := by
  simp only [exec, execNakFrame, hh, beq_self_eq_true, Bool.and_self, when_true]
  rw [validFrame_repeat hh h hn, resend_eq]
  · rfl
  · show s.port.unacked ≠ []
    rw [h]
    exact List.cons_ne_nil f r

theorem ackFrames_spec (s : State) (a n : Nat) (f : TxFrame) (r : List TxFrame) (ho : s.port.opened = true)
    (hb : s.port.blockLock = true) (h : s.port.unacked = f :: r) (hn : n = (a + 4096 - f.seq) % 4096) :
    (1 ≤ n → n ≤ r.length + 1 →
      (∃ t, exec (.ackFrame s.port.gen a) s = .next t ∧ exec (.keepalive s.port.gen a) s = .next t ∧ { t with port := s.port } = s ∧
        sent t = (sent s).drop n ∧ t.port.timeouts = 0 ∧ t.port.lastValid = now s ∧
        ∀ q l, (f :: r).drop n = q :: l → t.port.ackedAt = q.sentAt)) ∧
    (n = 0 → exec (.ackFrame s.port.gen a) s = .next { s with port := { s.port with lastValid := now s } } ∧
      ∀ w, exec (.nakFrame s.port.gen a w) s = .next { s with port := { s.port with
        lastValid := now s
        resends := satAdd 16 s.port.resends 1
        unacked := s.port.unacked.map (fun f => { f with sentAt := now s })
        ackedAt := now s } }) ∧
    (∀ g, g ≠ s.port.gen → exec (.ackFrame g a) s = .next s ∧ exec (.keepalive g a) s = .next s) := by
  have hh := hears_open ho hb
  refine ⟨fun h1 h2 => ⟨_, rfl, rfl, validFrame_acks hh h hn h1 h2⟩, fun h0 => ⟨?_, fun w => ?_⟩, fun g hg => ⟨?_, ?_⟩⟩
  · exact congrArg Host.Outcome.next (validFrame_repeat hh h (hn ▸ h0))
  · exact nakFrame_resends hh h (hn ▸ h0)
  · exact congrArg Host.Outcome.next (validFrame_other a hg)
  · exact congrArg Host.Outcome.next (validFrame_other a hg)

/-! Acknowledgement timeouts and link resets the hub starts (13 R407, R409, R410) -/

/-- The hub starts a link reset with the next GEN. -/
theorem startReset_eq {s : State} (h : s.port.resetting = none) : startReset s = { s with port := { s.port with
    resetting := some ((s.port.gen + 1) % 65536)
    linkUp := false
    lresetAt := now s
    control := s.port.control ++ [(6, 0, (s.port.gen + 1) % 65536)] } } := by
  unfold startReset
  rw [h]
  rfl

theorem portAckTimeout_idle (s : State) (h : s.port.unacked = []) : exec .portAckTimeout s = .next s := by
  simp only [exec, execPortAckTimeout, h]
  rfl

/-- The state of an acknowledgement timeout, counted. -/
def ackLate (s : State) : State := onPort (fun p => { p with timeouts := p.timeouts + 1 }) (elapse (s.port.ackedAt + 200000) s)

theorem portAckTimeout_eq {s : State} (h : s.port.unacked ≠ []) : exec .portAckTimeout s =
    .next (if 16 ≤ s.port.timeouts + 1 then startReset (ackLate s) else resend (ackLate s)) := by
  have ht : (ackLate s).port.timeouts = s.port.timeouts + 1 := by
    unfold ackLate
    rw [onPort_port, elapse_port]
  have hc : (s.port.unacked != []) = true := bne_iff_ne.2 h
  rw [← ht]
  simp only [exec, execPortAckTimeout, hc, when_true]
  rfl

theorem portAckTimeout_spec (s : State) (h : s.port.unacked ≠ []) :
    let e := elapse (s.port.ackedAt + 200000) s
    (s.port.timeouts < 15 → exec .portAckTimeout s = .next { e with port := { e.port with
      timeouts := s.port.timeouts + 1
      resends := satAdd 16 s.port.resends 1
      unacked := s.port.unacked.map (fun f => { f with sentAt := now e })
      ackedAt := now e } }) ∧
    (s.port.timeouts = 15 → s.port.resetting = none → ∃ t, exec .portAckTimeout s = .next t ∧
      t.port.resetting = some ((s.port.gen + 1) % 65536) ∧ t.port.linkUp = false ∧
      t.port.control = s.port.control ++ [(6, 0, (s.port.gen + 1) % 65536)]) := by
  intro e
  have hp : e.port = _ := elapse_port _ s
  refine ⟨fun hlt => ?_, fun h15 hr => ?_⟩
  · have hu : (ackLate s).port.unacked = s.port.unacked := (congrArg PortState.unacked hp :)
    have ht : e.port.timeouts = s.port.timeouts := (congrArg PortState.timeouts hp :)
    have hs : e.port.resends = s.port.resends := (congrArg PortState.resends hp :)
    rw [portAckTimeout_eq h, if_neg (by omega), resend_eq (by rw [hu]; exact h), hu, ← ht, ← hs]
    rfl
  · have hr' : (ackLate s).port.resetting = none := (congrArg PortState.resetting hp :).trans hr
    have hg : (ackLate s).port.gen = s.port.gen := (congrArg PortState.gen hp :)
    have hc : (ackLate s).port.control = s.port.control := (congrArg PortState.control hp :)
    refine ⟨_, portAckTimeout_eq h, ?_⟩
    rw [if_pos (by omega), startReset_eq hr', hg, hc]
    exact ⟨rfl, rfl, rfl⟩

theorem hostSilentTimeout_resets (s : State) (ho : s.port.opened = true) (hr : s.port.resetting = none) :
    ∃ t, exec .hostSilentTimeout s = .next t ∧ now t = now (elapse (s.port.lastValid + 1000000) s) ∧
      t.port.resetting = some ((s.port.gen + 1) % 65536) ∧ t.port.control = s.port.control ++ [(6, 0, (s.port.gen + 1) % 65536)] ∧
      sent t = sent s := by
  have hp := elapse_port (s.port.lastValid + 1000000) s
  have hs := elapse_sent (s.port.lastValid + 1000000) s
  simp only [exec, execHostSilentTimeout, ho, when_true]
  generalize elapse (s.port.lastValid + 1000000) s = e at hp hs
  refine ⟨_, rfl, ?_⟩
  rw [startReset_eq (by rw [hp]; exact hr), hp, ← hs]
  refine ⟨rfl, rfl, rfl, ?_⟩
  unfold sent
  rw [hp]

end Sys2Proof.Machine
end

section
/-! The port's link: block lock, link resets, status frames and DATA frames (13 R408 to R417, R423, R436; 03 R89). -/

namespace Sys2Proof.Machine

/-! Block lock (13 R409, 03 R89) -/

/-- The state with block lock held. -/
def relocked (s : State) : State := { s with port := { s.port with blockLock := true } }

/-- The state with block lock held and the loop acquiring again. -/
def reacquiring (s : State) : State := { relocked s with time := { s.time with flock := 1, holdSince := none } }

/-- Block lock returns to a loop that is not in hold. -/
theorem regainLock_apart {s : State} (h : s.time.flock ≠ 3) : regainLock s = relocked s := if_pos (bne_iff_ne.2 h)

/-- A loop in hold acquires again; ALIGN is degraded by a hold of more than 1 ms. -/
theorem regainLock_hold {s : State} (h : s.time.flock = 3) : regainLock s =
    if s.time.holdSince.any (fun n => decide (n + 1000000 < now s)) then degrade (reacquiring s) else reacquiring s := by
  have hc : (s.time.flock != 3) = false := by rw [h]; rfl
  unfold regainLock
  simp only [onPort_time, hc, Bool.false_eq_true, if_false]
  rfl

theorem blockLockRegained_eq {s : State} (h : s.port.blockLock = false) : exec .blockLockRegained s =
    .next (if s.port.lockLostAt + 1000 < now s ∧ (regainLock s).port.opened = true then startReset (regainLock s)
      else regainLock s) := by
  simp only [exec, execBlockLockRegained, h, Bool.not_false, when_true, Bool.and_eq_true, decide_eq_true_eq]

theorem blockLockRegained_idle (s : State) (h : s.port.blockLock = true) : exec .blockLockRegained s = .next s := by
  simp only [exec, execBlockLockRegained, h, Bool.not_true, when_false]

theorem blockLockLost_spec (s : State) : (s.port.blockLock = true → exec .blockLockRegained s = .next s ∧
      exec .blockLockLost s = .next { s with
        port := { s.port with blockLock := false, lockLostAt := now s }
        time := if s.time.flock = 2 then { s.time with flock := 3, holdSince := some s.time.hub } else s.time }) ∧
    (s.port.blockLock = false → exec .blockLockLost s = .next s) := by
  refine ⟨fun h => ⟨blockLockRegained_idle s h, congrArg Host.Outcome.next (loseLock_locked s h)⟩, fun h => ?_⟩
  exact congrArg Host.Outcome.next (if_neg (by rw [h]; exact Bool.false_ne_true))

/-- A link reset that the hub starts leaves the time base and the lane as they are. -/
theorem startReset_fields {s : State} (h : s.port.resetting = none) : (startReset s).time = s.time ∧
    (startReset s).port.blockLock = s.port.blockLock ∧ (startReset s).port.resetting = some ((s.port.gen + 1) % 65536) := by
  rw [startReset_eq h]
  exact ⟨rfl, rfl, rfl⟩

/-- Block lock returns with no loop in hold: a link reset starts where it was away for more than 1 us. -/
theorem blockLockRegained_apart (s : State) (ho : s.port.opened = true) (hr : s.port.resetting = none)
    (hb : s.port.blockLock = false) (hf : s.time.flock ≠ 3) :
    (now s ≤ s.port.lockLostAt + 1000 → exec .blockLockRegained s = .next { s with port := { s.port with blockLock := true } }) ∧
    (s.port.lockLostAt + 1000 < now s → ∃ t, exec .blockLockRegained s = .next t ∧ t.port.blockLock = true ∧ t.time = s.time ∧
      t.port.resetting = some ((s.port.gen + 1) % 65536)) := by
  rw [blockLockRegained_eq hb, regainLock_apart hf]
  refine ⟨fun h => ?_, fun h => ⟨_, rfl, ?_⟩⟩
  · rw [if_neg (fun hc => Nat.not_lt.2 h hc.1)]
    rfl
  · have hc : s.port.lockLostAt + 1000 < now s ∧ (relocked s).port.opened = true := ⟨h, ho⟩
    obtain ⟨h1, h2, h3⟩ := startReset_fields (s := relocked s) hr
    rw [if_pos hc]
    exact ⟨h2, h1, h3⟩

/-- Block lock returns to a loop in hold whose hold degrades nothing. -/
theorem blockLockRegained_hold (s : State) (ho : s.port.opened = true) (hr : s.port.resetting = none)
    (hb : s.port.blockLock = false) (hf : s.time.flock = 3)
    (hs : s.time.align ≠ 2 ∨ ∀ h, s.time.holdSince = some h → now s ≤ h + 1000000) :
    ∃ t, exec .blockLockRegained s = .next t ∧ t.time = { s.time with flock := 1, holdSince := none } ∧
      t.port.blockLock = true ∧ t.port.resetting = if s.port.lockLostAt + 1000 < now s then some ((s.port.gen + 1) % 65536)
        else none := by
  have hreg : regainLock s = reacquiring s := by
    rw [regainLock_hold hf]
    split
    · next hany =>
      obtain ⟨n, hn, hlt⟩ := (Option.any_eq_true _ _).1 hany
      rcases hs with hs | hs
      · exact degrade_other hs
      · exact absurd (of_decide_eq_true hlt) (Nat.not_lt.2 (hs n hn))
    · rfl
  refine ⟨_, blockLockRegained_eq hb, ?_⟩
  rw [hreg]
  by_cases hl : s.port.lockLostAt + 1000 < now s
  · have hc : s.port.lockLostAt + 1000 < now s ∧ (reacquiring s).port.opened = true := ⟨hl, ho⟩
    obtain ⟨h1, h2, h3⟩ := startReset_fields (s := reacquiring s) hr
    rw [if_pos hc, if_pos hl]
    exact ⟨h1, h2, h3⟩
  · rw [if_neg (fun hc => hl hc.1), if_neg hl]
    exact ⟨rfl, rfl, hr⟩

theorem startReset_alarm (s : State) : (startReset s).alarm = s.alarm := by
  unfold startReset
  split <;> rfl

/-- Block lock returns after a hold of more than 1 ms: alignment to SYSTEM is degraded and class 7 raised. -/
theorem blockLockRegained_degrades (s : State) (hb : s.port.blockLock = false) (hf : s.time.flock = 3) (n : Nat)
    (ha : s.time.align = 2) (hn : s.time.holdSince = some n) (hl : n + 1000000 < now s) :
    ∃ t, exec .blockLockRegained s = .next t ∧ t.alarm = (raiseClass 7 { s with
      port := { s.port with blockLock := true }, time := { s.time with flock := 1, holdSince := none, align := 3 } }).alarm := by
  have hreg : regainLock s = raiseClass 7 { s with
      port := { s.port with blockLock := true }, time := { s.time with flock := 1, holdSince := none, align := 3 } } := by
    rw [regainLock_hold hf, hn, Option.any_some, if_pos (decide_eq_true hl)]
    exact degrade_system ha
  refine ⟨_, blockLockRegained_eq hb, ?_⟩
  rw [← hreg]
  split
  · exact startReset_alarm _
  · rfl

/-! Link resets (13 R410, R417) -/

/-- `t` is `s` after a link reset to GEN `g`: numbers from 0, nothing unacknowledged, and every tag of a port session free. -/
def LinkCleared (s : State) (g : Nat) (t : State) : Prop :=
  t.port.gen = g ∧ t.port.rxSeq = 0 ∧ t.port.txSeq = 0 ∧ sent t = [] ∧ t.port.linkUp = true ∧
    t.port.resetting = none ∧ t.port.linkResets = satAdd 16 s.port.linkResets 1 ∧ t.port.events.getLsbD 14 = true ∧
    t.sess = { s.sess with outstanding := s.sess.outstanding.filter (fun o => o.session == 65535) } ∧
    { t with port := s.port, sess := s.sess } = s

theorem completeReset_cleared (g : Nat) (f : PortState → PortState) (s : State)
    (hf : (f s.port).linkResets = s.port.linkResets) : LinkCleared s g (completeReset g (onPort f s)) := by
  refine ⟨?_, rfl, rfl, rfl, rfl, rfl, ?_, ?_, ?_, ?_⟩
  · rfl
  · rw [← hf]
    rfl
  · show ((f s.port).events ||| (1 <<< 14 : BitVec 16)).getLsbD 14 = true
    rw [BitVec.getLsbD_or]
    exact Bool.or_true _
  · simp only [completeReset, event_sess, onSess_sess, onPort_sess]
  · rw [completeReset, event_frame]
    rfl

theorem answerReset_calm (g : Nat) {s : State} (h : s.port.storm = false) : answerReset g s = control 7 0 g s := by
  unfold answerReset
  rw [h]
  rfl

theorem lreset_answered (s : State) (g : Nat) (hh : hears s = true) (hr : s.port.resetting = none)
    (hs : s.port.storm = false) :
    (g ≠ s.port.gen ∨ s.port.linkUp = false → ∃ t, exec (.lreset g) s = .next t ∧ LinkCleared s g t ∧
      t.port.control = s.port.control ++ [(7, 0, g)]) ∧
    (g = s.port.gen → s.port.linkUp = true → exec (.lreset g) s = .next { s with port := { s.port with
      lastValid := now s
      control := s.port.control ++ [(7, 0, g)] } }) := by
  have he : exec (.lreset g) s = .next (if (g = s.port.gen && s.port.linkUp) then control 7 0 g (alive s)
      else completeReset g (control 7 0 g (alive s))) := by
    have ha : answerReset g (alive s) = control 7 0 g (alive s) := answerReset_calm g hs
    simp only [exec, execLreset, hh, when_true, onPort_port, hr]
    rw [← ha]
    rfl
  rw [he]
  refine ⟨fun h => ?_, fun hg hu => ?_⟩
  · have hc : (decide (g = s.port.gen) && s.port.linkUp) = false := by
      rcases h with h | h
      · rw [decide_eq_false h, Bool.false_and]
      · rw [h, Bool.and_false]
    rw [hc, if_neg Bool.false_ne_true]
    exact ⟨_, rfl, completeReset_cleared g
      (fun p => { p with lastValid := now s, control := p.control ++ [(7, 0, g)] }) s rfl, rfl⟩
  · rw [decide_eq_true hg, hu, Bool.and_self, if_pos rfl]
    rfl

theorem lreset_crossed (s : State) (g m : Nat) (hh : hears s = true) (hr : s.port.resetting = some m) :
    (g < m → exec (.lreset g) s = .next { s with port := { s.port with lastValid := now s } }) ∧
    (g ≠ m → exec (.lresetAck g) s = .next s) ∧
    (g = m → ∃ t, exec (.lresetAck g) s = .next t ∧ LinkCleared s g t ∧ t.port.control = s.port.control) := by
  refine ⟨fun hg => ?_, fun hg => ?_, fun hg => ⟨_, ?_, completeReset_cleared g id s rfl, rfl⟩⟩
  · simp only [exec, execLreset, hh, when_true, onPort_port, hr, hg, if_true]
    rw [← hr]
    rfl
  · have hc : (hears s && s.port.resetting == some g) = false := by
      rw [hr, Bool.and_eq_false_iff]
      exact .inr (beq_eq_false_iff_ne.2 fun h => hg (Option.some.inj h).symm)
    simp only [exec, execLresetAck, hc, when_false]
  · simp only [exec, execLresetAck, hh, hr, hg, beq_self_eq_true, Bool.and_self, when_true]
    rfl

theorem lreset_spec (s : State) (g : Nat) (ho : s.port.opened = true) (hb : s.port.blockLock = true) :
    (s.port.resetting = none → s.port.storm = false →
      (g ≠ s.port.gen ∨ s.port.linkUp = false → ∃ t, exec (.lreset g) s = .next t ∧ LinkCleared s g t ∧
        t.port.control = s.port.control ++ [(7, 0, g)]) ∧
      (g = s.port.gen → s.port.linkUp = true → exec (.lreset g) s = .next { s with port := { s.port with
        lastValid := now s
        control := s.port.control ++ [(7, 0, g)] } })) ∧
    (∀ m, s.port.resetting = some m →
      (g < m → exec (.lreset g) s = .next { s with port := { s.port with lastValid := now s } }) ∧
      (g ≠ m → exec (.lresetAck g) s = .next s) ∧
      (g = m → ∃ t, exec (.lresetAck g) s = .next t ∧ LinkCleared s g t ∧ t.port.control = s.port.control)) :=
  ⟨lreset_answered s g (hears_open ho hb), fun m => lreset_crossed s g m (hears_open ho hb)⟩

theorem lresetRepeat_spec (s : State) : (s.port.resetting = none → exec .lresetRepeat s = .next s) ∧
    (∀ g, s.port.resetting = some g → let e := elapse (s.port.lresetAt + 10000) s
      exec .lresetRepeat s = .next { e with port := { e.port with
        lresetAt := now e
        control := e.port.control ++ [(6, 0, g)] } }) := by
  refine ⟨fun h => ?_, fun g h => ?_⟩
  · simp only [exec, execLresetRepeat, h]
  · simp only [exec, execLresetRepeat, h]
    rfl

/-! Status frames (13 R423) -/

theorem padTo_length (n : Nat) (bs : List Byte) : (padTo n bs).length = n := by
  simp only [padTo, zeros, List.length_take, List.length_append, List.length_replicate]
  omega

theorem statusFrame_spec (s : State) (ho : s.port.opened = true) :
    let e := elapse s.port.frameDue s
    let u := { e with port := { e.port with frameSeq := (s.port.frameSeq + 1) % 2 ^ 32 } }
    (frameBody u).length = 64 ∧ exec .statusFrame s = .next { u with
      port := { u.port with
        frame := frameBody u
        newEvents := 0
        frameDue := (now e / 10000 + 1) * 10000 }
      recov := { u.recov with frames := (u.recov.frames ++ [frameBody u]).drop (u.recov.frames.length + 1 - 64) } } := by
  have hq : (elapse s.port.frameDue s).port.frameSeq = s.port.frameSeq :=
    (congrArg PortState.frameSeq (elapse_port s.port.frameDue s) :)
  simp only [exec, execStatusFrame, ho, when_true]
  generalize elapse s.port.frameDue s = e at hq
  rw [← hq]
  exact ⟨padTo_length 64 _, rfl⟩

/-! DATA frames (13 R408, R411, R415) -/

theorem sendNak_eq {s : State} (reason : Nat) (h : s.port.nakSent = false) : sendNak reason s = { s with port := { s.port with
    nakSent := true
    control := s.port.control ++ [(4, reason, s.port.gen)] } } := by
  unfold sendNak
  rw [if_neg (by rw [h]; exact Bool.false_ne_true)]
  rfl

/-- A frame with a bad CRC is counted and refused with one NAK. -/
theorem dataFrame_badCrc (s : State) (octets : List Byte) (hh : hears s = true) (hc : (parseFrame octets).crcOk = false)
    (hn : s.port.nakSent = false) : exec (.dataFrame octets false) s = .next { s with port := { s.port with
      crcErr := satAdd 16 s.port.crcErr 1
      nakSent := true
      control := s.port.control ++ [(4, 1, s.port.gen)] } } := by
  have hk : (countCrc s).port.nakSent = false := hn
  simp only [exec, execDataFrame, hh, when_true, hc, Bool.false_eq_true, if_false, Bool.not_false, if_true, sendNak_eq 1 hk]
  rfl

/-- A DATA frame of the current GEN whose header is in order. -/
structure SoundFrame (s : State) (f : DataFrame) : Prop where
  crc : f.crcOk = true
  gen : f.gen = s.port.gen
  ty : f.ty = 1
  rsvd : f.linkRsvd = false
  short : f.length ≤ 2048
  whole : f.length = f.rxLength

/-- The frame of the expected number is acknowledged, and the next number expected. -/
def expectNext (s : State) : State :=
  control 3 0 s.port.gen (onPort (fun p => { p with rxSeq := (p.rxSeq + 1) % 4096, nakSent := false }) (alive s))

theorem expectNext_eq (s : State) : expectNext s = { s with port := { s.port with
    lastValid := now s
    rxSeq := (s.port.rxSeq + 1) % 4096
    nakSent := false
    control := s.port.control ++ [(3, 0, s.port.gen)] } } := by
  simp only [expectNext, alive, control, onPort]

theorem expectNext_sess (s : State) : (expectNext s).sess = s.sess := by rw [expectNext_eq]

theorem expectNext_sent (s : State) : sent (expectNext s) = sent s := by
  rw [expectNext_eq]
  rfl

/-- An answer to the frame changes the port alone. -/
theorem portSend_expectNext (r : Response) (s : State) : { portSend r (expectNext s) with port := s.port } = s := by
  rw [(portSend_spec r (expectNext s)).2, expectNext_eq]

/-- What a sound frame comes to while nothing awaits an acknowledgement. -/
theorem dataFrame_sound (s : State) (octets : List Byte) (hh : hears s = true) (hu : s.port.unacked = [])
    (hf : SoundFrame s (parseFrame octets)) :
    exec (.dataFrame octets false) s = .next (if (parseFrame octets).seq != s.port.rxSeq then sendNak 2 (alive s)
      else if (parseFrame octets).session = 65535 then
        portSend (mkResponse (fragHeader (parseFrame octets)) .denied (detail { reason := 8 })) (expectNext s)
      else takeFragment (parseFrame octets) (expectNext s)) := by
  obtain ⟨hcrc, hgen, hty, hrsvd, hshort, hwhole⟩ := hf
  simp only [exec, execDataFrame, hh, when_true]
  generalize parseFrame octets = f at *
  have hv : validFrame f.gen f.ack s = alive s := by
    rw [hgen]
    exact (validFrame_current f.ack hh).trans (takeAck_empty f.ack hu)
  have h1 : (f.gen != s.port.gen) = false := by rw [hgen]; exact bne_self_eq_false _
  have h2 : (decide (f.ty = 0) || decide (7 < f.ty) || f.linkRsvd) = false := by rw [hty, hrsvd]; rfl
  have h3 : (f.ty != 1) = false := by rw [hty]; rfl
  have h4 : (decide (2048 < f.length) || f.length != f.rxLength) = false := by
    rw [decide_eq_false (Nat.not_lt.2 hshort), hwhole, bne_self_eq_false, Bool.false_or]
  simp only [hcrc, h1, h2, h3, h4, hv, Bool.not_true, Bool.false_eq_true, if_false]
  rfl

theorem dropAssembly_empty (f : DataFrame) {s : State} (h : s.sess.assembling = []) : dropAssembly f s = s := by
  simp only [dropAssembly, onAssembling, onSess, h, List.filter_nil]
  rw [← h]

theorem flags_single {n : Nat} (h : n < 4) : bit 7 n = false ∧ bits 6 2 n = 0 := by
  interval_cases n <;> exact ⟨rfl, rfl⟩

/-- The request that a single fragment brings. -/
def wholeRequest (f : DataFrame) : Assembly :=
  { opcode := f.opcode, flags := f.flags, tag := f.tag, session := f.session, reqId := f.reqId, nextFrag := 1, body := f.body,
    complete := true }

/-- A sound single fragment waits complete in the request buffer. -/
theorem takeFragment_whole {f : DataFrame} {s : State} (ha : s.sess.assembling = []) (hf : f.frag = 0)
    (hk : knownOpcode f.opcode = true) (hr : f.hdrRsvd = false) (hfl : f.flags < 4) (hl : f.bodyLength = f.body.length)
    (hb : f.body.length ≤ 2032) :
    takeFragment f s = { s with sess := { s.sess with assembling := [wholeRequest f] } } := by
  obtain ⟨hmore, hres⟩ := flags_single hfl
  have hroom : ¬ (8388608 < buffered s + 0 + f.body.length) := by
    rw [buffered, ha]
    simp only [List.map_nil, List.sum_nil]
    omega
  unfold takeFragment
  simp only [hf, hk, hr, hmore, hres, hl, dropAssembly_empty f ha, bne_self_eq_false, Bool.false_and, Bool.or_self,
    Bool.false_eq_true, if_false, if_true, Bool.not_true, Bool.not_false, List.length_nil, if_neg hroom, onAssembling, onSess,
    ha, List.nil_append]
  rfl

/-- A fragment of an unassigned opcode is answered MALFORMED, and nothing is held of it. -/
theorem takeFragment_unknown {f : DataFrame} {s : State} (ha : s.sess.assembling = []) (hf : f.frag = 0)
    (hp : f.session ≠ 65535) (hk : knownOpcode f.opcode = false) :
    takeFragment f s = portSend (mkResponse (fragHeader f) .malformed (detail { reason := 1 })) s := by
  unfold takeFragment
  simp only [hf, hk, badFragment, dropAssembly_empty f ha, turnAway, bne_self_eq_false, Bool.false_and, Bool.false_eq_true,
    if_false, Bool.not_false, if_true]
  exact send_port _ s hp

theorem dataFrame_spec (s : State) (octets : List Byte) (ho : s.port.opened = true) (hb : s.port.blockLock = true) :
    let f := parseFrame octets
    (f.crcOk = false → s.port.nakSent = false → exec (.dataFrame octets false) s = .next { s with port := { s.port with
      crcErr := satAdd 16 s.port.crcErr 1
      nakSent := true
      control := s.port.control ++ [(4, 1, s.port.gen)] } }) ∧
    (f.crcOk = true → f.gen = s.port.gen → f.ty = 1 → f.linkRsvd = false → f.length ≤ 2048 → f.length = f.rxLength → s.port.unacked = [] →
      (f.seq ≠ s.port.rxSeq → s.port.nakSent = false → exec (.dataFrame octets false) s = .next { s with port := { s.port with
        lastValid := now s
        nakSent := true
        control := s.port.control ++ [(4, 2, s.port.gen)] } }) ∧
      (f.seq = s.port.rxSeq → f.session ≠ 65535 → s.sess.assembling = [] → f.frag = 0 →
        (knownOpcode f.opcode = true → f.hdrRsvd = false → f.flags < 4 → f.bodyLength = f.body.length → f.body.length ≤ 2032 →
          exec (.dataFrame octets false) s = .next { s with
            port := { s.port with
              lastValid := now s
              rxSeq := (s.port.rxSeq + 1) % 4096
              nakSent := false
              control := s.port.control ++ [(3, 0, s.port.gen)] }
            sess := { s.sess with assembling := [wholeRequest f] } }) ∧
        (knownOpcode f.opcode = false → ∃ t, exec (.dataFrame octets false) s = .next t ∧ { t with port := s.port } = s ∧
          sent t = sent s ++ fragmentsOf (mkResponse (fragHeader f) .malformed (detail { reason := 1 }))))) := by
  intro f
  have hh := hears_open ho hb
  refine ⟨dataFrame_badCrc s octets hh, fun hc hg ht hr hl hw hu => ?_⟩
  have hsound : SoundFrame s f := ⟨hc, hg, ht, hr, hl, hw⟩
  refine ⟨fun hseq hn => ?_, fun hseq hp ha hf => ?_⟩
  · have hk : (alive s).port.nakSent = false := hn
    rw [dataFrame_sound s octets hh hu hsound, bne_iff_ne.2 hseq, if_pos rfl, sendNak_eq 2 hk]
    rfl
  have hnum : (f.seq != s.port.rxSeq) = false := by rw [hseq]; exact bne_self_eq_false _
  have ha' : (expectNext s).sess.assembling = [] := by rw [expectNext_sess, ha]
  refine ⟨fun hk hrs hfl hbl hle => ?_, fun hk => ?_⟩
  · rw [dataFrame_sound s octets hh hu hsound, hnum, if_neg Bool.false_ne_true, if_neg hp]
    rw [takeFragment_whole ha' hf hk hrs hfl hbl hle, expectNext_eq]
  · refine ⟨_, dataFrame_sound s octets hh hu hsound, ?_⟩
    rw [hnum, if_neg Bool.false_ne_true, if_neg hp, takeFragment_unknown ha' hf hp hk]
    exact ⟨portSend_expectNext _ s, by rw [(portSend_spec _ _).1, expectNext_sent]⟩

/-- Settles O47, row by row: what each frame and each event of the link makes of the port. That an LRESET of the GEN in force is
answered and resets nothing is log 50, that DATA_FRAME only assembles the request log 51, and that SEQ of a status frame counts
the frame itself log 135. -/
theorem theLinkCarriesFrames : Obligations.TheLinkCarriesFrames :=
  ⟨closedPort_idle, ackFrames_spec, portAckTimeout_idle, portAckTimeout_spec,
    fun s ho hr => ⟨hostSilentTimeout_resets s ho hr, blockLockRegained_apart s ho hr,
      fun hb hf => ⟨blockLockRegained_hold s ho hr hb hf, blockLockRegained_degrades s hb hf⟩⟩,
    blockLockLost_spec, lreset_spec, lresetRepeat_spec, statusFrame_spec, dataFrame_spec⟩

end Sys2Proof.Machine
end

section
/-! The ticks of the still tree's requests: which conditions they are checked for, and the first tick that is free (04 R114 to
R118). -/

namespace Sys2Proof.Machine

/-! The first free tick (04 R115, R118) -/

theorem firstFree_self {bad : Nat → Bool} {lo : Nat} (n : Nat) (h : bad lo = false) : firstFree bad n lo = lo := by
  cases n with
  | zero => rfl
  | succ n => rw [firstFree, h, if_neg Bool.false_ne_true]

theorem le_firstFree (bad : Nat → Bool) (n lo : Nat) : lo ≤ firstFree bad n lo := by
  induction n generalizing lo with
  | zero => exact le_refl lo
  | succ n ih =>
    rw [firstFree]
    split
    · exact (Nat.le_succ lo).trans (ih (lo + 1))
    · exact le_refl lo

theorem firstFree_skips {bad : Nat → Bool} {n lo k : Nat} (hlo : lo ≤ k) (hk : k < firstFree bad n lo) : bad k = true := by
  induction n generalizing lo with
  | zero => exact absurd hk (Nat.not_lt.2 hlo)
  | succ n ih =>
    rw [firstFree] at hk
    split at hk
    · next hb =>
      rcases hlo.eq_or_lt with rfl | hlt
      · exact hb
      · exact ih hlt hk
    · exact absurd hk (Nat.not_lt.2 hlo)

/-- A search that ends on a barred tick has found all its ticks barred. -/
theorem firstFree_exhausted {bad : Nat → Bool} {n lo : Nat} (h : bad (firstFree bad n lo) = true) :
    firstFree bad n lo = lo + n := by
  induction n generalizing lo with
  | zero => rfl
  | succ n ih =>
    by_cases hb : bad lo = true
    · have hf : firstFree bad (n + 1) lo = firstFree bad n (lo + 1) := by rw [firstFree, if_pos hb]
      rw [hf] at h ⊢
      rw [ih h]
      omega
    · rw [firstFree_self _ (Bool.eq_false_iff.2 hb)] at h
      exact absurd h hb

theorem near_iff (a b : Nat) : near a b = true ↔ a < b + 8 ∧ b < a + 8 := by simp [near]

theorem near_false_iff (a b : Nat) : near a b = false ↔ b + 8 ≤ a ∨ a + 8 ≤ b := by
  rw [← Bool.not_eq_true, near_iff]
  omega

/-- Each centre bars at most 15 ticks. -/
theorem card_near_le (l : List Nat) (S : Finset Nat) (h : ∀ k ∈ S, ∃ c ∈ l, near c k = true) : S.card ≤ 15 * l.length := by
  have hsub : S ⊆ l.toFinset.biUnion fun c => Finset.Ico (c - 7) (c + 8) := by
    intro k hk
    obtain ⟨c, hc, hn⟩ := h k hk
    rw [near_iff] at hn
    exact Finset.mem_biUnion.2 ⟨c, List.mem_toFinset.2 hc, Finset.mem_Ico.2 (by omega)⟩
  calc S.card ≤ (l.toFinset.biUnion fun c => Finset.Ico (c - 7) (c + 8)).card := Finset.card_le_card hsub
    _ ≤ l.toFinset.card * 15 := Finset.card_biUnion_le_card_mul _ _ _ fun c _ => by rw [Nat.card_Ico]; omega
    _ ≤ 15 * l.length := by have := l.toFinset_card_le; omega

/-- A search longer than what some centres can bar ends on a free tick. -/
theorem firstFree_free {bad : Nat → Bool} {n lo : Nat} (l : List Nat) (hl : 15 * l.length < n)
    (hb : ∀ k, lo ≤ k → bad k = true → ∃ c ∈ l, near c k = true) : bad (firstFree bad n lo) = false := by
  by_contra hne
  have hend := firstFree_exhausted (Bool.eq_true_of_not_eq_false hne)
  have hcard := card_near_le l (Finset.Ico lo (lo + n)) fun k hk => by
    obtain ⟨h1, h2⟩ := Finset.mem_Ico.1 hk
    exact hb k h1 (firstFree_skips h1 (hend.symm ▸ h2))
  rw [Nat.card_Ico] at hcard
  omega

theorem crowded_iff (s : State) (k : Nat) : crowded s k = true ↔
    (∃ a ∈ s.root.queue, near a.tick k = true) ∨ ∃ m, s.time.markTick = some m ∧ near m (k - s.time.lstill) = true := by
  unfold crowded
  rw [Bool.or_eq_true, List.any_eq_true]
  cases s.time.markTick <;> simp

/-- What a tick has to keep clear of: the queued ticks, and the tick whose launch is that of the mark in preparation. -/
def crowders (s : State) : List Nat := s.root.queue.map (·.tick) ++ (s.time.markTick.map (· + s.time.lstill)).toList

theorem crowders_length (s : State) : (crowders s).length ≤ s.root.queue.length + 1 := by
  unfold crowders
  cases s.time.markTick <;> simp

theorem crowders_near {s : State} {k : Nat} (hk : s.time.lstill ≤ k) (h : crowded s k = true) :
    ∃ c ∈ crowders s, near c k = true := by
  rcases (crowded_iff s k).1 h with ⟨a, ha, hn⟩ | ⟨m, hm, hn⟩
  · exact ⟨a.tick, List.mem_append_left _ (List.mem_map_of_mem ha), hn⟩
  · refine ⟨m + s.time.lstill, List.mem_append_right _ (by simp [hm]), ?_⟩
    rw [near_iff] at hn ⊢
    omega

/-- The first tick of R118 is free while the queue holds at most its 64 actions. -/
theorem firstTick_free {s : State} {lo : Nat} (hq : s.root.queue.length ≤ 64) (hlo : s.time.lstill ≤ lo) :
    crowded s (firstTick s lo) = false := by
  have hlen := crowders_length s
  exact firstFree_free (crowders s) (by omega) fun k hk => crowders_near (hlo.trans hk)

/-- What the tick that AT_EARLIEST and the centre's own actions take is (04 R115, R118). -/
theorem firstTick_spec (s : State) (lo : Nat) (hq : s.root.queue.length ≤ 64) (hlo : s.time.lstill ≤ lo) :
    let n := firstTick s lo
    lo ≤ n ∧ (∀ a ∈ s.root.queue, n + 8 ≤ a.tick ∨ a.tick + 8 ≤ n) ∧
    (∀ m, s.time.markTick = some m → n - s.time.lstill + 8 ≤ m ∨ m + 8 ≤ n - s.time.lstill) ∧
    (∀ k, lo ≤ k → k < n → (∃ a ∈ s.root.queue, a.tick < k + 8 ∧ k < a.tick + 8) ∨
      (∃ m, s.time.markTick = some m ∧ m < k - s.time.lstill + 8 ∧ k - s.time.lstill < m + 8)) := by
  intro n
  have hfree : crowded s n = false := firstTick_free hq hlo
  refine ⟨le_firstFree _ _ _, fun a ha => ?_, fun m hm => ?_, fun k hk hn => ?_⟩
  · rw [← near_false_iff]
    by_contra hne
    rw [(crowded_iff s n).2 (.inl ⟨a, ha, Bool.eq_true_of_not_eq_false hne⟩)] at hfree
    exact Bool.noConfusion hfree
  · rw [← near_false_iff]
    by_contra hne
    rw [(crowded_iff s n).2 (.inr ⟨m, hm, Bool.eq_true_of_not_eq_false hne⟩)] at hfree
    exact Bool.noConfusion hfree
  · simpa only [near_iff] using (crowded_iff s k).1 (firstFree_skips hk hn)

/-! The tick a request takes (04 R114 to R116) -/

/-- A request that asks for `tick` takes tick `n`: it is not late or leaves the choice to the hub, and `n` is neither too far nor
barred. -/
structure TakesTick (s : State) (h : ReqHdr) (lo tick : Nat) (bad : Nat → Bool) (n : Nat) : Prop where
  eff : effTick h lo tick bad = n
  inTime : (decide (tick < lo) && !h.atEarliest) = false
  notFar : n ≤ now s + 2 ^ 40
  free : bad n = false

theorem TakesTick.asked {s : State} {h : ReqHdr} {lo tick : Nat} {bad : Nat → Bool} (hlo : lo ≤ tick)
    (hfar : tick ≤ now s + 2 ^ 40) (hb : bad tick = false) : TakesTick s h lo tick bad tick where
  eff := by
    unfold effTick
    rw [max_eq_left hlo, firstFree_self _ hb, ite_self]
  inTime := by rw [decide_eq_false (Nat.not_lt.2 hlo), Bool.false_and]
  notFar := hfar
  free := hb

theorem TakesTick.earliest {s : State} {h : ReqHdr} {lo tick : Nat} {bad : Nat → Bool} (hlo : tick < lo)
    (he : h.atEarliest = true) (hfar : lo ≤ now s + 2 ^ 40) (hb : bad lo = false) : TakesTick s h lo tick bad lo where
  eff := by
    unfold effTick
    rw [if_pos he, max_eq_right hlo.le, firstFree_self _ hb]
  inTime := by rw [he, Bool.not_true, Bool.and_false]
  notFar := hfar
  free := hb

theorem le_effTick (h : ReqHdr) (lo tick : Nat) (bad : Nat → Bool) : tick ≤ effTick h lo tick bad := by
  unfold effTick
  split
  · exact (le_max_left tick lo).trans (le_firstFree _ _ _)
  · exact le_refl tick

/-! The conditions of a request with a tick, in the order of 00 R13 -/

/-- A scope that the life-cycle state allows and that is valid (04 R109, R112). -/
def ScopeOpen (s : State) (scope : Nat) : Prop :=
  scope = 0 ∨ (scope < 15 ∧ regionState s = true ∧ (regionOf s scope).valid = true)

theorem scopeChecks_good {s : State} {scope : Nat} (h : ScopeOpen s scope) : ∀ c ∈ scopeChecks s scope, c.bad = false := by
  rcases h with rfl | ⟨hl, hr, hv⟩
  · simp [scopeChecks, badField, denied, refuse]
  · simp [scopeChecks, badField, denied, refuse, hl, hr, hv]

/-- The conditions of a request with a tick: its scope, what makes it BUSY, its tick, and the rest. -/
def tickedChecks (s : State) (h : ReqHdr) (lo tick scope : Nat) (bad : Nat → Bool) (held : Bool) (rest : List Check) : List Check :=
  scopeChecks s scope ++ ([busy held] ++ (tickChecks s h lo tick bad ++ rest))

theorem tickedChecks_good {s : State} {h : ReqHdr} {lo tick scope n : Nat} {bad : Nat → Bool} {rest : List Check}
    (hs : ScopeOpen s scope) (ht : TakesTick s h lo tick bad n) (hr : ∀ c ∈ rest, c.bad = false) :
    pick (tickedChecks s h lo tick scope bad false rest) = none := by
  obtain ⟨heff, hin, hfar, hfree⟩ := ht
  have htick : ∀ c ∈ tickChecks s h lo tick bad, c.bad = false := by
    simpa [tickChecks, heff, hin, hfree, lateIf, refuse] using hfar
  rw [tickedChecks, pick_good _ _ (scopeChecks_good hs), pick_good _ _ (by simp [busy]), pick_good _ _ htick]
  exact pick_none _ hr

/-- A tick that is too early is LATE, whatever its later conditions. -/
theorem tickedChecks_late {s : State} {h : ReqHdr} {lo tick scope : Nat} {bad : Nat → Bool} {rest : List Check}
    (hs : ScopeOpen s scope) (hlate : tick < lo) (he : h.atEarliest = false) (hr : ∀ c ∈ rest, c.st = .refused) :
    pick (tickedChecks s h lo tick scope bad false rest) = some (lateIf true) := by
  have htick : tickChecks s h lo tick bad = lateIf true ::
      [refuse (decide (now s + 2 ^ 40 < effTick h lo tick bad)), refuse (bad (effTick h lo tick bad))] := by
    rw [tickChecks, decide_eq_true hlate, he]
    rfl
  rw [tickedChecks, pick_good _ _ (scopeChecks_good hs), pick_good _ _ (by simp [busy]), htick, List.cons_append]
  refine pick_first rfl fun c hc => ?_
  have hst : c.st = .refused := by
    rcases List.mem_append.1 hc with hc | hc
    · fin_cases hc <;> rfl
    · exact hr c hc
  rw [hst]
  decide

/-- What answers is a failed condition of the earliest status (00 R13); with none failed, nothing does. -/
theorem pick_spec (l : List Check) : (pick l = none ∧ ∀ x ∈ l, x.bad = false) ∨
    ∃ c, pick l = some c ∧ c ∈ l ∧ c.bad = true ∧ ∀ x ∈ l, x.bad = true → statusRank c.st ≤ statusRank x.st := by
  induction l using List.reverseRecOn with
  | nil => exact .inl ⟨rfl, fun x hx => absurd hx List.not_mem_nil⟩
  | append_singleton l x ih =>
    have hp : pick (l ++ [x]) = pickStep (pick l) x := by simp [pick, List.foldl_append]
    rw [hp]
    unfold pickStep
    cases hx : x.bad with
    | false =>
      rw [if_neg Bool.false_ne_true]
      refine ih.imp (fun ⟨h1, h2⟩ => ⟨h1, ?_⟩) fun ⟨c, h1, h2, h3, h4⟩ => ⟨c, h1, List.mem_append_left _ h2, h3, ?_⟩
      · simpa [or_imp, forall_and, hx] using h2
      · simpa [or_imp, forall_and, hx] using h4
    | true =>
      rw [if_pos rfl]
      refine .inr ?_
      rcases ih with ⟨h1, h2⟩ | ⟨c, h1, h2, h3, h4⟩
      · refine ⟨x, by rw [h1], by simp, hx, fun y hy hb => ?_⟩
        rcases List.mem_append.1 hy with hy | hy
        · rw [h2 y hy] at hb
          exact Bool.noConfusion hb
        · rw [List.mem_singleton.1 hy]
      · rw [h1]
        dsimp only
        split
        · next hlt =>
          refine ⟨x, rfl, by simp, hx, fun y hy hb => ?_⟩
          rcases List.mem_append.1 hy with hy | hy
          · exact hlt.le.trans (h4 y hy hb)
          · rw [List.mem_singleton.1 hy]
        · next hge =>
          refine ⟨c, rfl, List.mem_append_left _ h2, h3, fun y hy hb => ?_⟩
          rcases List.mem_append.1 hy with hy | hy
          · exact h4 y hy hb
          · rw [List.mem_singleton.1 hy]
            exact Nat.le_of_not_lt hge

theorem refused_of_rank {st : Status} (h : statusRank st = 7) : st = .refused := by
  revert h
  cases st <;> decide

/-- A failed REFUSED condition answers where none of an earlier status fails (00 R13). -/
theorem pick_refused {l : List Check} (hl : ∀ x ∈ l, x.bad = true → 7 ≤ statusRank x.st)
    (hr : ∃ x ∈ l, x.bad = true ∧ x.st = .refused) : ∃ c, pick l = some c ∧ c.st = .refused := by
  obtain ⟨x, hx, hb, hst⟩ := hr
  rcases pick_spec l with ⟨-, hn⟩ | ⟨c, hc, hm, hcb, hmin⟩
  · rw [hn x hx] at hb
    exact Bool.noConfusion hb
  · have h7 := hl c hm hcb
    have hle := hmin x hx hb
    rw [hst] at hle
    exact ⟨c, hc, refused_of_rank (le_antisymm hle h7)⟩

theorem scopeChecks_rank {s : State} {scope : Nat} (hl : scope < 15) (hr : scope = 0 ∨ regionState s = true) :
    ∀ c ∈ scopeChecks s scope, c.bad = true → 7 ≤ statusRank c.st := by
  have hd : (scope != 0 && !regionState s) = false := by
    rcases hr with rfl | hr
    · rfl
    · rw [hr, Bool.not_true, Bool.and_false]
  simp [scopeChecks, badField, denied, refuse, hl, hd, statusRank]

theorem tickChecks_rank {s : State} {h : ReqHdr} {lo tick : Nat} {bad : Nat → Bool} (hlo : lo ≤ tick) :
    ∀ c ∈ tickChecks s h lo tick bad, c.bad = true → 7 ≤ statusRank c.st := by
  simp [tickChecks, lateIf, refuse, hlo, statusRank]

/-- A tick more than 2^40 ns ahead is one that the conditions refuse (04 R116). -/
theorem tickChecks_far {s : State} {h : ReqHdr} {lo tick : Nat} {bad : Nat → Bool} (hfar : now s + 2 ^ 40 < tick) :
    ∃ c ∈ tickChecks s h lo tick bad, c.bad = true ∧ c.st = .refused :=
  ⟨refuse (decide (now s + 2 ^ 40 < effTick h lo tick bad)), by simp [tickChecks],
    decide_eq_true (hfar.trans_le (le_effTick h lo tick bad)), rfl⟩

/-- A tick too far ahead is REFUSED, unless a condition of an earlier status fails. -/
theorem tickedChecks_far {s : State} {h : ReqHdr} {lo tick scope : Nat} {bad : Nat → Bool} {rest : List Check} (hl : scope < 15)
    (hs : scope = 0 ∨ regionState s = true) (hlo : lo ≤ tick) (hfar : now s + 2 ^ 40 < tick)
    (hr : ∀ c ∈ rest, c.bad = true → 7 ≤ statusRank c.st) :
    ∃ c, pick (tickedChecks s h lo tick scope bad false rest) = some c ∧ c.st = .refused := by
  obtain ⟨c, hc, hbad⟩ := tickChecks_far (h := h) (lo := lo) (bad := bad) hfar
  refine pick_refused ?_ ⟨c, by simp [tickedChecks, hc], hbad⟩
  simp only [tickedChecks, List.forall_mem_append]
  exact ⟨scopeChecks_rank hl hs, by simp [busy], tickChecks_rank hlo, hr⟩

end Sys2Proof.Machine
end

section
/-! STILL_AT and RELEASE_AT (04 R113 to R121). -/

namespace Sys2Proof.Machine

/-- A request whose conditions hold, and whose effect `F` moves with the bookkeeping of requests, is answered after `F` with the
status and body it ends with. -/
theorem outcome_request (k : ReqKind) (h : ReqHdr) (checks : ReqHdr → State → List Check) (act : ReqHdr → State → State)
    (s : State) (F : State → State) (st : Status) (body : List Byte) (hr : Ready s h) (ha : Allowed s k h)
    (hc : ∀ as, pick (checks { h with opcode := k.op } { s with sess := { s.sess with assembling := as } }) = none)
    (hF : ∀ g s, F (onSess g s) = onSess g (F s)) (hs : (F s).sess = s.sess)
    (hact : ∀ g, act { h with opcode := k.op } (onSess g s) = respond { h with opcode := k.op } st body (F (onSess g s))) :
    ∃ t, request k h checks act s = .next t ∧ Answered (F s) t k.op h st body := by
  refine ok_request k h checks act s (F s) st body hr ha hc (by rw [hs]) fun w hw => ⟨F w, hw.map F hF hs, ?_⟩
  obtain ⟨g, rfl⟩ := hw.eq_onSess
  exact hact g

/-- A request one of whose conditions is REFUSED, and none of an earlier status fails, is REFUSED. -/
theorem refused_request (k : ReqKind) (h : ReqHdr) (checks : ReqHdr → State → List Check) (act : ReqHdr → State → State)
    (s : State) (hr : Ready s h) (ha : Allowed s k h) (l : List Check)
    (hl : ∀ as, checks { h with opcode := k.op } { s with sess := { s.sess with assembling := as } } = l)
    (hp : ∃ c, pick l = some c ∧ c.st = .refused) :
    ∃ t b, request k h checks act s = .next t ∧ Answered s t k.op h .refused b := by
  obtain ⟨c, hc, hst⟩ := hp
  obtain ⟨t, ht, ha'⟩ := bad_request k h checks act s c hr ha fun as => by rw [hl as, hc]
  exact ⟨t, failBody c, ht, hst ▸ ha'⟩

/-! Queueing an action (04 R118) -/

theorem enqueue_eq (kind scope n origin : Nat) (s : State) : enqueue kind scope n origin 0 s = { s with root := { s.root with
    queue := insertAction { kind := kind, scope := scope, tick := n, launchAt := n - s.time.lstill, origin := origin } s.root.queue
    wstate := if kind = 1 ∧ scope = 0 ∧ s.root.wstate = 0 then 1 else s.root.wstate } } := by
  simp [enqueue, onRoot, and_assoc]

theorem queueFull_false {s : State} {n : Nat} (h : s.root.queue.length + n ≤ 64) : queueFull s n = false :=
  decide_eq_false (Nat.not_lt.2 h)

/-- Nothing that concerns every request of the still tree makes one BUSY: there is room for `n` actions, and neither a step nor a
recovery that bars it runs. -/
structure StillTreeFree (s : State) (n : Nat) : Prop where
  room : s.root.queue.length + n ≤ 64
  noStep : s.root.stepKind = 0
  noRecovery : recBusy s = false

theorem StillTreeFree.notBusy {s : State} {n : Nat} (h : StillTreeFree s n) : (queueFull s n || stepRuns s || recBusy s) = false := by
  rw [queueFull_false h.room, stepRuns, h.noStep, h.noRecovery]
  rfl

/-! The requests -/

def stillAtRest (s : State) (h : ReqHdr) (tick scope : Nat) : List Check :=
  [refuse (inForce s scope || queuedStill s scope),
    refuse (conflicts s 1 scope (effTick h (now s + s.time.lstill) tick (crowded s)))]

def releaseAtRest (s : State) (h : ReqHdr) (tick scope : Nat) : List Check :=
  let t := effTick h (now s + s.time.lstill) tick (crowded s)
  [refuse (!inForce s scope && !queuedStill s scope), refuse (laterStill s scope t), refuse (conflicts s 2 scope t)]

def stillAtChecks (tick scope : Nat) (h : ReqHdr) (s : State) : List Check :=
  tickedChecks s h (now s + s.time.lstill) tick scope (crowded s) (queueFull s 1 || stepRuns s || recBusy s)
    (stillAtRest s h tick scope)

def releaseAtChecks (tick scope : Nat) (h : ReqHdr) (s : State) : List Check :=
  tickedChecks s h (now s + s.time.lstill) tick scope (crowded s) (queueFull s 1 || stepRuns s || recBusy s || holdsStill s scope)
    (releaseAtRest s h tick scope)

/-- STILL_AT (1) and RELEASE_AT (2) queue their action at the tick they take, and answer it. -/
def queueAt (kind tick scope : Nat) (h : ReqHdr) (s : State) : State :=
  let t := effTick h (now s + s.time.lstill) tick (crowded s)
  respond h .ok (le 8 t) (enqueue kind scope t 0 0 s)

theorem stillAt_eq (h : ReqHdr) (tick scope : Nat) (s : State) : exec (.stillAt h tick scope) s =
    request { op := 0x30, classC := true, need := .intrusive } h (stillAtChecks tick scope) (queueAt 1 tick scope) s := by
  have hc : stillAtChecks tick scope = fun h s => scopeChecks s scope ++ [busy (queueFull s 1 || stepRuns s || recBusy s)] ++
      tickChecks s h (now s + s.time.lstill) tick (crowded s) ++ stillAtRest s h tick scope := by
    funext h s
    simp only [stillAtChecks, tickedChecks, List.append_assoc]
  rw [hc]
  rfl

theorem releaseAt_eq (h : ReqHdr) (tick scope : Nat) (s : State) : exec (.releaseAt h tick scope) s =
    request { op := 0x31, classC := true, need := .intrusive } h (releaseAtChecks tick scope) (queueAt 2 tick scope) s := by
  have hc : releaseAtChecks tick scope = fun h s => scopeChecks s scope ++
      [busy (queueFull s 1 || stepRuns s || recBusy s || holdsStill s scope)] ++
      tickChecks s h (now s + s.time.lstill) tick (crowded s) ++ releaseAtRest s h tick scope := by
    funext h s
    simp only [releaseAtChecks, tickedChecks, List.append_assoc]
  rw [hc]
  rfl

theorem queueAt_onSess {s : State} {h : ReqHdr} {tick n : Nat} (kind scope op : Nat) (g : SessionState → SessionState)
    (ht : effTick h (now s + s.time.lstill) tick (crowded s) = n) :
    queueAt kind tick scope { h with opcode := op } (onSess g s) =
      respond { h with opcode := op } .ok (le 8 n) (enqueue kind scope n 0 0 (onSess g s)) := by
  rw [← ht]
  rfl

section
variable {s : State} {h : ReqHdr} {tick scope n : Nat} (hi : AsIntrusive s h) (hs : ScopeOpen s scope) (hf : StillTreeFree s 1)
include hi hs hf

theorem stillAt_queues (ht : TakesTick s h (now s + s.time.lstill) tick (crowded s) n) (hforce : inForce s scope = false)
    (hqueued : queuedStill s scope = false) (hconf : conflicts s 1 scope n = false) :
    ∃ t, exec (.stillAt h tick scope) s = .next t ∧ Answered (enqueue 1 scope n 0 0 s) t 0x30 h .ok (le 8 n) := by
  rw [stillAt_eq]
  refine outcome_request _ h _ _ s (enqueue 1 scope n 0 0) .ok (le 8 n) hi.1.1 (int_allowed hi _ rfl) (fun as => ?_)
    (fun _ _ => rfl) rfl fun g => queueAt_onSess 1 scope 0x30 g ht.eff
  show pick (stillAtChecks tick scope h s) = none
  rw [stillAtChecks, hf.notBusy]
  refine tickedChecks_good hs ht ?_
  simp [stillAtRest, ht.eff, hforce, hqueued, hconf, refuse]

theorem stillAt_late (ht : tick < now s + s.time.lstill) (he : h.atEarliest = false) :
    ∃ t, exec (.stillAt h tick scope) s = .next t ∧ Answered s t 0x30 h .late (detail {}) := by
  rw [stillAt_eq]
  refine bad_request _ h _ _ s (lateIf true) hi.1.1 (int_allowed hi _ rfl) fun as => ?_
  show pick (stillAtChecks tick scope h s) = some (lateIf true)
  rw [stillAtChecks, hf.notBusy]
  exact tickedChecks_late hs ht he (by simp [stillAtRest, refuse])

theorem releaseAt_queues (hh : holdsStill s scope = false)
    (ht : TakesTick s h (now s + s.time.lstill) tick (crowded s) n) (hheld : inForce s scope = true ∨ queuedStill s scope = true)
    (hlater : laterStill s scope n = false) (hconf : conflicts s 2 scope n = false) :
    ∃ t, exec (.releaseAt h tick scope) s = .next t ∧ Answered (enqueue 2 scope n 0 0 s) t 0x31 h .ok (le 8 n) := by
  rw [releaseAt_eq]
  refine outcome_request _ h _ _ s (enqueue 2 scope n 0 0) .ok (le 8 n) hi.1.1 (int_allowed hi _ rfl) (fun as => ?_)
    (fun _ _ => rfl) rfl fun g => queueAt_onSess 2 scope 0x31 g ht.eff
  show pick (releaseAtChecks tick scope h s) = none
  rw [releaseAtChecks, hf.notBusy, hh]
  refine tickedChecks_good hs ht ?_
  have hn : (!inForce s scope && !queuedStill s scope) = false := by rcases hheld with h | h <;> simp [h]
  simp [releaseAtRest, ht.eff, hn, hlater, hconf, refuse]

theorem releaseAt_late (hh : holdsStill s scope = false) (ht : tick < now s + s.time.lstill) (he : h.atEarliest = false) :
    ∃ t, exec (.releaseAt h tick scope) s = .next t ∧ Answered s t 0x31 h .late (detail {}) := by
  rw [releaseAt_eq]
  refine bad_request _ h _ _ s (lateIf true) hi.1.1 (int_allowed hi _ rfl) fun as => ?_
  show pick (releaseAtChecks tick scope h s) = some (lateIf true)
  rw [releaseAtChecks, hf.notBusy, hh]
  exact tickedChecks_late hs ht he (by simp [releaseAtRest, refuse])

end

/-- Settles O9, from the tick each request takes and the conditions it passes. That a queued wafer STILL moves WSTATE from RUNNING to
the queued value is log 69. -/
theorem stillAndReleaseQueue : Obligations.StillAndReleaseQueue := by
  refine ⟨fun s h tick scope hi hs hq hk hrec => ?_, firstTick_spec⟩
  intro lo free queued
  have hf : StillTreeFree s 1 := ⟨hq, hk, hrec⟩
  have hqueued : ∀ kind n t, Answered (enqueue kind scope n 0 0 s) t (0x2F + kind) h .ok (le 8 n) → queued kind n t :=
    fun kind n t ha => by rw [enqueue_eq] at ha; exact ha
  refine ⟨fun hforce hstill => ⟨fun hlo ⟨hfar, hcrowd, hconf⟩ => ?_, fun hlo he ⟨hfar, hcrowd, hconf⟩ => ?_,
    stillAt_late hi hs hf⟩, fun hheld hh => ⟨fun hlo ⟨hfar, hcrowd, hconf⟩ hlater => ?_,
    fun hlo he ⟨hfar, hcrowd, hconf⟩ hlater => ?_, releaseAt_late hi hs hf hh⟩⟩
  · obtain ⟨t, ht, ha⟩ := stillAt_queues hi hs hf (.asked hlo hfar hcrowd) hforce hstill hconf
    exact ⟨t, ht, hqueued 1 tick t ha⟩
  · obtain ⟨t, ht, ha⟩ := stillAt_queues hi hs hf (.earliest hlo he hfar hcrowd) hforce hstill hconf
    exact ⟨t, ht, hqueued 1 lo t ha⟩
  · obtain ⟨t, ht, ha⟩ := releaseAt_queues hi hs hf hh (.asked hlo hfar hcrowd) hheld hlater hconf
    exact ⟨t, ht, hqueued 2 tick t ha⟩
  · obtain ⟨t, ht, ha⟩ := releaseAt_queues hi hs hf hh (.earliest hlo he hfar hcrowd) hheld hlater hconf
    exact ⟨t, ht, hqueued 2 lo t ha⟩

end Sys2Proof.Machine
end

section
/-! STEP_TICK and STEP_CMD (04 R145 to R148). -/

namespace Sys2Proof.Machine

/-! A change of several tiles -/

theorem tileOf_onTiles {f : Nat → Tile → Tile} (hf : ∀ u x, f u (f u x) = f u x) (ts : List Nat) (s : State) {u : Nat}
    (hu : u < numTiles) : tileOf (onTiles ts f s) u = if u ∈ ts then f u (tileOf s u) else tileOf s u := by
  induction ts generalizing s with
  | nil => simp [onTiles]
  | cons t r ih =>
    have hstep : onTiles (t :: r) f s = onTiles r f (onTile t (f t) s) := rfl
    rw [hstep, ih]
    by_cases h : u = t
    · subst h
      simp [tileOf_onTile_self _ _ hu, hf]
    · simp [tileOf_onTile_ne _ _ h, h]

theorem onTiles_frame (ts : List Nat) (f : Nat → Tile → Tile) (s : State) :
    onTiles ts f s = { s with tiles := (onTiles ts f s).tiles } := by
  induction ts generalizing s with
  | nil => rfl
  | cons t r ih =>
    have hstep : onTiles (t :: r) f s = onTiles r f (onTile t (f t) s) := rfl
    rw [hstep]
    exact (ih _).trans (by unfold onTile; split <;> rfl)

theorem onTiles_onSess (ts : List Nat) (f : Nat → Tile → Tile) (g : SessionState → SessionState) (s : State) :
    onTiles ts f (onSess g s) = onSess g (onTiles ts f s) := by
  induction ts generalizing s with
  | nil => rfl
  | cons t r ih =>
    have hone : onTile t (f t) (onSess g s) = onSess g (onTile t (f t) s) := by
      unfold onTile
      split <;> rfl
    have hstep : ∀ s, onTiles (t :: r) f s = onTiles r f (onTile t (f t) s) := fun _ => rfl
    rw [hstep, hstep, hone, ih]

/-! Arming a command step (04 R148) -/

theorem armStep_frame (scope k : Nat) (s : State) : armStep scope k s = { s with tiles := (armStep scope k s).tiles } :=
  onTiles_frame _ _ s

theorem armStep_onSess (scope k : Nat) (g : SessionState → SessionState) (s : State) :
    armStep scope k (onSess g s) = onSess g (armStep scope k s) := onTiles_onSess _ _ g s

/-- The tile with STEP_K written. -/
def withStepK (k : Nat) (x : Tile) : Tile := { x with still := { x.still with stepK := k } }

theorem tileOf_armStep (scope k : Nat) (s : State) {u : Nat} (hu : u < numTiles) : tileOf (armStep scope k s) u =
    if u ∈ scopeTiles s scope ∧ (tileOf s u).power.answers = true then withStepK k (tileOf s u) else tileOf s u := by
  have h := tileOf_onTiles (f := fun _ => withStepK k) (fun _ _ => rfl)
    ((scopeTiles s scope).filter (fun t => (tileOf s t).power.answers)) s hu
  simp only [List.mem_filter] at h
  exact h

/-- Queueing both actions of a step, and noting it. -/
theorem startStep_eq (kind scope t close k : Nat) (s : State) : startStep kind scope t close k s = { s with root := { s.root with
    queue := insertAction { kind := 1, scope := scope, tick := close, launchAt := close - s.time.lstill, origin := 2 }
      (insertAction { kind := 2, scope := scope, tick := t, launchAt := t - s.time.lstill, origin := 2 } s.root.queue)
    wstate := if scope = 0 ∧ s.root.wstate = 0 then 1 else s.root.wstate
    stepKind := kind
    stepScope := scope
    stepReleased := false
    stepClose := close
    stepK := k } } := by
  simp [startStep, enqueue_eq, onRoot]

/-! The requests -/

/-- A step's ticks, `gap` apart, cannot both be had. -/
def stepBad (s : State) (gap t : Nat) : Bool := crowded s t || crowded s (t + gap)

def stepRest (s : State) (h : ReqHdr) (lo tick scope gap : Nat) : List Check :=
  let t := effTick h lo tick (stepBad s gap)
  refuse (decide (now s + 2 ^ 40 < t + gap)) :: refuse (queuedStill s scope) :: (needsDeclared s scope ++
    [refuse (conflicts s 2 scope t || conflicts s 1 scope (t + gap))])

theorem stepChecks_eq (s : State) (h : ReqHdr) (lo tick scope gap : Nat) : stepChecks s h lo tick scope gap =
    tickedChecks s h lo tick scope (stepBad s gap) (queueFull s 2 || stepRuns s || recBusy s || holdsStill s scope)
      (stepRest s h lo tick scope gap) := by
  have hb : (fun t => crowded s t || crowded s (t + gap)) = stepBad s gap := rfl
  simp only [stepChecks, tickedChecks, stepRest, hb, List.append_assoc, List.cons_append, List.nil_append]

theorem needsDeclared_good {s : State} {scope : Nat} (h : declared s scope = true) : ∀ c ∈ needsDeclared s scope, c.bad = false := by
  simp [needsDeclared, refuse, h]

/-- A step that takes tick `t` passes its conditions. -/
theorem stepChecks_good {s : State} {h : ReqHdr} {lo tick scope gap t : Nat} (hs : ScopeOpen s scope) (hf : StillTreeFree s 2)
    (hh : holdsStill s scope = false) (hd : declared s scope = true) (hq : queuedStill s scope = false)
    (ht : TakesTick s h lo tick (stepBad s gap) t) (hfar : t + gap ≤ now s + 2 ^ 40) (h2 : conflicts s 2 scope t = false)
    (h1 : conflicts s 1 scope (t + gap) = false) : pick (stepChecks s h lo tick scope gap) = none := by
  rw [stepChecks_eq, hf.notBusy, hh]
  refine tickedChecks_good hs ht ?_
  simp only [stepRest, List.forall_mem_cons, List.forall_mem_append, ht.eff, hq, h1, h2, decide_eq_false (Nat.not_lt.2 hfar)]
  exact ⟨rfl, rfl, needsDeclared_good hd, rfl, fun c hc => absurd hc List.not_mem_nil⟩

theorem stepRest_rank (s : State) (h : ReqHdr) (lo tick scope gap : Nat) :
    ∀ c ∈ stepRest s h lo tick scope gap, c.bad = true → 7 ≤ statusRank c.st := by
  simp [stepRest, needsDeclared, refuse, statusRank]

theorem stepChecks_far {s : State} {h : ReqHdr} {lo tick scope gap : Nat} (hl : scope < 15)
    (hs : scope = 0 ∨ regionState s = true) (hf : StillTreeFree s 2) (hh : holdsStill s scope = false) (hlo : lo ≤ tick)
    (hfar : now s + 2 ^ 40 < tick) : ∃ c, pick (stepChecks s h lo tick scope gap) = some c ∧ c.st = .refused := by
  rw [stepChecks_eq, hf.notBusy, hh]
  exact tickedChecks_far hl hs hlo hfar (stepRest_rank s h lo tick scope gap)

theorem stepTick_eq (h : ReqHdr) (tick scope n : Nat) (s : State) : exec (.stepTick h tick scope n) s =
    request { op := 0x32, classC := true, need := .intrusive } h
      (fun h s => badField (n % 2 == 1 || decide (n < 8) || decide (2147483646 < n)) 12 ::
        stepChecks s h (now s + s.time.lstill) tick scope n)
      (fun h s => respond h .ok
        (le 8 (effTick h (now s + s.time.lstill) tick (stepBad s n)) ++ le 8 (effTick h (now s + s.time.lstill) tick (stepBad s n) + n))
        (startStep 1 scope (effTick h (now s + s.time.lstill) tick (stepBad s n))
          (effTick h (now s + s.time.lstill) tick (stepBad s n) + n) 0 s)) s := rfl

/-- What STEP_CMD does once its conditions hold. -/
def startCmdStep (tick scope k limit : Nat) (h : ReqHdr) (s : State) : State :=
  let t := effTick h (now s + 20000) tick (stepBad s (limit * 1000))
  if (scopeTiles s scope).all (fun u => counts (tileOf s u)) then
    respond h .ok (le 8 t ++ le 8 (t + limit * 1000)) (startStep 2 scope t (t + limit * 1000) k (armStep scope k s))
  else fail h { st := .timeout } (armStep scope k s)

theorem stepCmd_eq (h : ReqHdr) (tick scope k limit : Nat) (s : State) : exec (.stepCmd h tick scope k limit) s =
    request { op := 0x33, classC := true, need := .intrusive } h
      (fun h s => badField (k == 0 || decide (255 < k)) 9 :: badField (limit == 0 || decide (1000000 < limit)) 12 ::
        stepChecks s h (now s + 20000) tick scope (limit * 1000)) (startCmdStep tick scope k limit) s := rfl

theorem stepTick_fields {n : Nat} (h2 : n % 2 = 0) (h8 : 8 ≤ n) (hn : n ≤ 2147483646) :
    (n % 2 == 1 || decide (n < 8) || decide (2147483646 < n)) = false := by
  simp [h2, h8, hn]

theorem stepCmd_fields {k limit : Nat} (hk : 1 ≤ k) (hk2 : k ≤ 255) (hl : 1 ≤ limit) (hl2 : limit ≤ 1000000) :
    (k == 0 || decide (255 < k)) = false ∧ (limit == 0 || decide (1000000 < limit)) = false := by
  simp [hk2, hl2, Nat.ne_of_gt hk, Nat.ne_of_gt hl]

section
variable {s : State} {h : ReqHdr} {tick scope t : Nat} (hi : AsIntrusive s h) (hs : ScopeOpen s scope) (hf : StillTreeFree s 2)
  (hh : holdsStill s scope = false) (hd : declared s scope = true) (hq : queuedStill s scope = false)
include hi hs hf hh hd hq

theorem stepTick_queues {n : Nat} (hfield : (n % 2 == 1 || decide (n < 8) || decide (2147483646 < n)) = false)
    (ht : TakesTick s h (now s + s.time.lstill) tick (stepBad s n) t) (hfar : t + n ≤ now s + 2 ^ 40)
    (h2 : conflicts s 2 scope t = false) (h1 : conflicts s 1 scope (t + n) = false) :
    ∃ u, exec (.stepTick h tick scope n) s = .next u ∧
      Answered (startStep 1 scope t (t + n) 0 s) u 0x32 h .ok (le 8 t ++ le 8 (t + n)) := by
  rw [stepTick_eq]
  refine outcome_request _ h _ _ s (startStep 1 scope t (t + n) 0) .ok _ hi.1.1 (int_allowed hi _ rfl) (fun as => ?_)
    (fun _ _ => rfl) rfl fun g => ?_
  · show pick (badField (n % 2 == 1 || decide (n < 8) || decide (2147483646 < n)) 12 ::
      stepChecks s h (now s + s.time.lstill) tick scope n) = none
    rw [hfield]
    exact (pick_good [_] _ (by simp [badField])).trans (stepChecks_good hs hf hh hd hq ht hfar h2 h1)
  · have heff := ht.eff
    subst heff
    rfl

section
variable {k limit : Nat} (hfield : (k == 0 || decide (255 < k)) = false ∧ (limit == 0 || decide (1000000 < limit)) = false)
  (ht : TakesTick s h (now s + 20000) tick (stepBad s (limit * 1000)) t) (hfar : t + limit * 1000 ≤ now s + 2 ^ 40)
  (h2 : conflicts s 2 scope t = false) (h1 : conflicts s 1 scope (t + limit * 1000) = false)
include hfield ht hfar h2 h1

omit hi in
theorem stepCmd_good : pick (badField (k == 0 || decide (255 < k)) 9 :: badField (limit == 0 || decide (1000000 < limit)) 12 ::
    stepChecks s h (now s + 20000) tick scope (limit * 1000)) = none := by
  rw [hfield.1, hfield.2]
  exact (pick_good [_, _] _ (by simp [badField])).trans (stepChecks_good hs hf hh hd hq ht hfar h2 h1)

/-- Where every member answers and holds a mark, STEP_CMD queues the step. -/
theorem stepCmd_queues (hall : (scopeTiles s scope).all (fun u => counts (tileOf s u)) = true) :
    ∃ u, exec (.stepCmd h tick scope k limit) s = .next u ∧
      Answered (startStep 2 scope t (t + limit * 1000) k (armStep scope k s)) u 0x33 h .ok
        (le 8 t ++ le 8 (t + limit * 1000)) := by
  have hgood := stepCmd_good hs hf hh hd hq hfield ht hfar h2 h1
  rw [stepCmd_eq]
  refine outcome_request _ h _ _ s (fun s => startStep 2 scope t (t + limit * 1000) k (armStep scope k s)) .ok _ hi.1.1
    (int_allowed hi _ rfl) (fun _ => hgood) (fun g s => ?_) ?_ fun g => ?_
  · rw [armStep_onSess]
    rfl
  · rw [startStep_eq, armStep_frame]
  · have heff := ht.eff
    subst heff
    exact if_pos hall

/-- Where some member does not answer or holds no mark, STEP_CMD times out and has armed those that answer. -/
theorem stepCmd_timeout (hall : (scopeTiles s scope).all (fun u => counts (tileOf s u)) = false) :
    ∃ u, exec (.stepCmd h tick scope k limit) s = .next u ∧
      Answered (armStep scope k s) u 0x33 h .timeout (detail {}) := by
  have hgood := stepCmd_good hs hf hh hd hq hfield ht hfar h2 h1
  rw [stepCmd_eq]
  refine outcome_request _ h _ _ s (armStep scope k) .timeout _ hi.1.1 (int_allowed hi _ rfl)
    (fun _ => hgood) (armStep_onSess scope k) ?_ fun g => ?_
  · rw [armStep_frame]
  · exact if_neg (ne_true_of_eq_false hall)

end

end

/-- Settles O10, from what queueing a step and arming its members change. -/
theorem stepsQueue : Obligations.StepsQueue := by
  intro s h tick scope n k limit hi hs hq hk hrec hh hd hst free rel still stepped
  have hf : StillTreeFree s 2 := ⟨by omega, hk, hrec⟩
  have hbad : ∀ gap, free gap → stepBad s gap tick = false := fun gap ⟨_, hc, hc2, _⟩ => by rw [stepBad, hc, hc2]; rfl
  refine ⟨fun h2 h8 hn hlo hfree => ?_, fun hk1 hk2 hl1 hl2 hlo hfree => ?_⟩
  · have ⟨hfar, _, _, hc2, hc1⟩ := hfree
    obtain ⟨t, ht, ha⟩ := stepTick_queues hi hs hf hh hd hst (stepTick_fields h2 h8 hn)
      (.asked hlo (by omega) (hbad n hfree)) hfar hc2 hc1
    rw [startStep_eq] at ha
    exact ⟨t, ht, ha⟩
  · have ⟨hfar, _, _, hc2, hc1⟩ := hfree
    have hfield := stepCmd_fields hk1 hk2 hl1 hl2
    have htick : TakesTick s h (now s + 20000) tick (stepBad s (limit * 1000)) tick := .asked hlo (by omega) (hbad _ hfree)
    refine ⟨fun hall => ?_, fun ⟨u, hu, hc⟩ => ?_⟩
    · obtain ⟨t, ht, ha⟩ := stepCmd_queues hi hs hf hh hd hst hfield htick hfar hc2 hc1
        (List.all_eq_true.2 fun u hu => by simp [counts, hall u hu])
      have htiles : t.tiles = (armStep scope k s).tiles := by
        have := congrArg State.tiles ha.rest
        rwa [startStep_eq] at this
      refine ⟨t, ht, ?_, fun u hu => ?_⟩
      · rw [startStep_eq, armStep_frame, ← htiles] at ha
        exact ha
      · rw [tileOf_of_tiles htiles, tileOf_armStep scope k s hu]
        exact if_congr ⟨And.left, fun hm => ⟨hm, (hall u hm).1⟩⟩ rfl rfl
    · obtain ⟨t, ht, ha⟩ := stepCmd_timeout hi hs hf hh hd hst hfield htick hfar hc2 hc1
        (List.all_eq_false.2 ⟨u, hu, by rw [hc]; exact Bool.false_ne_true⟩)
      have htiles : t.tiles = (armStep scope k s).tiles := (congrArg State.tiles ha.rest :)
      refine ⟨t, ht, ?_⟩
      rw [armStep_frame, ← htiles] at ha
      exact ha

end Sys2Proof.Machine
end

section
/-! Ticks too far ahead (04 R116). -/

namespace Sys2Proof.Machine

section
variable {s : State} {h : ReqHdr} {tick scope : Nat} (hi : AsIntrusive s h) (hfar : now s + 2 ^ 40 < tick)
include hi hfar

section
variable (hl : scope < 15) (hs : scope = 0 ∨ regionState s = true)
include hl hs

theorem stillAt_far (hf : StillTreeFree s 1) (hlo : now s + s.time.lstill ≤ tick) :
    ∃ t b, exec (.stillAt h tick scope) s = .next t ∧ Answered s t 0x30 h .refused b := by
  rw [stillAt_eq]
  refine refused_request _ h _ _ s hi.1.1 (int_allowed hi _ rfl) (stillAtChecks tick scope h s) (fun _ => rfl) ?_
  rw [stillAtChecks, hf.notBusy]
  exact tickedChecks_far hl hs hlo hfar (by simp [stillAtRest, refuse, statusRank])

variable (hh : holdsStill s scope = false)
include hh

theorem releaseAt_far (hf : StillTreeFree s 1) (hlo : now s + s.time.lstill ≤ tick) :
    ∃ t b, exec (.releaseAt h tick scope) s = .next t ∧ Answered s t 0x31 h .refused b := by
  rw [releaseAt_eq]
  refine refused_request _ h _ _ s hi.1.1 (int_allowed hi _ rfl) (releaseAtChecks tick scope h s) (fun _ => rfl) ?_
  rw [releaseAtChecks, hf.notBusy, hh]
  exact tickedChecks_far hl hs hlo hfar (by simp [releaseAtRest, refuse, statusRank])

theorem stepTick_far {n : Nat} (hf : StillTreeFree s 2) (hlo : now s + s.time.lstill ≤ tick)
    (hn : (n % 2 == 1 || decide (n < 8) || decide (2147483646 < n)) = false) :
    ∃ t b, exec (.stepTick h tick scope n) s = .next t ∧ Answered s t 0x32 h .refused b := by
  rw [stepTick_eq]
  refine refused_request _ h _ _ s hi.1.1 (int_allowed hi _ rfl)
    (badField (n % 2 == 1 || decide (n < 8) || decide (2147483646 < n)) 12 ::
      stepChecks s h (now s + s.time.lstill) tick scope n) (fun _ => rfl) ?_
  rw [hn, ← List.singleton_append, pick_good _ _ (by simp [badField])]
  exact stepChecks_far hl hs hf hh hlo hfar

theorem stepCmd_far {k limit : Nat} (hf : StillTreeFree s 2)
    (hn : (k == 0 || decide (255 < k)) = false ∧ (limit == 0 || decide (1000000 < limit)) = false) :
    ∃ t b, exec (.stepCmd h tick scope k limit) s = .next t ∧ Answered s t 0x33 h .refused b := by
  rw [stepCmd_eq]
  refine refused_request _ h _ _ s hi.1.1 (int_allowed hi _ rfl)
    ([badField (k == 0 || decide (255 < k)) 9, badField (limit == 0 || decide (1000000 < limit)) 12] ++
      stepChecks s h (now s + 20000) tick scope (limit * 1000)) (fun _ => rfl) ?_
  rw [hn.1, hn.2, pick_good _ _ (by simp [badField])]
  exact stepChecks_far hl hs hf hh (by omega) hfar

end

omit hi in
theorem takeChecks_far {id : Nat} (hid : 1 ≤ id) (hid2 : id < 2 ^ 31) (hf : StillTreeFree s 1) (hlo : now s + s.time.lstill ≤ tick)
    (hb : takeBarred s = false) (ht : txnCommitted s = false) : ∃ c, pick (takeChecks id tick h s) = some c ∧ c.st = .refused := by
  obtain ⟨c, hc, hbad⟩ := tickChecks_far (s := s) (h := { h with atEarliest := false }) (lo := now s + s.time.lstill)
    (bad := crowded s) hfar
  have htick : tick ≠ 0 := by omega
  have hrun : (queueFull s 1 || stepRuns s) = false := (Bool.or_eq_false_iff.1 hf.notBusy).1
  refine pick_refused ?_ ⟨c, by simp [takeChecks, htick, hc], hbad⟩
  simp only [takeChecks, if_neg htick, List.forall_mem_append]
  refine ⟨⟨?_, tickChecks_rank hlo⟩, ?_⟩
  · have hfield : (id == 0 || decide (2 ^ 31 ≤ id)) = false := by
      rw [decide_eq_false (Nat.not_le.2 hid2), beq_eq_false_iff_ne.2 (Nat.ne_of_gt hid)]
      rfl
    rw [hfield, hb, hf.noRecovery, ht, hrun]
    simp [badField, busy]
  · simp [refuse, statusRank]

theorem snapTake_far {id : Nat} {autoRel : Bool} (hid : 1 ≤ id) (hid2 : id < 2 ^ 31) (hf : StillTreeFree s 1)
    (hlo : now s + s.time.lstill ≤ tick) (hb : takeBarred s = false) (ht : txnCommitted s = false) :
    ∃ t b, exec (.snapTake h id autoRel tick) s = .next t ∧ Answered s t 0x80 h .refused b :=
  refused_request _ h _ _ s hi.1.1 (int_allowed hi _ rfl) (takeChecks id tick h s) (fun _ => rfl)
    (takeChecks_far hfar hid hid2 hf hlo hb ht)

end

/-- Settles O57: none of the conditions that R13 puts first fails, and the tick's own does. -/
theorem farTicksAreRefused : Obligations.FarTicksAreRefused := by
  intro s h tick hi hfar hlst hq hk hrec
  have hf1 : StillTreeFree s 1 := ⟨by omega, hk, hrec⟩
  have hf2 : StillTreeFree s 2 := ⟨by omega, hk, hrec⟩
  have hlo : now s + s.time.lstill ≤ tick := by omega
  exact ⟨fun scope hl hs => ⟨stillAt_far hi hfar hl hs hf1 hlo, fun hh => ⟨releaseAt_far hi hfar hl hs hh hf1 hlo,
      fun n h2 h8 hn => stepTick_far hi hfar hl hs hh hf2 hlo (stepTick_fields h2 h8 hn),
      fun k limit hk1 hk2 hl1 hl2 => stepCmd_far hi hfar hl hs hh hf2 (stepCmd_fields hk1 hk2 hl1 hl2)⟩⟩,
    fun id autoRel hid hid2 hb ht => snapTake_far hi hfar hid hid2 hf1 hlo hb ht⟩

end Sys2Proof.Machine
end

section
/-! A hang (10 R320), and class 3 while a region still stands (04 R144). -/

namespace Sys2Proof.Machine

/-! What the passing of hub time leaves (03 R84, 05 R177) -/

@[simp] theorem elapse_root (t : Nat) (s : State) : (elapse t s).root = s.root := by rw [elapse_frame]
@[simp] theorem elapse_snap (t : Nat) (s : State) : (elapse t s).snap = s.snap := by rw [elapse_frame]
@[simp] theorem elapse_recov (t : Nat) (s : State) : (elapse t s).recov = s.recov := by rw [elapse_frame]
@[simp] theorem elapse_edges (t : Nat) (s : State) : (elapse t s).edges = s.edges := by rw [elapse_frame]
@[simp] theorem elapse_cfg (t : Nat) (s : State) : (elapse t s).cfg = s.cfg := by rw [elapse_frame]

theorem pressPart_alarm {a : AlarmState} (n : Nat) {s : State} (h : s.alarm = a) : (pressPart n s).alarm = { a with
    classes := (pressPart n s).alarm.classes
    disarmed := (pressPart n s).alarm.disarmed } := by
  subst h
  unfold pressPart
  split <;> rfl

/-- Of the alarm root a press changes the bindings of the user classes alone (05 R177). -/
theorem pressCentre_alarm (s : State) : (pressCentre s).alarm = { s.alarm with
    classes := (pressCentre s).alarm.classes
    disarmed := (pressCentre s).alarm.disarmed } := by
  cases h : s.txn.active with
  | none => rw [pressCentre_none h]
  | some x =>
    have hx : (pressEpoch x s).alarm = s.alarm := by
      unfold pressEpoch
      split <;> rfl
    rw [pressCentre_some h]
    exact pressPart_alarm _ hx

theorem elapse_alarm (n : Nat) (s : State) : (elapse n s).alarm = { s.alarm with
    classes := (elapse n s).alarm.classes
    disarmed := (elapse n s).alarm.disarmed } := by
  unfold elapse reachTick
  split
  · split
    · rw [pressCentre_alarm]
      rfl
    · rfl
  · rfl

/-! A record of a ready ring (10 R301, R306) -/

theorem eddyClass_lt {code c : Nat} (h : eddyClass code = some c) : c < 8 := by
  unfold eddyClass at h
  split at h <;> simp at h <;> omega

/-- With the whole mask set every event is recorded (10 R305). -/
theorem eddyEnabled (code : Nat) : (match eddyClass code with
    | none => true
    | some c => (forcedMask 0xFF).getLsbD c) = true := by
  cases h : eddyClass code with
  | none => rfl
  | some c =>
    have hall : ∀ c < 8, (forcedMask 0xFF).getLsbD c = true := by decide
    exact hall c (eddyClass_lt h)

/-- The first record of its RCLK cycle goes into the next slot with the next SEQ. -/
theorem ringWrite_first (depth me : Nat) (r : Eddy) (e : StubEddy) (hb : e.burst = 0) (hs : e.stream = false)
    (hh : e.head < depth) : (ringWrite depth me r e).ring = mput {} e.ring e.head { r with seq := e.seq } ∧
      (ringWrite depth me r e).head = (e.head + 1) % depth ∧ (ringWrite depth me r e).seq = (e.seq + 1) % 256 := by
  have hslot : (e.head + depth) % depth = e.head := by rw [Nat.add_mod_right, Nat.mod_eq_of_lt hh]
  refine ⟨?_, rfl, rfl⟩
  simp [ringWrite, streamPush, inOrder, hb, hs, hslot]

/-- An empty write queue passes an event to the ring at once. -/
theorem wqPass_empty (depth c me : Nat) (r : Eddy) (e : StubEddy) (hf : e.freeze = false) (hq : e.wq = 0) (hb : e.burst = 0)
    (hl : e.lostQ = 0) : wqPass depth c me r e = ringWrite depth me r { e with wq := 1, wqCycle := c } := by
  have he : { e with burst := if e.wqCycle = c then e.burst else 0 } = e := by rw [hb, ite_self, ← hb]
  have hg : enterGap depth c me r.flags e = e := by simp [enterGap, hl]
  have hn : wqNow e c = 0 := by rw [wqNow, hq, Nat.zero_sub]
  have hr : ringEnter depth me r { e with wq := 1, wqCycle := c } = ringWrite depth me r { e with wq := 1, wqCycle := c } :=
    if_pos (by rw [hf]; rfl)
  unfold wqPass
  rw [he, hg]
  dsimp only
  rw [hn, ← hr]
  rfl

theorem recordAt_recorded {s : State} {k : Nat} (time code data : Nat) (hk : k < numTiles) (hr : EddyReady s k) :
    Recorded s (recordAt k time code data s) k time code (eddyFlags (tileOf s k)) (BitVec.ofNat 64 data) := by
  obtain ⟨hin, hfreeze, hstream, hwq, hburst, hlost, hmask, hhead⟩ := hr
  have hx : (tileOf (recordAt k time code data s) k).eddy = wqPass (ringDepth s) (now s / 2) (stubNow s k)
      ⟨time, code, eddyFlags (tileOf s k), 0, BitVec.ofNat 64 data⟩ (tileOf s k).eddy := by
    rw [recordAt, if_neg (by simp [inService, hin]), tileOf_onTile_self _ _ hk]
    exact congrArg Tile.eddy (if_pos (by rw [hmask]; exact eddyEnabled code))
  rw [wqPass_empty _ _ _ _ _ hfreeze hwq hburst hlost] at hx
  obtain ⟨hring, hnext, hseq⟩ := ringWrite_first (ringDepth s) (stubNow s k)
    ⟨time, code, eddyFlags (tileOf s k), 0, BitVec.ofNat 64 data⟩
    { (tileOf s k).eddy with wq := 1, wqCycle := now s / 2 } hburst hstream hhead
  rw [← hx] at hring hnext hseq
  refine ⟨?_, fun i hi => ?_, hnext, hseq⟩
  · rw [hring, mget_mput, if_pos rfl]
  · rw [hring, mget_mput, if_neg hi]

theorem EddyReady.congr {s u : State} {k : Nat} (h : EddyReady s k) (hr : u.rill = s.rill) (hc : u.cfg = s.cfg)
    (he : (tileOf u k).eddy = (tileOf s k).eddy) : EddyReady u k := by
  unfold EddyReady ringDepth at *
  rwa [hr, hc, he]

theorem Recorded.congr {s t u v : State} {k time code flags : Nat} {data : Word} (h : Recorded s t k time code flags data)
    (hc : u.cfg = s.cfg) (hs : (tileOf u k).eddy = (tileOf s k).eddy) (ht : (tileOf v k).eddy = (tileOf t k).eddy) :
    Recorded u v k time code flags data := by
  unfold Recorded ringDepth at *
  rwa [hc, hs, ht]

theorem Driven.congr {s t u : State} {c : Nat} (h : Driven s t c) (ha : u.alarm = s.alarm) (hn : now u = now s) : Driven u t c := by
  unfold Driven at *
  rwa [ha, hn]

/-! Comparators without a watch plan (05 R165, R171) -/

theorem cmpMatched_noBank {x : Tile} {src : Nat} (p : Nat → Bool) (h : activeBank x.core = []) (hs : src ≠ 0) :
    cmpMatched x src p = [] := by
  have hreg : ∀ n w, cmpReg x.core n w = 0 := fun n w => by simp [cmpReg, bankWord, h, mget]
  unfold cmpMatched
  split
  · rfl
  · simp [hreg, bits, hs.symm]

theorem cmpEvent_noBank {s : State} {k src : Nat} (p : Nat → Bool) (h : NoBank s k) (hs : src ≠ 0) : cmpEvent k src p s = s := by
  rw [cmpEvent, cmpMatched_noBank p h hs]
  rfl

/-! HANG (10 R320) -/

/-- The tile whose watchdog has fired at stub time `me`. -/
def hungTile (me : Nat) (x : Tile) : Tile :=
  { stopHang me x with hang := { (stopHang me x).hang with fired := true, episodes := satAdd 16 x.hang.episodes 1 } }

/-- The data of a HANG record: the running command (10 R304). -/
def hangData (x : Tile) : Nat := x.core.cmd.layer * 2 ^ 48 + x.core.cmd.oper * 2 ^ 32 + x.core.cmd.step

theorem hang_eq {s : State} {k : Nat} (hk : k < numTiles) (hu : coreUp (tileOf s k) = true) (hb : NoBank s k)
    (hc : hangCounts (tileOf s k) = true) :
    let e := elapse (now s + (hangLimit (tileOf s k) - hangCount (stubNow s k) (tileOf s k))) s
    exec (.hang k) s = .next (driveClass 3 (record k 0x05 (hangData (tileOf s k)) (onTile k (hungTile (stubNow e k)) e))) := by
  intro e
  have he : tileOf e k = tileOf s k := tileOf_elapse _ _ _
  obtain ⟨-, w, hw⟩ := recordAt_retiled (ts40 (stubNow (onTile k (hungTile (stubNow e k)) e) k)) 0x05 (hangData (tileOf s k)) hk
    (onTile_retiled k (hungTile (stubNow e k)) e hk)
  have hnb : NoBank (driveClass 3 (record k 0x05 (hangData (tileOf s k)) (onTile k (hungTile (stubNow e k)) e))) k := by
    show activeBank (tileOf (record k 0x05 (hangData (tileOf s k)) (onTile k (hungTile (stubNow e k)) e)) k).core = []
    rw [record, hw, he]
    exact hb
  rw [← cmpEvent_noBank (fun _ => true) hnb (by decide : 6 ≠ 0)]
  have hcmd : ∀ t, tileOf t k = tileOf s k → hangData (tileOf t k) = hangData (tileOf s k) := fun t ht => by rw [ht]
  simp only [exec, execHang, when, hu, hc, Bool.and_self, if_true]
  rw [← hcmd e he]
  rfl

/-- What HANG changes: the tile's watchdog and its ring, and the wire of class 3. -/
theorem hang_spec (s : State) (k : Nat) (hk : k < numTiles) :
    let x := tileOf s k
    let e := elapse (now s + (hangLimit x - hangCount (stubNow s k) x)) s
    coreUp x = true → NoBank s k → EddyReady s k → hangCounts x = true →
    ∃ t, exec (.hang k) s = .next t ∧ Driven e t 3 ∧ t.root = e.root ∧ t.txn = e.txn ∧ t.snap = e.snap ∧
      (∀ u, (tileOf t u).still = (tileOf s u).still) ∧ (tileOf t k).hang.fired = true ∧
      (tileOf t k).hang.episodes = satAdd 16 x.hang.episodes 1 ∧
      Recorded e t k (ts40 (stubNow e k)) 0x05 (eddyFlags x)
        (BitVec.ofNat 64 (x.core.cmd.layer * 2 ^ 48 + x.core.cmd.oper * 2 ^ 32 + x.core.cmd.step)) := by
  intro x e hu hb hr hc
  have he : tileOf e k = x := tileOf_elapse _ _ _
  let h := onTile k (hungTile (stubNow e k)) e
  have hh : tileOf h k = hungTile (stubNow e k) x := by rw [tileOf_onTile_self _ _ hk, he]
  have hhe : { h with tiles := e.tiles } = e := (onTile_onlyTile k _ e).1
  have hcfg : h.cfg = e.cfg := (congrArg State.cfg hhe :)
  have hcfge : e.cfg = s.cfg := elapse_cfg _ s
  have hrill : h.rill = s.rill := (congrArg State.rill hhe :).trans (elapse_rill _ _)
  have hstub : stubNow h k = stubNow e k := by
    have htime : h.time = e.time := (congrArg State.time hhe :)
    rw [stubNow, stub8, rclkNow, now, htime, hh, stubNow, stub8, rclkNow, now, he]
    rfl
  have hready : EddyReady h k := hr.congr hrill (hcfg.trans hcfge) (by rw [hh]; rfl)
  obtain ⟨⟨hrec, hother⟩, w, hw⟩ := recordAt_retiled (ts40 (stubNow h k)) 0x05 (hangData x) hk (onTile_retiled k _ e hk)
  have hrecorded := recordAt_recorded (ts40 (stubNow h k)) 0x05 (hangData x) hk hready
  refine ⟨_, hang_eq hk hu hb hc, ?_, ?_, ?_, ?_, fun u => ?_, ?_, ?_, ?_⟩
  · exact (driveClass_driven 3 _).congr (congrArg State.alarm hrec :).symm (congrArg now hrec :).symm
  · exact (congrArg State.root hrec :)
  · exact (congrArg State.txn hrec :)
  · exact (congrArg State.snap hrec :)
  · by_cases hku : u = k
    · subst hku
      refine (congrArg Tile.still hw :).trans ?_
      rw [he]
      rfl
    · exact congrArg Tile.still ((hother u hku).trans (tileOf_elapse _ _ _))
  · exact (congrArg (fun y => y.hang.fired) hw :)
  · refine (congrArg (fun y => y.hang.episodes) hw :).trans ?_
    rw [he]
    rfl
  · have hflags : eddyFlags (tileOf h k) = eddyFlags x := by rw [hh]; rfl
    have hfin := hrecorded.congr (v := driveClass 3 (record k 0x05 (hangData x) h)) hcfg.symm (by rw [hh, he]; rfl) rfl
    rw [hstub, hflags] at hfin
    exact hfin

/-! The alarm root and class 3 (04 R144) -/

theorem traceTrigger_frame (cs : BitVec 16) (s : State) : traceTrigger cs s = { s with
    plans := (traceTrigger cs s).plans
    shims := (traceTrigger cs s).shims } := by
  unfold traceTrigger
  split
  · rfl
  · split <;> rfl

theorem recordOutcome_frame (cs : BitVec 16) (s : State) : recordOutcome cs s = { s with
    recov := { s.recov with
      cls := (recordOutcome cs s).recov.cls
      outcome := (recordOutcome cs s).recov.outcome
      elapsedUs := (recordOutcome cs s).recov.elapsedUs }
    port := (recordOutcome cs s).port } := by
  unfold recordOutcome
  split
  · rfl
  · split <;> rfl

theorem joinRecovery_idle (cs : BitVec 16) {s : State} (h : recRuns s = false) : joinRecovery cs s = s :=
  if_pos (by rw [h]; rfl)

/-- Classes none of which asks for an action are noted, and outside a recovery nothing else comes of them. -/
theorem acceptClasses_record {cs : BitVec 16} {s : State} (he : s.alarm.enabled = true) (hc : cs ≠ 0)
    (ha : (strongest s cs).2 = acRecord) (hr : recRuns s = false) : acceptClasses cs s =
      recordOutcome cs (traceTrigger cs (setW1c 0x400 cs.toNat (onAlarm (fun a => { a with raised := a.raised ||| cs }) s))) := by
  have hrec : recRuns (recordOutcome cs (traceTrigger cs (setW1c 0x400 cs.toNat
      (onAlarm (fun a => { a with raised := a.raised ||| cs }) s)))) = false := by
    rw [recordOutcome_frame, traceTrigger_frame]
    exact hr
  have hq : ∀ b : Bool, ¬(decide (acRecord ≠ acRecord) && b) = true := by decide
  unfold acceptClasses
  rw [if_neg (by rw [he, beq_eq_false_iff_ne.2 hc]; decide)]
  dsimp only
  rw [ha, if_neg (hq _), decodeAction, if_pos rfl, joinRecovery_idle cs hrec]

/-- While a region still stands class 3 asks for no action, whatever is bound to it. -/
theorem strongest_hang {s : State} (h : regionStands s = true) : (strongest s 8).2 = acRecord := by
  have hl : classList 8 = [3] := by decide
  have ha : actionNow s 3 = acRecord := by
    unfold actionNow
    exact if_pos (by rw [h]; rfl)
  rw [strongest, hl, List.foldl_cons, List.foldl_nil, ha]
  rfl

/-- Class 3 accepted under a region's still is recorded, and nothing of the alarm root, the stills, the transactions, the
snapshot and the tiles changes besides. -/
theorem alarmAccept_hang (s : State) (w : BitVec 16) (hs : s.rill.inService = true) (hw : w &&& drivenClasses s = 8)
    (hst : regionStands s = true) (he : s.alarm.enabled = true) (hr : recRuns s = false) :
    let u := accepting s 8
    ∃ t, exec (.alarmAccept w) s = .next t ∧ t.alarm = { u.alarm with raised := u.alarm.raised ||| 8 } ∧ t.root = u.root ∧
      t.txn = u.txn ∧ t.snap = u.snap ∧ t.tiles = s.tiles := by
  intro u
  have hexec : exec (.alarmAccept w) s = .next (acceptClasses 8 u) := by
    simp only [exec, execAlarmAccept, when, inService, hs, hw]
    rfl
  have hroot : u.root = s.root := elapse_root _ s
  have htiles : u.tiles = s.tiles := elapse_tiles _ _
  have hstands : regionStands u = true := by
    unfold regionStands inForce at hst ⊢
    rwa [hroot, htiles]
  have henabled : u.alarm.enabled = true := by
    have h : u.alarm.enabled = (elapse (acceptTime s 8) s).alarm.enabled := rfl
    rw [h, elapse_alarm]
    exact he
  have hruns : recRuns u = false := by
    unfold recRuns at hr ⊢
    rwa [show u.recov = s.recov from elapse_recov _ s]
  rw [hexec, acceptClasses_record henabled (by decide) (strongest_hang hstands) hruns, recordOutcome_frame, traceTrigger_frame]
  exact ⟨_, rfl, rfl, rfl, rfl, rfl, htiles⟩

/-- Settles O60: what HANG drives, and what the root makes of it while a region still stands. -/
theorem hangIsRecordedUnderRegion : Obligations.HangIsRecordedUnderRegion := ⟨hang_spec, alarmAccept_hang⟩

end Sys2Proof.Machine
end

section
/-! The launch of the head of the action queue, and what waits for room in it (04 R118, R129, R138; 02 R80). -/

namespace Sys2Proof.Machine

/-! Events (13 R424) -/

theorem event_sets {n : Nat} (hn : n < 16) (s : State) : (event n s).port.events.getLsbD n = true := by
  have hbit : ∀ n < 16, ((1 : BitVec 16) <<< n).getLsbD n = true := by decide
  show (s.port.events ||| ((1 : BitVec 16) <<< n)).getLsbD n = true
  rw [BitVec.getLsbD_or, hbit n hn, Bool.or_true]

theorem event_keeps {i : Nat} (n : Nat) {s : State} (h : s.port.events.getLsbD i = true) :
    (event n s).port.events.getLsbD i = true := by
  show (s.port.events ||| ((1 : BitVec 16) <<< n)).getLsbD i = true
  rw [BitVec.getLsbD_or, h, Bool.true_or]

/-! The centre's own actions that wait for room (04 R118; log 110) -/

theorem pumpOwn_idle (s : State) (h : s.root.waiting = [] ∨ 64 ≤ s.root.queue.length) : pumpOwn s = s := by
  unfold pumpOwn
  split
  · rfl
  · next a r hw =>
    have hq : 64 ≤ s.root.queue.length := h.resolve_left (by rw [hw]; exact List.cons_ne_nil a r)
    exact if_neg (Nat.not_lt.2 hq)

theorem pumpOwn_takes (s : State) (w : StillAction) (r : List StillAction) (hw : s.root.waiting = w :: r)
    (hq : s.root.queue.length < 64) :
    let n := firstTick s (max w.tick (now s + s.time.lstill))
    pumpOwn s = { s with root := { s.root with
      waiting := r
      queue := insertAction { kind := w.kind, scope := w.scope, tick := n, launchAt := n - s.time.lstill, origin := w.origin } s.root.queue
      wstate := if w.kind = 1 ∧ w.scope = 0 ∧ s.root.wstate = 0 then 1 else s.root.wstate } } := by
  intro n
  have hroom : (onRoot (fun q => { q with waiting := r }) s).root.queue.length < 64 := hq
  have hn : firstTick (onRoot (fun q => { q with waiting := r }) s) (max w.tick (now s + s.time.lstill)) = n := rfl
  unfold pumpOwn
  rw [hw]
  dsimp only
  rw [if_pos hq, enqueueOwn, if_pos hroom, hn, enqueue_eq]
  rfl

/-! What leaves the root -/

theorem placePress_idle {s : State} (h : s.txn.tstate ≠ 3) : placePress s = s := by
  unfold placePress
  split
  · rfl
  · exact if_pos (by simp [h])

/-- The root once it has launched word `a` and `q` is what is left of the queue. -/
def wordSent (a : StillAction) (q : List StillAction) (s : State) : State :=
  pruneLaunched (onRoot (fun r => { r with queue := q, lastLaunch := now s, launched := r.launched ++ [a] }) s)

theorem actionLaunch_eq {s : State} {a : StillAction} {q : List StillAction} (hq : s.root.queue = a :: q) :
    let e := elapse (edgeUp (max a.launchAt (s.root.lastLaunch + 4))) s
    exec .actionLaunch s =
      .next (pumpOwn (placePress (launched { a with launchAt := now e } (wordSent { a with launchAt := now e } q e)))) := by
  simp only [exec, execActionLaunch, hq]
  rfl

/-- A word whose effect leaves no PRESS to be placed: only the pump follows. -/
theorem actionLaunch_pumps {s : State} {a : StillAction} {q : List StillAction} (hq : s.root.queue = a :: q) :
    let e := elapse (edgeUp (max a.launchAt (s.root.lastLaunch + 4))) s
    let t := launched { a with launchAt := now e } (wordSent { a with launchAt := now e } q e)
    t.txn.tstate ≠ 3 → exec .actionLaunch s = .next (pumpOwn t) := by
  intro e t ht
  rw [actionLaunch_eq hq]
  exact congrArg (fun u => Host.Outcome.next (pumpOwn u)) (placePress_idle ht)

/-- Without a press hub time alone moves. -/
theorem elapse_unpressed {s : State} (n : Nat) (h : s.txn.pressed = false) :
    (elapse n s).txn = s.txn ∧ (elapse n s).alarm = s.alarm := by
  rw [elapse_idle n (.inl h)]
  constructor <;> split <;> rfl

theorem launched_still {a : StillAction} (s : State) (hk : a.kind = 1) (ho : a.origin ≠ 4) : launched a s = { s with
    root := { s.root with
      confirm := s.root.confirm ++ [{ act := a }]
      retried := false
      wstate := if a.scope = 0 then 2 else s.root.wstate }
    alarm := if a.origin = 1 then s.alarm else { s.alarm with
      running := s.alarm.running.map (fun r => if r.scope = a.scope then { r with issued := false } else r) } } := by
  unfold launched shareStill
  rw [hk]
  by_cases h1 : a.origin = 1 <;> simp [h1, ho, onRoot, onAlarm]

theorem launched_press {a : StillAction} (s : State) (hk : a.kind = 3) :
    launched a s = { s with txn := { s.txn with pressed := true, tstate := 4, t := a.tick } } := by
  unfold launched
  rw [hk]
  rfl

/-- What the centre notes of the wafer's release. -/
def releasedRoot (a : StillAction) (r : RootState) : RootState :=
  { r with
    wstate := 0
    regionsStill := 0
    stragglers := []
    confirm := []
    launched := r.launched.filter (fun b => !(b.kind == 1 && decide (b.tick ≤ a.tick))) }

theorem centreRelease_wafer {a : StillAction} (s : State) (hs : a.scope = 0) (ho : a.origin ≠ 2) : centreRelease a s =
    leaveReady a.tick (sealSnap a.tick (endStillAction 0 (event evReleased (onRoot (releasedRoot a) s)))) := by
  have hb : (a.origin == 2) = false := beq_eq_false_iff_ne.2 ho
  have hroot : onRoot (releasedRoot a) s = onRoot (fun r => { r with
      wstate := releasedState s (a.origin == 2) a.scope
      stepPrior := if a.origin == 2 then r.wstate else r.stepPrior
      stepReleased := r.stepReleased || a.origin == 2
      regionsStill := if a.scope = 0 then 0 else r.regionsStill &&& ~~~((1 : BitVec 16) <<< a.scope)
      stragglers := if a.scope = 0 || r.stragScope = a.scope then [] else r.stragglers
      confirm := if a.scope = 0 then [] else r.confirm.filter (fun e => e.act.scope != a.scope)
      launched := r.launched.filter
        (fun b => !(b.kind == 1 && (a.scope == 0 || b.scope == a.scope) && decide (b.tick ≤ a.tick))) }) s := by
    simp [onRoot, releasedRoot, releasedState, hs, hb]
  have hend : endStillAction 0 = endStillAction a.scope := by rw [hs]
  rw [hroot, hend]
  unfold centreRelease
  rw [if_pos hs, if_pos hs]

theorem sealSnap_idle (n : Nat) {s : State} (h : s.snap.take = none) : sealSnap n s = s := by
  unfold sealSnap
  rw [h]

theorem leaveReady_idle (n : Nat) {s : State} (h : s.recov.phase ≠ 5) : leaveReady n s = s :=
  if_pos (by simpa using h)

theorem endStillAction_only (scope : Nat) (s : State) : { endStillAction scope s with alarm := s.alarm } = s ∧
    (endStillAction scope s).alarm = { s.alarm with
      running := (endStillAction scope s).alarm.running
      next := (endStillAction scope s).alarm.next } := by
  generalize ht : endStillAction scope s = t
  unfold endStillAction onAlarm at ht
  dsimp only at ht
  split at ht
  · split at ht <;> (subst ht; exact ⟨rfl, rfl⟩)
  · subst ht
    exact ⟨rfl, rfl⟩

theorem launched_release {a : StillAction} (s : State) (hk : a.kind = 2) (hs : a.scope = 0) (ho : a.origin ≠ 2)
    (ht : s.snap.take = none) (hr : s.recov.phase ≠ 5) :
    launched a s = endStillAction 0 (event evReleased (onRoot (releasedRoot a) s)) := by
  have hl : launched a s = centreRelease a s := by
    unfold launched
    rw [hk]
    rfl
  have hend := (endStillAction_only 0 (event evReleased (onRoot (releasedRoot a) s))).1
  have hrecov := (congrArg State.recov hend :)
  have hsnap := (congrArg State.snap hend :)
  rw [hl, centreRelease_wafer s hs ho, sealSnap_idle, leaveReady_idle]
  · rwa [hrecov]
  · rwa [hsnap]

/-- What a RELEASE of the wafer changes when it leaves. -/
theorem wordSent_release {a : StillAction} (q : List StillAction) (s : State) (hk : a.kind = 2) (hs : a.scope = 0)
    (ho : a.origin ≠ 2) (ht : s.snap.take = none) (hr : s.recov.phase ≠ 5) :
    let t := launched a (wordSent a q s)
    { t with root := s.root, port := s.port, alarm := s.alarm } = s ∧
    t.alarm = { s.alarm with running := t.alarm.running, next := t.alarm.next } ∧
    t.root = releasedRoot a (wordSent a q s).root ∧ t.port.events.getLsbD 1 = true ∧ sent t = sent s := by
  intro t
  obtain ⟨hend, hal⟩ := endStillAction_only 0 (event evReleased (onRoot (releasedRoot a) (wordSent a q s)))
  have hl : endStillAction 0 (event evReleased (onRoot (releasedRoot a) (wordSent a q s))) = t :=
    (launched_release (wordSent a q s) hk hs ho ht hr).symm
  rw [hl] at hend hal
  refine ⟨?_, hal, (congrArg State.root hend :), ?_, (congrArg sent hend :)⟩
  · exact (congrArg (fun u : State => { u with root := s.root, port := s.port, alarm := s.alarm }) hend :)
  · rw [(congrArg State.port hend :)]
    exact event_sets (n := evReleased) (by decide) _

/-! The clauses of ActionsLaunch -/

section
variable {s : State} {a : StillAction} {q : List StillAction} (hq : s.root.queue = a :: q) (ht : s.txn.tstate ≠ 3)
  (hp : s.txn.pressed = false)
include hq ht hp

theorem actionLaunch_still (hk : a.kind = 1) (ho : a.origin ≠ 4) :
    let e := elapse (edgeUp (max a.launchAt (s.root.lastLaunch + 4))) s
    ∃ t, exec .actionLaunch s = .next (pumpOwn t) ∧
      { t with root := e.root, alarm := e.alarm } = e ∧ t.root.queue = q ∧ t.root.waiting = s.root.waiting ∧
      t.alarm = (if a.origin = 1 then s.alarm else { s.alarm with running := s.alarm.running.map (fun r =>
        if r.scope = a.scope then { r with issued := false } else r) }) ∧
      t.root.lastLaunch = now e ∧ t.root.confirm = s.root.confirm ++ [{ act := { a with launchAt := now e } }] ∧
      { a with launchAt := now e } ∈ t.root.launched ∧ t.root.wstate = (if a.scope = 0 then 2 else s.root.wstate) ∧
      t.root.regionsStill = s.root.regionsStill ∧ t.root.stragglers = s.root.stragglers ∧ t.root.regions = s.root.regions := by
  intro e
  obtain ⟨htxn, halarm⟩ := elapse_unpressed (edgeUp (max a.launchAt (s.root.lastLaunch + 4))) hp
  have hroot : e.root = s.root := elapse_root _ s
  have hl := launched_still (wordSent { a with launchAt := now e } q e) (a := { a with launchAt := now e }) hk ho
  have hidle : (launched { a with launchAt := now e } (wordSent { a with launchAt := now e } q e)).txn.tstate ≠ 3 := by
    rw [hl]
    exact htxn.symm ▸ ht
  refine ⟨_, actionLaunch_pumps hq hidle, ?_⟩
  have hlaunched : { a with launchAt := now e } ∈ (wordSent { a with launchAt := now e } q e).root.launched :=
    List.mem_filter.2 ⟨by simp [onRoot], by simp [hk]⟩
  have hw : (wordSent { a with launchAt := now e } q e).root = { s.root with
      queue := q, lastLaunch := now e, launched := (wordSent { a with launchAt := now e } q e).root.launched } := by
    rw [← hroot]
    rfl
  have ha : (wordSent { a with launchAt := now e } q e).alarm = s.alarm := halarm
  rw [hl, hw, ha]
  exact ⟨rfl, rfl, rfl, rfl, rfl, rfl, hlaunched, rfl, rfl, rfl, rfl⟩

omit ht hp in
theorem actionLaunch_press (hk : a.kind = 3) :
    let e := elapse (edgeUp (max a.launchAt (s.root.lastLaunch + 4))) s
    ∃ t, exec .actionLaunch s = .next (pumpOwn t) ∧ { t with root := e.root, txn := e.txn } = e ∧ t.root.queue = q ∧
      t.root.waiting = s.root.waiting ∧ t.txn = { e.txn with pressed := true, tstate := 4, t := a.tick } ∧
      t.root.wstate = s.root.wstate := by
  intro e
  have hroot : e.root = s.root := elapse_root _ s
  have hl := launched_press (wordSent { a with launchAt := now e } q e) (a := { a with launchAt := now e }) hk
  refine ⟨_, actionLaunch_pumps hq (by rw [hl]; exact (by decide : (4 : Nat) ≠ 3)), ?_⟩
  rw [hl]
  exact ⟨rfl, rfl, (congrArg RootState.waiting hroot :), rfl, (congrArg RootState.wstate hroot :)⟩

theorem actionLaunch_release (hk : a.kind = 2) (hs : a.scope = 0) (ho : a.origin ≠ 2) (hn : s.snap.take = none)
    (hr : s.recov.phase ≠ 5) :
    let e := elapse (edgeUp (max a.launchAt (s.root.lastLaunch + 4))) s
    ∃ t, exec .actionLaunch s = .next (pumpOwn t) ∧ t.root.queue = q ∧ t.root.waiting = s.root.waiting ∧ t.root.wstate = 0 ∧
      t.root.regionsStill = 0 ∧ t.root.stragglers = [] ∧ t.root.confirm = [] ∧ t.port.events.getLsbD 1 = true ∧
      sent t = sent s ∧ { t with root := e.root, port := e.port, alarm := e.alarm } = e ∧
      t.alarm = { s.alarm with running := t.alarm.running, next := t.alarm.next } := by
  intro e
  obtain ⟨htxn, halarm⟩ := elapse_unpressed (edgeUp (max a.launchAt (s.root.lastLaunch + 4))) hp
  have hroot : e.root = s.root := elapse_root _ s
  obtain ⟨hrest, hal, ht', hevent, hsent⟩ := wordSent_release (a := { a with launchAt := now e }) q e hk hs ho
    ((congrArg SnapState.take (elapse_snap _ s)).trans hn) (by rwa [show e.recov = s.recov from elapse_recov _ s])
  have hkept := (congrArg State.txn hrest :)
  refine ⟨_, actionLaunch_pumps hq (by rwa [hkept, htxn]), ?_, ?_, ?_, ?_, ?_, ?_, hevent, hsent.trans (elapse_sent _ s), hrest,
    by rwa [← halarm]⟩
  · exact (congrArg RootState.queue ht' :)
  · exact (congrArg RootState.waiting ht' :).trans (congrArg RootState.waiting hroot :)
  · exact (congrArg RootState.wstate ht' :)
  · exact (congrArg RootState.regionsStill ht' :)
  · exact (congrArg RootState.stragglers ht' :)
  · exact (congrArg RootState.confirm ht' :)

end

/-- Settles O12, from what each kind of word changes at the centre when it leaves. WSTATE at the launch of a wafer STILL is log 69, and
the RCLK edge of the launch log 109. -/
theorem actionsLaunch : Obligations.ActionsLaunch := by
  refine ⟨fun s hq => ?_, fun s a q hq ht hp => ⟨actionLaunch_still hq ht hp, actionLaunch_press hq,
    actionLaunch_release hq ht hp⟩, pumpOwn_idle, pumpOwn_takes⟩
  simp only [exec, execActionLaunch, hq]

end Sys2Proof.Machine
end

section
/-! ACTION_CANCEL, REGION_SET and STILL_QUERY (04 R110, R112, R117, R154; 13 R427). -/

namespace Sys2Proof.Machine

/-! What waits for room moves with the bookkeeping of requests -/

theorem pumpOwn_onSess (g : SessionState → SessionState) (s : State) : pumpOwn (onSess g s) = onSess g (pumpOwn s) := by
  by_cases hidle : s.root.waiting = [] ∨ 64 ≤ s.root.queue.length
  · rw [pumpOwn_idle s hidle, pumpOwn_idle (onSess g s) hidle]
  · obtain ⟨hw, hq⟩ := not_or.1 hidle
    obtain ⟨w, r, hw⟩ := List.exists_cons_of_ne_nil hw
    rw [pumpOwn_takes s w r hw (Nat.lt_of_not_le hq), pumpOwn_takes (onSess g s) w r hw (Nat.lt_of_not_le hq)]
    rfl

/-- What waits for room changes the root alone. -/
theorem pumpOwn_frame (s : State) : pumpOwn s = { s with root := (pumpOwn s).root } := by
  by_cases hidle : s.root.waiting = [] ∨ 64 ≤ s.root.queue.length
  · rw [pumpOwn_idle s hidle]
  · obtain ⟨hw, hq⟩ := not_or.1 hidle
    obtain ⟨w, r, hw⟩ := List.exists_cons_of_ne_nil hw
    rw [pumpOwn_takes s w r hw (Nat.lt_of_not_le hq)]

/-! ACTION_CANCEL (04 R117) -/

/-- WSTATE once the queue is `q`: no longer that of a queued wafer STILL where none is left. -/
def wstateWith (s : State) (q : List StillAction) : Nat :=
  if s.root.wstate = 1 ∧ q.any (fun b => b.kind == 1 && b.scope == 0) = false then 0 else s.root.wstate

theorem wstateWith_eq (s : State) (q : List StillAction) :
    (if s.root.wstate = 1 && !q.any (fun b => b.kind == 1 && b.scope == 0) then 0 else s.root.wstate) = wstateWith s q := by
  simp [wstateWith]

/-- The tile whose STEP_K a cancelled command step has cleared. -/
def unarmed (x : Tile) : Tile := if x.power.answers then { x with still := { x.still with stepK := 0 } } else x

theorem cancelAction_own {a : StillAction} (s : State) (h : a.origin ≠ 2) : cancelAction a s = pumpOwn { s with root := { s.root with
    queue := s.root.queue.filter (fun b => b != a)
    wstate := wstateWith s (s.root.queue.filter (fun b => b != a)) } } := by
  rw [← wstateWith_eq, cancelAction, if_neg h]
  rfl

theorem dropStep_eq (s : State) : dropStep s = { s with
    tiles := if s.root.stepKind = 2 then mapAll {} (fun _ => unarmed) s.tiles else s.tiles
    root := { s.root with queue := s.root.queue.filter (fun b => b.origin != 2), stepKind := 0, stepReleased := false } } := by
  have hk : (unqueue (fun a => a.origin == 2) s).root.stepKind = s.root.stepKind := rfl
  unfold dropStep
  dsimp only
  rw [hk]
  split <;> rfl

theorem cancelAction_step {a : StillAction} (s : State) (h : a.origin = 2) (hr : s.root.stepReleased = false) :
    cancelAction a s = pumpOwn { s with
      tiles := (dropStep s).tiles
      root := { s.root with
        queue := s.root.queue.filter (fun b => b.origin != 2)
        wstate := wstateWith s (s.root.queue.filter (fun b => b.origin != 2))
        stepKind := 0 } } := by
  have hroot : ∀ (r : RootState) q w, r.stepReleased = false →
      { r with queue := q, wstate := w, stepKind := 0, stepReleased := false } = { r with queue := q, wstate := w, stepKind := 0 } :=
    fun r q w h => by rw [h]
  rw [← hroot s.root _ _ hr, ← wstateWith_eq, cancelAction, if_pos h, dropStep_eq]
  rfl

theorem dropStep_onSess (g : SessionState → SessionState) (s : State) : dropStep (onSess g s) = onSess g (dropStep s) := by
  rw [dropStep_eq, dropStep_eq]
  rfl

theorem cancelAction_onSess (a : StillAction) (g : SessionState → SessionState) (s : State) :
    cancelAction a (onSess g s) = onSess g (cancelAction a s) := by
  unfold cancelAction
  rw [← pumpOwn_onSess, dropStep_onSess]
  split <;> rfl

theorem tileOf_dropStep {s : State} (hwf : mwf {} s.tiles = true) (k : Nat) : tileOf (dropStep s) k =
    if s.root.stepKind = 2 ∧ (tileOf s k).power.answers = true
      then { tileOf s k with still := { (tileOf s k).still with stepK := 0 } } else tileOf s k := by
  rw [dropStep_eq, tileOf]
  by_cases h : s.root.stepKind = 2
  · have hm : mget {} (mapAll {} (fun _ => unarmed) s.tiles) k = unarmed (tileOf s k) := mget_mapAll _ _ _ _ hwf rfl
    simp only [h, if_true, true_and, hm]
    rfl
  · simp only [h, if_false, false_and]
    rfl

theorem cancelAction_sess (a : StillAction) (s : State) : (cancelAction a s).sess = s.sess := by
  rw [cancelAction, pumpOwn_frame, dropStep_eq]
  split <;> rfl

def cancelChecks (tick scope kind : Nat) (s : State) : List Check :=
  badField (kind != 1 && kind != 2) 9 :: scopeChecks s scope ++ [refuse (!((cancelTarget s tick scope kind).any (cancellable s)))]

theorem cancelChecks_pick {s : State} {tick scope kind : Nat} (hk : kind = 1 ∨ kind = 2) (hs : ScopeOpen s scope) :
    pick (cancelChecks tick scope kind s) = if (cancelTarget s tick scope kind).any (cancellable s) then none else some (refuse true) := by
  have hb : (kind != 1 && kind != 2) = false := by rcases hk with rfl | rfl <;> rfl
  rw [cancelChecks, hb, pick_good _ _ (by
    rw [List.forall_mem_cons]
    exact ⟨rfl, scopeChecks_good hs⟩)]
  cases (cancelTarget s tick scope kind).any (cancellable s) <;> rfl

theorem cancelTarget_spec {s : State} {tick scope kind : Nat} {a : StillAction} (h : cancelTarget s tick scope kind = some a) :
    a.kind = kind ∧ a.scope = scope ∧ a.tick = tick := by
  have := List.find?_some h
  simpa [and_assoc] using this

theorem actionCancel_eq (h : ReqHdr) (tick scope kind : Nat) (s : State) : exec (.actionCancel h tick scope kind) s =
    request { op := 0x34, classC := true, need := .intrusive } h (fun _ s => cancelChecks tick scope kind s)
      (fun h s => match cancelTarget s tick scope kind with
        | none => fail h (refuse true) s
        | some a => respond h .ok [] (cancelAction a s)) s := rfl

section
variable {s : State} {h : ReqHdr} {tick scope kind : Nat} (hi : AsIntrusive s h) (hk : kind = 1 ∨ kind = 2) (hs : ScopeOpen s scope)
include hi hk hs

theorem actionCancel_cancels {a : StillAction} (ha : cancelTarget s tick scope kind = some a) (hc : cancellable s a = true) :
    ∃ t, exec (.actionCancel h tick scope kind) s = .next t ∧ Answered (cancelAction a s) t 0x34 h .ok [] := by
  rw [actionCancel_eq]
  refine outcome_request _ h _ _ s (cancelAction a) .ok [] hi.1.1 (int_allowed hi _ rfl) (fun as => ?_)
    (cancelAction_onSess a) (cancelAction_sess a s) fun g => ?_
  · refine (cancelChecks_pick (s := s) hk hs).trans ?_
    rw [ha]
    exact if_pos hc
  · rw [show cancelTarget (onSess g s) tick scope kind = some a from ha]

theorem actionCancel_refused (ha : (cancelTarget s tick scope kind).any (cancellable s) = false) :
    ∃ t, exec (.actionCancel h tick scope kind) s = .next t ∧ Answered s t 0x34 h .refused (detail { reason := 0x12 }) := by
  rw [actionCancel_eq]
  refine bad_request _ h _ _ s (refuse true) hi.1.1 (int_allowed hi _ rfl) fun as => ?_
  refine (cancelChecks_pick (s := s) hk hs).trans ?_
  rw [ha]
  rfl

end

/-! REGION_SET (04 R110, R112) -/

/-- The tile on which bit `n` of the membership has been written for a region. -/
def regionTile (n : Nat) (r : Region) (x : Tile) : Tile :=
  if x.power.answers = true then { x with still := { x.still with
    region := if r.valid && x.txn.ltnValid && inRect r x.txn.ltn then x.still.region ||| (1 <<< n)
      else x.still.region &&& ~~~((1 : BitVec 16) <<< n) } } else x

theorem writeRegion_eq (n : Nat) (r : Region) (s : State) :
    writeRegion n r s = { s with tiles := mapAll {} (fun _ => regionTile n r) s.tiles } := by
  have hf : (fun (_ : Nat) (x : Tile) => if !x.power.answers then x
      else
        let on := r.valid && x.txn.ltnValid && inRect r x.txn.ltn
        { x with still := { x.still with
          region := if on then x.still.region ||| (1 <<< n) else x.still.region &&& ~~~((1 : BitVec 16) <<< n) } }) =
      fun _ => regionTile n r := by
    funext _ x
    unfold regionTile
    cases x.power.answers <;> rfl
  unfold writeRegion
  rw [hf]
  rfl

theorem regionTile_default (n : Nat) (r : Region) : regionTile n r {} = {} := by
  simp [regionTile]

theorem tileOf_writeRegion (n : Nat) (r : Region) {s : State} (hwf : mwf {} s.tiles = true) (k : Nat) :
    tileOf (writeRegion n r s) k = regionTile n r (tileOf s k) := by
  rw [writeRegion_eq]
  exact mget_mapAll _ (fun _ => regionTile n r) _ _ hwf (regionTile_default n r)

/-- Counting what is listed after a change counts what is listed before it. -/
theorem mapAll_count {α : Type} [DecidableEq α] (d : α) (f : α → α) (p : α → Bool) (hp : p d = false) (m : Map α) :
    ((mapAll d (fun _ => f) m).filter (fun q => p q.2)).length = (m.filter (fun q => p (f q.2))).length := by
  have hd : ∀ q : Nat × α, (p q.2 && decide (q.2 ≠ d)) = p q.2 := fun q => by
    by_cases h : q.2 = d
    · rw [h, hp, Bool.false_and]
    · rw [decide_eq_true h, Bool.and_true]
  unfold mapAll
  rw [List.filter_filter, List.filter_congr fun q _ => hd q, List.filter_map, List.length_map]
  rfl

theorem counts_regionTile (n : Nat) (r : Region) (x : Tile) : counts (regionTile n r x) = counts x := by
  unfold regionTile
  split <;> rfl

def regionChecks (n a b c d : Nat) (s : State) : List Check :=
  [ badField (n == 0 || decide (15 ≤ n)) 0,
    badField (decide (b < a) || decide (d < c) || decide (719 < b) || decide (479 < d)) 8,
    denied (!regionState s),
    busy (inForce s n || queuedStill s n || stepRuns s || holdsIdent s) ]

/-- The members that a rectangle counts once its bits are written. -/
def regionCount (n : Nat) (r : Region) (s : State) : Nat :=
  (s.tiles.filter (fun p => counts p.2 && (regionTile n r p.2).still.region.getLsbD n)).length

theorem regionCount_written (n : Nat) (r : Region) (s : State) :
    ((writeRegion n r s).tiles.filter (fun p => counts p.2 && p.2.still.region.getLsbD n)).length = regionCount n r s := by
  rw [writeRegion_eq]
  refine (mapAll_count {} (regionTile n r) (fun x => counts x && x.still.region.getLsbD n) (by simp) s.tiles).trans ?_
  simp only [counts_regionTile]
  rfl

/-- The membership bits are written, and the register of region `n` holds `q`. -/
def regionStored (n : Nat) (r q : Region) (s : State) : State :=
  onRoot (fun x => { x with regions := mput {} x.regions n q }) (writeRegion n r s)

theorem regionStored_onSess (n : Nat) (r q : Region) (g : SessionState → SessionState) (s : State) :
    regionStored n r q (onSess g s) = onSess g (regionStored n r q s) := by
  unfold regionStored
  rw [writeRegion_eq, writeRegion_eq]
  rfl

section
variable {s : State} {h : ReqHdr} {n a b c d : Nat} {valid : Bool} (hi : AsIntrusive s h)
  (hn : (n == 0 || decide (15 ≤ n)) = false)
  (hr : (decide (b < a) || decide (d < c) || decide (719 < b) || decide (479 < d)) = false)
include hi hn hr

theorem regionSet_stores (hst : regionState s = true)
    (hb : (inForce s n || queuedStill s n || stepRuns s || holdsIdent s) = false)
    (hc : valid = false ∨ regionCount n ⟨valid, a, b, c, d⟩ s = rectCount ⟨valid, a, b, c, d⟩) :
    ∃ t, exec (.regionSet h n valid a b c d) s = .next t ∧
      Answered (regionStored n ⟨valid, a, b, c, d⟩ (if valid then ⟨valid, a, b, c, d⟩ else {}) s) t 0x35 h .ok [] := by
  refine outcome_request { op := 0x35, classC := true, need := .intrusive } h (fun _ s => regionChecks n a b c d s) _ s _ .ok []
    hi.1.1 (int_allowed hi _ rfl) (fun as => ?_) (regionStored_onSess n ⟨valid, a, b, c, d⟩ _) ?_ fun g => ?_
  · show pick (regionChecks n a b c d s) = none
    rw [regionChecks, hn, hr, hst, hb]
    rfl
  · rw [regionStored, writeRegion_eq]
    rfl
  · cases valid with
    | false => rfl
    | true =>
      have hcount := (regionCount_written n ⟨true, a, b, c, d⟩ (onSess g s)).trans (hc.resolve_left Bool.noConfusion)
      exact if_pos hcount

theorem regionSet_denied (hst : regionState s = false) :
    ∃ t, exec (.regionSet h n valid a b c d) s = .next t ∧ Answered s t 0x35 h .denied (detail {}) := by
  refine bad_request { op := 0x35, classC := true, need := .intrusive } h (fun _ s => regionChecks n a b c d s) _ s (denied true)
    hi.1.1 (int_allowed hi _ rfl) fun as => ?_
  show pick (regionChecks n a b c d s) = some (denied true)
  rw [regionChecks, hn, hr, hst]
  cases (inForce s n || queuedStill s n || stepRuns s || holdsIdent s) <;> rfl

end

theorem regionOf_regionStored (n m : Nat) (r q : Region) (s : State) :
    regionOf (regionStored n r q s) m = if m = n then q else regionOf s m := by
  rw [regionStored, writeRegion_eq]
  exact mget_mput _ _ _ _ _

/-! STILL_QUERY (04 R154, 13 R427) -/

theorem stillQuery_answers (s : State) (h : ReqHdr) (ho : AsObserver s h) :
    ∃ t, exec (.stillQuery h) s = .next t ∧ Answered s t 0x36 h .ok (stillBody s) :=
  outcome_request { op := 0x36, classC := false } h (fun _ _ => []) (okWith stillBody) s id .ok (stillBody s) ho.1
    (obs_allowed ho _ rfl) (fun _ => rfl) (fun _ _ => rfl) rfl fun _ => rfl

theorem refreshStill_idle {s : State} (hc : s.root.confirm = []) (h3 : s.root.wstate ≠ 3) (h4 : s.root.wstate ≠ 4) :
    refreshStill s = s := by
  have hw : (s.root.wstate == 3 || waferStrag s) = false := by simp [waferStrag, h3, h4]
  unfold refreshStill
  rw [hc, hw]
  rfl

theorem stillQueryRefresh_answers (s : State) (h : ReqHdr) (ho : AsObserver s h) (hc : s.root.confirm = [])
    (h3 : s.root.wstate ≠ 3) (h4 : s.root.wstate ≠ 4) :
    ∃ t, exec (.stillQueryRefresh h) s = .next t ∧ Answered s t 0x36 h .ok (stillBody s) := by
  refine outcome_request { op := 0x36, classC := false } h (fun _ _ => []) _ s id .ok (stillBody s) ho.1
    (obs_allowed ho _ rfl) (fun _ => rfl) (fun _ _ => rfl) rfl fun g => ?_
  have hr : refreshStill (onSess g s) = onSess g s := refreshStill_idle hc h3 h4
  rw [hr]
  rfl

/-! The three together -/

/-- An action cancelled that is part of a step: both go, the step ends, and the tiles are those whose STEP_K is cleared. -/
theorem actionCancel_step {s : State} {h : ReqHdr} {tick scope : Nat} (hi : AsIntrusive s h) (hs : ScopeOpen s scope) {a : StillAction}
    (ha : cancelTarget s tick scope 2 = some a) (ho : a.origin = 2) (hwf : mapsWf s) (hr : s.root.stepReleased = false) :
    ∃ t q, exec (.actionCancel h tick scope 2) s = .next t ∧ q = s.root.queue.filter (fun b => b.origin != 2) ∧
      Answered (pumpOwn { s with tiles := t.tiles, root := { s.root with queue := q, wstate := wstateWith s q, stepKind := 0 } })
        t 0x34 h .ok [] ∧
      (∀ k, tileOf t k = if s.root.stepKind = 2 ∧ (tileOf s k).power.answers = true
        then { tileOf s k with still := { (tileOf s k).still with stepK := 0 } } else tileOf s k) := by
  have hc : cancellable s a = true := by simp [cancellable, ho, (cancelTarget_spec ha).1, hr]
  obtain ⟨t, ht, hans⟩ := actionCancel_cancels hi (.inr rfl) hs ha hc
  rw [cancelAction_step s ho hr] at hans
  have htiles : t.tiles = (dropStep s).tiles := by
    have := hans.rest
    rw [pumpOwn_frame] at this
    exact (congrArg State.tiles this :)
  refine ⟨t, _, ht, rfl, by rwa [htiles], fun k => ?_⟩
  rw [tileOf_of_tiles htiles, tileOf_dropStep hwf.1]

/-- Settles O11: ACTION_CANCEL removes what it names with what belongs to it, REGION_SET writes each tile's bit from its own LTN, and
STILL_QUERY reads only. That cancelling the only queued wafer STILL returns WSTATE to RUNNING is log 69's reading; that a step's two
actions go together is log 80, and what waits for room log 110. -/
theorem cancelsRegionsAndQueries : Obligations.CancelsRegionsAndQueries := by
  refine ⟨fun s h tick scope kind hi hk hs => ⟨fun a ha ho => ?_, fun a ha ho hwf hkind hr => ?_, fun a ha ho hno => ?_, fun ha => ?_⟩,
    fun s h n a b c d valid hi hwf h1 h14 hab hcd hb hd => ?_, fun s h ho => ⟨stillQuery_answers s h ho,
      stillQueryRefresh_answers s h ho⟩⟩
  · obtain ⟨t, ht, hans⟩ := actionCancel_cancels hi hk hs ha (by simp [cancellable, ho])
    rw [cancelAction_own s ho] at hans
    exact ⟨t, _, ht, rfl, hans⟩
  · subst hkind
    exact actionCancel_step hi hs ha ho hwf hr
  · refine actionCancel_refused hi hk hs ?_
    have hkind := (cancelTarget_spec ha).1
    rw [show cancelTarget s tick scope kind = some a from ha]
    rcases hno with rfl | hr
    · simp [cancellable, ho, hkind]
    · simp [cancellable, ho, hr]
  · refine actionCancel_refused hi hk hs ?_
    rw [show cancelTarget s tick scope kind = none from ha]
    rfl
  · have hn : (n == 0 || decide (15 ≤ n)) = false := by simp; omega
    have hr : (decide (b < a) || decide (d < c) || decide (719 < b) || decide (479 < d)) = false := by simp; omega
    refine ⟨fun hst hf hq hsk hid hcount => ?_, regionSet_denied hi hn hr⟩
    have hbusy : (inForce s n || queuedStill s n || stepRuns s || holdsIdent s) = false := by simp [hf, hq, stepRuns, hsk, hid]
    obtain ⟨t, ht, hans⟩ := regionSet_stores hi hn hr hst hbusy hcount
    have hrest := hans.rest
    have htiles : t.tiles = (writeRegion n ⟨valid, a, b, c, d⟩ s).tiles := (congrArg State.tiles hrest :)
    have hregs := (congrArg (fun u => u.root.regions) hrest :)
    refine ⟨t, ht, ?_, fun k => ?_, fun m => ?_⟩
    · rw [htiles, hregs, writeRegion_eq]
      rwa [regionStored, writeRegion_eq] at hans
    · rw [tileOf_of_tiles htiles, tileOf_writeRegion n _ hwf.1]
      rfl
    · rw [← regionOf_regionStored n m ⟨valid, a, b, c, d⟩]
      exact congrArg (fun q => mget {} q m) hregs

end Sys2Proof.Machine
end

section
/-! FREEZE_SETTLED, FREEZE_NOACK, RELEASE_ACT and EDGE_STILL_ACT (04 R124, R125, R127, R134, R138, R139; 09 R287; 11 R331). -/

namespace Sys2Proof.Machine

/-! A freeze settles or does not (04 R124, R125, R134) -/

theorem leaveStragglers_absent {k : Nat} {s : State} (h : k ∉ s.root.stragglers) : leaveStragglers k s = s := by
  simp [leaveStragglers, h]

theorem leaveStragglers_root (k : Nat) (s : State) : ∃ w r,
    leaveStragglers k s = { s with root := { s.root with
      stragglers := s.root.stragglers.erase k, wstate := w, regionsStill := r } } := by
  by_cases h : k ∈ s.root.stragglers
  · unfold leaveStragglers
    rw [if_neg (by simp [h])]
    exact ⟨_, _, rfl⟩
  · rw [leaveStragglers_absent h, List.erase_of_not_mem h]
    exact ⟨_, _, rfl⟩

/-- The last straggler of the wafer declares its still. -/
theorem leaveStragglers_last {k : Nat} {s : State} (hl : s.root.stragglers = [k]) (hs : s.root.stragScope = 0)
    (hw : s.root.wstate = 4) : (leaveStragglers k s).root.wstate = 3 := by
  simp [leaveStragglers, onRoot, hl, hs, hw]

/-- The tile whose freeze has settled at edge E. -/
def settledTile (x : Tile) : Tile :=
  { x with still := { x.still with state := 3, frzAck := true, rfrzAck := true, frzTs := edgeTs x } }

theorem freezeSettled_eq {s : State} {k : Nat} (hf : (tileOf s k).still.frz = true)
    (hst : (tileOf s k).still.state = 2 ∨ (tileOf s k).still.state = 7) :
    exec (.freezeSettled k) s = .next (leaveStragglers k (onTile k settledTile s)) := by
  have hc : ((tileOf s k).still.frz && ((tileOf s k).still.state == 2 || (tileOf s k).still.state == 7)) = true := by
    simpa [hf] using hst
  simp only [exec, execFreezeSettled, hc, when_true]
  rfl

theorem freezeSettled_settles {s : State} {k : Nat} (hk : k < numTiles) (hf : (tileOf s k).still.frz = true)
    (hst : (tileOf s k).still.state = 2 ∨ (tileOf s k).still.state = 7) :
    ∃ t, exec (.freezeSettled k) s = .next t ∧ { t with tiles := s.tiles, root := s.root } = s ∧
      (∀ u, u ≠ k → tileOf t u = tileOf s u) ∧ tileOf t k = settledTile (tileOf s k) ∧
      t.root = { s.root with stragglers := s.root.stragglers.erase k, wstate := t.root.wstate, regionsStill := t.root.regionsStill } ∧
      (k ∉ s.root.stragglers → t.root = s.root) ∧
      (s.root.stragglers = [k] → s.root.stragScope = 0 → s.root.wstate = 4 → t.root.wstate = 3) := by
  obtain ⟨honly, hne⟩ := onTile_onlyTile k settledTile s
  have hroot : (onTile k settledTile s).root = s.root := (congrArg State.root honly :)
  obtain ⟨w, r, hl⟩ := leaveStragglers_root k (onTile k settledTile s)
  refine ⟨_, freezeSettled_eq hf hst, ?_, fun u hu => ?_, ?_, ?_, fun habs => ?_, fun h1 h2 h3 => leaveStragglers_last ?_ ?_ ?_⟩
  · rw [hl, ← hroot]
    exact honly
  · exact (tileOf_of_tiles (by rw [hl]) u).trans (hne u hu)
  · exact (tileOf_of_tiles (by rw [hl]) k).trans (tileOf_onTile_self settledTile s hk)
  · rw [hl, hroot]
  · rw [leaveStragglers_absent (by rwa [hroot]), hroot]
  all_goals rwa [hroot]

theorem freezeNoack_notes {s : State} {k : Nat} (hk : k < numTiles) (hf : (tileOf s k).still.frz = true)
    (hst : (tileOf s k).still.state = 2) {f r : Bool} (hfr : (f && r) = false) :
    ∃ t, exec (.freezeNoack k f r) s = .next t ∧
      Retiled (elapse ((tileOf s k).still.edgeAt + 1000) s) t k { tileOf s k with
        still := { (tileOf s k).still with state := 7, frzAck := f, rfrzAck := r } } := by
  have hc : ((tileOf s k).still.frz && (tileOf s k).still.state == 2 && !(f && r)) = true := by simp [hf, hst, hfr]
  have hx := onTile_retiled k (fun x => { x with still := { x.still with state := 7, frzAck := f, rfrzAck := r } })
    (elapse ((tileOf s k).still.edgeAt + 1000) s) hk
  rw [tileOf_elapse] at hx
  refine ⟨_, rfl, ?_⟩
  simp only [hc, when_true]
  exact recordAt_retiled _ _ _ hk hx

theorem freeze_idle {s : State} {k : Nat} (hf : (tileOf s k).still.frz = false) :
    exec (.freezeSettled k) s = .next s ∧ ∀ f r, exec (.freezeNoack k f r) s = .next s := by
  simp [exec, execFreezeSettled, execFreezeNoack, hf, when_false]

/-! A RELEASE at its tick (04 R138, R139, R149) -/

/-- The mask that a RELEASE of `scope` leaves of a tile. -/
def maskLeft (scope : Nat) (x : Tile) : BitVec 16 := if scope = 0 then 0 else x.still.mask &&& ~~~((1 : BitVec 16) <<< scope)

theorem unfreeze_stays {me scope : Nat} {idle step : Bool} {x : Tile} (h : maskLeft scope x ≠ 0) :
    unfreeze me scope idle step x = { x with still := { x.still with mask := maskLeft scope x } } :=
  if_pos (bne_iff_ne.2 h)

theorem unfreeze_runs {me scope : Nat} {idle step : Bool} {x : Tile} (h : maskLeft scope x = 0) :
    unfreeze me scope idle step x = { x with
      still := { x.still with
        mask := 0
        frz := false
        frzAck := false
        rfrzAck := false
        idle := idle
        stepRun := if step ∧ x.still.stepK ≠ 0 then 0 else x.still.stepRun
        stepping := step
        state := if x.power.pwrOk = false then 5 else if step then 4 else 0 }
      hang := { x.hang with elapsed := 0, since := me } } := by
  refine (if_neg (fun hc => bne_iff_ne.1 hc h)).trans ?_
  simp [restartHang]

theorem unfreeze_rest (me scope : Nat) (idle step : Bool) (a : StillAction) (x : Tile) (w : StubEddy) :
    { { unfreeze me scope idle step (dropPending a x) with eddy := w } with still := x.still, hang := x.hang, eddy := x.eddy } = x := by
  by_cases h : maskLeft scope (dropPending a x) = 0
  · rw [unfreeze_runs h]
    rfl
  · rw [unfreeze_stays h]
    rfl

theorem releaseTile_retiled {e s : State} {k : Nat} {x : Tile} (r : HeldRelease) (hk : k < numTiles) (hs : OnlyTile e s k)
    (hx : tileOf s k = x) : Retiled e (releaseTile k r s) k (unfreeze (stubNow s k) r.scope r.idle r.step x) := by
  subst hx
  unfold releaseTile record
  exact recordAt_retiled _ _ _ hk ⟨hs.trans (onTile_onlyTile k _ _), _, tileOf_onTile_self _ _ hk⟩

theorem stubNow_dropPending {s : State} {k : Nat} (a : StillAction) (hk : k < numTiles) :
    stubNow (onTile k (dropPending a) s) k = stubNow s k := by
  simp [stubNow, stub8, rclkNow, tileOf_onTile_self _ _ hk, dropPending]

/-- The release of `a` by the step in progress or not, as a tile holds it. -/
def releaseOf (s : State) (a : StillAction) (idle : Bool) : HeldRelease :=
  ⟨a.scope, idle, decide (s.root.stepKind ≠ 0 ∧ s.root.stepReleased = true ∧ a.scope = s.root.stepScope)⟩

section
variable {s : State} {k : Nat} {idle : Bool} {a : StillAction} (hk : k < numTiles)
  (ha : (if (tileOf s k).power.noClock then stubAction 2 (tileOf s k) else takeAction 2 (tileOf s k)) = some a)
  (hm : mayAct (tileOf s k) = true ∨ (tileOf s k).power.noClock = true)
include hk ha hm

theorem releaseAct_eq : exec (.releaseAct k idle) s =
    let d := onTile k (dropPending a) (elapse (reachAt s k a.tick) s)
    .next (if copyHolds (tileOf s k) then
      onTile k (fun x => { x with still := { x.still with heldRel := x.still.heldRel ++ [releaseOf s a idle] } }) d
    else releaseTile k (releaseOf s a idle) d) := by
  have hm' : (mayAct (tileOf s k) || (tileOf s k).power.noClock) = true := by simpa using hm
  have hr : (⟨a.scope, idle, s.root.stepKind != 0 && s.root.stepReleased && a.scope == s.root.stepScope⟩ : HeldRelease) =
      releaseOf s a idle := by
    unfold releaseOf
    congr 1
    rw [Bool.eq_iff_iff]
    simp [and_assoc]
  have hc : copyHolds (dropPending a (tileOf s k)) = copyHolds (tileOf s k) := rfl
  simp only [exec, execReleaseAct, ha, when, hm', if_true, elapse_root, hr, tileOf_onTile_self _ _ hk, tileOf_elapse, hc]

/-- While a still copy holds the tile, the release waits for the hold's end (09 R287). -/
theorem releaseAct_held (hc : copyHolds (tileOf s k) = true) :
    ∃ t, exec (.releaseAct k idle) s = .next t ∧ OnlyTile (elapse (reachAt s k a.tick) s) t k ∧
      tileOf t k = { tileOf s k with still := { (tileOf s k).still with
        pending := (tileOf s k).still.pending.erase a
        heldRel := (tileOf s k).still.heldRel ++ [releaseOf s a idle] } } := by
  refine ⟨_, (releaseAct_eq hk ha hm).trans (congrArg _ (if_pos hc)), (onTile_onlyTile k _ _).trans (onTile_onlyTile k _ _), ?_⟩
  rw [tileOf_onTile_self _ _ hk, tileOf_onTile_self _ _ hk, tileOf_elapse]
  rfl

theorem releaseAct_released (hc : copyHolds (tileOf s k) = false) :
    ∃ t, exec (.releaseAct k idle) s = .next t ∧ Retiled (elapse (reachAt s k a.tick) s) t k
      (unfreeze (stubNow (elapse (reachAt s k a.tick) s) k) a.scope idle (releaseOf s a idle).step (dropPending a (tileOf s k))) := by
  refine ⟨_, (releaseAct_eq hk ha hm).trans (congrArg _ (if_neg (ne_true_of_eq_false hc))), ?_⟩
  rw [← stubNow_dropPending a hk]
  refine releaseTile_retiled (releaseOf s a idle) hk (onTile_onlyTile k _ _) ?_
  rw [tileOf_onTile_self _ _ hk, tileOf_elapse]

end

theorem releaseAct_idle {s : State} {k : Nat} (idle : Bool) (hn : (tileOf s k).power.noClock = false)
    (h : takeAction 2 (tileOf s k) = none ∨ mayAct (tileOf s k) = false) : exec (.releaseAct k idle) s = .next s := by
  simp only [exec, execReleaseAct, hn, Bool.false_eq_true, if_false, Bool.or_false]
  rcases h with h | h
  · rw [h]
  · rw [h]
    split <;> rfl

/-! A die's agent at the wafer's actions (04 R127, R138; 11 R331) -/

theorem onEdge_onlyEdge (d : Nat) (f : Edge → Edge) (s : State) : OnlyEdge s (onEdge d f s) d := by
  refine ⟨?_, fun u hu => ?_⟩
  · unfold onEdge
    split <;> rfl
  · rw [edgeOf_onEdge, if_neg fun h => hu h.2]

theorem edgeOf_onEdge_self {d : Nat} (f : Edge → Edge) (s : State) (hd : d < numDies) :
    edgeOf (onEdge d f s) d = f (edgeOf s d) := by
  rw [edgeOf_onEdge, if_pos ⟨hd, rfl⟩]

/-- A die whose agent has frozen its egress at hub time `n`. -/
def frozenEdge (n : Nat) (e : Edge) : Edge :=
  { e with egFreeze := true, flagged := e.flagged && e.egFreeze, egFreezeAt := if e.egFreeze then e.egFreezeAt else n }

/-- A die whose agent has unfrozen its egress at hub time `n`, and replays its log where it was restored. -/
def thawedEdge (n : Nat) (e : Edge) : Edge :=
  let e := { e with egFreeze := false, egFrozen := false, releasedAt := n }
  if e.state = 4 then beginDiscard e.snapId e else e

theorem beginDiscard_freezes (id : Nat) (e : Edge) : (beginDiscard id e).egFreeze = e.egFreeze ∧
    (beginDiscard id e).egFrozen = e.egFrozen ∧ (beginDiscard id e).releasedAt = e.releasedAt := by
  unfold beginDiscard putMarkers
  split <;> exact ⟨rfl, rfl, rfl⟩

theorem thawedEdge_freezes (n : Nat) (e : Edge) : (thawedEdge n e).egFreeze = false ∧
    (thawedEdge n e).egFrozen = false ∧ (thawedEdge n e).releasedAt = n := by
  unfold thawedEdge
  dsimp only
  split
  · obtain ⟨h1, h2, h3⟩ := beginDiscard_freezes e.snapId { e with egFreeze := false, egFrozen := false, releasedAt := n }
    exact ⟨h1, h2, h3⟩
  · exact ⟨rfl, rfl, rfl⟩

theorem beginLog_freezes (id : Nat) (e : Edge) : (beginLog id e).egFreeze = e.egFreeze := by
  unfold beginLog putMarkers
  split <;> rfl

/-- The snapshot in progress issued the still of this tick itself. -/
def OwnStillAt (tick : Nat) (k : SnapTake) : Prop := k.ownStill = true ∧ k.sealing = false ∧ k.t = tick

theorem edgeMark_idle {d tick : Nat} {s : State} (h : ∀ k, s.snap.take = some k → ¬ OwnStillAt tick k) : edgeMark d tick s = s := by
  unfold edgeMark
  cases hk : s.snap.take with
  | none => rfl
  | some k =>
    refine if_neg fun hc => h k hk ?_
    simpa [OwnStillAt, and_assoc] using hc

/-- At such a still the die begins its log, and is a member of the snapshot's CUT dies exactly if its mode is CUT. -/
theorem edgeMark_own {d tick : Nat} {s : State} {k : SnapTake} (hk : s.snap.take = some k) (ho : OwnStillAt tick k) :
    (∀ u, edgeOf (edgeMark d tick s) u = edgeOf (onEdge d (beginLog k.id) s) u) ∧
    (d ∈ (pondOf (edgeMark d tick s) k.pond).cutDies ↔ (edgeOf s d).cut = true) := by
  obtain ⟨h1, h2, h3⟩ := ho
  have hc : (k.ownStill && !k.sealing && k.t == tick) = true := by simp [h1, h2, h3]
  unfold edgeMark
  simp only [hk, hc, if_true]
  refine ⟨fun u => ?_, ?_⟩
  · rw [edgeOf_onEdge, edgeOf_onEdge]
    rfl
  · have hsnap : ∀ (f : Edge → Edge) (u : State), (onEdge d f u).snap = u.snap := fun f u => (congrArg State.snap (onEdge_onlyEdge d f u).1 :)
    rw [pondOf, hsnap]
    simp only [onPond, onSnap, mget_mmod, if_true]
    cases (edgeOf s d).cut <;> simp

theorem edgeStillAct_eq {s : State} (d action tick : Nat) (hs : s.rill.inService = true) : exec (.edgeStillAct d action tick) s =
    let e := elapse tick s
    .next (match action with
      | 1 => edgeMark d tick (onEdge d (frozenEdge (now e)) e)
      | 2 => onEdge d (thawedEdge (now e)) e
      | _ => e) := by
  simp only [exec, execEdgeStillAct, inService, hs, when_true]
  rfl

section
variable {s : State} {d tick : Nat} (hs : s.rill.inService = true) (hd : d < numDies)
include hs hd

theorem edgeStillAct_freezes (ho : ∀ k, s.snap.take = some k → ¬ OwnStillAt tick k) :
    ∃ t, exec (.edgeStillAct d 1 tick) s = .next t ∧ OnlyEdge (elapse tick s) t d ∧
      edgeOf t d = frozenEdge (now (elapse tick s)) (edgeOf s d) := by
  have he : edgeOf (elapse tick s) d = edgeOf s d := by simp [edgeOf]
  have hsnap : (onEdge d (frozenEdge (now (elapse tick s))) (elapse tick s)).snap = s.snap :=
    (congrArg State.snap (onEdge_onlyEdge d _ _).1 :).trans (elapse_snap tick s)
  refine ⟨_, (edgeStillAct_eq d 1 tick hs).trans (congrArg _ (edgeMark_idle (by rwa [hsnap]))), onEdge_onlyEdge d _ _, ?_⟩
  rw [edgeOf_onEdge_self _ _ hd, he]

/-- At the STILL of a snapshot that issued it, the die marks its log, and belongs to the snapshot by its mode (11 R331, R345). -/
theorem edgeStillAct_marks {k : SnapTake} (hk : s.snap.take = some k) (ho : OwnStillAt tick k) :
    ∃ t, exec (.edgeStillAct d 1 tick) s = .next t ∧ (edgeOf t d).egFreeze = true ∧
      (∀ u, u ≠ d → edgeOf t u = edgeOf s u) ∧ (d ∈ (pondOf t k.pond).cutDies ↔ (edgeOf s d).cut = true) := by
  have he : ∀ u, edgeOf (elapse tick s) u = edgeOf s u := fun u => by simp [edgeOf]
  have hfrozen := edgeOf_onEdge_self (frozenEdge (now (elapse tick s))) (elapse tick s) hd
  obtain ⟨honly, hne⟩ := onEdge_onlyEdge d (frozenEdge (now (elapse tick s))) (elapse tick s)
  have hsnap : (onEdge d (frozenEdge (now (elapse tick s))) (elapse tick s)).snap.take = some k := by
    rw [show State.snap _ = _ from (congrArg State.snap honly :), elapse_snap, hk]
  obtain ⟨hedge, hmem⟩ := edgeMark_own (d := d) hsnap ho
  refine ⟨edgeMark d tick _, edgeStillAct_eq d 1 tick hs, ?_, fun u hu => ?_, ?_⟩
  · rw [hedge, edgeOf_onEdge_self _ _ hd, beginLog_freezes, hfrozen]
    rfl
  · exact (hedge u).trans (((onEdge_onlyEdge d _ _).2 u hu).trans ((hne u hu).trans (he u)))
  · rw [hmem, hfrozen, ← he d]
    rfl

theorem edgeStillAct_thaws :
    ∃ t, exec (.edgeStillAct d 2 tick) s = .next t ∧ OnlyEdge (elapse tick s) t d ∧
      edgeOf t d = thawedEdge (now (elapse tick s)) (edgeOf s d) := by
  have he : edgeOf (elapse tick s) d = edgeOf s d := by simp [edgeOf]
  refine ⟨onEdge d _ _, edgeStillAct_eq d 2 tick hs, onEdge_onlyEdge d _ _, ?_⟩
  rw [edgeOf_onEdge_self _ _ hd, he]

end

/-- Settles O14, from what a settled and an unsettled freeze note, what a RELEASE leaves of a tile's mask, and what a die's agent does
to its egress. -/
theorem freezesSettleAndRelease : Obligations.FreezesSettleAndRelease := by
  refine ⟨fun s k hk => ⟨freezeSettled_settles hk, fun hf hst f r hfr => ?_, freeze_idle⟩,
    fun s k idle a hk => ?_, fun s k idle => releaseAct_idle idle, fun s d tick hs hd => ⟨fun ho => ?_, fun k hk h1 h2 h3 => ?_, ?_⟩⟩
  · obtain ⟨t, ht, honly, w, hw⟩ := freezeNoack_notes hk hf hst hfr
    exact ⟨t, ht, honly, by rw [hw], by rw [hw]⟩
  · intro e x ha hm left step
    cases hc : copyHolds x with
    | true =>
      obtain ⟨t, ht, honly, hx⟩ := releaseAct_held (idle := idle) hk ha hm hc
      exact ⟨t, ht, honly, by rw [hx], fun _ => hx, fun h => absurd h (by simp), fun h => absurd h (by simp)⟩
    | false =>
      obtain ⟨t, ht, honly, w, hw⟩ := releaseAct_released (idle := idle) hk ha hm hc
      refine ⟨t, ht, honly, ?_, fun h => absurd h (by simp), fun _ hl => ?_, fun _ hl => ?_⟩
      · rw [hw]
        exact unfreeze_rest _ _ _ _ a x w
      · rw [hw, unfreeze_stays (x := dropPending a (tileOf s k)) hl]
        exact ⟨rfl, rfl⟩
      · rw [hw, unfreeze_runs (x := dropPending a (tileOf s k)) hl]
        exact ⟨rfl, rfl⟩
  · obtain ⟨t, ht, honly, hx⟩ := edgeStillAct_freezes hs hd (tick := tick) fun k hk hown => by
      obtain ⟨h1, h2, h3⟩ := hown
      rcases ho k hk with h | h | h
      · exact Bool.noConfusion (h.symm.trans h1)
      · exact Bool.noConfusion (h.symm.trans h2)
      · exact h h3
    exact ⟨t, ht, honly, by rw [hx]; rfl, by rw [hx]; rfl⟩
  · exact edgeStillAct_marks hs hd hk ⟨h1, h2, h3⟩
  · obtain ⟨t, ht, honly, hx⟩ := edgeStillAct_thaws (tick := tick) hs hd
    exact ⟨t, ht, honly, hx ▸ thawedEdge_freezes _ _⟩

end Sys2Proof.Machine
end

section
/-! STILL_CENSUS and STILL_CENSUS_REPEAT: what a census counts and how a still is declared (04 R129 to R133, R135). -/

namespace Sys2Proof.Machine

/-! What a census counts (04 R129 to R131) -/

@[simp] theorem scopeTiles_elapse (n : Nat) (s : State) (scope : Nat) : scopeTiles (elapse n s) scope = scopeTiles s scope := by
  simp [scopeTiles, regionOf]

@[simp] theorem notStill_elapse (n : Nat) (s : State) (scope : Nat) : notStill (elapse n s) scope = notStill s scope := by
  simp [notStill]

@[simp] theorem censusDead_elapse (n : Nat) (s : State) (scope : Nat) : censusDead (elapse n s) scope = censusDead s scope := by
  simp [censusDead]

@[simp] theorem waferStrag_elapse (n : Nat) (s : State) : waferStrag (elapse n s) = waferStrag s := by
  simp [waferStrag]

theorem length_filter_split (p q : Nat → Bool) (l : List Nat) :
    ((l.filter p).filter (fun k => !q k)).length + (l.filter (fun k => !p k)).length = (l.filter (fun k => !(p k && q k))).length := by
  induction l with
  | nil => rfl
  | cons k ks ih => cases hp : p k <;> cases hq : q k <;> simp [hp, hq] at ih ⊢ <;> omega

/-- The stragglers a census counts are those that answer and are not still and those that do not answer. -/
theorem stillCount_stragglers (s : State) (scope : Nat) :
    (stillCount s scope).naks.length + (stillCount s scope).lost.length = (notStill s scope).length :=
  length_filter_split _ _ _

theorem stillCount_still {s : State} {scope : Nat} (h : notStill s scope = []) :
    (stillCount s scope).naks = [] ∧ (stillCount s scope).lost = [] ∧ (stillCount s scope).ok = (scopeTiles s scope).length := by
  have hall : ∀ k ∈ scopeTiles s scope, (tileOf s k).power.answers = true ∧ stillOk (tileOf s k) = true := fun k hk => by
    simpa using List.filter_eq_nil_iff.1 h k hk
  have hans : (scopeTiles s scope).filter (fun k => (tileOf s k).power.answers) = scopeTiles s scope :=
    List.filter_eq_self.2 fun k hk => (hall k hk).1
  simp only [stillCount, hans]
  refine ⟨List.filter_eq_nil_iff.2 fun k hk => ?_, List.filter_eq_nil_iff.2 fun k hk => ?_, ?_⟩
  · simp [(hall k hk).2]
  · simp [(hall k hk).1]
  · rw [List.filter_eq_self.2 fun k hk => (hall k hk).2]

/-- A scope whose members are all still has one that answers. -/
theorem censusDead_of_still {s : State} {scope : Nat} (h : notStill s scope = []) : censusDead s scope = false := by
  unfold censusDead
  cases hl : scopeTiles s scope with
  | nil => rfl
  | cons k ks =>
    have hk := List.filter_eq_nil_iff.1 h k (by simp [hl])
    simp at hk
    simp [hk.1]

/-! A still is declared (04 R130, R133) -/

/-- With no step and no alarm action, a declaration writes the root and reports its events. -/
theorem declareStill_plain {a : StillAction} {s : State} (strag : Bool) (ho : a.origin ≠ 2) (hk : s.root.stepKind = 0)
    (hr : s.alarm.running = none) (hn : s.alarm.next = none) :
    declareStill a strag s =
      let u := event evStill (onRoot (fun r => { r with
        stillT := a.tick
        wstate := declaredState s a.scope strag
        regionsStill := if a.scope = 0 || strag then r.regionsStill else r.regionsStill ||| (1 <<< a.scope) }) s)
      if strag then event evStragglers u else u := by
  have hc : ¬ ((a.origin = 2 || (s.root.stepKind != 0 && a.scope == s.root.stepScope)) = true) := by simp [ho, hk]
  have hidle : ∀ v : State, v.alarm = s.alarm → alarmOnStill a.scope strag (startFullDrain v) = v := fun v hv => by
    have hd : startFullDrain v = v := by
      unfold startFullDrain
      rw [hv, hr]
      split
      · next h => simp at h
      · rfl
    rw [hd, alarmOnStill, hv, hn, hr]
  unfold declareStill
  rw [if_neg hc]
  cases strag
  · exact hidle _ rfl
  · exact hidle _ rfl

/-- A census whose outcome is final: its counts are noted, region 15 is given up, and nothing of it is left to confirm. -/
def censusNoted (a : StillAction) (s : State) : State :=
  onRoot (fun r => { r with
    confirm := r.confirm.filter (fun e => e.act != a)
    launched := r.launched.filter (fun b => !(b.kind == 1 && (b.scope == a.scope || b.scope == 15))) })
    (clearRegion15 (noteCount a.scope (stillCount s a.scope) (nameStragglers (notStill s a.scope)) s))

theorem finishStill_eq (a : StillAction) (s : State) : finishStill a s =
    let d := declareStill a (!(notStill s a.scope).isEmpty) (censusNoted a s)
    if (nameStragglers (notStill s a.scope)).any (fun k => (tileOf d k).still.state == stNoack) then raiseClass 2 d else d := rfl

theorem tileOf_censusNoted (a : StillAction) {s : State} (hwf : mwf {} s.tiles = true) (k : Nat) : tileOf (censusNoted a s) k =
    { tileOf s k with still := { (tileOf s k).still with region := (tileOf s k).still.region &&& 0x7FFF } } :=
  tileOf_onListedTiles (fun _ x => { x with still := { x.still with region := x.still.region &&& 0x7FFF } }) s k hwf rfl

theorem finishStill_still {a : StillAction} {s : State} (h : notStill s a.scope = []) (ho : a.origin ≠ 2) (hk : s.root.stepKind = 0)
    (hr : s.alarm.running = none) (hn : s.alarm.next = none) :
    finishStill a s = event evStill (onRoot (fun r => { r with
      stillT := a.tick
      wstate := declaredState (censusNoted a s) a.scope false
      regionsStill := if a.scope = 0 then r.regionsStill else r.regionsStill ||| (1 <<< a.scope) }) (censusNoted a s)) := by
  rw [finishStill_eq, h]
  refine (declareStill_plain (a := a) (s := censusNoted a s) false ho hk hr hn).trans ?_
  simp only [Bool.or_false, decide_eq_true_eq]
  rfl

/-- WSTATE of a still declared without stragglers (04 R130; log 112). -/
theorem declaredState_still (a : StillAction) (s : State) : declaredState (censusNoted a s) a.scope false =
    if a.scope = 0 then 3 else if s.root.wstate = 4 ∧ s.root.stragScope ≠ 0 then 0 else s.root.wstate := by
  have hw : (censusNoted a s).root.wstate = s.root.wstate := rfl
  have hs : (censusNoted a s).root.stragScope = if a.scope != 0 && waferStrag s then 0 else a.scope := rfl
  by_cases h0 : a.scope = 0
  · simp [declaredState, h0]
  · by_cases h4 : s.root.wstate = 4 <;> by_cases hz : s.root.stragScope = 0 <;>
      simp [declaredState, hw, hs, waferStrag, h0, h4, hz, Ne.symm h0]

/-! The census of a still to be confirmed -/

section
variable {s : State} {a : StillAction} {r : List Confirm}

theorem stillCensus_first (hc : s.root.confirm = { act := a, repeatAt := none } :: r) :
    exec .stillCensus s = .next (firstCensus a (elapse (a.tick + 1000) s)) := by
  simp [exec, execStillCensus, hc]

theorem stillCensusRepeat_first {n : Nat} (hc : s.root.confirm = { act := a, repeatAt := some n } :: r) :
    exec .stillCensusRepeat s = .next (repeatCensus a (elapse n s)) := by
  simp [exec, execStillCensusRepeat, hc]

theorem census_idle (hc : s.root.confirm = []) : exec .stillCensus s = .next s ∧ exec .stillCensusRepeat s = .next s := by
  simp [exec, execStillCensus, execStillCensusRepeat, hc]

end

theorem elapse_running (n : Nat) (s : State) : (elapse n s).alarm.running = s.alarm.running ∧ (elapse n s).alarm.next = s.alarm.next := by
  rw [elapse_alarm]
  exact ⟨rfl, rfl⟩

/-- A census that finds every member still declares the still. -/
theorem stillCensus_declares {s : State} {a : StillAction} {r : List Confirm} (hc : s.root.confirm = { act := a, repeatAt := none } :: r)
    (hwf : mapsWf s) (ho : a.origin ≠ 2) (hk : s.root.stepKind = 0) (hr : s.alarm.running = none) (hn : s.alarm.next = none)
    (h : notStill s a.scope = []) :
    ∃ t, exec .stillCensus s = .next t ∧ t.root.stillT = a.tick ∧ t.root.stragCount = 0 ∧
      (a.scope = 0 ∨ waferStrag s = false → t.root.stragglers = []) ∧ t.root.nakCount = 0 ∧
      t.root.okCount = (scopeTiles s a.scope).length ∧
      t.root.wstate = (if a.scope = 0 then 3 else if s.root.wstate = 4 ∧ s.root.stragScope ≠ 0 then 0 else s.root.wstate) ∧
      t.root.regionsStill = (if a.scope = 0 then s.root.regionsStill else s.root.regionsStill ||| (1 <<< a.scope)) ∧
      t.port.events.getLsbD 0 = true ∧ (∀ k, (tileOf t k).still.region = (tileOf s k).still.region &&& 0x7FFF) ∧
      (∀ k, { tileOf t k with still := (tileOf s k).still } = tileOf s k) ∧
      { t with
        root := s.root
        port := s.port
        tiles := s.tiles
        time := s.time
        txn := s.txn
        plans := s.plans
        alarm := s.alarm
        mapEpoch := s.mapEpoch
        folds := s.folds
        census := s.census } = s := by
  obtain ⟨hr', hn'⟩ := elapse_running (a.tick + 1000) s
  have he := notStill_elapse (a.tick + 1000) s a.scope
  have hframe := elapse_frame (a.tick + 1000) s
  have hroot := elapse_root (a.tick + 1000) s
  have hst := waferStrag_elapse (a.tick + 1000) s
  have hsc := scopeTiles_elapse (a.tick + 1000) s a.scope
  have htile := tileOf_elapse (a.tick + 1000) s
  have htiles := elapse_tiles (a.tick + 1000) s
  have hexec := stillCensus_first hc
  generalize elapse (a.tick + 1000) s = e at *
  rw [h] at he
  obtain ⟨hnaks, hlost, hok⟩ := stillCount_still he
  have hdone := finishStill_still he ho (by rw [hroot, hk]) (hr'.trans hr) (hn'.trans hn)
  have hfirst : firstCensus a e = finishStill a e := by
    unfold firstCensus
    rw [censusDead_of_still he, he]
    rfl
  have htileOf : ∀ k, tileOf (finishStill a e) k =
      { tileOf s k with still := { (tileOf s k).still with region := (tileOf s k).still.region &&& 0x7FFF } } := fun k => by
    rw [← htile k, ← tileOf_censusNoted a (by rw [htiles]; exact hwf.1) k, hdone]
    rfl
  refine ⟨finishStill a e, hexec.trans (congrArg _ hfirst), ?_, ?_, fun hs => ?_, ?_, ?_, ?_, ?_, ?_, fun k => ?_, fun k => ?_, ?_⟩
  · rw [hdone]; rfl
  · rw [hdone]
    show (stillCount e a.scope).naks.length + (stillCount e a.scope).lost.length = 0
    rw [hnaks, hlost]; rfl
  · rw [hdone]
    show (if a.scope != 0 && waferStrag e then _ else nameStragglers (notStill e a.scope)) = []
    rw [he, hst, if_neg (by rcases hs with hs | hs <;> simp [hs])]
    rfl
  · rw [hdone]
    show (stillCount e a.scope).naks.length = 0
    rw [hnaks]; rfl
  · rw [hdone]
    exact hok.trans (congrArg _ hsc)
  · rw [hdone, ← hroot]
    exact declaredState_still a e
  · rw [hdone, ← hroot]; rfl
  · rw [hdone]
    exact event_sets (by decide) _
  · rw [htileOf]
  · rw [htileOf]
  · rw [hdone, hframe]; rfl

/-- A census that no member answers has failed: class 7 reports it, and the still stays to be confirmed. -/
theorem stillCensus_fails {s : State} {a : StillAction} {r : List Confirm} (hc : s.root.confirm = { act := a, repeatAt := none } :: r)
    (hd : censusDead s a.scope = true) :
    ∃ u, exec .stillCensus s = .next (raiseClass 7 u) ∧
      { u with root := s.root, port := s.port } = { elapse (a.tick + 1000) s with root := s.root, port := s.port } ∧
      u.root = { s.root with censusFail := true, confirm := u.root.confirm } ∧
      { act := a, failed := true } ∈ u.root.confirm := by
  have he := censusDead_elapse (a.tick + 1000) s a.scope
  have hroot := elapse_root (a.tick + 1000) s
  have hexec := stillCensus_first hc
  generalize elapse (a.tick + 1000) s = e at *
  have hfirst : firstCensus a e = failCensus a e := if_pos (he.trans hd)
  refine ⟨_, hexec.trans (congrArg _ hfirst), rfl, ?_, ?_⟩
  · rw [← hroot]; rfl
  · show _ ∈ e.root.confirm.map (fun c => if c.act == a then { c with failed := true } else c)
    rw [hroot, hc]
    simp

/-! The one retry (04 R132) -/

/-- A retry marks the tiles it goes to, waits in the queue or for room in it, and changes nothing of what the census noted. -/
theorem retryLost_kept (scope : Nat) (named : List Nat) (s : State) :
    (retryLost scope named s).2.port = s.port ∧ (retryLost scope named s).2.root = { s.root with
      retried := (retryLost scope named s).2.root.retried
      regions := (retryLost scope named s).2.root.regions
      queue := (retryLost scope named s).2.root.queue
      waiting := (retryLost scope named s).2.root.waiting } := by
  unfold retryLost
  dsimp only
  split
  · exact ⟨rfl, rfl⟩
  · have hmarked := onTiles_frame (named.filter (fun k => lostWord scope (tileOf s k)))
      (fun _ x => { x with still := { x.still with region := x.still.region ||| 0x8000 } }) s
    unfold onTiles at hmarked
    rw [hmarked]
    unfold enqueueOwn
    split <;> exact ⟨rfl, rfl⟩

/-- A first census that is not final: its counts are noted, and its stragglers named and reported. -/
def stragglersNoted (a : StillAction) (s : State) : State :=
  event evStragglers (noteCount a.scope (stillCount s a.scope) (nameStragglers (notStill s a.scope)) s)

theorem firstCensus_names {a : StillAction} {s : State} (h : notStill s a.scope ≠ []) (hd : censusDead s a.scope = false) :
    firstCensus a s =
      let w := retryLost a.scope (nameStragglers (notStill s a.scope)) (stragglersNoted a s)
      onRoot (fun q => { q with
        confirm := q.confirm.map (fun c => if c.act == a then { c with repeatAt := some w.1, failed := false } else c) }) w.2 := by
  unfold firstCensus
  rw [if_neg (ne_true_of_eq_false hd), if_neg h]
  rfl

/-- A census that finds stragglers notes and names them, and is to be repeated. -/
theorem stillCensus_names {s : State} {a : StillAction} {r : List Confirm} (hc : s.root.confirm = { act := a, repeatAt := none } :: r)
    (h : notStill s a.scope ≠ []) (hd : censusDead s a.scope = false) :
    ∃ t, exec .stillCensus s = .next t ∧ t.root.stragCount = (notStill s a.scope).length ∧
      (a.scope = 0 ∨ waferStrag s = false → t.root.stragglers = nameStragglers (notStill s a.scope) ∧ t.root.stragScope = a.scope) ∧
      t.port.events.getLsbD 2 = true ∧ (∃ n, { act := a, repeatAt := some n } ∈ t.root.confirm) ∧
      t.root.stillT = s.root.stillT ∧ t.root.wstate = s.root.wstate := by
  have he := notStill_elapse (a.tick + 1000) s a.scope
  have hde := censusDead_elapse (a.tick + 1000) s a.scope
  have hroot := elapse_root (a.tick + 1000) s
  have hst := waferStrag_elapse (a.tick + 1000) s
  have hexec := stillCensus_first hc
  generalize elapse (a.tick + 1000) s = e at *
  rw [firstCensus_names (by rwa [he]) (hde.trans hd)] at hexec
  obtain ⟨hport, hkept⟩ := retryLost_kept a.scope (nameStragglers (notStill e a.scope)) (stragglersNoted a e)
  generalize retryLost a.scope (nameStragglers (notStill e a.scope)) (stragglersNoted a e) = w at *
  have hkeep : a.scope = 0 ∨ waferStrag s = false → ¬ ((a.scope != 0 && waferStrag e) = true) := fun hs => by
    rw [hst]
    rcases hs with hs | hs <;> simp [hs]
  refine ⟨_, hexec, ?_, fun hs => ⟨?_, ?_⟩, ?_, ⟨w.1, ?_⟩, ?_, ?_⟩
  · show w.2.root.stragCount = _
    rw [hkept, ← he]
    exact stillCount_stragglers e a.scope
  · show w.2.root.stragglers = _
    rw [hkept, ← he]
    exact if_neg (hkeep hs)
  · show w.2.root.stragScope = _
    rw [hkept]
    exact if_neg (hkeep hs)
  · show w.2.port.events.getLsbD 2 = true
    rw [hport]
    exact event_sets (by decide) _
  · show _ ∈ w.2.root.confirm.map _
    have hconf : w.2.root.confirm = { act := a, repeatAt := none } :: r := by
      rw [hkept]
      exact (congrArg RootState.confirm hroot :).trans hc
    rw [hconf]
    simp
  · show w.2.root.stillT = _
    rw [hkept, ← hroot]; rfl
  · show w.2.root.wstate = _
    rw [hkept, ← hroot]; rfl

end Sys2Proof.Machine
end

section
/-! What a class that the centre raises leaves of a wafer still with stragglers: the tick, WSTATE, the count and the events reported
(05 R158 to R162). -/

namespace Sys2Proof.Machine

/-- A wafer still of tick `t` stands with `n` stragglers, and both are reported. -/
def StragsStand (t n : Nat) (s : State) : Prop :=
  s.root.stillT = t ∧ s.root.wstate = 4 ∧ s.root.stragScope = 0 ∧ s.root.stragCount = n ∧
    s.port.events.getLsbD 0 = true ∧ s.port.events.getLsbD 2 = true

namespace StragsStand
variable {t n : Nat} {s u : State}

theorem congr (h : StragsStand t n s) (hr : u.root = s.root) (hp : u.port.events = s.port.events) : StragsStand t n u := by
  unfold StragsStand
  rwa [hr, hp]

theorem waferStrag (h : StragsStand t n s) : waferStrag s = true := by
  obtain ⟨-, hw, hz, -⟩ := h
  simp [Machine.waferStrag, hw, hz]

/-! Reports and answers -/

theorem event (i : Nat) (h : StragsStand t n s) : StragsStand t n (event i s) := by
  obtain ⟨h1, h2, h3, h4, h5, h6⟩ := h
  exact ⟨h1, h2, h3, h4, event_keeps i h5, event_keeps i h6⟩

theorem respond (q : ReqHdr) (st : Status) (body : List Byte) (h : StragsStand t n s) : StragsStand t n (respond q st body s) := by
  unfold Machine.respond send
  extract_lets r s1
  split
  · exact h
  · split
    · exact h
    · exact h.congr (by rw [(portSend_spec _ _).2]; rfl) (by rw [(portSend_spec _ _).2]; rfl)

theorem respondOpt (q : Option ReqHdr) (st : Status) (body : List Byte) (h : StragsStand t n s) :
    StragsStand t n (respondOpt q st body s) := by
  cases q with
  | none => exact h
  | some q => exact h.respond q st body

theorem recordAt (k time code data : Nat) (h : StragsStand t n s) : StragsStand t n (recordAt k time code data s) := by
  have honly := (recordAt_onlyTile k time code data s).1
  exact h.congr (congrArg State.root honly :) (congrArg (fun u => u.port.events) honly :)

/-! The queue -/

/-- A change of the queue and of other fields of the root that is not what a still's confirmation wrote. -/
theorem onRoot {f : RootState → RootState} (h : StragsStand t n s) (hT : (f s.root).stillT = s.root.stillT)
    (hw : (f s.root).wstate = s.root.wstate) (hz : (f s.root).stragScope = s.root.stragScope)
    (hc : (f s.root).stragCount = s.root.stragCount) : StragsStand t n (onRoot f s) := by
  obtain ⟨h1, h2, h3, h4, h5⟩ := h
  exact ⟨hT.trans h1, hw.trans h2, hz.trans h3, hc.trans h4, h5⟩

theorem unqueue (p : StillAction → Bool) (h : StragsStand t n s) : StragsStand t n (unqueue p s) := h.onRoot rfl rfl rfl rfl

/-- WSTATE changes at a queueing only where the wafer runs. -/
theorem enqueue (kind scope tick origin txn : Nat) (h : StragsStand t n s) : StragsStand t n (enqueue kind scope tick origin txn s) := by
  refine h.onRoot rfl ?_ rfl rfl
  obtain ⟨-, hw, -⟩ := h
  simp [hw]

theorem dropStep (h : StragsStand t n s) : StragsStand t n (dropStep s) := by
  rw [dropStep_eq]
  exact h

theorem dropReleases (h : StragsStand t n s) : StragsStand t n (dropReleases s) := by
  unfold Machine.dropReleases
  split
  · exact h
  · refine event _ ?_
    split
    · exact h.dropStep
    · exact h

/-! Transactions (06 R206) -/

theorem closeTxn (st : Status) (body : List Byte) (h : StragsStand t n s) : StragsStand t n (closeTxn st body s) := by
  unfold Machine.closeTxn
  split
  · exact h
  · exact event _ (respondOpt _ _ _ h)

theorem dropPurpose (p : Nat) (h : StragsStand t n s) : StragsStand t n (dropPurpose p s) := by
  unfold Machine.dropPurpose
  split <;> exact h

theorem rinseStub (id k : Nat) (h : StragsStand t n s) : StragsStand t n (rinseStub id k s) := by
  unfold Machine.rinseStub discardStaged record
  dsimp only
  split
  · refine recordAt _ _ _ _ ?_
    unfold onTile
    split <;> exact h
  · exact h

theorem rinseTargets (id : Nat) (ks : List Nat) (h : StragsStand t n s) : StragsStand t n (rinseTargets id ks s) := by
  have hall : StragsStand t n (ks.foldl (fun s k => Machine.rinseStub id k s) s) := by
    induction ks generalizing s with
    | nil => exact h
    | cons k ks ih => exact ih (h.rinseStub id k)
  exact hall

theorem nextCentre (h : StragsStand t n s) : StragsStand t n (nextCentre s) := by
  unfold Machine.nextCentre
  split
  · split <;> exact h
  · exact h

/-! The end of a recovery (12 R391) -/

theorem onRec (f : RecState → RecState) (h : StragsStand t n s) : StragsStand t n (onRec f s) := h

theorem wellPut (a : Nat) (bs : List Byte) (h : StragsStand t n s) : StragsStand t n (wellPut a bs s) := h

theorem closeCrash (h : StragsStand t n s) : StragsStand t n (closeCrash s) := by
  unfold Machine.closeCrash
  split
  · exact h
  · split
    · extract_lets s1
      have h1 : StragsStand t n s1 := (h.wellPut _ _).wellPut _ _
      split
      · exact h1
      · exact (h1.wellPut _ _).onRec _
    · exact h.onRec _

theorem endRecovery (outcome : Nat) (h : StragsStand t n s) : StragsStand t n (endRecovery outcome s) := by
  unfold Machine.endRecovery setOutcome
  extract_lets s1 s2
  have h2 : StragsStand t n s2 := by
    show StragsStand t n (if _ then _ else _)
    split <;> exact h.congr rfl rfl
  exact h2.closeCrash.event _

theorem mendMapFailed (h : StragsStand t n s) : StragsStand t n (mendMapFailed s) := by
  unfold Machine.mendMapFailed
  split
  · exact h
  · exact h.endRecovery 5

theorem closeRinsed (cause : Nat) (x : Txn) (h : StragsStand t n s) : StragsStand t n (closeRinsed cause x s) := by
  unfold Machine.closeRinsed
  split
  · split
    · exact closeTxn (s := onTxn (fun q => { q with active := some { x with reply := none } }) s) _ _ h
    · exact mendMapFailed (closeTxn (s := onTxn (fun q => { q with mapTries := 0 }) s) _ _ h)
  · exact h.closeTxn _ _

theorem rinseWith (cause : Nat) (answered : Bool) (h : StragsStand t n s) : StragsStand t n (rinseWith cause answered s) := by
  unfold Machine.rinseWith
  split
  · exact h
  · split
    · exact h
    · extract_lets ks s1 s2 s3 y
      have h2 : StragsStand t n s2 := rinseTargets _ _ ((h.unqueue _).congr rfl rfl)
      exact nextCentre (closeRinsed _ _ ((h2.dropPurpose _).congr rfl rfl))

theorem rinseForAlarm (h : StragsStand t n s) : StragsStand t n (rinseForAlarm s) := by
  unfold Machine.rinseForAlarm
  split
  · exact h
  · split
    · exact h
    · exact h.rinseWith 7 true

theorem fixedTxn (h : StragsStand t n s) : StragsStand t n (fixedTxn s) := by
  unfold Machine.fixedTxn
  split
  · exact h
  · split
    · exact h
    · exact closeTxn _ _ (dropPurpose _ (unqueue _ h))

/-! Snapshots (11 R362) -/

/-- A break for an alarm releases no still of its own. -/
theorem breakSnap (h : StragsStand t n s) : StragsStand t n (breakSnap 6 s) := by
  unfold Machine.breakSnap
  split
  · exact h
  · extract_lets unlaunched ended s1 s2 s3 s4 s5 s6
    have h3 : StragsStand t n s3 := unqueue _ (h.congr rfl rfl)
    have h5 : StragsStand t n s5 := event _ (h3.congr rfl rfl)
    have h6 : s6 = s5 := if_pos (by simp)
    rw [h6]
    exact h5.respondOpt _ _ _

theorem recomputeCurrent (h : StragsStand t n s) : StragsStand t n (recomputeCurrent s) := by
  unfold Machine.recomputeCurrent
  split
  · exact h
  · dsimp only
    split <;> exact h

theorem retirePond (p : Nat) (h : StragsStand t n s) : StragsStand t n (retirePond p s) := by
  have h1 : StragsStand t n (Machine.recomputeCurrent (onPond p (fun q => { images := q.images, logs := q.logs }) s)) :=
    recomputeCurrent (h.congr rfl rfl)
  exact h1.congr rfl rfl

theorem startTake (id kind : Nat) (autoRel : Bool) (tick : Nat) (h : StragsStand t n s) :
    StragsStand t n (startTake id kind autoRel false false tick none s) :=
  (h.retirePond (targetPond s)).congr rfl rfl

theorem alarmSnap (skip : Bool) (h : StragsStand t n s) : StragsStand t n (alarmSnap skip s) := by
  unfold Machine.alarmSnap
  split
  · exact h
  · exact startTake _ _ _ _ (h.congr rfl rfl)

/-! Actions (05 R159 to R162) -/

theorem actOnStill (r : AlarmAction) (strag : Bool) (h : StragsStand t n s) : StragsStand t n (actOnStill r strag s) := by
  unfold Machine.actOnStill
  dsimp only
  split
  · exact alarmSnap _ h
  · split <;> exact h

/-- While it stands, an alarm still is asked for only after a launched RELEASE, and then it is queued (04 R120). -/
theorem launchAlarmStill (scope : Nat) (h : StragsStand t n s) (hheld : heldFor s scope = false) :
    StragsStand t n (launchAlarmStill scope s).2 := by
  have hw : waferHeld s = true := by simp [waferHeld, h.waferStrag]
  by_cases h0 : scope = 0
  · obtain ⟨t2, ht2⟩ : ∃ t2, launchedRelease s = some t2 :=
      Option.ne_none_iff_exists'.1 fun hn => by simp [heldFor, h0, hw, hn] at hheld
    unfold Machine.launchAlarmStill
    rw [if_pos h0, ht2]
    exact h.enqueue _ _ _ _ _
  · simp [heldFor, h0, hw] at hheld

theorem startAction (c act : Nat) (h : StragsStand t n s) : StragsStand t n (startAction c act s) := by
  unfold Machine.startAction
  extract_lets b used s1 scope s2 held at0 l r s3 s4
  have h2 : StragsStand t n s2 := by
    show StragsStand t n (if scope = 0 then Machine.dropReleases s1 else s1)
    split
    · exact dropReleases h
    · exact h
  have hl : StragsStand t n l.2 := by
    cases hheld : held with
    | true => simpa only [l, hheld, if_true] using h2
    | false =>
      simp only [l, hheld, Bool.false_eq_true, if_false]
      exact h2.launchAlarmStill scope hheld
  have h3 : StragsStand t n s3 := by
    show StragsStand t n (if _ then _ else _)
    split
    · exact hl
    · exact hl
  split
  · exact actOnStill _ _ h3
  · exact h3

theorem clearWay (act : Nat) (h : StragsStand t n s) : StragsStand t n (clearWay act s) := by
  unfold Machine.clearWay
  extract_lets s1
  have h1 : StragsStand t n s1 := by
    show StragsStand t n (if _ then _ else _)
    split
    · exact h.rinseForAlarm
    · exact h
  split
  · exact h1.breakSnap
  · exact h1

theorem abandonAction (h : StragsStand t n s) : StragsStand t n (abandonAction s) := by
  unfold Machine.abandonAction
  split
  · exact h
  · exact event _ h

theorem startFixed (h : StragsStand t n s) : StragsStand t n (startFixed s) := by
  unfold Machine.startFixed
  extract_lets s1 s2 s3 s4 s5
  have h2 : StragsStand t n s2 := by
    show StragsStand t n (if _ then _ else _)
    split
    · exact h.abandonAction.breakSnap
    · exact h.abandonAction
  have h4 : StragsStand t n s4 := h2.fixedTxn.unqueue _
  have hw : s4.root.wstate ≠ 5 := by
    obtain ⟨-, hw, -⟩ := h4
    rw [hw]
    decide
  exact startAction _ _ (h4.onRoot rfl (if_neg hw) rfl rfl)

theorem decodeAction (c act : Nat) (h : StragsStand t n s) : StragsStand t n (decodeAction c act s) := by
  have hstart : StragsStand t n (Machine.startAction c act (Machine.clearWay act s)) := (h.clearWay act).startAction c act
  unfold Machine.decodeAction
  split
  · exact h
  · split
    · exact h.startFixed
    · split
      · exact hstart
      · split
        · have h1 : StragsStand t n (Machine.event evAbandoned (setW1c 0x400 (2 ^ 32) (Machine.clearWay act s))) :=
            event _ ((h.clearWay act).congr rfl rfl)
          exact startAction _ _ (h1.congr rfl rfl)
        · split
          · dsimp only
            split <;> exact hstart
          · exact h

theorem recordOutcome (cs : BitVec 16) (h : StragsStand t n s) : StragsStand t n (recordOutcome cs s) := by
  unfold Machine.recordOutcome
  split
  · exact h
  · split
    · exact h
    · exact event _ h

theorem traceTrigger (cs : BitVec 16) (h : StragsStand t n s) : StragsStand t n (traceTrigger cs s) := by
  unfold Machine.traceTrigger
  split
  · exact h
  · split <;> exact h

theorem joinRecovery (cs : BitVec 16) (h : StragsStand t n s) : StragsStand t n (joinRecovery cs s) := by
  unfold Machine.joinRecovery restartRecovery
  dsimp only
  split
  · exact h
  · split
    · exact h
    · split
      · split
        · exact dropReleases h
        · exact endRecovery 7 (dropReleases h)
      · exact h

/-- Whatever the raised class is bound to, the still stands as it did. -/
theorem raiseClass (c : Nat) (h : StragsStand t n s) : StragsStand t n (raiseClass c s) := by
  unfold Machine.raiseClass acceptClasses
  split
  · exact h
  · extract_lets d s1 s2 s3
    have h2 : StragsStand t n s2 := recordOutcome _ (traceTrigger _ h)
    refine joinRecovery _ (decodeAction _ _ ?_)
    show StragsStand t n (if _ then _ else _)
    split <;> exact h2

end StragsStand

end Sys2Proof.Machine
end

section
/-! The census that is repeated, and the obligation (04 R132, R133). -/

namespace Sys2Proof.Machine

/-- A wafer still declared with stragglers: its tick and count stand, and both are reported. -/
theorem declareStill_stragsStand {a : StillAction} {s : State} (ho : a.origin ≠ 2) (h0 : a.scope = 0) (hk : s.root.stepKind = 0)
    (hr : s.alarm.running = none) (hn : s.alarm.next = none) :
    StragsStand a.tick (notStill s 0).length (declareStill a true (censusNoted a s)) := by
  rw [declareStill_plain (s := censusNoted a s) true ho hk hr hn]
  refine ⟨rfl, ?_, ?_, ?_, event_keeps _ (event_sets (by decide) _), event_sets (by decide) _⟩
  · show declaredState (censusNoted a s) a.scope true = 4
    rw [h0]
    rfl
  · show (if a.scope != 0 && waferStrag s then 0 else a.scope) = 0
    rw [h0]
    rfl
  · rw [← h0]
    exact stillCount_stragglers s a.scope

/-- A final outcome with stragglers stands, whatever the class that reports those without acknowledge is bound to. -/
theorem finishStill_stragsStand {a : StillAction} {s : State} (ho : a.origin ≠ 2) (h0 : a.scope = 0) (hk : s.root.stepKind = 0)
    (hr : s.alarm.running = none) (hn : s.alarm.next = none) (h : notStill s 0 ≠ []) :
    StragsStand a.tick (notStill s 0).length (finishStill a s) := by
  have hstrag : (!(notStill s a.scope).isEmpty) = true := by simpa [h0] using h
  have hd := declareStill_stragsStand ho h0 hk hr hn
  rw [finishStill_eq, hstrag]
  dsimp only
  split
  · exact hd.raiseClass 2
  · exact hd

theorem stillCensusRepeat_declares {s : State} {a : StillAction} {n : Nat} {r : List Confirm}
    (hc : s.root.confirm = { act := a, repeatAt := some n } :: r) (ho : a.origin ≠ 2) (h0 : a.scope = 0) (hk : s.root.stepKind = 0)
    (hr : s.alarm.running = none) (hn : s.alarm.next = none) (h : notStill s 0 ≠ []) (hd : censusDead s 0 = false) :
    ∃ t, exec .stillCensusRepeat s = .next t ∧ StragsStand a.tick (notStill s 0).length t := by
  obtain ⟨hr', hn'⟩ := elapse_running n s
  have hlive : ¬ (censusDead (elapse n s) a.scope = true) := by simp [h0, hd]
  have hk' : (elapse n s).root.stepKind = 0 := (congrArg RootState.stepKind (elapse_root n s)).trans hk
  have hbad := notStill_elapse n s 0
  refine ⟨_, (stillCensusRepeat_first hc).trans (congrArg _ (if_neg hlive)), ?_⟩
  rw [← hbad] at h ⊢
  exact finishStill_stragsStand ho h0 hk' (hr'.trans hr) (hn'.trans hn) h

/-- Settles O15: the first census declares a still whose members are all still, fails where none answers, and otherwise names the
stragglers; the repeated one is final. What a region's stragglers show is log 112, and a census of which no member answers log 113. -/
theorem stillCensuses : Obligations.StillCensuses := by
  refine ⟨fun s => census_idle, fun s a r hc hwf ho hk hr hn _ => ⟨stillCensus_declares hc hwf ho hk hr hn, stillCensus_fails hc,
    stillCensus_names hc⟩, fun s a n r hc ho h0 hk hr hn _ h hd _ => ?_⟩
  obtain ⟨t, ht, hT, hw, -, hcount, hstill, hstrag⟩ := stillCensusRepeat_declares hc ho h0 hk hr hn h hd
  exact ⟨t, ht, hT, hw, hcount, hstill, hstrag⟩

end Sys2Proof.Machine
end

section
/-! What the alarm root makes of the classes that it accepts (02 R78; 05 R158 to R162). -/

namespace Sys2Proof.Machine

/-! Acceptance (02 R78) -/

@[simp] theorem elapse_lstill (n : Nat) (s : State) : (elapse n s).time.lstill = s.time.lstill :=
  (congrArg TimeState.lstill (elapse_time n s) :)

@[simp] theorem accepting_root (s : State) (cs : BitVec 16) : (accepting s cs).root = s.root := elapse_root _ s
@[simp] theorem accepting_recov (s : State) (cs : BitVec 16) : (accepting s cs).recov = s.recov := elapse_recov _ s
@[simp] theorem accepting_boot (s : State) (cs : BitVec 16) : (accepting s cs).boot = s.boot :=
  (congrArg State.boot (elapse_frame (acceptTime s cs) s) :)
@[simp] theorem accepting_lstill (s : State) (cs : BitVec 16) : (accepting s cs).time.lstill = s.time.lstill :=
  elapse_lstill _ s
@[simp] theorem accepting_markTick (s : State) (cs : BitVec 16) : (accepting s cs).time.markTick = s.time.markTick :=
  (congrArg TimeState.markTick (elapse_time (acceptTime s cs) s) :)
@[simp] theorem accepting_enabled (s : State) (cs : BitVec 16) : (accepting s cs).alarm.enabled = s.alarm.enabled :=
  (congrArg AlarmState.enabled (elapse_alarm (acceptTime s cs) s) :)
@[simp] theorem accepting_running (s : State) (cs : BitVec 16) : (accepting s cs).alarm.running = s.alarm.running :=
  (congrArg AlarmState.running (elapse_alarm (acceptTime s cs) s) :)

theorem recRuns_none {s : State} (h : s.recov.phase = 0) : recRuns s = false := by
  unfold recRuns
  rw [h]
  rfl

theorem alarmAccept_idle {s : State} {w : BitVec 16} (h : s.rill.inService = false ∨ w &&& drivenClasses s = 0) :
    exec (.alarmAccept w) s = .next s := by
  have hb : (inService s && w &&& drivenClasses s != 0) = false := by
    rcases h with h | h
    · rw [inService, h, Bool.false_and]
    · rw [h, bne_self_eq_false, Bool.and_false]
  simp only [exec, execAlarmAccept, hb, when_false]

theorem alarmAccept_accepts {s : State} {w cs : BitVec 16} (hs : s.rill.inService = true) (hw : w &&& drivenClasses s = cs)
    (hc : cs ≠ 0) : exec (.alarmAccept w) s = .next (acceptClasses cs (accepting s cs)) := by
  have hb : (inService s && cs != 0) = true := by rw [inService, hs, bne_iff_ne.2 hc, Bool.and_self]
  simp only [exec, execAlarmAccept, hw, hb, when_true]
  rfl

theorem acceptClasses_disabled {cs : BitVec 16} {s : State} (h : s.alarm.enabled = false) : acceptClasses cs s = s :=
  if_pos (by rw [h]; rfl)

/-! Classes that act as RECORD (05 R159; 12 R371) -/

theorem mem_classList {cs : BitVec 16} {c : Nat} : c ∈ classList cs ↔ c < 16 ∧ cs.getLsbD c = true := by
  simp [classList]

theorem strongest_record {s : State} {cs : BitVec 16} (h : ∀ c, c < 16 → cs.getLsbD c = true → actionNow s c = acRecord) :
    (strongest s cs).2 = acRecord := by
  refine List.foldlRecOn (motive := fun b : Nat × Nat => b.2 = acRecord) (classList cs) _ rfl fun b hb c hc => ?_
  obtain ⟨hlt, hset⟩ := mem_classList.1 hc
  rw [h c hlt hset, hb, if_neg (Nat.lt_irrefl _)]
  exact hb

theorem recordOutcome_none {s : State} {cs : BitVec 16}
    (h : ∀ c, 1 ≤ c → c ≤ 6 → cs.getLsbD c = true → actionNow s c ≠ acRecord) : recordOutcome cs s = s := by
  have hn : (List.range 7).find? (fun c => c != 0 && cs.getLsbD c && actionNow s c == acRecord) = none := by
    rw [List.find?_eq_none]
    intro c hc hp
    simp only [List.mem_range, Bool.and_eq_true, bne_iff_ne, beq_iff_eq] at hc hp
    exact h c (by omega) (by omega) hp.1.2 hp.2
  rw [recordOutcome, hn]

/-- `s` once the recovery's outcome is RECORDED with class `c`. -/
def withRecorded (c : Nat) (s : State) : State :=
  event evRecovery (onRec (fun r => { r with cls := c, outcome := 1, elapsedUs := 0 }) s)

/-- The lowest system class that acts as RECORD gives the recovery its CLASS, with outcome RECORDED. -/
theorem recordOutcome_lowest {s : State} {cs : BitVec 16} {c : Nat} (h1 : 1 ≤ c) (h6 : c ≤ 6) (hc : cs.getLsbD c = true)
    (ha : actionNow s c = acRecord) (hlow : ∀ b, 1 ≤ b → b < c → cs.getLsbD b = false) (hr : recRuns s = false) :
    recordOutcome cs s = withRecorded c s := by
  have hf : (List.range 7).find? (fun c => c != 0 && cs.getLsbD c && actionNow s c == acRecord) = some c := by
    rw [List.find?_range_eq_some]
    refine ⟨?_, List.mem_range.2 (by omega), fun b hb => ?_⟩
    · rw [hc, ha, bne_iff_ne.2 (by omega)]
      rfl
    · rcases Nat.eq_zero_or_pos b with rfl | hpos
      · rfl
      · rw [hlow b hpos hb, Bool.and_false]
        rfl
  rw [recordOutcome, hf]
  exact if_neg (by rw [hr]; exact Bool.false_ne_true)

theorem traceTrigger_idle {s : State} (cs : BitVec 16) (h : s.plans.trace = none) : traceTrigger cs s = s := by
  unfold traceTrigger
  rw [h]

/-- The state in which the raised bits of `cs` are set. -/
def withRaised (cs : BitVec 16) (s : State) : State :=
  setW1c 0x400 cs.toNat (onAlarm (fun a => { a with raised := a.raised ||| cs }) s)

@[simp] theorem withRaised_recov (cs : BitVec 16) (s : State) : (withRaised cs s).recov = s.recov := rfl
@[simp] theorem withRaised_boot (cs : BitVec 16) (s : State) : (withRaised cs s).boot = s.boot := rfl
@[simp] theorem actionNow_withRaised (cs : BitVec 16) (s : State) (c : Nat) : actionNow (withRaised cs s) c = actionNow s c := rfl

theorem withRaised_eq (cs : BitVec 16) (s : State) : withRaised cs s = { s with
    alarm := { s.alarm with raised := s.alarm.raised ||| cs }
    port := { s.port with w1c := (withRaised cs s).port.w1c, w1cAt := (withRaised cs s).port.w1cAt } } := rfl

theorem withRecorded_withRaised_eq (cs : BitVec 16) (c : Nat) (s : State) : withRecorded c (withRaised cs s) = { s with
    alarm := { s.alarm with raised := s.alarm.raised ||| cs }
    recov := { s.recov with cls := c, outcome := 1, elapsedUs := 0 }
    port := { s.port with
      events := s.port.events ||| (1 <<< 7)
      newEvents := s.port.newEvents ||| (1 <<< 7)
      w1c := (withRecorded c (withRaised cs s)).port.w1c
      w1cAt := (withRecorded c (withRaised cs s)).port.w1cAt } } := rfl

section
variable {s : State} {w cs : BitVec 16} (hs : s.rill.inService = true) (hw : w &&& drivenClasses s = cs) (hc : cs ≠ 0)
  (he : s.alarm.enabled = true) (ht : (accepting s cs).plans.trace = none) (hp : s.recov.phase = 0)
include hs hw hc he ht hp

/-- Classes that all act as RECORD are noted; what is left is the outcome of a recovery. -/
theorem alarmAccept_record (ha : ∀ c, c < 16 → cs.getLsbD c = true → actionNow (accepting s cs) c = 0) :
    exec (.alarmAccept w) s = .next (recordOutcome cs (withRaised cs (accepting s cs))) := by
  have hr : recRuns (accepting s cs) = false := recRuns_none (by rw [accepting_recov, hp])
  rw [alarmAccept_accepts hs hw hc, acceptClasses_record (by rw [accepting_enabled, he]) hc (strongest_record ha) hr]
  exact congrArg (fun t => Host.Outcome.next (recordOutcome cs t)) (traceTrigger_idle (s := withRaised cs (accepting s cs)) cs ht)

theorem alarmAccept_records_user (ha : ∀ c, c < 16 → cs.getLsbD c = true → actionNow (accepting s cs) c = 0)
    (hn : ∀ c, 1 ≤ c → c ≤ 6 → cs.getLsbD c = false) : exec (.alarmAccept w) s = .next (withRaised cs (accepting s cs)) := by
  rw [alarmAccept_record hs hw hc he ht hp ha, recordOutcome_none]
  intro c h1 h6 hset
  rw [hn c h1 h6] at hset
  cases hset

theorem alarmAccept_records_system (ha : ∀ c, c < 16 → cs.getLsbD c = true → actionNow (accepting s cs) c = 0) {c : Nat}
    (h1 : 1 ≤ c) (h6 : c ≤ 6) (hset : cs.getLsbD c = true) (hlow : ∀ b, 1 ≤ b → b < c → cs.getLsbD b = false) :
    exec (.alarmAccept w) s = .next (withRecorded c (withRaised cs (accepting s cs))) := by
  have hr : recRuns (withRaised cs (accepting s cs)) = false := recRuns_none (by rw [withRaised_recov, accepting_recov, hp])
  rw [alarmAccept_record hs hw hc he ht hp ha,
    recordOutcome_lowest (s := withRaised cs (accepting s cs)) h1 h6 hset
      ((actionNow_withRaised cs _ c).trans (ha c (by omega) hset)) hlow hr]

end

/-! A class that stills the wafer (05 R159, R161; 04 R119, R120) -/

theorem classList_single {c : Nat} (h : c < 16) : classList (1 <<< c) = [c] := by
  have hall : ∀ c < 16, classList (1 <<< c) = [c] := by decide
  exact hall c h

theorem strongest_single {s : State} {c : Nat} (h : c < 16) (ha : strength acRecord < strength (actionNow s c)) :
    strongest s (1 <<< c) = (c, actionNow s c) := by
  rw [strongest, classList_single h, List.foldl_cons, List.foldl_nil, if_pos ha]

theorem dropReleases_idle {s : State} (h : ∀ a ∈ s.root.queue, a.kind ≠ 2) : dropReleases s = s := by
  have hq : s.root.queue.any (fun a => a.kind == 2) = false := by
    rw [List.any_eq_false]
    exact fun a ha => by simpa using h a ha
  rw [dropReleases, hq]
  rfl

theorem launchedRelease_none {s : State} (h : ∀ a ∈ s.root.launched, a.kind ≠ 2) : launchedRelease s = none := by
  have hl : s.root.launched.filter (fun a => a.kind == 2 && decide (now s ≤ a.tick)) = [] := by
    rw [List.filter_eq_nil_iff]
    exact fun a ha => by simp [h a ha]
  rw [launchedRelease, hl]
  rfl

/-- The alarm STILL of the wafer that leaves in the RCLK cycle at hub time `l`. -/
def waferStill (s : State) (l : Nat) : StillAction :=
  { kind := 1, scope := 0, tick := l + s.time.lstill, launchAt := l, origin := 1 }

/-- The root once it has launched the wafer's alarm STILL in that cycle. -/
def waferStilled (s : State) (l : Nat) : RootState :=
  { s.root with
    queue := s.root.queue.filter (fun q => !(q.kind == 1 && q.scope == 0 && (edgeUp q.launchAt == l || edgeUp q.launchAt == l + 2)))
    launched := s.root.launched ++ [waferStill s l]
    lastLaunch := l
    confirm := s.root.confirm ++ [{ act := waferStill s l }]
    retried := false
    wstate := 2 }

theorem launchAlarmStill_wafer {s : State} (h : ∀ a ∈ s.root.launched, a.kind ≠ 2) (hm : s.time.markTick = none) :
    launchAlarmStill 0 s = (nextEdge s + s.time.lstill, { s with root := waferStilled s (nextEdge s) }) := by
  have hm' : ∀ f, (onRoot f (unqueue (fun a => (0 : Nat) == 0 && a.kind == 1 && a.scope == 0 &&
    (edgeUp a.launchAt == nextEdge s || edgeUp a.launchAt == nextEdge s + 2)) s)).time.markTick = none := fun _ => hm
  rw [launchAlarmStill, if_pos rfl, launchedRelease_none h]
  dsimp only
  rw [launchStillAt, hm']
  rfl

/-- The alarm root once USED of class `c` counts one more action, which disarms the class at its LIMIT. -/
def counted (c : Nat) (s : State) : AlarmState :=
  let b := classOf s c
  let used := min 255 (b.used + 1)
  { s.alarm with
    classes := mput {} s.alarm.classes c { b with used := used }
    disarmed := if b.limit ≠ 0 ∧ b.limit ≤ used then s.alarm.disarmed ||| (1 <<< c) else s.alarm.disarmed }

/-- The alarm root once class `c` has begun a still of the wafer, whose tick is `t`. -/
def waferAction (c t : Nat) (s : State) : AlarmState :=
  { counted c s with
    running := some { action := 1, cls := c, scope := 0, tick := t, accepted := now s, hold := (classOf s c).hold } }

/-- The state in which class `c` has begun a still of the wafer. -/
def waferBegun (c : Nat) (s : State) : State :=
  { s with alarm := waferAction c (nextEdge s + s.time.lstill) s, root := waferStilled s (nextEdge s) }

section
variable {s : State} (hh : waferHeld s = false) (hm : s.time.markTick = none)
  (hn : ∀ a ∈ s.root.queue ++ s.root.launched, a.kind ≠ 2)
include hh hm hn

/-- A still of the wafer that is not held yet: its STILL leaves at the next RCLK edge. -/
theorem startAction_wafer (c : Nat) : startAction c acWafer s = waferBegun c s := by
  obtain ⟨hq, hl⟩ := List.forall_mem_append.1 hn
  let v : State := { s with alarm := counted c s }
  have hdrop : dropReleases v = v := dropReleases_idle hq
  have hheld : heldFor v 0 = false := by
    rw [heldFor, if_pos rfl, show waferHeld v = waferHeld s from rfl, hh, Bool.false_and]
  have hlaunch : launchAlarmStill 0 v = (nextEdge s + s.time.lstill, { v with root := waferStilled s (nextEdge s) }) :=
    launchAlarmStill_wafer hl hm
  unfold startAction
  extract_lets b used s1 scope s2 held at0 l r s3 s4
  have h1 : s1 = v := by
    simp only [s1, v, counted, onAlarm, b, used, bne_iff_ne, Bool.and_eq_true, decide_eq_true_eq]
  have h2 : s2 = v := (congrArg dropReleases h1).trans hdrop
  have hf : held = false := (congrArg (heldFor · 0) h2).trans hheld
  have hl' : l = (nextEdge s + s.time.lstill, { v with root := waferStilled s (nextEdge s) }) :=
    (if_neg (by rw [hf]; exact Bool.false_ne_true)).trans ((congrArg (launchAlarmStill 0) h2).trans hlaunch)
  have hr : at0 = now s := (congrArg now h2 :)
  rw [hf, Bool.false_and, if_neg Bool.false_ne_true]
  unfold s4 s3 r
  rw [hl', hf, hr]
  rfl

end

theorem decodeAction_wafer (c : Nat) {s : State} (h : s.alarm.running = none) :
    decodeAction c acWafer s = startAction c acWafer s := by
  unfold decodeAction
  rw [if_neg (by decide), if_neg (by decide), h]
  rfl

/-- Classes whose strongest action is not RECORD, outside QUIET and with no system class among them that acts as RECORD: that
action is decoded. -/
theorem acceptClasses_acts {s : State} {cs : BitVec 16} {c act : Nat} (he : s.alarm.enabled = true) (hc : cs ≠ 0)
    (ha : strongest s cs = (c, act)) (ht : s.plans.trace = none) (hq : s.boot.quiet = false)
    (hn : ∀ b, 1 ≤ b → b ≤ 6 → cs.getLsbD b = true → actionNow s b ≠ acRecord) :
    acceptClasses cs s = joinRecovery cs (decodeAction c act (withRaised cs s)) := by
  have hr : recordOutcome cs (traceTrigger cs (withRaised cs s)) = withRaised cs s := by
    rw [traceTrigger_idle (s := withRaised cs s) cs ht, recordOutcome_none (s := withRaised cs s) hn]
  unfold acceptClasses
  rw [if_neg (by rw [he, beq_eq_false_iff_ne.2 hc]; decide)]
  extract_lets d s1 s2 s3
  have h2 : s2 = withRaised cs s := hr
  have h3 : s3 = withRaised cs s := by
    refine (if_neg ?_).trans h2
    rw [h2, withRaised_boot, hq, Bool.and_false]
    exact Bool.false_ne_true
  have hd : d = (c, act) := ha
  rw [h3, hd]

/-- What the root has become once a class raised in `cs` stills the wafer, where `q` was the root's state and `n` L_still. -/
theorem waferBegun_withRaised (cs : BitVec 16) (c : Nat) {u : State} {q : RootState} {n : Nat} (hq : u.root = q)
    (hn : u.time.lstill = n) :
    let b := classOf u c
    let used := min 255 (b.used + 1)
    let l := rclkNow u + 2
    let still : StillAction := { kind := 1, scope := 0, tick := l + n, launchAt := l, origin := 1 }
    waferBegun c (withRaised cs u) = { u with
      port := { u.port with w1c := (withRaised cs u).port.w1c, w1cAt := (withRaised cs u).port.w1cAt }
      alarm := { u.alarm with
        raised := u.alarm.raised ||| cs
        classes := mput {} u.alarm.classes c { b with used := used }
        disarmed := if b.limit ≠ 0 ∧ b.limit ≤ used then u.alarm.disarmed ||| (1 <<< c) else u.alarm.disarmed
        running := some { action := 1, cls := c, scope := 0, tick := l + n, accepted := now u, hold := b.hold } }
      root := { q with
        queue := q.queue.filter (fun a => !(a.kind == 1 && a.scope == 0 && (edgeUp a.launchAt == l || edgeUp a.launchAt == l + 2)))
        launched := q.launched ++ [still]
        lastLaunch := l
        confirm := q.confirm ++ [{ act := still }]
        retried := false
        wstate := 2 } } := by
  subst hq hn
  rfl

/-- A class that stills the wafer, with nothing in progress and no RELEASE to wait for. -/
theorem alarmAccept_wafer {s : State} {w : BitVec 16} {c : Nat} (h16 : c < 16) (hw : w &&& drivenClasses s = 1 <<< c)
    (hs : s.rill.inService = true) (he : s.alarm.enabled = true) (ht : (accepting s (1 <<< c)).plans.trace = none)
    (hp : s.recov.phase = 0) (hq : s.boot.quiet = false) (hrun : s.alarm.running = none) (hm : s.time.markTick = none)
    (hh : waferHeld s = false) (hn : ∀ a ∈ s.root.queue ++ s.root.launched, a.kind ≠ 2)
    (ha : actionNow (accepting s (1 <<< c)) c = acWafer) :
    exec (.alarmAccept w) s = .next (waferBegun c (withRaised (1 <<< c) (accepting s (1 <<< c)))) := by
  have hc : (1 <<< c : BitVec 16) ≠ 0 := fun h0 => by
    have hl := classList_single h16
    rw [h0] at hl
    cases hl
  have hsys : ∀ b, 1 ≤ b → b ≤ 6 → (1 <<< c : BitVec 16).getLsbD b = true →
      actionNow (accepting s (1 <<< c)) b ≠ acRecord := fun b _ h6 hb => by
    have hmem : b ∈ classList (1 <<< c) := mem_classList.2 ⟨by omega, hb⟩
    rw [classList_single h16, List.mem_singleton] at hmem
    rw [hmem, ha]
    decide
  let v := withRaised (1 <<< c) (accepting s (1 <<< c))
  have hroot : v.root = s.root := accepting_root s _
  have hheld : waferHeld v = false := by
    rw [waferHeld, waferStrag, hroot]
    exact hh
  have hstart : startAction c acWafer v = waferBegun c v :=
    startAction_wafer hheld ((accepting_markTick s _).trans hm) (by rw [hroot]; exact hn) c
  rw [alarmAccept_accepts hs hw hc, acceptClasses_acts (by rw [accepting_enabled, he]) hc
    (strongest_single h16 (by rw [ha]; decide)) ht (by rw [accepting_boot, hq]) hsys, ha,
    decodeAction_wafer (s := v) c ((accepting_running s (1 <<< c)).trans hrun), hstart, joinRecovery_idle]
  exact recRuns_none ((congrArg RecState.phase (accepting_recov s (1 <<< c)) :).trans hp)

/-! ALARM_REARM (05 R161) -/

/-- The alarm root once the named classes are armed again. -/
def rearmed (cs : BitVec 16) (s : State) : State :=
  onAlarm (fun a => { a with classes := rearmClasses cs a.classes, disarmed := a.disarmed &&& ~~~cs }) s

theorem rearmed_taken {s w : State} {h : ReqHdr} (cs : BitVec 16) (ht : Taken s w h) : Taken (rearmed cs s) (rearmed cs w) h := by
  obtain ⟨ss, as, c, m, rfl, hss⟩ := ht
  exact ⟨ss, as, c, m, rfl, hss⟩

theorem alarmRearm_answers {s : State} {h : ReqHdr} {cs : BitVec 16} (hi : AsIntrusive s h) (hc : cs ≠ 0) :
    ∃ t, exec (.alarmRearm h cs) s = .next t ∧ Answered (rearmed cs s) t 0x41 h .ok [] := by
  refine ok_request { op := 0x41, classC := true, need := .intrusive } h _ _ s _ .ok [] hi.1.1 (int_allowed hi _ rfl)
    (fun as => pick_none _ ?_) rfl (fun w hw => ⟨rearmed cs w, rearmed_taken cs hw, rfl⟩)
  simpa [emptyIf] using hc

theorem classOf_rearmed {s : State} (cs : BitVec 16) (hwf : mwf {} s.alarm.classes = true) (c : Nat) :
    classOf (rearmed cs s) c = if cs.getLsbD c then { classOf s c with used := 0 } else classOf s c :=
  mget_mapAll (α := ClassBinding) {} (fun c b => if cs.getLsbD c then { b with used := 0 } else b) s.alarm.classes c hwf (ite_self _)

/-! AUTO_RELEASE (05 R160, 06 R206, 04 R118) -/

section
variable {s : State} {q : RootState} {l : Nat} (scope lo : Nat) (hq : s.root = q) (hl : s.time.lstill = l)
include hq

include hl in
theorem enqueueOwn_room (h : q.queue.length < 64) :
    let rel : StillAction := { kind := 2, scope := scope, tick := firstTick s lo, launchAt := firstTick s lo - l, origin := 1 }
    enqueueOwn 2 scope lo 1 s = { s with root := { q with queue := insertAction rel q.queue } } := by
  subst hq hl
  rw [enqueueOwn, if_pos h, enqueue_eq]
  rfl

theorem enqueueOwn_full (h : 64 ≤ q.queue.length) : enqueueOwn 2 scope lo 1 s = { s with root := { q with
    waiting := q.waiting ++ [{ kind := 2, scope := scope, tick := lo, origin := 1 }] } } := by
  subst hq
  rw [enqueueOwn, if_neg (Nat.not_lt.2 h)]
  rfl

end

theorem autoRelease_idle {s : State} (h : ∀ r, s.alarm.running = some r → r.declaredAt = none ∨ r.hold = 0 ∨ r.snapWait = true) :
    exec .autoRelease s = .next s := by
  simp only [exec, execAutoRelease]
  split
  · rfl
  · next r hr =>
    split
    · rfl
    · next d hd =>
      rw [if_pos]
      rcases h r hr with hn | hz | hw
      · rw [hn] at hd
        cases hd
      · simp [hz]
      · simp [hw]

/-- What is left of an action whose HOLD is over: nothing while a transaction needs the still; else the action ends, and unless
something bars it a RELEASE is queued. -/
theorem autoRelease_due {s : State} {r : AlarmAction} {d : Nat} (hr : s.alarm.running = some r) (hd : r.declaredAt = some d)
    (ha : 1 ≤ r.action ∧ r.action ≤ 3) (hh : r.hold ≠ 0) (hw : r.snapWait = false) :
    let e := elapse (d + r.hold * 1000 - s.time.lstill) s
    let done := onAlarm (fun a => { a with running := none }) e
    exec .autoRelease s = .next (if holdsStill e r.scope then e else if releaseBarred r e then done
      else enqueueOwn 2 r.scope (max (now e + s.time.lstill) (d + r.hold * 1000)) 1 done) := by
  have hc : ¬ ((decide (r.hold = 0) || r.snapWait || !(r.action == acWafer || r.action == acRegion || r.action == acSnap)) = true) := by
    have hk : (r.action == acWafer || r.action == acRegion || r.action == acSnap) = true := by
      have : r.action = 1 ∨ r.action = 2 ∨ r.action = 3 := by omega
      rcases this with h | h | h <;> rw [h] <;> rfl
    rw [decide_eq_false hh, hw, hk]
    exact Bool.false_ne_true
  intro e done
  simp only [exec, execAutoRelease, hr, hd, if_neg hc, onAlarm_time, elapse_lstill]
  rfl

section
variable {s : State} {r : AlarmAction} {d : Nat} (hr : s.alarm.running = some r) (hd : r.declaredAt = some d)
  (ha : 1 ≤ r.action ∧ r.action ≤ 3) (hh : r.hold ≠ 0) (hw : r.snapWait = false)
  (hf : holdsStill (elapse (d + r.hold * 1000 - s.time.lstill) s) r.scope = false)
  (hb : releaseBarred r (elapse (d + r.hold * 1000 - s.time.lstill) s) = false)
include hr hd ha hh hw hf hb

theorem autoRelease_queues (hq : s.root.queue.length < 64) :
    let e := elapse (d + r.hold * 1000 - s.time.lstill) s
    let n := firstTick e (max (now e + s.time.lstill) (d + r.hold * 1000))
    let rel : StillAction := { kind := 2, scope := r.scope, tick := n, launchAt := n - s.time.lstill, origin := 1 }
    exec .autoRelease s = .next { e with
      alarm := { e.alarm with running := none }, root := { s.root with queue := insertAction rel s.root.queue } } := by
  intro e n rel
  rw [autoRelease_due hr hd ha hh hw, hf, hb]
  exact congrArg Host.Outcome.next (enqueueOwn_room (s := onAlarm (fun a => { a with running := none }) e) r.scope _
    (elapse_root _ s) (elapse_lstill _ s) hq)

theorem autoRelease_waits (hq : 64 ≤ s.root.queue.length) :
    let e := elapse (d + r.hold * 1000 - s.time.lstill) s
    let own : StillAction := { kind := 2, scope := r.scope, tick := max (now e + s.time.lstill) (d + r.hold * 1000), origin := 1 }
    exec .autoRelease s = .next { e with
      alarm := { e.alarm with running := none }, root := { s.root with waiting := s.root.waiting ++ [own] } } := by
  intro e own
  rw [autoRelease_due hr hd ha hh hw, hf, hb]
  exact congrArg Host.Outcome.next (enqueueOwn_full (s := onAlarm (fun a => { a with running := none }) e) r.scope _
    (elapse_root _ s) hq)

end

/-- Settles O16, by what a class acting as RECORD and one that stills the wafer make of the root, and by how HOLD ends. That the lowest
of the withRecorded classes 1 to 6 is the recovery's CLASS is log 77, WSTATE at the launch log 69, and the moment AUTO_RELEASE acts logs 73
and 115. -/
theorem alarmsActAndRearm : Obligations.AlarmsActAndRearm := by
  refine ⟨⟨fun s w => alarmAccept_idle, ?_, ?_, ?_⟩, ?_, ?_, fun s => autoRelease_idle⟩
  · intro s w hs hc he
    rw [alarmAccept_accepts hs rfl hc, acceptClasses_disabled (by rw [accepting_enabled, he])]
  · intro s w cs u hs hc he ht hp ha a
    exact ⟨fun hn => ⟨_, alarmAccept_records_user hs rfl hc he ht hp ha hn, withRaised_eq cs u⟩, fun c h1 h6 hset hlow =>
      ⟨_, alarmAccept_records_system hs rfl hc he ht hp ha h1 h6 hset hlow, withRecorded_withRaised_eq cs c u⟩⟩
  · intro s w c h16 hw u hs he ht hp hq hrun hm hh hn ha b used l still
    exact ⟨_, alarmAccept_wafer h16 hw hs he ht hp hq hrun hm hh hn ha,
      waferBegun_withRaised (1 <<< c) c (accepting_root s _) (accepting_lstill s _)⟩
  · intro s h cs hi hc hwf
    obtain ⟨t, ht, hans⟩ := alarmRearm_answers hi hc
    have hclasses : t.alarm.classes = (rearmed cs s).alarm.classes := by
      obtain ⟨-, -, hsame, -⟩ := hans
      rw [hsame]
    refine ⟨t, ht, ?_, fun c => ?_⟩
    · rw [hclasses]
      exact hans
    · rw [← classOf_rearmed cs hwf, classOf, hclasses]
      rfl
  · intro s r d hr hd _ h1 h3 hh hw e done lo n rel
    refine ⟨fun hf => ?_, fun hf hb => ?_, autoRelease_queues hr hd ⟨h1, h3⟩ hh hw, autoRelease_waits hr hd ⟨h1, h3⟩ hh hw⟩
    · rw [autoRelease_due hr hd ⟨h1, h3⟩ hh hw, if_pos hf]
    · rw [autoRelease_due hr hd ⟨h1, h3⟩ hh hw, hf, hb]
      rfl

end Sys2Proof.Machine
end

section
/-! Watch plans: how one is loaded and removed, and what pressing a BANK item changes (05 R171 to R179; 06 R185). -/

namespace Sys2Proof.Machine

/-! Requests that wait for their answer -/

/-- A request whose conditions hold is taken and has its effect. -/
theorem request_acts (k : ReqKind) (h : ReqHdr) (checks : ReqHdr → State → List Check) (act : ReqHdr → State → State) (s : State)
    (hr : Ready s h) (ha : Allowed s k h)
    (hc : ∀ as, pick (checks { h with opcode := k.op } { s with sess := { s.sess with assembling := as } }) = none) :
    ∃ w, Taken s w { h with opcode := k.op } ∧ request k h checks act s = .next (act { h with opcode := k.op } w) := by
  obtain ⟨w, as, hw, he⟩ := serve_ready k h checks act s hr ha
  rw [hc as] at he
  exact ⟨w, hw, congrArg Host.Outcome.next he⟩

/-! The block that a core fetches (05 R171, R177) -/

/-- Neither the plan that waits to be activated nor the requests under way alter the block that a given plan gives a core. -/
theorem bankWords_congr (s : State) (next : Option WatchPlan) (removing : Bool) (ss : SessionState) (p : Option WatchPlan) (k : Nat) :
    bankWords { s with plans := { s.plans with watchNext := next, watchRemoving := removing }, sess := ss } p k = bankWords s p k :=
  rfl

/-- Every core keeps its active bank; one that can fetch and holds an LTN has its block of the plan in the other. -/
def BlockFetched (s : State) (p : Option WatchPlan) (k : Nat) (y : Tile) : Prop :=
  { y with core := (tileOf s k).core } = tileOf s k ∧ activeBank y.core = activeBank (tileOf s k).core ∧
  y.core.active = (tileOf s k).core.active ∧
  (if canFetch (tileOf s k) = true ∧ (tileOf s k).txn.ltnValid = true
   then inactiveBank y.core = bankMap (bankWords s p k) else y = tileOf s k)

theorem takeBank_keeps (p : Option WatchPlan) (s : State) (k : Nat) (x : Tile) :
    { takeBank p s k x with core := x.core } = x ∧ activeBank (takeBank p s k x).core = activeBank x.core ∧
    (takeBank p s k x).core.active = x.core.active ∧ inactiveBank (takeBank p s k x).core = bankMap (bankWords s p k) := by
  cases hx : x.core.active <;> simp [takeBank, activeBank, inactiveBank, hx]

theorem tileOf_fetchBanks (p : Option WatchPlan) {s : State} (hwf : mwf {} s.tiles = true) (k : Nat) :
    tileOf (fetchBanks p s) k = if canFetch (tileOf s k) && (tileOf s k).txn.ltnValid then takeBank p s k (tileOf s k) else tileOf s k :=
  tileOf_onListedTiles _ s k hwf rfl

theorem fetchBanks_fetched (p : Option WatchPlan) {s u : State} (hwf : mwf {} u.tiles = true) (ht : u.tiles = s.tiles) (k : Nat)
    (hb : bankWords u p k = bankWords s p k) : BlockFetched s p k (tileOf (fetchBanks p u) k) := by
  have hx : tileOf u k = tileOf s k := tileOf_of_tiles ht k
  rw [tileOf_fetchBanks p hwf, hx]
  unfold BlockFetched
  by_cases hc : canFetch (tileOf s k) = true ∧ (tileOf s k).txn.ltnValid = true
  · rw [if_pos (by rw [hc.1, hc.2]; rfl), if_pos hc, ← hb]
    exact takeBank_keeps p u k (tileOf s k)
  · rw [if_neg (by rwa [Bool.and_eq_true]), if_neg hc]
    exact ⟨rfl, rfl, rfl, rfl⟩

/-! The centre transaction (05 R177, 06 R192) -/

/-- With nothing staging, a transaction that is to wait is taken up. -/
theorem nextCentre_takes {s : State} (x : Txn) (ha : s.txn.active = none) (hw : s.txn.waiting = []) (ht : s.txn.tstate ≠ 6) :
    nextCentre (onTxn (fun q => { q with waiting := q.waiting ++ [x] }) s) = beginStaging { x with id := nextTxnId s.txn.lastId }
      (onTxn (fun q => { q with waiting := [], lastId := nextTxnId s.txn.lastId }) s) := by
  simp only [nextCentre, onTxn_txn, ha, hw, List.nil_append, if_neg ht]
  rfl

/-- A transaction of the centre's own then begins to stage at once. -/
theorem startCentreAt_stages {s : State} (tick purpose tmo : Nat) (es : List TxnEntry) (reply : Option ReqHdr)
    (ha : s.txn.active = none) (hw : s.txn.waiting = []) (ht : s.txn.tstate ≠ 6) :
    let t := startCentreAt tick purpose tmo es reply s
    { t with txn := s.txn } = s ∧ t.txn.tstate = 2 ∧ t.txn.centre = true ∧ t.txn.host = s.txn.host ∧
    ∃ x, t.txn.active = some x ∧ x.purpose = purpose ∧ x.centre = true ∧ x.entries = es ∧ x.reply = reply := by
  rw [startCentreAt, nextCentre_takes _ ha hw ht]
  exact ⟨rfl, rfl, rfl, rfl, _, rfl, rfl, rfl, rfl, rfl⟩

/-- What a load or a removal changes: the plans, the blocks that the cores fetch, and the transaction that activates them. -/
def activating (p : Option WatchPlan) (ps : PlanState) (h : ReqHdr) (s : State) : State :=
  startCentreAt 0 1 s.txn.stageTmo [centreEntry 1] (some h) (fetchBanks p { s with plans := ps })

theorem loadWatch_eq (id : Nat) (es : List WatchEntry) (h : ReqHdr) (s : State) :
    let p : WatchPlan :=
      { id := id, entries := es, owner := some h.session, intrusiveOwner := isIntrusive s h.session, mapEpoch := s.mapEpoch }
    loadWatch id 0 es h s = activating (some p) { s.plans with watchNext := some p } h s := rfl

theorem removeWatch_eq (h : ReqHdr) (s : State) :
    removeWatch h s = activating none { s.plans with watchNext := none, watchRemoving := true } h s := rfl

/-- `t` has staged the transaction that activates plan `p`, with the blocks that its cores have fetched. -/
def Staging (s t : State) (p : Option WatchPlan) (h : ReqHdr) : Prop :=
  (∀ k, BlockFetched s p k (tileOf t k)) ∧ t.txn.tstate = 2 ∧ t.txn.centre = true ∧ t.txn.host = s.txn.host ∧
  ∃ x, t.txn.active = some x ∧ x.purpose = 1 ∧ x.centre = true ∧ x.entries = [centreEntry 1] ∧ x.reply = some h

theorem Taken.txn {s w : State} {h : ReqHdr} (hw : Taken s w h) : w.txn = s.txn := by
  obtain ⟨ss, as, c, m, rfl, -⟩ := hw
  rfl

theorem Taken.tiles {s w : State} {h : ReqHdr} (hw : Taken s w h) : w.tiles = s.tiles := by
  obtain ⟨ss, as, c, m, rfl, -⟩ := hw
  rfl

theorem Taken.plans {s w : State} {h : ReqHdr} (hw : Taken s w h) : w.plans = s.plans := by
  obtain ⟨ss, as, c, m, rfl, -⟩ := hw
  rfl

theorem Taken.mapEpoch {s w : State} {h : ReqHdr} (hw : Taken s w h) : w.mapEpoch = s.mapEpoch := by
  obtain ⟨ss, as, c, m, rfl, -⟩ := hw
  rfl

theorem Taken.replanned {s w t : State} {h : ReqHdr} {ps : PlanState} (hw : Taken s w h)
    (ht : { t with tiles := w.tiles, txn := w.txn } = { w with plans := ps }) :
    Taken { s with plans := ps, tiles := t.tiles, txn := t.txn } t h := by
  obtain ⟨ss, as, c, m, rfl, hss⟩ := hw
  exact ⟨ss, as, c, m, congrArg (fun u : State => { u with tiles := t.tiles, txn := t.txn }) ht, hss⟩

theorem bankWords_taken {s w : State} {h : ReqHdr} (hw : Taken s w h) (next : Option WatchPlan) (removing : Bool)
    (p : Option WatchPlan) (k : Nat) :
    bankWords { w with plans := { s.plans with watchNext := next, watchRemoving := removing } } p k = bankWords s p k := by
  obtain ⟨ss, as, c, m, rfl, -⟩ := hw
  exact bankWords_congr s next removing _ p k

theorem activating_waits {s w : State} {h : ReqHdr} (hwf : mwf {} s.tiles = true) (ha : s.txn.active = none)
    (hq : s.txn.waiting = []) (ht : s.txn.tstate ≠ 6) (hw : Taken s w { h with opcode := 0x40 }) (p next : Option WatchPlan)
    (removing : Bool) :
    let ps := { s.plans with watchNext := next, watchRemoving := removing }
    let t := activating p ps { h with opcode := 0x40 } w
    Waits { s with plans := ps, tiles := t.tiles, txn := t.txn } t 0x40 h ∧ Staging s t p { h with opcode := 0x40 } := by
  intro ps t
  obtain ⟨heq, hstate, hcentre, hhost, hactive⟩ := startCentreAt_stages 0 1 w.txn.stageTmo [centreEntry 1]
    (some { h with opcode := 0x40 }) (s := fetchBanks p { w with plans := ps })
    (hw.txn ▸ ha : w.txn.active = none) (hw.txn ▸ hq : w.txn.waiting = []) (hw.txn ▸ ht : w.txn.tstate ≠ 6)
  refine ⟨taken_waits _ t 0x40 h (hw.replanned ?_), fun k => ?_, hstate, hcentre, hhost.trans (congrArg TxnState.host hw.txn), hactive⟩
  · exact congrArg (fun u : State => { u with tiles := w.tiles }) heq
  · have htiles : t.tiles = (fetchBanks p { w with plans := ps }).tiles := (congrArg State.tiles heq :)
    rw [tileOf_of_tiles htiles]
    exact fetchBanks_fetched (u := { w with plans := ps }) p (hw.tiles ▸ hwf) hw.tiles k (bankWords_taken hw next removing p k)

/-! The conditions of a load and a removal (05 R176, R178, R179; 00 R13) -/

theorem watchChecks_assembling (activate : Nat) (es : List WatchEntry) (h : ReqHdr) (s : State) (as : List Assembly) :
    watchChecks activate es h { s with sess := { s.sess with assembling := as } } = watchChecks activate es h s := by
  have hl : ∀ base is, limitCheck { s with sess := { s.sess with assembling := as } } base is = limitCheck s base is :=
    fun base is => by simp only [limitCheck, overEntry_congr (nodeOver_assembling s as)]
  simp only [watchChecks, hl]
  rfl

theorem limitCheck_st (s : State) (base : List FoldInfo) (es : List (List FoldInfo)) : (limitCheck s base es).st = .refused := by
  unfold limitCheck
  split <;> rfl

theorem refusedChecks_st {s : State} {es : List WatchEntry} {lim : Check} {i : Nat} (hl : lim.st = .refused) :
    ∀ c ∈ refusedChecks s es lim i, c.st = .refused := by
  simp only [refusedChecks, List.forall_mem_cons]
  refine ⟨rfl, hl, ?_, by simp⟩
  split <;> rfl

/-- The conditions of a plan of one entry, in order: those of its form, and the rest, which come after in the order of R13. -/
theorem watchChecks_single (e : WatchEntry) (h : ReqHdr) (s : State) (ho : h.opt = false) (hcap : isCapture e = false) :
    ∃ rest, watchChecks 0 [e] h s = badField false 2 :: badEntry .malformed (watchBad s e) 0 ::
      badEntry .absent (s.cfg.skS && needsDips e) 0 ::
      badEntry .denied ((needsIntrusive e && !isIntrusive s h.session) || (isRegionBinding e && !regionState s)) 0 :: rest ∧
      ∀ c ∈ rest, statusRank .denied ≤ statusRank c.st := by
  simp only [watchChecks, List.length_singleton, List.range_one, List.map_cons, List.map_nil, List.getD_cons_zero, ho, hcap,
    Bool.false_and, Bool.or_false, List.cons_append, List.nil_append]
  refine ⟨_, rfl, ?_⟩
  simp only [List.forall_mem_cons, List.forall_mem_append, List.flatMap_singleton]
  refine ⟨le_refl 3, (by decide : (3 : Nat) ≤ 5), (by decide : (3 : Nat) ≤ 6), ?_, (by decide : (3 : Nat) ≤ 8), by simp⟩
  split
  · simp
  · intro c hc
    rw [refusedChecks_st (limitCheck_st s _ _) c hc]
    decide

/-- A MALFORMED entry goes before whatever else its plan breaks. -/
theorem watchChecks_malformed {e : WatchEntry} {h : ReqHdr} {s : State} (ho : h.opt = false) (hcap : isCapture e = false)
    (hb : watchBad s e = true) : pick (watchChecks 0 [e] h s) = some (badEntry .malformed true 0) := by
  obtain ⟨rest, hrest, hrank⟩ := watchChecks_single e h s ho hcap
  rw [hrest, hb, ← List.singleton_append, pick_good _ _ (by simp [badField])]
  refine pick_first rfl ?_
  simp only [List.forall_mem_cons]
  exact ⟨(by decide : (1 : Nat) ≤ 2), (by decide : (1 : Nat) ≤ 3), fun c hc => Nat.le_trans (by decide) (hrank c hc)⟩

/-- A well-formed entry that the session may not load is DENIED. -/
theorem watchChecks_denied {e : WatchEntry} {h : ReqHdr} {s : State} (ho : h.opt = false) (hcap : isCapture e = false)
    (hb : watchBad s e = false) (hd : needsDips e = false) (hn : needsIntrusive e = true) (hi : isIntrusive s h.session = false) :
    pick (watchChecks 0 [e] h s) = some (badEntry .denied true 0) := by
  obtain ⟨rest, hrest, hrank⟩ := watchChecks_single e h s ho hcap
  have hsplit : ∀ (a b c : Check) (l : List Check), a :: b :: c :: l = [a, b, c] ++ l := fun _ _ _ _ => rfl
  rw [hrest, hb, hd, hn, hi, hsplit, pick_good _ _ (by simp [badField, badEntry])]
  exact pick_first rfl hrank

/-- Nothing bars the removal of a plan that the session may remove. -/
theorem removeChecks_good {s : State} {h : ReqHdr} {p : WatchPlan} (hp : s.plans.watch = some p) (hown : watchOwned h s = false)
    (hint : p.entries.any needsIntrusive = true → isIntrusive s h.session = true) (hb : watchBusy s = false) :
    ∀ c ∈ removeChecks h s, c.bad = false := by
  have hstrong : (p.entries.any needsIntrusive && !isIntrusive s h.session) = false := by
    cases hn : p.entries.any needsIntrusive with
    | false => rfl
    | true => rw [hint hn]; rfl
  simp only [removeChecks, hp, hown, hb, hstrong, List.forall_mem_cons]
  exact ⟨rfl, rfl, rfl, by simp⟩

theorem removeChecks_none {s : State} {h : ReqHdr} (hp : s.plans.watch = none) (hb : watchBusy s = false) :
    pick (removeChecks h s) = some (emptyIf true) := by
  have hown : watchOwned h s = false := by rw [watchOwned, hp]
  simp only [removeChecks, hp, hown, hb]
  rfl

theorem watchLoad_eq {h : ReqHdr} {es : List WatchEntry} (hl : h.opt = false ∨ es ≠ []) (id : Nat) (s : State) :
    exec (.watchLoad h id 0 es) s = request { op := 0x40, classC := true } h (watchChecks 0 es) (loadWatch id 0 es) s := by
  refine if_neg ?_
  rcases hl with hopt | hne
  · rw [hopt]
    exact Bool.false_ne_true
  · rw [List.isEmpty_eq_false_iff.2 hne, Bool.and_false]
    exact Bool.false_ne_true

theorem watchLoad_checked {s : State} {h : ReqHdr} {id : Nat} {es : List WatchEntry} {c : Check} (ho : AsObserver s h)
    (hopt : h.opt = false) (hc : pick (watchChecks 0 es { h with opcode := 0x40 } s) = some c) :
    ∃ t, exec (.watchLoad h id 0 es) s = .next t ∧ Answered s t 0x40 h c.st (failBody c) := by
  rw [watchLoad_eq (.inl hopt)]
  exact bad_request { op := 0x40, classC := true } h (watchChecks 0 es) (loadWatch id 0 es) s c ho.1 (obs_allowed ho _ rfl)
    (fun as => by rw [watchChecks_assembling]; exact hc)

/-! Loading and removing (05 R176 to R179) -/

section
variable {s : State} {h : ReqHdr} (ho : AsObserver s h) (hwf : mwf {} s.tiles = true) (ha : s.txn.active = none)
  (hq : s.txn.waiting = []) (ht : s.txn.tstate ≠ 6)

section
include ho hwf ha hq ht

theorem watchLoad_waits {id : Nat} {es : List WatchEntry} (hne : es ≠ [])
    (hc : ∀ c ∈ watchChecks 0 es { h with opcode := 0x40 } s, c.bad = false) :
    let plan : WatchPlan :=
      { id := id, entries := es, owner := some h.session, intrusiveOwner := isIntrusive s h.session, mapEpoch := s.mapEpoch }
    ∃ t, exec (.watchLoad h id 0 es) s = .next t ∧
      Waits { s with plans := { s.plans with watchNext := some plan }, tiles := t.tiles, txn := t.txn } t 0x40 h ∧
      Staging s t (some plan) { h with opcode := 0x40 } := by
  intro plan
  obtain ⟨w, hw, hexec⟩ := request_acts { op := 0x40, classC := true } h (watchChecks 0 es) (loadWatch id 0 es) s ho.1
    (obs_allowed ho _ rfl) (fun as => by rw [watchChecks_assembling]; exact pick_none _ hc)
  have hplan : loadWatch id 0 es { h with opcode := 0x40 } w =
      activating (some plan) { s.plans with watchNext := some plan } { h with opcode := 0x40 } w := by
    rw [loadWatch_eq, isIntrusive_taken hw, hw.plans, hw.mapEpoch]
  rw [watchLoad_eq (.inr hne), hexec]
  exact ⟨_, rfl, hplan ▸ activating_waits hwf ha hq ht hw (some plan) (some plan) s.plans.watchRemoving⟩

theorem watchRemove_waits {p : WatchPlan} (hp : s.plans.watch = some p) (hown : watchOwned h s = false)
    (hint : p.entries.any needsIntrusive = true → isIntrusive s h.session = true) (hb : watchBusy s = false) :
    ∃ t, exec (.watchRemove h) s = .next t ∧
      Waits { s with plans := { s.plans with watchNext := none, watchRemoving := true }, tiles := t.tiles, txn := t.txn } t 0x40 h ∧
      Staging s t none { h with opcode := 0x40 } := by
  obtain ⟨w, hw, hexec⟩ := request_acts { op := 0x40, classC := true } h removeChecks removeWatch s ho.1 (obs_allowed ho _ rfl)
    (fun as => pick_none _ (removeChecks_good hp hown hint hb))
  have hplan : removeWatch { h with opcode := 0x40 } w = activating none { s.plans with watchNext := none, watchRemoving := true }
      { h with opcode := 0x40 } w := by
    rw [removeWatch_eq, hw.plans]
  exact ⟨_, hexec, hplan ▸ activating_waits hwf ha hq ht hw none none true⟩

end

include ho

theorem watchRemove_empty (hp : s.plans.watch = none) (hb : watchBusy s = false) :
    ∃ t, exec (.watchRemove h) s = .next t ∧ Answered s t 0x40 h .empty [] :=
  bad_request { op := 0x40, classC := true } h removeChecks removeWatch s (emptyIf true) ho.1 (obs_allowed ho _ rfl)
    (fun as => removeChecks_none (s := { s with sess := { s.sess with assembling := as } }) hp hb)

theorem watchLoad_malformed {id c act r hold lim : Nat} (hopt : h.opt = false) (hc : c < 8) :
    ∃ t, exec (.watchLoad h id 0 [.binding c act r hold lim]) s = .next t ∧
      Answered s t 0x40 h .malformed (detail { reason := 0xF, index := 0 }) := by
  have hbad : watchBad s (.binding c act r hold lim) = true := by simp [watchBad, hc]
  exact watchLoad_checked ho hopt (watchChecks_malformed hopt rfl hbad)

theorem watchLoad_denied {id c act r hold lim : Nat} (hopt : h.opt = false) (hi : isIntrusive s h.session = false) (h8 : 8 ≤ c)
    (h15 : c ≤ 15) (hact : act = 1 ∨ act = 3 ∨ act = 4) :
    ∃ t, exec (.watchLoad h id 0 [.binding c act r hold lim]) s = .next t ∧
      Answered s t 0x40 h .denied (detail { reason := 0xF, index := 0 }) := by
  have hgood : watchBad s (.binding c act r hold lim) = false := by
    rcases hact with rfl | rfl | rfl <;> simp [watchBad, h8, h15]
  have hint : needsIntrusive (.binding c act r hold lim) = true := by
    rcases hact with rfl | rfl | rfl <;> rfl
  exact watchLoad_checked ho hopt (watchChecks_denied hopt rfl hgood rfl hint hi)

end

/-! Pressing a BANK item (05 R171, R172; 06 R185) -/

theorem tileOf_replaceFrames (k : Nat) (s : State) (u : Nat) : tileOf (replaceFrames k s) u = tileOf s u := by
  unfold replaceFrames
  split
  · rfl
  · split
    · rfl
    · exact tileOf_of_tiles (onShim_tiles _ _ _) u

theorem tileOf_onCore_self {k : Nat} (f : Core → Core) (s : State) (hk : k < numTiles) :
    tileOf (onCore k f s) k = { tileOf s k with core := f (tileOf s k).core } := tileOf_onTile_self _ s hk

/-- What the stub notes of a BANK item. -/
def bankNoted (i : Item) (x : Tile) : Tile :=
  { x with plan := { x.plan with watchId := i.addr % 256, digest := i.data.headD 0, fails := 0 } }

theorem pressItem_bank (k : Nat) (s : State) {i : Item} (hi : i.kind = 7) : pressItem k s i = pressBank i k s := by
  unfold pressItem
  rw [hi]
  rfl

theorem pressItem_bank_switches {s : State} {k : Nat} (i : Item) (hk : k < numTiles) (hd : coreDark (tileOf s k) = false)
    (hi : i.kind = 7) :
    tileOf (pressItem k s i) k = { bankNoted i (tileOf s k) with core := otherBank (bit 8 i.addr) (tileOf s k).core } ∧
    ∀ u, u ≠ k → tileOf (pressItem k s i) u = tileOf s u := by
  have hnoted : tileOf (onTile k (bankNoted i) s) k = bankNoted i (tileOf s k) := tileOf_onTile_self _ s hk
  have hup : coreDark (tileOf (onTile k (bankNoted i) s) k) = false := by
    rw [hnoted]
    exact hd
  have hpress : pressBank i k s = switchBank k (bit 8 i.addr) (onTile k (bankNoted i) s) := if_neg (Bool.eq_false_iff.1 hup)
  rw [pressItem_bank k s hi, hpress, switchBank]
  refine ⟨?_, fun u hu => ?_⟩
  · rw [tileOf_replaceFrames, tileOf_onCore_self _ _ hk, hnoted]
    rfl
  · rw [tileOf_replaceFrames, onCore, tileOf_onTile_ne _ _ hu, tileOf_onTile_ne _ _ hu]

/-- Settles O26, from what a taken load or removal begins, the order of its conditions, and what the press of a BANK item makes of its
tile. That all cores fetch their blocks in one step is log 8. -/
theorem watchPlansLoad : Obligations.WatchPlansLoad := by
  refine ⟨?_, fun s h id c act r hold lim ho hc hopt => watchLoad_malformed ho hopt hc,
    fun s h id c act r hold lim ho hi hopt h8 h15 hact => watchLoad_denied ho hopt hi h8 h15 hact, ?_⟩
  · intro s h id es ho ⟨hwf, _, _⟩ ha hq ht plan taken
    exact ⟨watchLoad_waits ho hwf ha hq ht, fun w => watchRemove_waits ho hwf ha hq ht, watchRemove_empty ho⟩
  · intro s k i hk hd hi t
    obtain ⟨hself, hother⟩ := pressItem_bank_switches i hk hd hi
    rw [hself]
    exact ⟨rfl, rfl, rfl, rfl, rfl, rfl, hother⟩

end Sys2Proof.Machine
end

section
/-! Commands and contexts of a core without a watch plan (04 R149; 06 R209; 07 R214 to R221; 10 R320). -/

namespace Sys2Proof.Machine

/-! What a command row makes of its tile -/

theorem Retiled.onTile {e t : State} {k : Nat} {x y : Tile} {f : Tile → Tile} (h : Retiled e t k x) (hk : k < numTiles)
    (hf : ∀ w, ∃ v, f { x with eddy := w } = { y with eddy := v }) : Retiled e (onTile k f t) k y := by
  obtain ⟨honly, w, hw⟩ := h
  obtain ⟨v, hv⟩ := hf w
  exact ⟨honly.trans (onTile_onlyTile _ _ _), v, by rw [tileOf_onTile_self _ _ hk, hw, hv]⟩

theorem OnlyTile.retiled {e t : State} {k : Nat} {x : Tile} (h : OnlyTile e t k) (hx : tileOf t k = x) : Retiled e t k x :=
  ⟨h, _, hx⟩

theorem Retiled.now {e t : State} {k : Nat} {x : Tile} (h : Retiled e t k x) : now t = now e := by
  rw [← h.1.1]
  rfl

/-- A tile's core with its watch bank empty. -/
theorem Retiled.noBank {e t : State} {k : Nat} {x : Tile} (h : Retiled e t k x) (hb : activeBank x.core = []) : NoBank t k := by
  obtain ⟨-, w, hw⟩ := h
  rw [NoBank, hw]
  exact hb

/-! Contexts (05 R165; 06 R209) -/

theorem contextLoad_runs {s : State} {k : Nat} (hk : k < numTiles) (hr : coreRuns s k = true) :
    ∃ t, exec (.contextLoad k) s = .next t ∧ OnlyTile s t k ∧ tileOf t k =
      { tileOf s k with txn := { (tileOf s k).txn with ctxEpoch := ((tileOf s k).txn.ctxEpoch + 1) % 256 } } := by
  simp only [exec, execContextLoad, when, hr, if_true]
  exact ⟨_, rfl, onTile_onlyTile _ _ _, tileOf_onTile_self _ _ hk⟩

theorem contextSwitch_runs {s : State} {k : Nat} (old new : Nat) (hk : k < numTiles) (hr : coreRuns s k = true) (hb : NoBank s k) :
    ∃ t, exec (.contextSwitch k old new) s = .next t ∧ OnlyTile s t k ∧ tileOf t k =
      { tileOf s k with engine := { (tileOf s k).engine with ctxSel := new } } := by
  have hx := tileOf_onTile_self (fun x => { x with engine := { x.engine with ctxSel := new } }) s hk
  simp only [exec, execContextSwitch, when, hr, if_true]
  rw [cmpEvent_noBank _ (by rw [NoBank, hx]; exact hb) (by decide)]
  exact ⟨_, rfl, onTile_onlyTile _ _ _, hx⟩

/-! A report of cycles (07 R214, R217) -/

theorem mget_foldl_mmod (f : Nat → Nat → Nat) (n i : Nat) (m : Map Nat) :
    mget 0 ((List.range n).foldl (fun m j => mmod 0 m j (f j)) m) i = if i < n then f i (mget 0 m i) else mget 0 m i := by
  induction n with
  | zero => rfl
  | succ n ih =>
    rw [List.range_succ, List.foldl_append, List.foldl_cons, List.foldl_nil, mget_mmod]
    by_cases hn : i = n
    · subst hn
      rw [if_pos rfl, ih, if_neg (lt_irrefl i), if_pos (Nat.lt_succ_self i)]
    · have hlt : i < n + 1 ↔ i < n := by omega
      rw [if_neg hn, ih]
      simp only [hlt]

theorem addCounters_cnt (cy : Cycles) (c : CoreCount) (i : Nat) : mget 0 (addCounters cy c).cnt i =
    if c.run = true ∧ i < 36 then (mget 0 c.cnt i + cyc cy i) % 2 ^ 48 else mget 0 c.cnt i := by
  unfold addCounters
  by_cases hr : c.run = true
  · rw [if_pos hr]
    dsimp only
    rw [mget_foldl_mmod (fun j v => (v + cyc cy j) % 2 ^ 48)]
    simp only [hr, true_and]
  · rw [if_neg hr, if_neg (fun h => hr h.1)]

theorem addCounters_rest (cy : Cycles) (c : CoreCount) : addCounters cy c = { c with cnt := (addCounters cy c).cnt } := by
  unfold addCounters
  split <;> rfl

theorem addBank_rest (cy : Cycles) (thr any : Bool) (c : CoreCount) : addBank cy thr any c =
    { c with cmdo := (addBank cy thr any c).cmdo } := by
  unfold addBank
  dsimp only
  split
  · rfl
  · split <;> rfl

/-- The core's counters and open bank after a report. -/
def reported (cy : Cycles) (thr any : Bool) (e : Nat) (c : CoreCount) : CoreCount :=
  { addBank cy thr any (addCounters cy c) with reportAt := e }

theorem reported_rest (cy : Cycles) (thr any : Bool) (e : Nat) (c : CoreCount) : reported cy thr any e c =
    { c with cnt := (addCounters cy c).cnt, cmdo := (addBank cy thr any (addCounters cy c)).cmdo, reportAt := e } := by
  unfold reported
  rw [addBank_rest, addCounters_rest]

/-- With no command open a report goes to the tail of the last one (07 R217). -/
theorem addBank_tail {cy : Cycles} {thr any : Bool} {c : CoreCount} (ho : c.cmdOpen = false) (ha : c.anyCmd = true) :
    (addBank cy thr any (addCounters cy c)).cmdo = { c.cmdo with tail := satAdd 32 c.cmdo.tail (cycTotal cy) } := by
  rw [addCounters_rest]
  simp [addBank, ho, ha]

/-- With a command open a report goes to its bank (07 R217). -/
theorem addBank_open {cy : Cycles} {thr any : Bool} {c : CoreCount} (ho : c.cmdOpen = true) :
    let b := (addBank cy thr any (addCounters cy c)).cmdo
    b.cyc = satAdd 32 c.cmdo.cyc (cycTotal cy - cycStill cy) ∧ b.stillCyc = satAdd 32 c.cmdo.stillCyc (cycStill cy) ∧
    b.abusy = satAdd 32 c.cmdo.abusy (cyc cy 0) ∧ b.thrSeen = (c.cmdo.thrSeen || sawThrottle cy || thr) := by
  rw [addCounters_rest]
  simp [addBank, ho]

/-- The tile after a report, whose light census counters read `lc`. -/
def reportedTile (cy : Cycles) (any : Bool) (e : Nat) (lc : Map Nat) (x : Tile) : Tile :=
  { restartCwdt e (onCount (reported cy x.power.thr any e) x) with plan := { x.plan with lc := lc } }

theorem addCycles_tile (cy : Cycles) (s : State) {k : Nat} (hk : k < numTiles) : ∃ any lc,
    OnlyTile s (addCycles k cy s) k ∧ tileOf (addCycles k cy s) k = reportedTile cy any (now s) lc (tileOf s k) :=
  ⟨_, _, onTile_onlyTile _ _ _, tileOf_onTile_self _ _ hk⟩

/-! COMMAND_START (07 R216 to R221) -/

/-- Counters `c` once the open bank of `p` has closed (07 R218, R220). -/
def bankClosed (p c : CoreCount) : CoreCount :=
  { c with
    cmdl := p.cmdo
    dtab := mmod {} c.dtab (deltaIndex p p.cmdo) (addDelta p.cmdo (deviation p p.cmdo).isSome (devThrottled p.cmdo))
    devSeen := if (deviation p p.cmdo).isSome && !c.devSeen.contains (deltaIndex p p.cmdo)
      then c.devSeen ++ [deltaIndex p p.cmdo] else c.devSeen }

/-- The tile once its core's open bank has closed. -/
def tileBankClosed (x : Tile) : Tile := onCount (bankClosed x.core.count) x

theorem closeBank_retiled {e t : State} {k : Nat} {x : Tile} (h : Retiled e t k x) (hk : k < numTiles) :
    Retiled e (closeBank k t) k (tileBankClosed x) := by
  have hcount : (tileOf t k).core.count = x.core.count := by
    obtain ⟨-, w, hw⟩ := h
    rw [hw]
  have hclose : ∀ u, Retiled e u k x → Retiled e (onTile k (onCount (bankClosed x.core.count)) u) k (tileBankClosed x) :=
    fun u hu => hu.onTile hk (fun w => ⟨w, rfl⟩)
  unfold closeBank
  simp only [hcount]
  refine hclose _ ?_
  split
  · split
    · exact h
    · exact recordAt_retiled _ _ _ hk h
  · exact h

/-- Without a delta plan no bank deviates (07 R218). -/
theorem deviation_none {c : CoreCount} (b : CmdBank) (h : c.dplan = []) : deviation c b = none := by
  simp [deviation, h, mget]

/-- A dip slot without a plan contributes nothing (08 R250). -/
theorem sendEmpty_noBank {s : State} {k : Nat} (n lo hi : Nat) (h : NoBank s k) : sendEmpty k n lo hi s = s := by
  have hen : (dipCfg (tileOf s k).core n).en = false := by
    unfold NoBank at h
    simp [dipCfg, dipReg, bankWord, h, mget, bit]
  simp [sendEmpty, hen]

/-- The tile once a command of step `step` has closed its table (07 R221). -/
def tileStepClosed (step : Nat) (x : Tile) : Tile :=
  { onCount closeTable x with plan := { x.plan with
    closedStep := step - 1
    overrun := x.plan.overrun || !x.core.count.folded } }

theorem sendEmpties_noBank {s : State} {k : Nat} (l : List Nat) (lo hi : Nat) (h : NoBank s k) :
    l.foldl (fun s n => sendEmpty k n lo hi s) s = s := by
  induction l with
  | nil => rfl
  | cons n l ih => rw [List.foldl_cons, sendEmpty_noBank n lo hi h, ih]

theorem closeTileStep_retiled {e t : State} {k : Nat} {x : Tile} (step : Nat) (h : Retiled e t k x) (hk : k < numTiles)
    (hb : activeBank x.core = []) : Retiled e (closeTileStep k step t) k (tileStepClosed step x) := by
  have hclosed := h.onTile (y := tileStepClosed step x) (f := tileStepClosed step) hk (fun w => ⟨w, rfl⟩)
  have heq : closeTileStep k step t = onTile k (tileStepClosed step) t :=
    by
    unfold closeTileStep
    exact sendEmpties_noBank _ _ _ (hclosed.noBank hb)
  rwa [heq]

/-- The tile once the new command has begun. -/
def begun (cmd : Command) (me : Nat) (x : Tile) : Tile :=
  let y := clearHang me (onCount (openBank cmd x.power.thr) x)
  { y with core := { y.core with
    cmd := cmd
    cmdSeq := y.core.cmdSeq + 1
    cmdBusy := true
    dip := { y.core.dip with maxStep := max y.core.dip.maxStep cmd.step } } }

/-- What a new command closes of the one before it: nothing before the first, its bank, and with a larger step the table. -/
def priorClosed (step : Nat) (x : Tile) : Tile :=
  if x.core.count.anyCmd = true then
    if x.core.count.curStep < step then tileStepClosed step (tileBankClosed x) else tileBankClosed x
  else x

theorem begun_retiled {e t : State} {k : Nat} {x : Tile} (cmd : Command) (me : Nat) (h : Retiled e t k x) (hk : k < numTiles) :
    Retiled e (onTile k (begun cmd me) t) k (begun cmd me x) := h.onTile hk (fun w => ⟨w, rfl⟩)

/-- A command of step `step` closes what came before it. -/
def closePrior (k step : Nat) (s : State) : State :=
  let c := (tileOf s k).core.count
  let u := if c.anyCmd then closeBank k s else s
  if c.anyCmd && decide (c.curStep < step) then closeTileStep k step u else u

theorem closePrior_retiled {e t : State} {k : Nat} {x : Tile} (step : Nat) (h : Retiled e t k x) (hk : k < numTiles)
    (hb : activeBank x.core = []) : Retiled e (closePrior k step t) k (priorClosed step x) := by
  have hcount : (tileOf t k).core.count = x.core.count := by
    obtain ⟨-, w, hw⟩ := h
    rw [hw]
  have hbank := closeBank_retiled h hk
  rw [closePrior, hcount, priorClosed]
  by_cases ha : x.core.count.anyCmd = true <;> by_cases hs : x.core.count.curStep < step
  · simpa only [ha, hs, if_true, decide_true, Bool.and_self] using closeTileStep_retiled step hbank hk hb
  · simpa only [ha, hs, if_true, if_false, decide_false, Bool.and_false, Bool.false_eq_true] using hbank
  · simpa only [ha, if_false, Bool.false_and, Bool.false_eq_true] using h
  · simpa only [ha, if_false, Bool.false_and, Bool.false_eq_true] using h

theorem cmpEvent_retiled {e t : State} {k : Nat} {x : Tile} {src : Nat} (p : Nat → Bool) (h : Retiled e t k x)
    (hb : activeBank x.core = []) (hs : src ≠ 0) : Retiled e (cmpEvent k src p t) k x := by
  rwa [cmpEvent_noBank p (h.noBank hb) hs]

theorem priorClosed_bank (step : Nat) (x : Tile) : activeBank (priorClosed step x).core = activeBank x.core := by
  unfold priorClosed
  split
  · split <;> rfl
  · rfl

theorem begun_bank (cmd : Command) (me : Nat) (x : Tile) : activeBank (begun cmd me x).core = activeBank x.core := rfl

theorem commandStart_eq {s : State} {k : Nat} (cmd : Command) (cy : Cycles) (hr : coreRuns s k = true) :
    exec (.commandStart k cmd cy) s = .next (
      let u := closePrior k cmd.step (addCycles k cy s)
      let v := onTile k (begun cmd (stubNow u k)) u
      cmpEvent k 1 (cmdTest (tileOf v k).core cmd false) v) := congrArg Host.Outcome.next (if_pos hr)

theorem commandStart_retiled {s : State} {k : Nat} (cmd : Command) (cy : Cycles) (hk : k < numTiles) (hr : coreRuns s k = true)
    (hb : NoBank s k) : ∃ t any lc me, exec (.commandStart k cmd cy) s = .next t ∧
      Retiled s t k (begun cmd me (priorClosed cmd.step (reportedTile cy any (now s) lc (tileOf s k)))) := by
  obtain ⟨any, lc, honly, hx⟩ := addCycles_tile cy s hk
  have hprior := closePrior_retiled cmd.step (honly.retiled hx) hk hb
  have hbank : ∀ me, activeBank (begun cmd me (priorClosed cmd.step (reportedTile cy any (now s) lc (tileOf s k)))).core = [] := by
    intro me
    rw [begun_bank, priorClosed_bank]
    exact hb
  exact ⟨_, any, lc, _, commandStart_eq cmd cy hr, cmpEvent_retiled _ (begun_retiled cmd _ hprior hk) (hbank _) (by decide)⟩

/-- What `priorClosed` leaves and what it makes of the counters and the plan registers. -/
theorem priorClosed_spec (step : Nat) (x : Tile) : ∃ c p, priorClosed step x = { x with core := { x.core with count := c }, plan := p } ∧
    c.cnt = x.core.count.cnt ∧
    (x.core.count.anyCmd = false → c = x.core.count ∧ p = x.plan) ∧
    (x.core.count.anyCmd = true → c.cmdl = x.core.count.cmdo ∧
      (step ≤ x.core.count.curStep → c.dtab = (bankClosed x.core.count x.core.count).dtab ∧ c.dcls = x.core.count.dcls ∧ p = x.plan) ∧
      (x.core.count.curStep < step → c.dtab = [] ∧ c.tabStep = x.core.count.cmdo.step ∧ c.folded = false ∧
        p.closedStep = step - 1 ∧ p.overrun = (x.plan.overrun || !x.core.count.folded) ∧
        (x.core.count.folded = true → c.dcls = (bankClosed x.core.count x.core.count).dtab))) := by
  unfold priorClosed
  by_cases ha : x.core.count.anyCmd = true
  · have hn : ∀ p, x.core.count.anyCmd = false → p := fun p h => absurd (ha.symm.trans h) (by decide)
    rw [if_pos ha]
    split
    case isTrue hs =>
      refine ⟨_, _, rfl, rfl, hn _, fun _ => ⟨rfl, fun h => absurd hs (Nat.not_lt.2 h), fun _ => ⟨rfl, rfl, rfl, rfl, rfl, fun hf => ?_⟩⟩⟩
      exact if_pos hf
    case isFalse hs =>
      exact ⟨_, _, rfl, rfl, hn _, fun _ => ⟨rfl, fun _ => ⟨rfl, rfl, rfl⟩, fun h => absurd h hs⟩⟩
  · rw [if_neg ha]
    exact ⟨_, _, rfl, rfl, fun _ => ⟨rfl, rfl⟩, fun h => absurd h ha⟩

theorem bankClosed_dtab {p c : CoreCount} (h : p.dplan = []) :
    (bankClosed p c).dtab = mmod {} c.dtab (deltaIndex p p.cmdo) (addDelta p.cmdo false (devThrottled p.cmdo)) := by
  rw [bankClosed, deviation_none _ h]
  rfl

/-! COMMAND_END (10 R304, R320; 08 R268; 04 R149; 09 R286) -/

/-- The tile once its command has ended. -/
def ended (me : Nat) (x : Tile) : Tile :=
  let y := clearHang me (onCount (fun c => { c with cmdOpen := false }) x)
  { y with core := { y.core with
    cmdBusy := false
    dip := { y.core.dip with descs := y.core.dip.descs.filter (fun q => q.cmdSeq != y.core.cmdSeq) } } }

/-- A capture slot without a plan holds nothing (09 R286). -/
theorem holdSlots_noBank {s : State} {k : Nat} (l : List Nat) (cmd : Command) (h : NoBank s k) :
    l.foldl (fun s n => holdSlot k n cmd s) s = s := by
  have hstill : ∀ n, (capCfg (tileOf s k).core n).still = false := fun n => by
    unfold NoBank at h
    simp [capCfg, capReg, bankWord, h, mget, bit]
  induction l with
  | nil => rfl
  | cons n l ih =>
    have hslot : holdSlot k n cmd s = s := by simp [holdSlot, stillCopies, hstill n]
    rw [List.foldl_cons, hslot, ih]

/-- The tile takes part in a command step. -/
def commandSteps (x : Tile) : Prop := x.still.stepping = true ∧ x.still.stepK ≠ 0

/-- The tile that has counted `n` commands of its step. -/
def stepCounted (n : Nat) (x : Tile) : Tile := { x with still := { x.still with stepRun := n } }

/-- The tile after the command that it counts: it stills itself with its K-th one (04 R149). -/
def selfStilled (scope e : Nat) (vp : Bool) (x : Tile) : Tile :=
  let n := min 255 (x.still.stepRun + 1)
  if n < x.still.stepK then stepCounted n x else freeze scope (ownTime x e) e 0 vp (stepCounted n x)

theorem selfStill_other {s : State} {k : Nat} (vp : Bool) (h : ¬ commandSteps (tileOf s k)) : selfStill k vp s = s := by
  unfold selfStill
  refine if_pos ?_
  unfold commandSteps at h
  cases hs : (tileOf s k).still.stepping <;> simp_all

theorem freeze_eddy (scope tick e cycles : Nat) (vp : Bool) (x : Tile) (w : StubEddy) :
    freeze scope tick e cycles vp { x with eddy := w } = { freeze scope tick e cycles vp x with eddy := w } := by
  unfold freeze
  dsimp only
  split
  · rfl
  · split <;> rfl

theorem selfStill_steps {s : State} {k : Nat} (vp : Bool) (h : commandSteps (tileOf s k)) : selfStill k vp s =
    let n := min 255 ((tileOf s k).still.stepRun + 1)
    let u := onTile k (stepCounted n) s
    if n < (tileOf s k).still.stepK then u
    else recordStill k s.root.stepScope true true (onTile k
      (freeze s.root.stepScope (ownTime (tileOf s k) (now s)) (now s) 0 vp) u) := by
  have hstep : ¬ (!(tileOf s k).still.stepping || decide ((tileOf s k).still.stepK = 0)) = true := by simp [h.1, h.2]
  unfold selfStill
  dsimp only
  rw [if_neg hstep, onTile_root, now_onTile]
  rfl

theorem selfStill_retiled {e t : State} {k : Nat} {x : Tile} (vp : Bool) (h : Retiled e t k x) (hk : k < numTiles)
    (hs : commandSteps x) : Retiled e (selfStill k vp t) k (selfStilled e.root.stepScope (now e) vp x) := by
  obtain ⟨w, hw⟩ := h.2
  have hroot : e.root = t.root := by rw [← h.1.1]
  have hcounted : ∀ n, Retiled e (onTile k (stepCounted n) t) k (stepCounted n x) :=
    fun n => h.onTile hk (fun w => ⟨w, rfl⟩)
  rw [selfStill_steps vp (by rw [hw]; exact hs), hw, hroot, ← h.now]
  unfold selfStilled
  dsimp only
  by_cases hn : min 255 (x.still.stepRun + 1) < x.still.stepK
  · rw [if_pos hn, if_pos hn]
    exact hcounted _
  · rw [if_neg hn, if_neg hn]
    exact recordAt_retiled _ _ _ hk ((hcounted _).onTile hk (fun w => ⟨w, freeze_eddy _ _ _ _ _ _ w⟩))

theorem commandEnd_eq {s : State} {k : Nat} (cy : Cycles) (vp : Bool) (hr : coreRuns s k = true)
    (ho : (tileOf s k).core.count.cmdOpen = true) : exec (.commandEnd k (cy, vp)) s = .next (
      let u := addCycles k cy s
      let c := (tileOf u k).core
      let v := record k 0x01 (hangData (tileOf u k)) (onTile k (ended (stubNow u k)) u)
      let w := cmpEvent k 1 (cmdTest (tileOf v k).core c.cmd true) v
      (List.range 4).foldl (fun s n => holdSlot k n c.cmd s) (selfStill k vp w)) :=
  congrArg Host.Outcome.next (if_pos (by rw [hr, ho]; rfl))

theorem freeze_rest (scope tick e cycles : Nat) (vp : Bool) (x : Tile) :
    freeze scope tick e cycles vp x = { x with still := (freeze scope tick e cycles vp x).still } := by
  unfold freeze
  dsimp only
  split
  · rfl
  · split <;> rfl

theorem selfStilled_rest (scope e : Nat) (vp : Bool) (x : Tile) :
    selfStilled scope e vp x = { x with still := (selfStilled scope e vp x).still } := by
  unfold selfStilled
  dsimp only
  split
  · rfl
  · rw [freeze_rest]
    rfl

theorem selfStill_noBank {t : State} {k : Nat} (vp : Bool) (hk : k < numTiles) (hb : NoBank t k) : NoBank (selfStill k vp t) k := by
  by_cases hs : commandSteps (tileOf t k)
  · exact (selfStill_retiled vp ((OnlyTile.refl t k).retiled rfl) hk hs).noBank (by rw [selfStilled_rest]; exact hb)
  · rwa [selfStill_other vp hs]

/-- What COMMAND_END does before the tile may still itself: the report, the end of the command and its record. -/
theorem commandEnd_retiled {s : State} {k : Nat} (cy : Cycles) (vp : Bool) (hk : k < numTiles) (hr : coreRuns s k = true)
    (ho : (tileOf s k).core.count.cmdOpen = true) (hb : NoBank s k) (he : EddyReady s k) :
    ∃ u any lc me, exec (.commandEnd k (cy, vp)) s = .next (selfStill k vp u) ∧
      Retiled s u k (ended me (reportedTile cy any (now s) lc (tileOf s k))) ∧
      Recorded s u k (ts40 (stubNow s k)) 0x01 (eddyFlags (tileOf s k)) (BitVec.ofNat 64 (hangData (tileOf s k))) := by
  obtain ⟨any, lc, honly, hx⟩ := addCycles_tile cy s hk
  let u := addCycles k cy s
  let v := onTile k (ended (stubNow u k)) u
  have hv : tileOf v k = ended (stubNow u k) (reportedTile cy any (now s) lc (tileOf s k)) := by
    rw [tileOf_onTile_self _ _ hk, hx]
  have honlyv : OnlyTile s v k := honly.trans (onTile_onlyTile _ _ _)
  have hdata : hangData (tileOf u k) = hangData (tileOf s k) := by rw [hx]; rfl
  have hnow : stubNow v k = stubNow s k := by
    have htime : v.time = s.time := (congrArg State.time honlyv.1 :)
    rw [stubNow, stub8, rclkNow, now, htime, hv]
    rfl
  have hready : EddyReady v k := he.congr (congrArg State.rill honlyv.1 :) (congrArg State.cfg honlyv.1 :) (by rw [hv]; rfl)
  have hended := recordAt_retiled (ts40 (stubNow v k)) 0x01 (hangData (tileOf u k)) hk (honlyv.retiled hv)
  have hnb : NoBank (record k 0x01 (hangData (tileOf u k)) v) k := hended.noBank hb
  have hrec := recordAt_recorded (ts40 (stubNow v k)) 0x01 (hangData (tileOf u k)) hk hready
  refine ⟨_, any, lc, _, ?_, hended, ?_⟩
  · rw [commandEnd_eq cy vp hr ho]
    dsimp only
    rw [cmpEvent_noBank _ hnb (by decide), holdSlots_noBank _ _ (selfStill_noBank vp hk hnb)]
    rfl
  · have hflags : eddyFlags (tileOf v k) = eddyFlags (tileOf s k) := by rw [hv]; rfl
    rw [hnow, hflags, hdata] at hrec
    rw [hnow, hdata]
    exact hrec.congr (congrArg State.cfg honlyv.1 :).symm (by rw [hv]; rfl) rfl

/-- A tile outside a command step goes on; another one counts, and at its K-th command stills itself. -/
theorem selfStill_cases {e t : State} {k : Nat} {x : Tile} (vp : Bool) (hk : k < numTiles) (h : Retiled e t k x) :
    ∃ y, Retiled e (selfStill k vp t) k { x with still := y } ∧ (¬ commandSteps x → selfStill k vp t = t ∧ y = x.still) ∧
      (commandSteps x → y = (selfStilled e.root.stepScope (now e) vp x).still) := by
  by_cases hs : commandSteps x
  · exact ⟨_, selfStilled_rest e.root.stepScope (now e) vp x ▸ selfStill_retiled vp h hk hs, fun hn => absurd hs hn, fun _ => rfl⟩
  · obtain ⟨w, hw⟩ := h.2
    have hsame : selfStill k vp t = t := selfStill_other vp (by rw [hw]; exact hs)
    exact ⟨_, hsame.symm ▸ h, fun _ => ⟨hsame, rfl⟩, fun hy => absurd hy hs⟩

theorem coreRuns_pwrOk {s : State} {k : Nat} (hr : coreRuns s k = true) : (tileOf s k).power.pwrOk = true := by
  simp only [coreRuns, coreUp, Bool.and_eq_true] at hr
  exact hr.1.1

theorem commandEnd_idle {s : State} {k : Nat} (cy : Cycles) (vp : Bool) (ho : (tileOf s k).core.count.cmdOpen = false) :
    exec (.commandEnd k (cy, vp)) s = .next s := by
  simp only [exec, execCommandEnd, when, ho, Bool.and_false]
  rfl

theorem contexts_idle {s : State} {k : Nat} (hr : coreRuns s k = false) :
    exec (.contextLoad k) s = .next s ∧ ∀ a b, exec (.contextSwitch k a b) s = .next s := by
  simp only [exec, execContextLoad, execContextSwitch, when, hr]
  exact ⟨rfl, fun _ _ => rfl⟩

/-- Settles O18: each row by what it makes of its tile, a stage at a time. -/
theorem commandsRun : Obligations.CommandsRun := by
  refine ⟨?_, ?_, ?_⟩
  · intro s k hk x
    exact ⟨contextLoad_runs hk, fun hr => (contexts_idle hr).1, fun a b => contextSwitch_runs a b hk,
      fun a b hr => (contexts_idle hr).2 a b⟩
  · intro s k cmd cy hk hr hb x c b dtab
    obtain ⟨t, any, lc, me, hexec, honly, w, hw⟩ := commandStart_retiled cmd cy hk hr hb
    obtain ⟨d, p, hz, hcnt, hfirst, hlater⟩ := priorClosed_spec cmd.step (reportedTile cy any (now s) lc x)
    have hrest : (reportedTile cy any (now s) lc x).core.count = { c with
        cnt := (addCounters cy c).cnt
        cmdo := (addBank cy x.power.thr any (addCounters cy c)).cmdo
        reportAt := now s } := reported_rest _ _ _ _ _
    rw [hrest] at hcnt hfirst hlater
    refine ⟨t, hexec, honly, ?_⟩
    rw [hw, hz]
    refine ⟨rfl, rfl, rfl, rfl, rfl, rfl, rfl, rfl, rfl, rfl, rfl, rfl, rfl, fun i hi => ?_, fun i hi => ?_, fun ha => ?_,
      fun ha ho hd => ?_⟩
    · refine (congrArg (mget 0 · i) hcnt).trans ((addCounters_cnt cy c i).trans ?_)
      simp only [hi, and_true]
    · exact (congrArg (mget 0 · i) hcnt).trans ((addCounters_cnt cy c i).trans (if_neg (fun h => Nat.not_lt.2 hi h.2)))
    · obtain ⟨hd, hp⟩ := hfirst ha
      exact ⟨(congrArg CoreCount.dtab hd :), (congrArg CoreCount.cmdl hd :), (congrArg StubPlan.closedStep hp :)⟩
    · have hbank : (addBank cy x.power.thr any (addCounters cy c)).cmdo = b := addBank_tail ho ha
      rw [hbank] at hlater
      obtain ⟨hcmdl, hsame, hnext⟩ := hlater ha
      refine ⟨hcmdl, fun hle => ?_, fun hlt => ?_⟩
      · obtain ⟨hdtab, hdcls, hp⟩ := hsame hle
        exact ⟨hdtab.trans (bankClosed_dtab hd), hdcls, (congrArg StubPlan.closedStep hp :)⟩
      · obtain ⟨hdtab, htab, hfold, hclosed, hover, hdcls⟩ := hnext hlt
        exact ⟨hdtab, htab, hfold, hclosed, hover, fun hf => (hdcls hf).trans (bankClosed_dtab hd)⟩
  · intro s k cy vp hk x c step n
    refine ⟨fun hr ho hb he => ?_, commandEnd_idle cy vp⟩
    obtain ⟨u, any, lc, me, hexec, hret, hrec⟩ := commandEnd_retiled cy vp hk hr ho hb he
    obtain ⟨y, hy, hother, hsteps⟩ := selfStill_cases vp hk hret
    obtain ⟨honly, w, hw⟩ := hy
    obtain ⟨hcyc, hstill, habusy, hthr⟩ := addBank_open (cy := cy) (thr := x.power.thr) (any := any) ho
    refine ⟨_, hexec, honly, ?_⟩
    rw [hw]
    refine ⟨rfl, rfl, rfl, rfl, rfl, hcyc, hstill, habusy, hthr, rfl, rfl, rfl, fun hn => ?_, fun hs hlt => ?_, fun hs hle hm => ?_⟩
    · obtain ⟨hu, hy⟩ := hother hn
      exact ⟨hy, by rw [hu]; exact hrec⟩
    · exact (hsteps hs).trans (congrArg Tile.still (if_pos hlt))
    · have hup : x.power.pwrOk = true := coreRuns_pwrOk hr
      have hfrz := (hsteps hs).trans (congrArg Tile.still (if_neg (Nat.not_lt.2 hle)))
      rw [freeze_running _ _ _ _ _ _ (by exact hup) (by exact hm)] at hfrz
      rw [hfrz]
      exact ⟨(congrArg (· ||| _) hm).trans BitVec.zero_or, rfl, rfl, rfl, rfl, rfl, rfl⟩

end Sys2Proof.Machine
end

section
/-! The host transaction: TXN_OPEN, TXN_ADD, TXN_RINSE, TXN_QUERY and TXN_COMMIT (06 R188 to R192, R195, R210). -/

namespace Sys2Proof.Machine

theorem Answered.txn {u t : State} {op : Nat} {h : ReqHdr} {st : Status} {body : List Byte} (ha : Answered u t op h st body) :
    t.txn = u.txn := (congrArg State.txn ha.2.2.1 :)

@[simp] theorem badEntry_bad (st : Status) (b : Bool) (i : Nat) : (badEntry st b i).bad = b := rfl
@[simp] theorem refuse_bad (b : Bool) (i : Nat) : (refuse b i).bad = b := rfl

/-- Checks made for each index are good where each of them is. -/
theorem checksOf_good {n : Nat} {g : Nat → Check} (h : ∀ k < n, (g k).bad = false) : ∀ c ∈ (List.range n).map g, c.bad = false := by
  intro c hc
  obtain ⟨k, hk, rfl⟩ := List.mem_map.1 hc
  exact h k (List.mem_range.1 hk)

theorem getD_mem {α : Type} {l : List α} {k : Nat} (d : α) (hk : k < l.length) : l.getD k d ∈ l := by
  rw [List.getD_eq_getElem _ _ hk]
  exact List.getElem_mem hk

/-! Which tiles an entry reaches hangs on the tiles alone (06 R191) -/

theorem entryTile_congr {s u : State} (h : u.tiles = s.tiles) (e : TxnEntry) : entryTile u e = entryTile s e := by
  simp only [entryTile, addrTile, holderOf, h]

theorem inSet_congr {s u : State} (h : u.tiles = s.tiles) (d : TileSet) (t : Nat) : inSet u d t = inSet s d t := by
  have hl : ltnOf u t = ltnOf s t := by unfold ltnOf; rw [tileOf_of_tiles h]
  simp only [inSet, hl, tileOf_of_tiles h]

theorem entryHas_congr {s u : State} (h : u.tiles = s.tiles) (e : TxnEntry) (t : Nat) : entryHas u e t = entryHas s e t := by
  simp only [entryHas, inSet_congr h, entryTile_congr h]

theorem entryTiles_congr {s u : State} (h : u.tiles = s.tiles) (e : TxnEntry) : entryTiles u e = entryTiles s e := by
  have hset : inSet u e.set = inSet s e.set := funext (inSet_congr h e.set)
  simp only [entryTiles, members, hset, h, entryTile_congr h]

theorem targetsOf_congr {s u : State} (h : u.tiles = s.tiles) (seen es : List TxnEntry) : targetsOf u seen es = targetsOf s seen es := by
  induction es generalizing seen with
  | nil => rfl
  | cons e es ih => simp only [targetsOf, entryTiles_congr h, entryHas_congr h, ih]

theorem txnTargets_congr {s u : State} (h : u.tiles = s.tiles) (x : Txn) : txnTargets u x = txnTargets s x :=
  targetsOf_congr h [] x.entries

theorem overFull_congr {s u : State} (h : u.tiles = s.tiles) (es : List TxnEntry) : overFull u es = overFull s es := by
  simp only [overFull, targetsOf_congr h, entryHas_congr h]

theorem addChecks_assembling (s : State) (as : List Assembly) (n : Nat) (es : List TxnEntry) :
    addChecks n es { s with sess := { s.sess with assembling := as } } = addChecks n es s := by
  have ho := fun es => overFull_congr (u := { s with sess := { s.sess with assembling := as } }) (s := s) rfl es
  simp only [addChecks, ho]
  rfl

theorem commitChecks_assembling (s : State) (as : List Assembly) (n tick : Nat) (h : ReqHdr) :
    commitChecks n tick h { s with sess := { s.sess with assembling := as } } = commitChecks n tick h s := rfl

/-! The host transaction -/

theorem openTxn_host {s : State} {x : Txn} (hx : s.txn.host = some x) (hc : x.committed = false) : openTxn s x.id = some x := by
  simp [openTxn, hx, hc]

/-! TXN_OPEN (06 R188, R189, R192) -/

/-- What TXN_OPEN of session `owner` makes of the transaction registers. -/
def txnOpened (owner epoch tmo : Nat) (q : TxnState) : TxnState :=
  { q with
    host := some { id := nextTxnId q.lastId, mapEpoch := epoch, tmo := if tmo = 0 then q.stageTmo else tmo, owner := owner }
    lastId := nextTxnId q.lastId
    id := if q.active.isNone then nextTxnId q.lastId else q.id
    centre := q.centre && q.active.isSome
    targets := if q.active.isNone then 0 else q.targets
    tstate := if q.active.isNone && q.tstate != 6 then 1 else q.tstate }

theorem txnOpened_idle {owner epoch tmo : Nat} {q : TxnState} (ha : q.active = none) (ht : q.tstate ≠ 6) :
    (txnOpened owner epoch tmo q).tstate = 1 ∧ (txnOpened owner epoch tmo q).id = nextTxnId q.lastId ∧
    (txnOpened owner epoch tmo q).centre = false ∧ (txnOpened owner epoch tmo q).targets = 0 := by
  simp [txnOpened, ha, ht]

def tmoOutside (tmo : Nat) : Bool := tmo != 0 && (decide (tmo < 20) || decide (10000 < tmo))

section
variable {s : State} {h : ReqHdr} (hi : AsIntrusive s h)
include hi

theorem txnOpen_opens (epoch : Nat) {tmo : Nat} (hh : s.txn.host = none) (ht : tmoOutside tmo = false) :
    ∃ t, exec (.txnOpen h epoch tmo) s = .next t ∧
      Answered (onTxn (txnOpened h.session epoch tmo) s) t 0x50 h .ok (le 2 (nextTxnId s.txn.lastId)) := by
  refine outcome_request { op := 0x50, classC := true, need := .intrusive } h _ _ s (onTxn (txnOpened h.session epoch tmo)) .ok
    (le 2 (nextTxnId s.txn.lastId)) hi.1.1 (int_allowed hi _ rfl) (fun as => pick_none _ ?_) (fun _ _ => rfl) rfl (fun _ => rfl)
  simp only [List.forall_mem_cons]
  exact ⟨ht, by rw [hh]; rfl, by simp⟩

theorem txnOpen_busy (epoch : Nat) {tmo : Nat} (hh : s.txn.host ≠ none) (ht : tmoOutside tmo = false) :
    ∃ t, exec (.txnOpen h epoch tmo) s = .next t ∧ Answered s t 0x50 h .busy (detail {}) := by
  refine bad_request { op := 0x50, classC := true, need := .intrusive } h _ _ s (busy true) hi.1.1 (int_allowed hi _ rfl) (fun as => ?_)
  have hsome : s.txn.host.isSome = true := Option.isSome_iff_ne_none.2 hh
  show pick [badField (tmoOutside tmo) 2, busy s.txn.host.isSome] = _
  rw [ht, hsome]
  rfl

theorem txnOpen_malformed (epoch : Nat) {tmo : Nat} (ht : tmoOutside tmo = true) :
    ∃ t, exec (.txnOpen h epoch tmo) s = .next t ∧ Answered s t 0x50 h .malformed (detail { reason := 0x10, index := 2 }) := by
  refine bad_request { op := 0x50, classC := true, need := .intrusive } h _ _ s (badField true 2) hi.1.1 (int_allowed hi _ rfl)
    (fun as => ?_)
  show pick [badField (tmoOutside tmo) 2, busy s.txn.host.isSome] = _
  rw [ht]
  exact pick_first rfl (by simp only [List.forall_mem_cons]; exact ⟨(by decide : (1 : Nat) ≤ 5), by simp⟩)

/-! TXN_ADD (06 R189) -/

omit hi in
theorem addChecks_good {x : Txn} {es : List TxnEntry} (hx : s.txn.host = some x) (hc : x.committed = false) (hne : es ≠ [])
    (he : ∀ e ∈ es, entryBad e = false ∧ (e.isSet = true ∨ (entryTile s e).isSome = true) ∧
      (∀ i ∈ e.items, itemBad e.cchk i = false ∧ i.kind < 5))
    (hb : bufferBytes (x.entries ++ es) ≤ 4194304) (ho : overFull s (x.entries ++ es) = false) :
    ∀ c ∈ addChecks x.id es s, c.bad = false := by
  have hitem : ∀ p ∈ itemList es, itemBad p.1 p.2 = false ∧ p.2.kind < 5 := by
    intro p hp
    obtain ⟨e, hin, hpe⟩ := List.mem_flatMap.1 hp
    obtain ⟨i, hi, rfl⟩ := List.mem_map.1 hpe
    exact (he e hin).2.2 i hi
  simp only [addChecks, openTxn_host hx hc, List.forall_mem_append, List.forall_mem_cons]
  refine ⟨⟨⟨⟨⟨?_, ?_⟩, ?_⟩, rfl, by simp⟩, ?_⟩, ?_, ho, List.isEmpty_eq_false_iff.2 hne, by simp⟩
  · refine checksOf_good fun k hk => ?_
    rw [badEntry_bad]
    exact (he _ (getD_mem {} hk)).1
  · refine checksOf_good fun k hk => ?_
    rw [badEntry_bad]
    exact (hitem _ (getD_mem _ hk)).1
  · refine checksOf_good fun k hk => ?_
    rw [badEntry_bad]
    exact decide_eq_false (Nat.not_le.2 (hitem _ (getD_mem _ hk)).2)
  · refine checksOf_good fun k hk => ?_
    rw [refuse_bad]
    obtain ⟨-, hset | htile, -⟩ := he _ (getD_mem {} hk)
    · rw [hset]
      rfl
    · rw [Option.isNone_eq_false_iff.2 htile, Bool.and_false]
  · rw [refuse_bad]
    exact decide_eq_false (Nat.not_lt.2 hb)

/-- What TXN_ADD makes of the transaction registers. -/
def txnExtended (es : List TxnEntry) (q : TxnState) : TxnState :=
  { q with host := q.host.map (fun x => { x with entries := x.entries ++ es }) }

theorem txnAdd_adds {x : Txn} {es : List TxnEntry} (hc : ∀ c ∈ addChecks x.id es s, c.bad = false) :
    ∃ t, exec (.txnAdd h x.id es) s = .next t ∧ Answered (onTxn (txnExtended es) s) t 0x51 h .ok [] :=
  outcome_request { op := 0x51, classC := true, need := .intrusive } h (fun _ s => addChecks x.id es s) _ s (onTxn (txnExtended es))
    .ok [] hi.1.1 (int_allowed hi _ rfl) (fun _ => pick_none _ (by rwa [addChecks_assembling])) (fun _ _ => rfl) rfl (fun _ => rfl)

/-! TXN_RINSE and TXN_QUERY (06 R188, R210) -/

/-- An open transaction has ended. -/
def txnEnded (q : TxnState) : TxnState := { q with host := none, tstate := if q.tstate = 1 then 0 else q.tstate }

theorem txnRinse_ends {x : Txn} (hx : s.txn.host = some x) (hc : x.committed = false) :
    ∃ t, exec (.txnRinse h x.id) s = .next t ∧ Answered (event 4 (onTxn txnEnded s)) t 0x53 h .ok [] := by
  have hrinsable : rinsable s x.id = true := by simp [rinsable, hx, hc]
  refine outcome_request { op := 0x53, classC := true, need := .intrusive } h _ _ s (fun s => event 4 (onTxn txnEnded s)) .ok []
    hi.1.1 (int_allowed hi _ rfl) (fun as => pick_none _ ?_) (fun _ _ => rfl) rfl (fun g => ?_)
  · show ∀ c ∈ [refuse (!rinsable s x.id)], c.bad = false
    rw [hrinsable]
    simp
  · have hopen : (openTxn (onSess g s) x.id).isSome = true := by
      rw [openTxn_host (s := onSess g s) hx hc]
      rfl
    exact congrArg (respond { h with opcode := 0x53 } .ok []) (if_pos hopen)

theorem txnQuery_answers : ∃ t, exec (.txnQuery h) s = .next t ∧ Answered s t 0x54 h .ok (txnBody s) :=
  outcome_request { op := 0x54, classC := false, need := .intrusive } h (fun _ _ => []) (okWith txnBody) s id .ok (txnBody s) hi.1.1
    (int_allowed hi _ rfl) (fun _ => rfl) (fun _ _ => rfl) rfl (fun _ => rfl)

end

/-! TXN_COMMIT (06 R190, R195) -/

/-- Nothing bars a commit: the stage is free, and neither a recovery nor a snapshot nor a restore runs. -/
structure CommitFree (s : State) : Prop where
  stage : stageBusy s = false
  recovery : recBusy s = false
  snapshot : snapRuns s = false
  restore : s.snap.restoring = false

theorem CommitFree.notBusy {s : State} (h : CommitFree s) : (stageBusy s || recBusy s || snapRuns s || s.snap.restoring) = false := by
  rw [h.stage, h.recovery, h.snapshot, h.restore]
  rfl

theorem CommitFree.tstate {s : State} (h : CommitFree s) : s.txn.tstate ≠ 6 := by
  have hs := h.stage
  simp only [stageBusy, Bool.or_eq_false_iff, beq_eq_false_iff_ne] at hs
  exact hs.2

theorem CommitFree.waiting {s : State} (h : CommitFree s) : s.txn.waiting = [] := by
  have hs := h.stage
  simp only [stageBusy, Bool.or_eq_false_iff, Bool.not_eq_false', List.isEmpty_iff] at hs
  exact hs.1.2

/-- The effect of a commit whose conditions hold. -/
def commitAct (tick : Nat) (h : ReqHdr) (s : State) : State :=
  match s.txn.host with
  | none => s
  | some x =>
    if x.entries.isEmpty then closeEmpty h s
    else beginStaging { x with committed := true, tick := tick, atEarliest := h.atEarliest, reply := some h } s

theorem txnCommit_eq (h : ReqHdr) (n tick : Nat) (s : State) : exec (.txnCommit h n tick) s =
    request { op := 0x52, classC := true, need := .intrusive } h (commitChecks n tick) (commitAct tick) s := rfl

theorem beginStaging_txn {s u : State} (ht : u.tiles = s.tiles) (hn : u.time = s.time) (hq : u.txn = s.txn) (x : Txn) :
    (beginStaging x u).txn = (beginStaging x s).txn := by
  simp only [beginStaging, onTxn_txn, txnTargets_congr ht, now, hn, hq]

section
variable {s : State} {h : ReqHdr} {x : Txn} (hx : s.txn.host = some x) (hc : x.committed = false) (hf : CommitFree s)
include hx hc hf

/-- The conditions of TXN_COMMIT with TICK 0: the map change goes before what its entries break (00 R13). -/
theorem commitChecks_open : ∃ rest, commitChecks x.id 0 h s =
      staleIf (x.mapEpoch != s.mapEpoch && x.entries.any entryPhys) :: rest ∧
      (∀ c ∈ rest, statusRank .stale ≤ statusRank c.st) ∧
      ((∀ e ∈ x.entries, aregExcluded e = false ∧ (e.isSet = true ∨ (entryTile s e).isSome = true) ∧ uncovered s e = false) →
        ∀ c ∈ rest, c.bad = false) := by
  simp only [commitChecks, openTxn_host hx hc, hf.notBusy, Option.getD_some, Option.isSome_some, Bool.true_and, List.cons_append]
  refine ⟨_, rfl, ?_, fun he => ?_⟩
  · simp only [List.forall_mem_append, List.forall_mem_cons, List.nil_append]
    refine ⟨(by decide : (4 : Nat) ≤ 5), (by decide : (4 : Nat) ≤ 6), (by decide : (4 : Nat) ≤ 7), fun c hc => ?_,
      (by decide : (4 : Nat) ≤ 7), by simp⟩
    obtain ⟨k, -, rfl⟩ := List.mem_map.1 hc
    exact (by decide : (4 : Nat) ≤ 7)
  · simp only [List.forall_mem_append, List.forall_mem_cons, List.nil_append]
    refine ⟨rfl, rfl, rfl, checksOf_good fun k hk => ?_, rfl, by simp⟩
    obtain ⟨hareg, hset | htile, hcov⟩ := he _ (getD_mem {} hk)
    · rw [badEntry_bad, hareg, hset, hcov]
      rfl
    · rw [badEntry_bad, hareg, Option.isNone_eq_false_iff.2 htile, hcov, Bool.and_false]
      rfl

theorem commitChecks_good
    (he : ∀ e ∈ x.entries, aregExcluded e = false ∧ (e.isSet = true ∨ (entryTile s e).isSome = true) ∧ uncovered s e = false)
    (hm : x.mapEpoch = s.mapEpoch ∨ x.entries.any entryPhys = false) (as : List Assembly) :
    pick (commitChecks x.id 0 h { s with sess := { s.sess with assembling := as } }) = none := by
  obtain ⟨rest, heq, -, hgood⟩ := commitChecks_open (h := h) hx hc hf
  have hstale : (x.mapEpoch != s.mapEpoch && x.entries.any entryPhys) = false := by
    rcases hm with hm | hm <;> simp [hm]
  rw [commitChecks_assembling, heq, hstale]
  exact pick_none _ (by simp only [List.forall_mem_cons]; exact ⟨rfl, hgood he⟩)

theorem txnCommit_stale (hi : AsIntrusive s h) (hm : x.mapEpoch ≠ s.mapEpoch) (hp : x.entries.any entryPhys = true) :
    ∃ t, exec (.txnCommit h x.id 0) s = .next t ∧ Answered s t 0x52 h .stale (detail {}) := by
  refine bad_request { op := 0x52, classC := true, need := .intrusive } h (commitChecks x.id 0) _ s (staleIf true) hi.1.1
    (int_allowed hi _ rfl) (fun as => ?_)
  obtain ⟨rest, heq, hrank, -⟩ := commitChecks_open (h := { h with opcode := 0x52 }) hx hc hf
  have hstale : (x.mapEpoch != s.mapEpoch && x.entries.any entryPhys) = true := by simp [hm, hp]
  rw [commitChecks_assembling, heq, hstale]
  exact pick_first rfl hrank

/-- The registers once an empty transaction has closed. -/
def emptyClosed (q : TxnState) : TxnState := { q with host := none, tstate := if q.tstate = 6 then 6 else 0 }

theorem txnCommit_empty (hi : AsIntrusive s h) (he : x.entries = []) :
    ∃ t, exec (.txnCommit h x.id 0) s = .next t ∧
      Answered { s with txn := { s.txn with host := none, tstate := 0 } } t 0x52 h .empty [] := by
  have hclosed : onTxn emptyClosed s = { s with txn := { s.txn with host := none, tstate := 0 } } := by
    simp only [onTxn, emptyClosed, if_neg hf.tstate]
  rw [← hclosed]
  rw [txnCommit_eq]
  refine outcome_request { op := 0x52, classC := true, need := .intrusive } h (commitChecks x.id 0) _ s (onTxn emptyClosed) .empty []
    hi.1.1 (int_allowed hi _ rfl) (commitChecks_good hx hc hf (by simp [he]) (.inr (by simp [he]))) (fun _ _ => rfl) rfl (fun g => ?_)
  simp only [commitAct, onSess_txn, hx, he, List.isEmpty_nil, if_true]
  rfl

/-- A commit begins to stage the transaction, and its request waits. -/
theorem txnCommit_stages (hi : AsIntrusive s h) (hne : x.entries ≠ [])
    (hm : x.mapEpoch = s.mapEpoch ∨ x.entries.any entryPhys = false)
    (he : ∀ e ∈ x.entries, aregExcluded e = false ∧ (e.isSet = true ∨ (entryTile s e).isSome = true) ∧ uncovered s e = false) :
    let y : Txn := { x with committed := true, tick := 0, atEarliest := h.atEarliest, reply := some { h with opcode := 0x52 } }
    ∃ t, exec (.txnCommit h x.id 0) s = .next t ∧ Waits { s with txn := t.txn } t 0x52 h ∧ t.txn = (beginStaging y s).txn := by
  intro y
  obtain ⟨w, hw, hexec⟩ := request_acts { op := 0x52, classC := true, need := .intrusive } h (commitChecks x.id 0) (commitAct 0) s
    hi.1.1 (int_allowed hi _ rfl) (commitChecks_good hx hc hf he hm)
  have hact : commitAct 0 { h with opcode := 0x52 } w = beginStaging y w := by
    simp only [commitAct, hw.txn, hx, List.isEmpty_eq_false_iff.2 hne]
    rfl
  rw [hact] at hexec
  refine ⟨_, hexec, taken_waits _ _ 0x52 h ?_, beginStaging_txn hw.tiles ?_ hw.txn y⟩
  all_goals obtain ⟨ss, as, c, m, rfl, hss⟩ := hw
  · exact ⟨ss, as, c, m, rfl, hss⟩
  · rfl

end

/-- Settles O22, request by request: the conditions that each is checked for, and what it makes of the transaction registers. -/
theorem transactionsOpenAndCommit : Obligations.TransactionsOpenAndCommit := by
  refine ⟨⟨?_, ?_, ?_, fun s h hi => txnQuery_answers hi⟩, ?_⟩
  · intro s h epoch tmo hi id
    refine ⟨fun hh ht => ?_, fun hh ht => txnOpen_busy hi epoch hh (by rw [ht]; rfl), fun h0 ht => txnOpen_malformed hi epoch ?_⟩
    · obtain ⟨t, hexec, hans⟩ := txnOpen_opens hi epoch hh (tmo := tmo) (by
        rcases ht with rfl | ⟨h20, h10000⟩
        · rfl
        · simp [tmoOutside, Nat.not_lt.2 h20, Nat.not_lt.2 h10000])
      have htxn : t.txn = txnOpened h.session epoch tmo s.txn := hans.txn
      refine ⟨t, hexec, htxn ▸ hans, ?_⟩
      rw [htxn]
      exact ⟨rfl, rfl, rfl, txnOpened_idle⟩
    · rcases ht with ht | ht <;> simp [tmoOutside, h0, ht]
  · intro s h x es hi hx hc hne he hb ho
    obtain ⟨t, hexec, hans⟩ := txnAdd_adds hi (addChecks_good hx hc hne he hb ho)
    refine ⟨t, hexec, ?_⟩
    simpa only [onTxn, txnExtended, hx, Option.map_some] using hans
  · exact fun s h x hi hx hc => txnRinse_ends hi hx hc
  · intro s h x hi hx hc hcentre hstage hrec hsnap hrest
    have hf : CommitFree s := ⟨hstage, hrec, hsnap, hrest⟩
    refine ⟨fun he => txnCommit_empty hx hc hf hi he, fun hne hm he => ?_, fun hm hp => txnCommit_stale hx hc hf hi hm hp⟩
    obtain ⟨t, hexec, hwaits, htxn⟩ := txnCommit_stages hx hc hf hi hne hm he
    refine ⟨t, hexec, hwaits, ?_⟩
    rw [htxn]
    exact ⟨rfl, if_neg (by simp [hcentre]), rfl, rfl, rfl, rfl, rfl, rfl, rfl, rfl, rfl, rfl⟩

end Sys2Proof.Machine
end

section
/-! What stubs do with STAGE packets, RINSE and the deadline, and what the centre notes of it (06 R194 to R197, R204, R205). -/

namespace Sys2Proof.Machine

/-! Entries written in a row -/

theorem mget_foldl_mput {α : Type} [DecidableEq α] (d : α) (f : Nat → α) (a n j : Nat) (m : Map α) :
    mget d ((List.range n).foldl (fun m i => mput d m (a + i) (f i)) m) j =
      if a ≤ j ∧ j < a + n then f (j - a) else mget d m j := by
  induction n with
  | zero =>
    rw [if_neg (by omega)]
    rfl
  | succ n ih =>
    rw [List.range_succ, List.foldl_append, List.foldl_cons, List.foldl_nil, mget_mput, ih]
    by_cases hj : j = a + n
    · subst hj
      rw [if_pos rfl, if_pos (by omega), Nat.add_sub_cancel_left]
    · have hin : (a ≤ j ∧ j < a + (n + 1)) ↔ (a ≤ j ∧ j < a + n) := by omega
      rw [if_neg hj]
      simp only [hin]

/-! The centre's note of a reply (06 R195, R197; 02 R58) -/

/-- The packet is one of the transaction that stages. -/
def stagesNow (s : State) (p : StagePkt) : Prop := s.txn.tstate = 2 ∧ ∃ a, s.txn.active = some a ∧ a.id = p.txn

theorem stagesNow_iff (s : State) (p : StagePkt) :
    (s.txn.active.any (fun x => x.id == p.txn) && s.txn.tstate == 2) = true ↔ stagesNow s p := by
  simp [stagesNow, Option.any_eq_true, and_comm]

theorem noteReply_frame (k r : Nat) (p : StagePkt) (s : State) : noteReply k r p s = { s with txn := (noteReply k r p s).txn } := by
  unfold noteReply
  dsimp only
  repeat' split
  all_goals rfl

theorem noteReply_other {s : State} {p : StagePkt} (k r : Nat) (h : ¬ stagesNow s p) : noteReply k r p s = s := by
  rw [← stagesNow_iff, Bool.not_eq_true] at h
  rw [noteReply, h]
  rfl

/-- The packets that the centre has seen answered, with this one. -/
def withReply (s : State) (k : Nat) (p : StagePkt) : List StageSent :=
  s.txn.answered ++ [{ tile := k, offset := p.offset, words := p.words.length, final := p.final }]

theorem noteReply_taken {s : State} {p : StagePkt} (k : Nat) (h : stagesNow s p) : (noteReply k 0 p s).txn =
    if p.final then { s.txn with
      answered := withReply s k p
      okCount := s.txn.okCount + 1
      digestXor := s.txn.digestXor ^^^ (tileOf s k).txn.digest }
    else { s.txn with answered := withReply s k p } := by
  rw [← stagesNow_iff] at h
  rw [noteReply, h, withReply]
  cases p.final <;> rfl

theorem noteReply_refused {s : State} {p : StagePkt} {r : Nat} (k : Nat) (h : stagesNow s p) (hr : r ≠ 0) :
    let t := noteReply k r p s
    t.txn.nakCount = s.txn.nakCount + 1 ∧ t.txn.answered = withReply s k p ∧ t.txn.okCount = s.txn.okCount ∧
    (s.txn.firstNak = none → t.txn.firstNak = some k ∧ t.txn.firstReason = r) ∧
    (∀ u, s.txn.firstNak = some u → t.txn.firstNak = some (min k u) ∧
      t.txn.firstReason = if k < u then r else s.txn.firstReason) := by
  rw [← stagesNow_iff] at h
  have hr' : (r != 0) = true := bne_iff_ne.2 hr
  rw [noteReply, h]
  dsimp only
  rw [if_neg (by decide), if_pos hr']
  refine ⟨rfl, rfl, rfl, fun hn => ?_, fun u hu => ?_⟩
  · simp [onTxn, hn]
  · by_cases hk : k < u
    · simp [onTxn, hu, hk, Nat.min_eq_left (Nat.le_of_lt hk)]
    · simp [onTxn, hu, hk, Nat.min_eq_right (Nat.not_lt.1 hk)]

/-! STAGE (06 R194, R195) -/

/-- The stub's registers with its staged content gone. -/
def stubEmptied (q : StubTxn) : StubTxn := { q with tstate := 0, words := 0, staged := [], written := [], hold := false, void := false }

/-- The tile that has taken a packet which is not FINAL. -/
def staged (me : Nat) (p : StagePkt) (x : Tile) : Tile :=
  { x with txn := { x.txn with
    id := p.txn
    words := wordCount (mergeWritten x p)
    staged := mergeStaged x p
    written := mergeWritten x p
    tstate := 1
    void := false
    deadline := widen32 me p.deadlineLo } }

/-- The tile whose set is STAGED with its digest. -/
def sealed (k : Nat) (y : Tile) : Tile :=
  { y with txn := { y.txn with tstate := 2, digest := ownDigest y k, hold := (heldItems y).any coreBound } }

/-- What the stub at a tile answers and takes of a packet that the centre sends it. -/
theorem stage_eq {s : State} {k : Nat} {p : StagePkt} (hk : k < numTiles) (hs : s.rill.inService = true)
    (ha : (tileOf s k).power.answers = true) (hp : sendsPacket s k p = true) (h3 : (tileOf s k).txn.tstate ≠ 3)
    (h4 : (tileOf s k).txn.tstate ≠ 4) (hown : holdsStaged (tileOf s k) = true → (tileOf s k).txn.id = p.txn) :
    exec (.stage k p) s = .next (noteReply k (stageReason (tileOf s k) p) p (if stageReason (tileOf s k) p = 0 then takeStage k p s
      else onTile k (fun x => { x with txn := { stubEmptied x.txn with id := p.txn } }) s)) := by
  have hacts : (inService s && (tileOf s k).power.answers && decide (k < numTiles) &&
      (tileOf s k).txn.tstate != 3 && (tileOf s k).txn.tstate != 4 && sendsPacket s k p) = true := by
    simp [inService, hs, ha, hk, hp, h3, h4]
  have hkeeps : ¬ (holdsStaged (tileOf s k) && (tileOf s k).txn.id != p.txn) = true := by
    intro hd
    simp only [Bool.and_eq_true, bne_iff_ne] at hd
    exact hd.2 (hown hd.1)
  simp only [exec, execStage, when]
  rw [if_pos hacts, if_neg hkeeps]
  rfl

/-- What a stub kept of the set that the packet belongs to: nothing, if it held nothing. -/
theorem kept_eq {x : Tile} {p : StagePkt} (hown : holdsStaged x = true → x.txn.id = p.txn) :
    (decide (x.txn.id = p.txn) && holdsStaged x) = holdsStaged x := by
  cases hh : holdsStaged x
  · rw [Bool.and_false]
  · rw [decide_eq_true (hown hh), Bool.and_self]

theorem mget_mergeStaged {x : Tile} {p : StagePkt} (hown : holdsStaged x = true → x.txn.id = p.txn) (i : Nat) :
    mget 0 (mergeStaged x p) i = if p.offset ≤ i ∧ i < p.offset + p.words.length then p.words.getD (i - p.offset) 0
      else if holdsStaged x = true then mget 0 x.txn.staged i else 0 := by
  rw [mergeStaged, kept_eq hown, mget_foldl_mput 0 (fun i => p.words.getD i 0)]
  split
  · rfl
  · split <;> rfl

theorem mem_mergeWritten {x : Tile} {p : StagePkt} (hown : holdsStaged x = true → x.txn.id = p.txn) (i : Nat) :
    i ∈ mergeWritten x p ↔ i < 512 ∧ ((p.offset ≤ i ∧ i < p.offset + p.words.length) ∨ (holdsStaged x = true ∧ i ∈ x.txn.written)) := by
  rw [mergeWritten, kept_eq hown]
  simp only [List.mem_filter, List.mem_range, Bool.or_eq_true, Bool.and_eq_true, decide_eq_true_eq, List.contains_iff_mem]
  cases holdsStaged x <;> simp [or_comm]

/-- A tile changes, and then the centre notes the reply. -/
theorem noteReply_onlyTile {s u : State} {k : Nat} (r : Nat) (p : StagePkt) (h : OnlyTile s u k) :
    OnlyTile { s with txn := (noteReply k r p u).txn } (noteReply k r p u) k ∧ tileOf (noteReply k r p u) k = tileOf u k := by
  have hf := noteReply_frame k r p u
  have ht : (noteReply k r p u).tiles = u.tiles := (congrArg State.tiles hf :)
  refine ⟨⟨?_, fun v hv => (tileOf_of_tiles ht v).trans (h.2 v hv)⟩, tileOf_of_tiles ht k⟩
  rw [← h.1, hf]

/-! The reasons that the packet alone gives (06 R194; 02 R48) -/

theorem stageReason_stale {x : Tile} {p : StagePkt} (h : packetStale x p ≠ 0) : stageReason x p = packetStale x p :=
  if_pos (bne_iff_ne.2 h)

theorem stageReason_noLtn {x : Tile} {p : StagePkt} (hl : p.lchk = true) (hx : x.txn.ltnValid = false) : stageReason x p = 3 := by
  have h3 : packetStale x p = 3 := by simp [packetStale, hl, hx]
  rw [stageReason_stale (by rw [h3]; decide), h3]

theorem stageReason_context {x : Tile} {p : StagePkt} (hl : p.lchk = false) (hc : p.cchk = true) (hx : x.txn.ctxEpoch ≠ p.ctxEpoch) :
    stageReason x p = 4 := by
  have h4 : packetStale x p = 4 := by simp [packetStale, hl, hc, hx]
  rw [stageReason_stale (by rw [h4]; decide), h4]

theorem stageReason_long {x : Tile} {p : StagePkt} (hl : p.lchk = false) (hc : p.cchk = false)
    (hn : 512 < p.offset + p.words.length) : stageReason x p = 5 := by
  have h0 : packetStale x p = 0 := by simp [packetStale, hl, hc]
  simp [stageReason, h0, hn]

/-! RINSE and STAGE_DEADLINE (06 R204, R205) -/

theorem discardStaged_retiled {e t : State} {k : Nat} {x : Tile} (cause : Nat) (h : Retiled e t k x) (hk : k < numTiles) :
    Retiled e (discardStaged k cause t) k { x with txn := stubEmptied x.txn } :=
  recordAt_retiled _ _ _ hk (h.onTile hk (fun w => ⟨w, rfl⟩))

theorem holdsStaged_iff (x : Tile) : holdsStaged x = true ↔ x.txn.tstate = 1 ∨ x.txn.tstate = 2 := by
  simp [holdsStaged]

section
variable {s : State} {k : Nat} (hs : s.rill.inService = true)
include hs

theorem rinse_eq (id : Nat) : exec (.rinse k id) s = .next (rinseStub id k s) := by
  simp only [exec, execRinse, when, inService, hs, if_true]

theorem stageDeadline_eq (h : holdsStaged (tileOf s k) = true ∨ (tileOf s k).txn.hold = true) : exec (.stageDeadline k) s =
    .next (let e := elapse (reachAt s k (tileOf s k).txn.deadline) s
      if holdsStaged (tileOf s k) then discardStaged k 2 e
      else onTile k (fun x => { x with txn := { x.txn with hold := false } }) e) := by
  have hb : (holdsStaged (tileOf s k) || (tileOf s k).txn.hold) = true := by rwa [Bool.or_eq_true]
  simp only [exec, execStageDeadline, when, inService, hs, hb, Bool.and_self, if_true, tileOf_elapse]

end

/-- The tile that has taken a packet with nothing against it. -/
def packetTaken (me k : Nat) (p : StagePkt) (x : Tile) : Tile :=
  if p.final then sealed k (staged me p x) else staged me p x

theorem takeStage_eq (k : Nat) (p : StagePkt) (s : State) : takeStage k p s = onTile k (packetTaken (stubNow s k) k p) s := rfl

theorem packetTaken_spec {k me : Nat} {p : StagePkt} {x z : Tile} (hown : holdsStaged x = true → x.txn.id = p.txn)
    (hz : z = packetTaken me k p x) :
    let inPkt := fun i => p.offset ≤ i ∧ i < p.offset + p.words.length
    let y := z.txn
    y.id = p.txn ∧ y.tstate = (if p.final then 2 else 1) ∧ y.void = false ∧
    (∀ i, i < p.words.length → mget 0 y.staged (p.offset + i) = p.words.getD i 0) ∧
    (∀ i, ¬ inPkt i → mget 0 y.staged i = if holdsStaged x = true then mget 0 x.txn.staged i else 0) ∧
    (∀ i, i ∈ y.written ↔ i < 512 ∧ (inPkt i ∨ (holdsStaged x = true ∧ i ∈ x.txn.written))) ∧
    y.words = wordCount y.written ∧ y.deadline = widen32 me p.deadlineLo ∧
    (p.final = true → y.digest = ownDigest z k ∧ y.hold = (heldItems z).any coreBound) ∧ { z with txn := x.txn } = x := by
  have hin : ∀ i, i < p.words.length → mget 0 (mergeStaged x p) (p.offset + i) = p.words.getD i 0 := fun i hi => by
    rw [mget_mergeStaged hown, if_pos (by omega), Nat.add_sub_cancel_left]
  have hout : ∀ i, ¬ (p.offset ≤ i ∧ i < p.offset + p.words.length) →
      mget 0 (mergeStaged x p) i = if holdsStaged x = true then mget 0 x.txn.staged i else 0 := fun i hi => by
    rw [mget_mergeStaged hown, if_neg hi]
  have hmem := mem_mergeWritten hown
  by_cases hf : p.final = true
  · rw [packetTaken, if_pos hf] at hz
    subst hz
    dsimp only [sealed, staged]
    exact ⟨rfl, (if_pos hf).symm, rfl, hin, hout, hmem, rfl, rfl, fun _ => ⟨rfl, rfl⟩, rfl⟩
  · rw [packetTaken, if_neg hf] at hz
    subst hz
    dsimp only [staged]
    exact ⟨rfl, (if_neg hf).symm, rfl, hin, hout, hmem, rfl, rfl, fun h => absurd h hf, rfl⟩

/-- A packet that the stub takes, and the centre's note of it. -/
theorem stage_taken {s : State} {k : Nat} {p : StagePkt} (hk : k < numTiles) (hr : stageReason (tileOf s k) p = 0)
    (hexec : exec (.stage k p) s = .next (noteReply k (stageReason (tileOf s k) p) p
      (if stageReason (tileOf s k) p = 0 then takeStage k p s
       else onTile k (fun x => { x with txn := { stubEmptied x.txn with id := p.txn } }) s))) :
    ∃ t, exec (.stage k p) s = .next t ∧ OnlyTile { s with txn := t.txn } t k ∧
      tileOf t k = packetTaken (stubNow s k) k p (tileOf s k) ∧
      (stagesNow s p → t.txn = if p.final then { s.txn with
          answered := withReply s k p
          okCount := s.txn.okCount + 1
          digestXor := s.txn.digestXor ^^^ (tileOf t k).txn.digest }
        else { s.txn with answered := withReply s k p }) ∧
      (¬ stagesNow s p → t.txn = s.txn) := by
  let u := takeStage k p s
  have hu : OnlyTile s u k := onTile_onlyTile k _ s
  have htxn : u.txn = s.txn := (congrArg State.txn hu.1 :)
  have hstages : stagesNow u p ↔ stagesNow s p := by rw [stagesNow, stagesNow, htxn]
  obtain ⟨honly, htile⟩ := noteReply_onlyTile 0 p hu
  refine ⟨noteReply k 0 p u, ?_, honly, ?_, fun hm => ?_, fun hm => ?_⟩
  · rw [hexec, hr, if_pos rfl]
  · rw [htile, show u = takeStage k p s from rfl, takeStage_eq]
    exact tileOf_onTile_self _ _ hk
  · rw [noteReply_taken k (hstages.2 hm), htile, withReply, withReply, htxn]
  · rw [noteReply_other k 0 (fun h => hm (hstages.1 h)), htxn]

/-- A packet that the stub refuses, and the centre's note of it. -/
theorem stage_refused {s : State} {k : Nat} {p : StagePkt} (hk : k < numTiles) (hr : stageReason (tileOf s k) p ≠ 0)
    (hexec : exec (.stage k p) s = .next (noteReply k (stageReason (tileOf s k) p) p
      (if stageReason (tileOf s k) p = 0 then takeStage k p s
       else onTile k (fun x => { x with txn := { stubEmptied x.txn with id := p.txn } }) s))) :
    ∃ t u, exec (.stage k p) s = .next t ∧ OnlyTile { s with txn := t.txn } t k ∧ u.txn = s.txn ∧
      tileOf t k = { tileOf s k with txn := { stubEmptied (tileOf s k).txn with id := p.txn } } ∧
      t = noteReply k (stageReason (tileOf s k) p) p u := by
  let u := onTile k (fun x => { x with txn := { stubEmptied x.txn with id := p.txn } }) s
  have hu : OnlyTile s u k := onTile_onlyTile k _ s
  obtain ⟨honly, htile⟩ := noteReply_onlyTile (stageReason (tileOf s k) p) p hu
  refine ⟨_, u, ?_, honly, (congrArg State.txn hu.1 :), ?_, rfl⟩
  · rw [hexec, if_neg hr]
  · rw [htile]
    exact tileOf_onTile_self _ _ hk

/-- Settles O23: the packet by what the stub takes of it and what the centre notes, RINSE and the deadline by what they discard. -/
theorem stubsStageAndRinse : Obligations.StubsStageAndRinse := by
  intro s k hk hs ha x mine noted
  refine ⟨?_, ?_, ?_⟩
  · intro p hp h3 h4 hown inPkt
    have hexec := stage_eq hk hs ha hp h3 h4 hown
    refine ⟨fun hr => ?_, fun hr => ?_, stageReason_noLtn, stageReason_context, stageReason_long⟩
    · obtain ⟨t, ht, honly, hx, hnoted, hother⟩ := stage_taken hk hr hexec
      obtain ⟨hid, hst, hvoid, hin, hout, hwritten, hwords, hdead, hfinal, hrest⟩ := packetTaken_spec hown hx
      exact ⟨t, ht, honly, hid, hst, hvoid, hin, hout, hwritten, hwords, hdead, hfinal, hrest,
        fun hm hf => (hnoted hm).trans (if_pos hf), fun hm hf => (hnoted hm).trans (if_neg (by rw [hf]; decide)), hother⟩
    · obtain ⟨t, u, ht, honly, htxn, hx, rfl⟩ := stage_refused hk hr hexec
      have hstages : stagesNow u p ↔ mine p := by rw [stagesNow, htxn]
      refine ⟨_, ht, honly, by rw [hx]; rfl, fun hm => ?_, fun hm => ?_⟩
      · obtain ⟨hnak, hans, hok, hfirst, hnext⟩ := noteReply_refused k (hstages.2 hm) hr
        rw [withReply] at hans
        rw [htxn] at hnak hans hok hfirst hnext
        exact ⟨hnak, hans, hok, hfirst, hnext⟩
      · rw [noteReply_other _ _ (fun h => hm (hstages.1 h)), htxn]
  · intro id hheld gone
    have hholds := (holdsStaged_iff x).2 hheld
    refine ⟨fun hid => ?_, fun hid => ?_, ?_⟩
    · have hgone : rinseStub id k s = discardStaged k 0 s := if_pos (by rw [hholds, ha, beq_iff_eq.2 hid]; rfl)
      obtain ⟨honly, w, hw⟩ := discardStaged_retiled 0 ((OnlyTile.refl s k).retiled rfl) hk
      exact ⟨_, (rinse_eq hs id).trans (by rw [hgone]), honly, by rw [hw]; rfl⟩
    · have hstays : rinseStub id k s = s := if_neg (by simp [x, hid])
      rw [rinse_eq hs, hstays]
    · obtain ⟨honly, w, hw⟩ := discardStaged_retiled 2 ((OnlyTile.refl (elapse (reachAt s k x.txn.deadline) s) k).retiled
        (tileOf_elapse _ _ _)) hk
      exact ⟨_, (stageDeadline_eq hs (.inl hholds)).trans (congrArg _ (if_pos hholds)), honly, by rw [hw]; rfl⟩
  · intro h3 p id
    have hholds : holdsStaged x = false := by simp [holdsStaged, h3]
    refine ⟨?_, ?_, fun hh => ?_, fun hh => ?_⟩
    · simp only [exec, execStage, when, x] at h3 ⊢
      simp [h3]
    · have hstays : rinseStub id k s = s := if_neg (by rw [hholds]; simp)
      rw [rinse_eq hs, hstays]
    · simp [exec, execStageDeadline, when, hholds, hh, x]
    · refine ⟨_, (stageDeadline_eq hs (.inr hh)).trans (congrArg _ (if_neg (by rw [hholds]; decide))), onTile_onlyTile _ _ _, ?_⟩
      rw [tileOf_onTile_self _ _ hk, tileOf_elapse]

end Sys2Proof.Machine
end

section
/-! TXN_CHECK, PRESS_PLACE_TIMEOUT and FENCE_END: rinsing a host transaction, and placing its PRESS (06 R197, R198, R201, R203). -/

namespace Sys2Proof.Machine

/-! The rinse of a stub and of the targets (06 R203, R204) -/

/-- The stub, if it answers, holds no staged content of the identifier. -/
def Clean (id : Nat) (y : Tile) : Prop := y.power.answers = true → y.txn.id = id → holdsStaged y = false

theorem rinseStub_onlyTile (id k : Nat) (s : State) : OnlyTile s (rinseStub id k s) k := by
  unfold rinseStub
  dsimp only
  split
  · exact (onTile_onlyTile k _ s).trans (recordAt_onlyTile _ _ _ _ _)
  · exact .refl s k

/-- The stub that a RINSE reaches is clean afterwards, and its power is as it was. -/
theorem rinseStub_self (id : Nat) (s : State) {k : Nat} (hk : k < numTiles) :
    Clean id (tileOf (rinseStub id k s) k) ∧ (tileOf (rinseStub id k s) k).power = (tileOf s k).power := by
  by_cases hr : (holdsStaged (tileOf s k) && (tileOf s k).txn.id == id && (tileOf s k).power.answers) = true
  · obtain ⟨-, w, hw⟩ := discardStaged_retiled 0 ((OnlyTile.refl s k).retiled rfl) hk
    rw [show rinseStub id k s = discardStaged k 0 s from if_pos hr, hw]
    exact ⟨fun _ _ => rfl, rfl⟩
  · rw [show rinseStub id k s = s from if_neg hr]
    refine ⟨fun ha hid => ?_, rfl⟩
    rw [ha, beq_iff_eq.2 hid, Bool.and_true, Bool.and_true] at hr
    exact Bool.eq_false_iff.2 hr

theorem rinseStub_power (id k : Nat) (s : State) {u : Nat} (hu : u < numTiles) :
    (tileOf (rinseStub id k s) u).power = (tileOf s u).power := by
  by_cases hk : u = k
  · subst hk
    exact (rinseStub_self id s hu).2
  · rw [(rinseStub_onlyTile id k s).2 u hk]

theorem rinseStub_clean (id k : Nat) (s : State) {u : Nat} (hu : u < numTiles) (h : u = k ∨ Clean id (tileOf s u)) :
    Clean id (tileOf (rinseStub id k s) u) := by
  by_cases hk : u = k
  · subst hk
    exact (rinseStub_self id s hu).1
  · rw [(rinseStub_onlyTile id k s).2 u hk]
    exact h.resolve_left hk

/-- The stubs after the multicast RINSE. -/
def rinseStubs (id : Nat) (ts : List Nat) (s : State) : State := ts.foldl (fun s k => rinseStub id k s) s

theorem rinseStubs_rest (id : Nat) (ts : List Nat) (s : State) : { rinseStubs id ts s with tiles := s.tiles } = s := by
  induction ts generalizing s with
  | nil => rfl
  | cons k ts ih =>
    exact (congrArg (fun v : State => { v with tiles := s.tiles }) (ih (rinseStub id k s))).trans (rinseStub_onlyTile id k s).1

theorem rinseStubs_other (id : Nat) (ts : List Nat) (s : State) {u : Nat} (hu : u ∉ ts) :
    tileOf (rinseStubs id ts s) u = tileOf s u := by
  induction ts generalizing s with
  | nil => rfl
  | cons k ts ih =>
    obtain ⟨hk, hts⟩ := List.ne_and_not_mem_of_not_mem_cons hu
    exact (ih _ hts).trans ((rinseStub_onlyTile id k s).2 u hk)

theorem rinseStubs_clean (id : Nat) (ts : List Nat) (s : State) {u : Nat} (hu : u < numTiles) (h : u ∈ ts ∨ Clean id (tileOf s u)) :
    Clean id (tileOf (rinseStubs id ts s) u) ∧ (tileOf (rinseStubs id ts s) u).power = (tileOf s u).power := by
  induction ts generalizing s with
  | nil => exact ⟨h.resolve_left List.not_mem_nil, rfl⟩
  | cons k ts ih =>
    have hnext : u ∈ ts ∨ Clean id (tileOf (rinseStub id k s) u) := by
      rcases h with h | h
      · rcases List.mem_cons.1 h with h | h
        · exact .inr (rinseStub_clean id k s hu (.inl h))
        · exact .inl h
      · exact .inr (rinseStub_clean id k s hu (.inr h))
    obtain ⟨hclean, hpower⟩ := ih _ hnext
    exact ⟨hclean, hpower.trans (rinseStub_power id k s hu)⟩

/-- The target may still hold content of the identifier: it does not answer, holds no mark, or shows it. -/
abbrev mayHold (id : Nat) (y : Tile) : Prop := counts y = false ∨ (y.txn.id = id ∧ y.txn.tstate ≠ 0 ∧ y.txn.tstate ≠ 5)

/-- Some target may still hold content, and D has not passed (06 R203). -/
def fenceStands (id : Nat) (ts : List Nat) (s : State) : Bool :=
  ts.any (fun k => ((tileOf s k).txn.id == id && (tileOf s k).txn.tstate != 0 && (tileOf s k).txn.tstate != 5) || !counts (tileOf s k)) &&
    decide (now s < s.txn.d)

theorem fenceStands_iff (id : Nat) (ts : List Nat) (s : State) :
    fenceStands id ts s = true ↔ now s < s.txn.d ∧ ∃ k ∈ ts, mayHold id (tileOf s k) := by
  simp only [fenceStands, Bool.and_eq_true, List.any_eq_true, Bool.or_eq_true, beq_iff_eq, bne_iff_ne, Bool.not_eq_true',
    decide_eq_true_eq, mayHold, and_assoc, or_comm, and_comm]

theorem rinseTargets_eq (id : Nat) (ts : List Nat) (s : State) : rinseTargets id ts s =
    onTxn (fun q => { q with tstate := if fenceStands id ts (rinseStubs id ts s) then 6 else 0 }) (rinseStubs id ts s) := rfl

/-! The end of a host transaction that is rinsed (06 R201) -/

/-- A host transaction is active, and nothing waits behind it; its PRESS has not been launched. -/
structure HostActive (s : State) (x : Txn) : Prop where
  active : s.txn.active = some x
  alone : s.txn.waiting = []
  ofHost : x.centre = false
  plain : x.purpose = 0
  unpressed : s.txn.pressed = false

/-- A response changes the port or the mailbox alone. -/
theorem send_frame (r : Response) (s : State) : { send r s with port := s.port, tap := s.tap } = s := by
  unfold send
  split <;> rfl

/-- An outstanding request is answered under the tag that waits. -/
theorem respond_some {h o : ReqHdr} {s : State} (ho : outTag s h = some o) (st : Status) (body : List Byte) :
    respond h st body s = send { mkResponse h st body with tag := o.tag } (onSess (fun q => { q with
      cache := cacheFill h (mkResponse h st body) q.cache, outstanding := q.outstanding.erase o }) s) := by
  unfold respond
  simp only [ho]
  rfl

/-- An answer changes the port, the sessions and the mailbox alone. -/
theorem respondOpt_frame (h : Option ReqHdr) (st : Status) (body : List Byte) (s : State) :
    { respondOpt h st body s with port := s.port, sess := s.sess, tap := s.tap } = s := by
  cases h with
  | none => rfl
  | some h =>
    cases ho : outTag s h with
    | none =>
      unfold respondOpt respond
      simp only [ho]
      rfl
    | some o =>
      exact (congrArg (fun v : State => { v with port := s.port, sess := s.sess, tap := s.tap }) (respond_some ho st body)).trans
        (congrArg (fun v : State => { v with sess := s.sess }) (send_frame _ (onSess _ s)))

/-- So does the end of a transaction that is answered and marked. -/
theorem event_respondOpt_frame (n : Nat) (h : Option ReqHdr) (st : Status) (body : List Byte) (s : State) :
    { event n (respondOpt h st body s) with port := s.port, sess := s.sess, tap := s.tap } = s := by
  rw [event_frame]
  exact respondOpt_frame h st body s

theorem nextCentre_alone {s : State} (h : s.txn.waiting = []) : nextCentre s = s := by
  unfold nextCentre
  rw [h]
  cases s.txn.active <;> rfl

/-- The registers once a transaction that is rinsed for a cause has left the stage. -/
def rinsedTxn (cause : Nat) (fence : Bool) (q : TxnState) : TxnState :=
  { q with cause := cause, active := none, host := none, tstate := if fence then 6 else 0 }

/-- The state once the targets of `x` are rinsed and the stage is free; only the answer is left. -/
def rinsedState (cause : Nat) (x : Txn) (s : State) : State :=
  let ts := txnTargets s x
  let u := rinseStubs x.id ts (onTxn (fun q => { q with cause := cause, tstate := 5 }) (unqueue (fun a => a.kind == 3 && a.origin == 5) s))
  { u with txn := rinsedTxn cause (fenceStands x.id ts u) s.txn }

/-- The end of a host transaction: the stage and the transaction are free, and a fence that stands stays. -/
theorem closeTxn_host {s : State} {x : Txn} (hact : s.txn.active = some x) (hc : x.centre = false) (st : Status) (body : List Byte) :
    closeTxn st body s = event 4 (respondOpt x.reply st body
      (onTxn (fun q => { q with active := none, host := none, tstate := if q.tstate = 6 then 6 else 0 }) s)) := by
  unfold closeTxn
  rw [hact]
  dsimp only
  rw [hc]
  rfl

theorem rinsedState_txn (cause : Nat) (x : Txn) (s : State) :
    let u := rinseStubs x.id (txnTargets s x)
      (onTxn (fun q => { q with cause := cause, tstate := 5 }) (unqueue (fun a => a.kind == 3 && a.origin == 5) s))
    u.txn = { s.txn with cause := cause, tstate := 5 } :=
  (congrArg State.txn (rinseStubs_rest x.id (txnTargets s x) _) :)

theorem rinseTxn_eq {s : State} {x : Txn} (h : HostActive s x) (cause : Nat) : rinseTxn cause s =
    event 4 (respondOpt x.reply (causeStatus s cause) (causeBody s cause) (rinsedState cause x s)) := by
  obtain ⟨hact, halone, hhost, hplain, hpress⟩ := h
  have hu := rinsedState_txn cause x s
  unfold rinsedState
  dsimp only at hu ⊢
  unfold rinseTxn rinseWith
  rw [hact]
  dsimp only
  rw [hpress, if_neg Bool.false_ne_true, hplain, rinseTargets_eq]
  generalize rinseStubs x.id (txnTargets s x)
    (onTxn (fun q => { q with cause := cause, tstate := 5 }) (unqueue (fun a => a.kind == 3 && a.origin == 5) s)) = u at hu ⊢
  generalize fenceStands x.id (txnTargets s x) u = fence
  have hclose : ∀ v : State, closeRinsed cause x v = closeTxn (causeStatus v cause) (causeBody v cause) v := fun v => by
    unfold closeRinsed
    rw [hplain]
    rfl
  rw [if_pos rfl, hclose, closeTxn_host (x := x) rfl hhost]
  have hfence : (if (if fence then 6 else 0) = 6 then 6 else 0) = if fence then 6 else 0 := by cases fence <;> rfl
  have hreg : (onTxn (fun q => { q with active := none, host := none, tstate := if q.tstate = 6 then 6 else 0 })
      (onTxn (fun q => { q with active := some x }) (onTxn (fun q => { q with tstate := if fence then 6 else 0 }) u))) =
      { u with txn := rinsedTxn cause fence s.txn } := by
    unfold onTxn rinsedTxn
    dsimp only
    rw [hu, hfence]
  have hstatus : ∀ v : State, v.txn.firstReason = s.txn.firstReason → v.txn.firstNak = s.txn.firstNak →
      causeStatus v cause = causeStatus s cause ∧ causeBody v cause = causeBody s cause := fun v h1 h2 => by
    unfold causeStatus causeBody
    rw [h1, h2]
    exact ⟨rfl, rfl⟩
  obtain ⟨hst, hbody⟩ := hstatus
    (onTxn (fun q => { q with active := some x }) (onTxn (fun q => { q with tstate := if fence then 6 else 0 }) u))
    (congrArg TxnState.firstReason hu :) (congrArg TxnState.firstNak hu :)
  have hdrop : ∀ v : State, dropPurpose 0 v = v := fun _ => rfl
  rw [hdrop, hst, hbody, hreg]
  refine nextCentre_alone ?_
  have hw := event_respondOpt_frame 4 x.reply (causeStatus s cause) (causeBody s cause) { u with txn := rinsedTxn cause fence s.txn }
  exact (congrArg (fun v : State => v.txn.waiting) hw :).trans halone

/-- What a rinse for a cause leaves of a host transaction (06 R201, R203). -/
def Rinsed (s : State) (x : Txn) (cause : Nat) (t : State) : Prop :=
  t.txn.cause = cause ∧ t.txn.active = none ∧ t.txn.host = none ∧
  t.txn.tstate = (if now s < s.txn.d ∧ ∃ k ∈ txnTargets s x, mayHold x.id (tileOf t k) then 6 else 0) ∧
  (∀ h, x.reply = some h → Replied s t h (causeStatus s cause) (causeBody s cause)) ∧
  (∀ k ∈ txnTargets s x, k < numTiles → (tileOf s k).power.answers = true → (tileOf t k).txn.id = x.id →
    (tileOf t k).txn.tstate ≠ 1 ∧ (tileOf t k).txn.tstate ≠ 2) ∧
  (∀ k, k ∉ txnTargets s x → tileOf t k = tileOf s k) ∧ t.root.queue.any (fun a => a.kind == 3 && a.origin == 5) = false ∧
  { t with txn := s.txn, tiles := s.tiles, root := s.root, port := s.port, sess := s.sess, tap := s.tap } = s

/-- The removed PRESS is no longer queued. -/
theorem unqueue_any (p : StillAction → Bool) (s : State) : (unqueue p s).root.queue.any p = false := by
  simp only [unqueue, onRoot, List.any_eq_false, List.mem_filter, Bool.not_eq_true', Bool.not_eq_true]
  exact fun _ h => h.2

section
variable (s : State) (x : Txn) (cause : Nat)

theorem rinsedState_queue : (rinsedState cause x s).root.queue.any (fun a => a.kind == 3 && a.origin == 5) = false :=
  (congrArg (fun v : State => v.root.queue.any (fun a => a.kind == 3 && a.origin == 5))
    (rinseStubs_rest x.id (txnTargets s x) _)).trans (unqueue_any _ s)

theorem rinsedState_rest : { rinsedState cause x s with txn := s.txn, tiles := s.tiles, root := s.root } = s :=
  (congrArg (fun v : State => { v with txn := s.txn, root := s.root }) (rinseStubs_rest x.id (txnTargets s x) _) :)

theorem rinsedState_other {k : Nat} (hk : k ∉ txnTargets s x) : tileOf (rinsedState cause x s) k = tileOf s k :=
  rinseStubs_other x.id (txnTargets s x) _ hk

theorem rinsedState_clean {k : Nat} (hk : k ∈ txnTargets s x) (h : k < numTiles) (ha : (tileOf s k).power.answers = true)
    (hid : (tileOf (rinsedState cause x s) k).txn.id = x.id) : holdsStaged (tileOf (rinsedState cause x s) k) = false := by
  obtain ⟨hclean, hpower⟩ := rinseStubs_clean x.id (txnTargets s x)
    (onTxn (fun q => { q with cause := cause, tstate := 5 }) (unqueue (fun a => a.kind == 3 && a.origin == 5) s)) h (.inl hk)
  exact hclean (by rw [hpower]; exact ha) hid

theorem rinsedState_fence : (rinsedState cause x s).txn.tstate =
    if now s < s.txn.d ∧ ∃ k ∈ txnTargets s x, mayHold x.id (tileOf (rinsedState cause x s) k) then 6 else 0 := by
  have hu := rinseStubs_rest x.id (txnTargets s x)
    (onTxn (fun q => { q with cause := cause, tstate := 5 }) (unqueue (fun a => a.kind == 3 && a.origin == 5) s))
  unfold rinsedState rinsedTxn
  dsimp only
  refine if_congr ((fenceStands_iff _ _ _).trans (and_congr_left' ?_)) rfl rfl
  have ht := congrArg (fun v : State => now v) hu
  have hd := congrArg (fun v : State => v.txn.d) hu
  exact (iff_of_eq (congrArg₂ (· < ·) ht hd) :)

end

theorem rinseTxn_rinsed {s : State} {x : Txn} (h : HostActive s x) (cause : Nat) : Rinsed s x cause (rinseTxn cause s) := by
  rw [rinseTxn_eq h]
  have hrest := rinsedState_rest s x cause
  have hframe := event_respondOpt_frame 4 x.reply (causeStatus s cause) (causeBody s cause) (rinsedState cause x s)
  generalize ht : event 4 (respondOpt x.reply (causeStatus s cause) (causeBody s cause) (rinsedState cause x s)) = t at hframe ⊢
  have htxn : t.txn = (rinsedState cause x s).txn := (congrArg State.txn hframe :)
  have htile : ∀ k, tileOf t k = tileOf (rinsedState cause x s) k := tileOf_of_tiles (congrArg State.tiles hframe :)
  unfold Rinsed
  simp only [htile, htxn]
  refine ⟨rfl, rfl, rfl, rinsedState_fence s x cause, fun h hreply => ?_, fun k hk hlt ha hid => ?_,
    fun k => rinsedState_other s x cause, ?_, ?_⟩
  · rw [hreply] at ht
    rw [← ht]
    exact .of_same (congrArg sent hrest :) (congrArg State.sess hrest :) (respond_replied h _ _ (rinsedState cause x s))
  · have hn := rinsedState_clean s x cause hk hlt ha hid
    rw [← Bool.not_eq_true, holdsStaged_iff, not_or] at hn
    exact hn
  · exact (congrArg (fun v : State => v.root.queue.any (fun a => a.kind == 3 && a.origin == 5)) hframe).trans
      (rinsedState_queue s x cause)
  · exact (congrArg (fun v : State => { v with
      txn := s.txn, tiles := s.tiles, root := s.root, port := s.port, sess := s.sess, tap := s.tap }) hframe).trans
      (congrArg (fun v : State => { v with port := s.port, sess := s.sess, tap := s.tap }) hrest)

/-! The check and the press (06 R197, R198, R202) -/

section
variable {s : State} {x : Txn} (hact : s.txn.active = some x) (hts : s.txn.tstate = 2)
include hact hts

theorem txnCheck_nak (hn : s.txn.nakCount ≠ 0) (hr : s.txn.firstReason ≠ 3 ∨ x.restaged = true ∨ x.entries.any entryPhys = true) :
    exec .txnCheck s = .next (rinseTxn 1 s) := by
  have hfinal : ¬ (s.txn.firstReason = 3 && !x.restaged && !x.entries.any entryPhys) = true := by
    rcases hr with h | h | h <;> simp [h]
  simp [exec, execTxnCheck, hact, hts, hn, hfinal]

theorem txnCheck_few (hn : s.txn.nakCount = 0) (ho : s.txn.okCount ≠ s.txn.targets) : exec .txnCheck s = .next (rinseTxn 2 s) := by
  simp [exec, execTxnCheck, hact, hts, hn, ho]

theorem txnCheck_digest (hn : s.txn.nakCount = 0) (ho : s.txn.okCount = s.txn.targets) (hd : s.txn.digestXor ≠ expectXor s x) :
    exec .txnCheck s = .next (rinseTxn 3 s) := by
  simp [exec, execTxnCheck, hact, hts, hn, ho, hd]

theorem txnCheck_place (hn : s.txn.nakCount = 0) (ho : s.txn.okCount = s.txn.targets) (hd : s.txn.digestXor = expectXor s x) :
    exec .txnCheck s = .next (placePress (onTxn (fun q => { q with tstate := 3 }) s)) := by
  simp [exec, execTxnCheck, hact, hts, hn, ho, hd]

end

/-- A checked transaction with TICK 0 takes the first clear tick that is L_still ahead. -/
theorem placePress_earliest {s : State} {x : Txn} (hact : s.txn.active = some x) (hts : s.txn.tstate = 3) (htick : x.tick = 0)
    (hroom : s.root.queue.length < 64) (hno : s.root.queue.any (fun a => a.kind == 3) = false)
    (hd : firstTick s (now s + s.time.lstill) + 1000 ≤ s.txn.d) :
    placePress s = enqueue 3 0 (firstTick s (now s + s.time.lstill)) 5 x.id s := by
  unfold placePress
  simp [hact, hts, htick, hno, hroom, Nat.not_lt.2 hd]

/-- FENCE_END, where nothing waits to be staged. -/
theorem fenceEnd_eq {s : State} (hts : s.txn.tstate = 6) (hw : s.txn.waiting = []) (hp : s.txn.pressed = false) :
    let e := elapse s.txn.d s
    exec .fenceEnd s = .next { e with txn := { e.txn with tstate := if s.txn.host.isSome then 1 else 0 } } := by
  intro e
  have he : e.txn = s.txn := (elapse_unpressed s.txn.d hp).1
  have halone : (onTxn (fun q => { q with tstate := b2n q.host.isSome }) e).txn.waiting = [] :=
    (congrArg TxnState.waiting he).trans hw
  have hrun : exec .fenceEnd s = .next (nextCentre (onTxn (fun q => { q with tstate := b2n q.host.isSome }) e)) := by
    simp only [exec, execFenceEnd, hts, beq_self_eq_true, when_true]
    rfl
  rw [hrun, nextCentre_alone halone]
  unfold onTxn b2n
  rw [he]

/-- PRESS_PLACE_TIMEOUT, where no PRESS is queued, rinses at D less 1 us. -/
theorem pressPlaceTimeout_eq {s : State} (hts : s.txn.tstate = 3) (hno : s.root.queue.any (fun a => a.kind == 3) = false) :
    exec .pressPlaceTimeout s = .next (rinseTxn 4 (elapse (s.txn.d - 1000) s)) := by
  simp only [exec, execPressPlaceTimeout, hts, hno, beq_self_eq_true, Bool.not_false, Bool.and_self, when_true]

theorem HostActive.elapse {s : State} {x : Txn} (h : HostActive s x) (n : Nat) : HostActive (elapse n s) x := by
  obtain ⟨hact, halone, hhost, hplain, hpress⟩ := h
  have he := (elapse_unpressed n hpress).1
  exact ⟨he ▸ hact, he ▸ halone, hhost, hplain, he ▸ hpress⟩

/-- Settles O24: every cause ends in one rinse, which empties the targets' stubs, fences the rest and frees the stage. -/
theorem checksPressOrRinse : Obligations.ChecksPressOrRinse := by
  unfold Obligations.ChecksPressOrRinse
  refine ⟨fun s => ⟨?_, ?_, ?_⟩, ?_, ?_, ?_⟩
  · rintro (h | h)
    · simp only [exec, execTxnCheck, h]
    · simp only [exec, execTxnCheck, bne_iff_ne.2 h, if_true]
      cases s.txn.active <;> rfl
  · intro h
    simp [exec, execPressPlaceTimeout, h, when]
  · intro h
    simp [exec, execFenceEnd, h, when]
  · intro s x hact hts hw hhost hplain hpress rinsed n
    have hx : HostActive s x := ⟨hact, hw, hhost, hplain, hpress⟩
    refine ⟨fun hn hr => ⟨_, txnCheck_nak hact hts hn hr, rinseTxn_rinsed hx 1⟩,
      fun hn ho => ⟨_, txnCheck_few hact hts hn ho, rinseTxn_rinsed hx 2⟩,
      fun hn ho hd => ⟨_, txnCheck_digest hact hts hn ho hd, rinseTxn_rinsed hx 3⟩,
      fun hn ho hd htick hroom hno hlate => ?_⟩
    rw [txnCheck_place hact hts hn ho hd]
    exact congrArg Host.Outcome.next
      (placePress_earliest (s := onTxn (fun q => { q with tstate := 3 }) s) hact rfl htick hroom hno hlate)
  · intro s x hact hts hw hhost hplain hpress hno
    have hx : HostActive s x := ⟨hact, hw, hhost, hplain, hpress⟩
    obtain ⟨hcause, hactive, hhosts, -, -, -, -, -, hrest⟩ := rinseTxn_rinsed (hx.elapse (s.txn.d - 1000)) 4
    exact ⟨_, pressPlaceTimeout_eq hts hno, hcause, hactive, hhosts, (congrArg State.time hrest :)⟩
  · intro s hts hw hp
    exact ⟨_, fenceEnd_eq hts hw hp, rfl⟩

end Sys2Proof.Machine
end

section
/-! PRESS_ACT, PRESS_APPLY_DONE, PRESS_CONFIRM and PRESS_RECOUNT: a stub applies its set at its tick, and the centre counts the
targets (06 R185, R199 to R201, R205). -/

namespace Sys2Proof.Machine

/-! A stub applies its set (06 R185, R199) -/

/-- The stub's registers once its set is applied, or lost. -/
def stubEnded (ts : Nat) (q : StubTxn) : StubTxn := { q with tstate := ts, words := 0, staged := [], written := [], hold := false }

/-- The tile once its plans are compared with the stub's (15 R476). -/
def reloadChecked (x : Tile) : Tile := { x with plan := { x.plan with
  reload := x.plan.reload || (takesPlan x && !coreDark x &&
    (bankDigest (bankList (activeBank x.core)) != x.plan.digest || x.core.count.planId != x.plan.cntId)) } }

/-- The tile at the end of a press. -/
def pressEnded (ts : Nat) (x : Tile) : Tile := reloadChecked { x with txn := stubEnded ts x.txn }

theorem endPress_retiled {e t : State} {k : Nat} {x : Tile} (ts : Nat) (h : Retiled e t k x) (hk : k < numTiles) :
    Retiled e (endPress k ts t) k (pressEnded ts x) :=
  have hended : Retiled e _ k { x with txn := stubEnded ts x.txn } := recordAt_retiled _ _ _ hk (h.onTile hk (fun w => ⟨w, rfl⟩))
  hended.onTile hk (fun w => ⟨w, rfl⟩)

/-- A press breaks no hold where none stands. -/
theorem pressHolds_none {t : State} {k : Nat} (h : ∀ m, (capOf t k m).holding = false) : pressHolds k t = t := by
  have hstep : ∀ n, finishHold k n false 128 t = t := fun n => if_pos (by rw [h n]; rfl)
  unfold pressHolds breakHolds
  simp only [List.range, List.range.loop, List.foldl_cons, List.foldl_nil, hstep]

/-- The tile's context epoch moves with an item of kind 3 or 4 (06 R185). -/
def bumpContext (i : Item) (x : Tile) : Tile := { x with txn := { x.txn with
  ctxEpoch := if [i].any (fun i => i.kind == 3 || i.kind == 4) then (x.txn.ctxEpoch + 1) % 256 else x.txn.ctxEpoch } }

/-- The rest of a press of one item, once the item itself has acted at edge E. -/
def afterItem (k : Nat) (i : Item) (s : State) : State :=
  let s := onTile k (bumpContext i) s
  if [i].any (fun i => i.kind == 2 || i.kind == 3) then
    onTile k (fun x => { x with txn := { x.txn with tstate := 4 } }) (pressHolds k s)
  else endPress k 5 s

/-- The state at edge E, the captured word taken. -/
def atEdge (k : Nat) (a : StillAction) (s : State) : State := onTile k (dropPending a) (elapse (reachAt s k a.tick) s)

section
variable {s : State} {k : Nat} {a : StillAction} (hk : k < numTiles)

include hk in
theorem atEdge_retiled : Retiled (elapse (reachAt s k a.tick) s) (atEdge k a s) k (dropPending a (tileOf s k)) := by
  have h := onTile_retiled k (dropPending a) (elapse (reachAt s k a.tick) s) hk
  rw [tileOf_elapse] at h
  exact h

include hk in
theorem atEdge_tile : tileOf (atEdge k a s) k = dropPending a (tileOf s k) := by
  unfold atEdge
  rw [tileOf_onTile_self _ _ hk, tileOf_elapse]

variable (ha : takeAction 3 (tileOf s k) = some a) (hm : mayAct (tileOf s k) = true)
include hk ha hm

/-- A stub that is not ARMED only drops the word. -/
theorem pressAct_drops (hts : (tileOf s k).txn.tstate ≠ 3) : exec (.pressAct k) s = .next (atEdge k a s) := by
  have hedge : (tileOf (atEdge k a s) k).txn.tstate ≠ 3 := by rw [atEdge_tile hk]; exact hts
  simp only [exec, execPressAct, ha, hm, Option.filter_some, if_true]
  exact congrArg Host.Outcome.next (if_pos (bne_iff_ne.2 hedge))

/-- An ARMED stub applies its one item, and ends the press. -/
theorem pressAct_item {i : Item} (hts : (tileOf s k).txn.tstate = 3) (hv : (tileOf s k).txn.void = false)
    (hi : heldItems (tileOf s k) = [i]) (hbank : i.kind ≠ 7) :
    exec (.pressAct k) s = .next (afterItem k i (pressItem k (atEdge k a s) i)) := by
  have hx := atEdge_tile (s := s) (a := a) hk
  have hts' : (tileOf (atEdge k a s) k).txn.tstate = 3 := by rw [hx]; exact hts
  have hv' : (tileOf (atEdge k a s) k).txn.void = false := by rw [hx]; exact hv
  have hi' : heldItems (tileOf (atEdge k a s) k) = [i] := by rw [hx]; exact hi
  have hedge : onTile k (dropPending a) (elapse (reachAt s k a.tick) s) = atEdge k a s := rfl
  have hno : ([i].any (fun i => i.kind == 7) && !coreDark (tileOf (atEdge k a s) k)) = false := by simp [hbank]
  simp only [exec, execPressAct, ha, hm, Option.filter_some, if_true, hedge, hts', hv', hi', hno, bne_self_eq_false, List.foldl_cons,
    List.foldl_nil, if_neg Bool.false_ne_true]
  rfl

end

/-! What the item's own effect leaves to the rest of the press -/

section
variable {e t : State} {k : Nat} {x : Tile} {i : Item} (h : Retiled e t k x) (hk : k < numTiles)
include h hk

/-- An item of a stub register or of the context ends the press at edge E. -/
theorem afterItem_ends (h2 : i.kind ≠ 2) (h3 : i.kind ≠ 3) : Retiled e (afterItem k i t) k (pressEnded 5 (bumpContext i x)) := by
  have hcopy : ¬ [i].any (fun i => i.kind == 2 || i.kind == 3) = true := by simp [h2, h3]
  rw [show afterItem k i t = endPress k 5 (onTile k (bumpContext i) t) from if_neg hcopy]
  exact endPress_retiled 5 (h.onTile hk (fun w => ⟨w, rfl⟩)) hk

/-- An item of the core's memories leaves the stub APPLYING. -/
theorem afterItem_applying (hkind : i.kind = 2 ∨ i.kind = 3) (hcap : ∀ m, (mget {} x.core.dip.caps m).holding = false) :
    Retiled e (afterItem k i t) k { bumpContext i x with txn := { (bumpContext i x).txn with tstate := 4 } } := by
  have hcopy : [i].any (fun i => i.kind == 2 || i.kind == 3) = true := by simpa using hkind
  have hbump : Retiled e (onTile k (bumpContext i) t) k (bumpContext i x) := h.onTile hk (fun w => ⟨w, rfl⟩)
  have hholds : pressHolds k (onTile k (bumpContext i) t) = onTile k (bumpContext i) t := by
    obtain ⟨-, w, hw⟩ := hbump
    refine pressHolds_none (fun m => ?_)
    rw [capOf, hw]
    exact hcap m
  rw [show afterItem k i t = onTile k (fun x => { x with txn := { x.txn with tstate := 4 } })
    (pressHolds k (onTile k (bumpContext i) t)) from if_pos hcopy, hholds]
  exact hbump.onTile hk (fun w => ⟨w, rfl⟩)

end

/-! The effect of each kind of item at edge E (06 R185) -/

/-- The tile with the map epoch, the role or the context that an item gives it. -/
def epochGiven (i : Item) (x : Tile) : Tile :=
  { x with txn := { x.txn with mapEpoch := (i.data.headD 0).toNat % 65536 } }

def identGiven (i : Item) (x : Tile) : Tile := { x with
  txn := { x.txn with ltnValid := (i.data.headD 0).getLsbD 63, ltn := bits 50 32 (i.data.headD 0).toNat }
  still := { x.still with region := BitVec.ofNat 16 ((i.data.headD 0).toNat % 65536 / 2 * 2) } }

def contextGiven (i : Item) (x : Tile) : Tile :=
  { x with engine := { x.engine with ctxSel := (i.data.headD 0).toNat % 4 } }

theorem bit_toNat (w : Word) (n : Nat) : bit n w.toNat = w.getLsbD n := by
  rw [BitVec.getLsbD, Nat.testBit_eq_decide_div_mod_eq]
  rfl

theorem pressItem_epoch {i : Item} (hi : i.kind = 6) (k : Nat) (s : State) : pressItem k s i = onTile k (epochGiven i) s := by
  simp only [pressItem, hi]
  rfl

theorem pressItem_context {i : Item} (hi : i.kind = 4) (k : Nat) (s : State) : pressItem k s i = onTile k (contextGiven i) s := by
  simp only [pressItem, hi]
  rfl

theorem pressItem_ident {i : Item} (hi : i.kind = 5) (k : Nat) (s : State) :
    pressItem k s i = onTile k (identGiven i) (keepLoaded k s) := by
  simp only [pressItem, hi, pressIdent, bit_toNat]
  rfl

theorem pressItem_copied {i : Item} (hi : i.kind = 2 ∨ i.kind = 3) (k : Nat) (s : State) : pressItem k s i = s := by
  rcases hi with hi | hi <;> simp only [pressItem, hi]

theorem bumpContext_still {i : Item} (h3 : i.kind ≠ 3) (h4 : i.kind ≠ 4) (x : Tile) : bumpContext i x = x := by
  unfold bumpContext
  rw [if_neg (by simp [h3, h4])]

theorem bumpContext_moves {i : Item} (h : i.kind = 4) (x : Tile) :
    bumpContext i x = { x with txn := { x.txn with ctxEpoch := (x.txn.ctxEpoch + 1) % 256 } } := by
  unfold bumpContext
  rw [if_pos (by simp [h])]

/-- A re-identification changes, beside the tile, only what the plans in force keep of it. -/
theorem keepLoaded_retiled {e t : State} {k : Nat} {x : Tile} (h : Retiled e t k x) :
    Retiled { e with plans := (keepLoaded k t).plans } (keepLoaded k t) k x ∧
      { (keepLoaded k t).plans with moved := e.plans.moved } = e.plans := by
  obtain ⟨⟨hrest, hother⟩, w, hw⟩ := h
  refine ⟨⟨⟨?_, hother⟩, w, hw⟩, ?_⟩
  · exact (congrArg (fun v : State => { v with plans := (keepLoaded k t).plans }) hrest :)
  · exact (congrArg (fun v : State => { v.plans with moved := e.plans.moved }) hrest :)

/-! A press of one item at the tile's tick -/

section
variable {s : State} {k : Nat} {a : StillAction} (hk : k < numTiles)
variable (ha : takeAction 3 (tileOf s k) = some a) (hm : mayAct (tileOf s k) = true) {i : Item} (hts : (tileOf s k).txn.tstate = 3)
variable (hv : (tileOf s k).txn.void = false) (hi : heldItems (tileOf s k) = [i])
include hk ha hm hts hv hi

theorem pressAct_epoch (hkind : i.kind = 6) : ∃ t, exec (.pressAct k) s = .next t ∧
    Retiled (elapse (reachAt s k a.tick) s) t k (pressEnded 5 (epochGiven i (dropPending a (tileOf s k)))) := by
  refine ⟨_, pressAct_item hk ha hm hts hv hi (by omega), ?_⟩
  rw [pressItem_epoch hkind, ← bumpContext_still (i := i) (by omega) (by omega) (epochGiven i _)]
  exact afterItem_ends ((atEdge_retiled hk).onTile hk (fun w => ⟨w, rfl⟩)) hk (by omega) (by omega)

theorem pressAct_ident (hkind : i.kind = 5) : ∃ t, exec (.pressAct k) s = .next t ∧
    Retiled { elapse (reachAt s k a.tick) s with plans := (keepLoaded k (atEdge k a s)).plans } t k
      (pressEnded 5 (identGiven i (dropPending a (tileOf s k)))) := by
  refine ⟨_, pressAct_item hk ha hm hts hv hi (by omega), ?_⟩
  rw [pressItem_ident hkind, ← bumpContext_still (i := i) (by omega) (by omega) (identGiven i _)]
  exact afterItem_ends ((keepLoaded_retiled (atEdge_retiled hk)).1.onTile hk (fun w => ⟨w, rfl⟩)) hk (by omega) (by omega)

theorem pressAct_context (hkind : i.kind = 4) : ∃ t, exec (.pressAct k) s = .next t ∧
    Retiled (elapse (reachAt s k a.tick) s) t k (pressEnded 5 (bumpContext i (contextGiven i (dropPending a (tileOf s k))))) := by
  refine ⟨_, pressAct_item hk ha hm hts hv hi (by omega), ?_⟩
  rw [pressItem_context hkind]
  exact afterItem_ends ((atEdge_retiled hk).onTile hk (fun w => ⟨w, rfl⟩)) hk (by omega) (by omega)

theorem pressAct_copied (hkind : i.kind = 2 ∨ i.kind = 3) (hcap : ∀ m, (capOf s k m).holding = false) :
    ∃ t, exec (.pressAct k) s = .next t ∧ Retiled (elapse (reachAt s k a.tick) s) t k
      { bumpContext i (dropPending a (tileOf s k)) with
        txn := { (bumpContext i (dropPending a (tileOf s k))).txn with tstate := 4 } } := by
  refine ⟨_, pressAct_item hk ha hm hts hv hi (by omega), ?_⟩
  rw [pressItem_copied hkind]
  exact afterItem_applying (atEdge_retiled (a := a) hk) hk hkind hcap

end

/-! The end of an apply (06 R199, R205) -/

/-- A store changes the bytes from its address on, as many as it stores. -/
theorem mget_storeBytes (d : Byte) (bs : List Byte) (m : List Host.Cell) (a j : Nat) :
    mget d (storeBytes d m a bs) j = if a ≤ j ∧ j < a + bs.length then bs.getD (j - a) 0 else mget d m j := by
  induction bs generalizing m a with
  | nil => simp [storeBytes]
  | cons b bs ih =>
    rw [storeBytes, ih, mget_mput, List.length_cons]
    by_cases hj : j = a
    · subst hj
      rw [if_neg (by omega), if_pos rfl, if_pos (by omega), Nat.sub_self]
      rfl
    · by_cases hin : a + 1 ≤ j ∧ j < a + 1 + bs.length
      · rw [if_pos hin, if_pos (by omega), show j - a = (j - (a + 1)) + 1 by omega]
        rfl
      · rw [if_neg hin, if_neg hj, if_neg (by omega)]

theorem length_wordBytes (ws : List Word) : (wordBytes ws).length = 8 * ws.length := by
  have hword : ∀ w : Word, (le 8 w.toNat).length = 8 := fun w => by simp [le]
  rw [wordBytes, List.length_flatMap]
  simp only [hword, List.map_const', List.sum_replicate, smul_eq_mul]
  omega

section
variable {s : State} {k : Nat} (hts : (tileOf s k).txn.tstate = 4)
include hts

theorem pressApplyDone_void (hv : (tileOf s k).txn.void = true) : exec (.pressApplyDone k) s = .next (endPress k 6 s) := by
  simp only [exec, execPressApplyDone, hts, hv, beq_self_eq_true, when_true, if_true]

theorem pressApplyDone_item {i : Item} (hv : (tileOf s k).txn.void = false) (hi : heldItems (tileOf s k) = [i]) :
    exec (.pressApplyDone k) s = .next (endPress k 5 (copyItem k s i)) := by
  simp only [exec, execPressApplyDone, hts, hv, hi, beq_self_eq_true, when_true, if_neg Bool.false_ne_true, List.foldl_cons,
    List.foldl_nil]

variable (hk : k < numTiles) {i : Item} (hv : (tileOf s k).txn.void = false) (hi : heldItems (tileOf s k) = [i])
include hk hv hi

theorem pressApplyDone_sram (hkind : i.kind = 2) : ∃ t, exec (.pressApplyDone k) s = .next t ∧
    Retiled s t k (pressEnded 5 { tileOf s k with engine := { (tileOf s k).engine with
      sram := storeBytes 0 (tileOf s k).engine.sram i.addr (wordBytes i.data) } }) := by
  refine ⟨_, pressApplyDone_item hts hv hi, ?_⟩
  simp only [copyItem, hkind]
  exact endPress_retiled 5 (onTile_retiled k _ s hk) hk

theorem pressApplyDone_route (hkind : i.kind = 3) : ∃ t, exec (.pressApplyDone k) s = .next t ∧
    Retiled s t k (pressEnded 5 { tileOf s k with engine := { (tileOf s k).engine with
      route := (List.range i.data.length).foldl (fun m j => mput 0 m (i.addr + j) (i.data.getD j 0)) (tileOf s k).engine.route } }) := by
  refine ⟨_, pressApplyDone_item hts hv hi, ?_⟩
  simp only [copyItem, hkind]
  exact endPress_retiled 5 (onTile_retiled k _ s hk) hk

end

/-! The centre counts the targets (06 R200, R201) -/

/-- A request that alone holds its tag of its session is the one that a response answers. -/
theorem outTag_own {s : State} {h : ReqHdr} (hmem : h ∈ s.sess.outstanding)
    (hone : ∀ o ∈ s.sess.outstanding, o.session = h.session → o.tag = h.tag → o = h) : outTag s h = some h := by
  unfold outTag
  cases hf : s.sess.outstanding.find? (fun o => o.session == h.session && o.reqId == h.reqId && o.tag == h.tag) with
  | none => simpa using List.find?_eq_none.1 hf h hmem
  | some o =>
    have hfound := List.find?_some hf
    simp only [Bool.and_eq_true, beq_iff_eq] at hfound
    obtain ⟨⟨hsession, -⟩, htag⟩ := hfound
    exact congrArg some (hone o (List.mem_of_find?_eq_some hf) hsession htag)

/-- The answer to such a request on the port: its fragments follow, its tag is free, and the port and the sessions alone change. -/
theorem respond_own {s : State} {h : ReqHdr} (ho : outTag s h = some h) (hport : h.session ≠ 65535) (st : Status) (body : List Byte) :
    let t := respond h st body s
    sent t = sent s ++ fragmentsOf (mkResponse h st body) ∧ t.sess.outstanding = s.sess.outstanding.erase h ∧
      { t with port := s.port, sess := s.sess } = s := by
  intro t
  have ht : t = portSend (mkResponse h st body) (onSess (fun q => { q with
      cache := cacheFill h (mkResponse h st body) q.cache, outstanding := q.outstanding.erase h }) s) :=
    (respond_some ho st body).trans (send_port _ _ hport)
  have hsent := (portSend_spec (mkResponse h st body) (onSess (fun q => { q with
      cache := cacheFill h (mkResponse h st body) q.cache, outstanding := q.outstanding.erase h }) s)).1
  rw [← ht] at hsent
  exact ⟨hsent, (congrArg (fun v : State => v.sess.outstanding) ht :),
    (congrArg (fun v : State => { v with port := s.port, sess := s.sess }) ht :)⟩

/-- A host transaction is pressed, the centre has done its part, and nothing waits behind it. -/
structure HostPressed (s : State) (x : Txn) : Prop where
  active : s.txn.active = some x
  pressed : s.txn.pressed = true
  done : s.txn.centreDone = true
  ofHost : x.centre = false
  plain : x.purpose = 0
  alone : s.txn.waiting = []
  state : s.txn.tstate = 4

/-- The status and the body of TXN_COMMIT's answer. -/
def pressStatus (s : State) (x : Txn) : Status := if notApplied s x = [] then .ok else .lost

def pressAnswer (s : State) (x : Txn) : List Byte :=
  if notApplied s x = [] then padTo 8 (le 2 x.id) ++ le 8 s.txn.t ++ le 4 (txnTargets s x).length
  else detail { place := ((notApplied s x).head?.map coord).getD 4294967295 }

/-- The transaction registers once a press has ended. -/
def pressedTxn (lost : List Nat) (q : TxnState) : TxnState := { q with
  lost := lost.take 256
  lostSeen := q.lostSeen || !lost.isEmpty
  pressed := false
  recount := false
  active := none
  host := none
  tstate := 0 }

/-- The state once a press has ended; only the answer is left. -/
def pressedState (x : Txn) (s : State) : State :=
  let u := if (notApplied s x).isEmpty then s else setW1c 0x700 (2 ^ 9) s
  { u with txn := pressedTxn (notApplied s x) s.txn }

theorem pressedState_rest (x : Txn) (s : State) : { pressedState x s with txn := s.txn, port := s.port } = s ∧
    sent (pressedState x s) = sent s ∧ (pressedState x s).sess = s.sess := by
  unfold pressedState
  split <;> exact ⟨rfl, rfl, rfl⟩

theorem finishPress_eq {s : State} {x : Txn} (h : HostPressed s x) : finishPress x s =
    event 4 (respondOpt x.reply (pressStatus s x) (pressAnswer s x) (pressedState x s)) := by
  obtain ⟨hact, hpressed, hdone, hhost, hplain, halone, hstate⟩ := h
  unfold finishPress pressStatus pressAnswer pressedState
  dsimp only
  have hu : (if (notApplied s x).isEmpty then s else setW1c 0x700 (2 ^ 9) s).txn = s.txn := by split <;> rfl
  generalize (if (notApplied s x).isEmpty then s else setW1c 0x700 (2 ^ 9) s) = u at hu ⊢
  generalize notApplied s x = lost
  have hcounted : (onTxn (fun q => { q with
      lost := lost.take 256, lostSeen := q.lostSeen || !lost.isEmpty, pressed := false, recount := false }) u).txn.active = some x :=
    (congrArg TxnState.active hu).trans hact
  rw [closeTxn_host hcounted hhost, hplain]
  have hreg : onTxn (fun q => { q with active := none, host := none, tstate := if q.tstate = 6 then 6 else 0 }) (onTxn (fun q => { q with
      lost := lost.take 256, lostSeen := q.lostSeen || !lost.isEmpty, pressed := false, recount := false }) u) =
      { u with txn := pressedTxn lost s.txn } := by
    unfold onTxn pressedTxn
    dsimp only
    rw [hu, hstate]
    rfl
  have hbody : (if lost = [] then pressBody (onTxn (fun q => { q with
        lost := lost.take 256, lostSeen := q.lostSeen || !lost.isEmpty, pressed := false, recount := false }) u) x
        ((txnTargets s x).length - lost.length) else detail { place := (lost.head?.map coord).getD 4294967295 }) =
      (if lost = [] then padTo 8 (le 2 x.id) ++ le 8 s.txn.t ++ le 4 (txnTargets s x).length
        else detail { place := (lost.head?.map coord).getD 4294967295 }) := by
    by_cases hl : lost = []
    · rw [if_pos hl, if_pos hl, hl, pressBody, hhost, onTxn_txn, hu]
      rfl
    · rw [if_neg hl, if_neg hl]
  rw [hreg, hbody]
  refine nextCentre_alone ?_
  exact (congrArg (fun v : State => v.txn.waiting) (event_respondOpt_frame 4 x.reply _ _ { u with txn := pressedTxn lost s.txn })).trans
    halone

/-- What the end of a press leaves (06 R200, R201, R210). -/
theorem finishPress_ended {s : State} {x : Txn} {h : ReqHdr} (hp : HostPressed s x) (hreply : x.reply = some h)
    (hport : h.session ≠ 65535) (hown : outTag s h = some h) :
    let t := finishPress x s
    t.txn = pressedTxn (notApplied s x) s.txn ∧ t.port.events.getLsbD 4 = true ∧
      sent t = sent s ++ fragmentsOf (mkResponse h (pressStatus s x) (pressAnswer s x)) ∧
      t.sess.outstanding = s.sess.outstanding.erase h ∧ { t with txn := s.txn, port := s.port, sess := s.sess } = s := by
  obtain ⟨hrest, hsent, hsess⟩ := pressedState_rest x s
  have hown' : outTag (pressedState x s) h = some h := by
    unfold outTag at hown ⊢
    rw [hsess]
    exact hown
  obtain ⟨hs, ho, hframe⟩ := respond_own hown' hport (pressStatus s x) (pressAnswer s x)
  intro t
  have ht : t = event 4 (respond h (pressStatus s x) (pressAnswer s x) (pressedState x s)) := by
    have heq := finishPress_eq hp
    rw [hreply] at heq
    exact heq
  generalize respond h (pressStatus s x) (pressAnswer s x) (pressedState x s) = v at ht hs ho hframe
  have htxn : v.txn = pressedTxn (notApplied s x) s.txn := (congrArg State.txn hframe :)
  rw [ht]
  refine ⟨htxn, ?_, ?_, ho.trans (by rw [hsess]), ?_⟩
  · have hbits : (event 4 v).port.events = v.port.events ||| (1 <<< 4) := rfl
    rw [hbits, BitVec.getLsbD_or]
    simp
  · rw [sent_event, hs, hsent]
  · exact (congrArg (fun v : State => { v with txn := s.txn, port := s.port, sess := s.sess }) hframe).trans
      ((congrArg (fun v : State => { v with sess := s.sess }) hrest :))

/-- Waiting past the press moves hub time alone. -/
theorem HostPressed.elapse {s : State} {x : Txn} (h : HostPressed s x) (n : Nat) : HostPressed (elapse n s) x ∧
    (elapse n s).txn = s.txn := by
  have he : (Machine.elapse n s).txn = s.txn := by
    rw [elapse_idle n (.inr h.done)]
    split <;> rfl
  obtain ⟨hact, hpressed, hdone, hhost, hplain, halone, hstate⟩ := h
  exact ⟨⟨he ▸ hact, he ▸ hpressed, he ▸ hdone, hhost, hplain, he ▸ halone, he ▸ hstate⟩, he⟩

theorem notApplied_congr {s u : State} (h : u.tiles = s.tiles) (x : Txn) : notApplied u x = notApplied s x := by
  unfold notApplied
  simp only [txnTargets_congr h, tileOf_of_tiles h]

theorem stillApplying_congr {s u : State} (h : u.tiles = s.tiles) (x : Txn) : stillApplying u x = stillApplying s x := by
  unfold stillApplying
  simp only [txnTargets_congr h, tileOf_of_tiles h]

section
variable {s : State} {x : Txn} (h : HostPressed s x)
include h

theorem pressConfirm_ends (hr : s.txn.recount = false) (ha : stillApplying s x = false) :
    exec .pressConfirm s = .next (finishPress x (Machine.elapse (s.txn.t + 5000) s)) := by
  have hnone := (stillApplying_congr (elapse_tiles (s.txn.t + 5000) s) x).trans ha
  simp [exec, execPressConfirm, h.active, h.pressed, h.state, hr, hnone]

theorem pressConfirm_waits (hr : s.txn.recount = false) (ha : stillApplying s x = true) :
    exec .pressConfirm s = .next (onTxn (fun q => { q with recount := true }) (Machine.elapse (s.txn.t + 5000) s)) := by
  have hsome := (stillApplying_congr (elapse_tiles (s.txn.t + 5000) s) x).trans ha
  simp [exec, execPressConfirm, h.active, h.pressed, h.state, hr, hsome]

theorem pressRecount_ends (hr : s.txn.recount = true) :
    exec .pressRecount s = .next (finishPress x (Machine.elapse (s.txn.t + 1000000) s)) := by
  simp [exec, execPressRecount, h.active, h.pressed, hr]

end

/-- Settles O25: a stub's press is its one item's effect and then the end of the set; the centre's census ends the press. -/
theorem pressesApplyAndConfirm : Obligations.PressesApplyAndConfirm := by
  unfold Obligations.PressesApplyAndConfirm
  refine ⟨⟨fun s k hnone => ?_, fun s k hts => ?_, fun s k a hk ha hm => ?_, fun s k hk hts => ?_⟩, fun s hnone => ?_,
    fun s x h hact hpressed hdone hhost hplain halone hreply hport hmem hone => ?_⟩
  · have hfilter : (takeAction 3 (tileOf s k)).filter (fun _ => mayAct (tileOf s k)) = none := by
      rcases hnone with h | h
      · rw [h]
        rfl
      · rw [h]
        cases takeAction 3 (tileOf s k) <;> rfl
    simp only [exec, execPressAct, hfilter]
  · simp [exec, execPressApplyDone, hts, when]
  · intro e x still done
    refine ⟨fun hts => ⟨_, pressAct_drops hk ha hm hts, (atEdge_retiled hk).1, atEdge_tile hk⟩, fun i hts hv hi =>
      ⟨fun hkind => ?_, fun hkind => ?_, fun hkind => ?_, fun hkind hcap => ?_⟩⟩
    · obtain ⟨t, ht, honly, w, hw⟩ := pressAct_epoch hk ha hm hts hv hi hkind
      refine ⟨t, ht, honly, ?_, ?_, ?_, ?_⟩ <;> rw [hw] <;> rfl
    · obtain ⟨t, ht, honly, w, hw⟩ := pressAct_ident hk ha hm hts hv hi hkind
      have hplans : t.plans = (keepLoaded k (atEdge k a s)).plans := (congrArg State.plans honly.1 :)
      rw [← hplans] at honly
      refine ⟨t, ht, honly, ?_, ?_, ?_, ?_⟩
      · rw [hplans]
        exact (keepLoaded_retiled (atEdge_retiled hk)).2
      all_goals rw [hw]; rfl
    · obtain ⟨t, ht, honly, w, hw⟩ := pressAct_context hk ha hm hts hv hi hkind
      rw [bumpContext_moves hkind] at hw
      refine ⟨t, ht, honly, ?_, ?_⟩ <;> rw [hw] <;> rfl
    · obtain ⟨t, ht, honly, w, hw⟩ := pressAct_copied hk ha hm hts hv hi hkind hcap
      refine ⟨t, ht, honly, ?_, ?_, ?_⟩ <;> rw [hw] <;> rfl
  · intro x done
    refine ⟨fun hv => ?_, fun i hv hi => ⟨fun hkind => ?_, fun hkind => ?_⟩⟩
    · obtain ⟨honly, w, hw⟩ := endPress_retiled 6 ((OnlyTile.refl s k).retiled rfl) hk
      refine ⟨_, pressApplyDone_void hts hv, honly, ?_, ?_⟩ <;> rw [hw] <;> rfl
    · obtain ⟨t, ht, honly, w, hw⟩ := pressApplyDone_sram hts hk hv hi hkind
      have hsram : (tileOf t k).engine.sram = storeBytes 0 x.engine.sram i.addr (wordBytes i.data) := by rw [hw]; rfl
      refine ⟨t, ht, honly, by rw [hw]; rfl, fun b hb => ?_, fun b hb => ?_, by rw [hw]; rfl⟩
      · rw [hsram, mget_storeBytes, length_wordBytes, if_pos (by omega), Nat.add_sub_cancel_left]
      · rw [hsram, mget_storeBytes, length_wordBytes, if_neg (by omega)]
    · obtain ⟨t, ht, honly, w, hw⟩ := pressApplyDone_route hts hk hv hi hkind
      have hroute : (tileOf t k).engine.route =
          (List.range i.data.length).foldl (fun m j => mput 0 m (i.addr + j) (i.data.getD j 0)) x.engine.route := by rw [hw]; rfl
      refine ⟨t, ht, honly, by rw [hw]; rfl, fun b hb => ?_, fun b hb => ?_, by rw [hw]; rfl⟩
      · rw [hroute, mget_foldl_mput, if_pos (by omega), Nat.add_sub_cancel_left]
      · rw [hroute, mget_foldl_mput, if_neg (by omega)]
  · rcases hnone with h | h
    · simp only [exec, execPressConfirm, execPressRecount, h, and_self]
    · cases hact : s.txn.active <;> simp [exec, execPressConfirm, execPressRecount, hact, h]
  · intro e lost ended hstate
    have hp : HostPressed s x := ⟨hact, hpressed, hdone, hhost, hplain, halone, hstate⟩
    have hends : ∀ n, ended (e n) (finishPress x (e n)) := fun n => by
      obtain ⟨hpe, htxn⟩ := hp.elapse (s.txn.t + n)
      have hown : outTag (e n) h = some h := outTag_own (by rw [elapse_sess]; exact hmem) (by rw [elapse_sess]; exact hone)
      obtain ⟨hq, hev, hsent, hout, hrest⟩ := finishPress_ended hpe hreply hport hown
      have hlost : notApplied (elapse (s.txn.t + n) s) x = lost := notApplied_congr (elapse_tiles _ s) x
      have htargets : txnTargets (elapse (s.txn.t + n) s) x = txnTargets s x := txnTargets_congr (elapse_tiles _ s) x
      rw [hlost, htxn] at hq
      rw [pressStatus, pressAnswer, hlost, htargets, htxn, elapse_sent] at hsent
      rw [elapse_sess] at hout
      have hreg := fun {α : Type} (f : TxnState → α) => congrArg f hq
      exact ⟨hreg (·.active), hreg (·.host), hreg (·.pressed), hreg (·.tstate), hreg (·.lost), hreg (·.lostSeen), hev, hsent, hout,
        hrest⟩
    exact ⟨fun hr ha => ⟨_, pressConfirm_ends hp hr ha, hends 5000⟩, fun hr ha => pressConfirm_waits hp hr ha,
      fun hr => ⟨_, pressRecount_ends hp hr, hends 1000000⟩⟩

end Sys2Proof.Machine
end

section
/-! Error events and the watchdogs of a stub (07 R213, R228; 10 R320, R321; 12 R369; 02 R78). -/

namespace Sys2Proof.Machine

/-! A tile that changes, its record and the class it drives -/

theorem OnlyTile.setW1c {u v : State} {k : Nat} (o m : Nat) (h : OnlyTile u v k) : OnlyTile (setW1c o m u) (setW1c o m v) k :=
  ⟨congrArg (Machine.setW1c o m) h.1, h.2⟩

/-- A class driven after one tile has changed (02 R78). -/
theorem OnlyTile.driveClass {u v : State} {k : Nat} (c : Nat) (h : OnlyTile u v k) :
    OnlyTile { u with alarm := (driveClass c v).alarm } (driveClass c v) k :=
  ⟨congrArg (fun w : State => { w with alarm := (Machine.driveClass c v).alarm }) h.1, h.2⟩

theorem OnlyTile.driven {u v : State} {k : Nat} (c : Nat) (h : OnlyTile u v k) : Driven u (Machine.driveClass c v) c :=
  (driveClass_driven c v).congr (congrArg State.alarm h.1 :).symm (congrArg now h.1 :).symm

/-- What a stub records of a tile that has changed, at the stub's own time (10 R301). -/
theorem OnlyTile.recorded {u v : State} {k : Nat} {y : Tile} (h : OnlyTile u v k) (hk : k < numTiles) (hr : EddyReady u k)
    (hy : tileOf v k = y) (htime : y.time = (tileOf u k).time) (heddy : y.eddy = (tileOf u k).eddy) (code data : Nat) :
    Recorded u (record k code data v) k (ts40 (stubNow u k)) code (eddyFlags y) (BitVec.ofNat 64 data) := by
  subst hy
  have hready : EddyReady v k := hr.congr (congrArg State.rill h.1 :) (congrArg State.cfg h.1 :) heddy
  have hnow : stubNow v k = stubNow u k := by
    have hhub : v.time = u.time := (congrArg State.time h.1 :)
    rw [stubNow, stub8, rclkNow, now, hhub, htime]
    rfl
  have hrec := recordAt_recorded (ts40 (stubNow v k)) code data hk hready
  rw [hnow] at hrec
  rw [record, hnow]
  exact hrec.congr (congrArg State.cfg h.1 :).symm heddy.symm rfl

theorem eddyReady_elapse {s : State} {k : Nat} (n : Nat) (h : EddyReady s k) : EddyReady (elapse n s) k :=
  h.congr (elapse_rill n s) (elapse_cfg n s) (by rw [tileOf_elapse])

/-! Counted errors (07 R213, R228) -/

/-- The tile that has counted an error of index `i`. -/
def errorCounted (i : Nat) (x : Tile) : Tile :=
  { x with
    core := { x.core with count := { x.core.count with
      cnt := if x.core.count.run then mmod 0 x.core.count.cnt i (fun v => (v + 1) % 2 ^ 48) else x.core.count.cnt } }
    plan := { x.plan with lc := mmod 0 x.plan.lc (5 + (i - 36)) (fun v => (v + 1) % 2 ^ 48) } }

theorem errorCounted_cnt (i : Nat) (x : Tile) (j : Nat) : mget 0 (errorCounted i x).core.count.cnt j =
    if x.core.count.run = true ∧ j = i then (mget 0 x.core.count.cnt j + 1) % 2 ^ 48 else mget 0 x.core.count.cnt j := by
  unfold errorCounted
  by_cases hrun : x.core.count.run = true
  · simp only [hrun, if_true, mget_mmod, true_and]
    split
    · next h => rw [h]
    · rfl
  · rw [if_neg hrun, if_neg (fun h => hrun h.1)]

theorem errorCounted_lc (i : Nat) (x : Tile) (j : Nat) : mget 0 (errorCounted i x).plan.lc j =
    if j = 5 + (i - 36) then (mget 0 x.plan.lc j + 1) % 2 ^ 48 else mget 0 x.plan.lc j := by
  unfold errorCounted
  dsimp only
  rw [mget_mmod]
  split
  · next h => rw [h]
  · rfl

/-- Without a watch plan a counted error is a change of its tile and a record. -/
theorem countError_noBank {s : State} {k : Nat} (i p : Nat) (hk : k < numTiles) (hb : NoBank s k) (hi : i ≠ 36) :
    countError k i p s = record k 0x10 ((i - 36) * 2 ^ 61 + p % 65536) (onTile k (errorCounted i) s) := by
  have hnb : NoBank (record k 0x10 ((i - 36) * 2 ^ 61 + p % 65536) (onTile k (errorCounted i) s)) k :=
    (recordAt_retiled _ _ _ hk (onTile_retiled k (errorCounted i) s hk)).noBank hb
  rw [← cmpEvent_noBank (errTest (tileOf (record k 0x10 ((i - 36) * 2 ^ 61 + p % 65536) (onTile k (errorCounted i) s)) k).core i) hnb
    (by decide : 5 ≠ 0)]
  unfold countError
  dsimp only
  rw [if_neg hi]
  rfl

section
variable {s : State} {k : Nat}

theorem tileErrorEvent_37 (l p : Nat) (hk : k < numTiles) (hu : coreUp (tileOf s k) = true) (hb : NoBank s k) :
    exec (.tileErrorEvent k 37 l p) s =
      .next (stubAlarm k 1 (record k 0x10 (2 ^ 61 + l % 65536) (onTile k (errorCounted 37) s))) := by
  rw [show 2 ^ 61 + l % 65536 = (37 - 36) * 2 ^ 61 + l % 65536 by rfl, ← countError_noBank 37 l hk hb (by decide)]
  exact congrArg Host.Outcome.next (if_pos (by rw [hu]; rfl))

theorem tileErrorEvent_39 (l p : Nat) (hk : k < numTiles) (hu : coreUp (tileOf s k) = true) (hb : NoBank s k) :
    exec (.tileErrorEvent k 39 l p) s = .next (record k 0x10 (3 * 2 ^ 61 + p % 65536) (onTile k (errorCounted 39) s)) := by
  rw [show 3 * 2 ^ 61 + p % 65536 = (39 - 36) * 2 ^ 61 + p % 65536 by rfl, ← countError_noBank 39 p hk hb (by decide)]
  exact congrArg Host.Outcome.next (if_pos (by rw [hu]; rfl))

theorem tileErrorEvent_41 (l p : Nat) (hu : coreUp (tileOf s k) = true) :
    exec (.tileErrorEvent k 41 l p) s = .next (stubAlarm k 1 s) :=
  congrArg Host.Outcome.next (if_pos (by rw [hu]; rfl))

/-- A stub that raises a class: its ring takes a record, and the class's wire is driven (05 R157). -/
theorem stubAlarm_spec {u v : State} {y : Tile} (c : Nat) (hk : k < numTiles) (h : Retiled u v k y) :
    OnlyTile { u with alarm := (stubAlarm k c v).alarm } (stubAlarm k c v) k ∧
      (∃ w, tileOf (stubAlarm k c v) k = { y with eddy := w }) ∧ Driven u (stubAlarm k c v) c := by
  obtain ⟨honly, htile⟩ := recordAt_retiled (ts40 (stubNow v k)) 0x04 (c * 2 ^ 60 + cmdStep (tileOf v k)) hk h
  exact ⟨honly.driveClass c, htile, honly.driven c⟩

theorem tileErrorEvent_counts (hk : k < numTiles) (hu : coreUp (tileOf s k) = true) (hb : NoBank s k) (hr : EddyReady s k)
    (i l p : Nat) (hi : i = 37 ∨ i = 39) :
    ∃ t, exec (.tileErrorEvent k i l p) s = .next t ∧ OnlyTile { s with alarm := t.alarm } t k ∧
      (∃ w, tileOf t k = { errorCounted i (tileOf s k) with eddy := w }) ∧ (i = 37 → Driven s t 1) ∧
      (i = 39 → t.alarm = s.alarm ∧
        Recorded s t k (ts40 (stubNow s k)) 0x10 (eddyFlags (tileOf s k)) (BitVec.ofNat 64 (3 * 2 ^ 61 + p % 65536))) := by
  have hcounted := onTile_retiled k (errorCounted i) s hk
  rcases hi with rfl | rfl
  · obtain ⟨honly, htile, hdriven⟩ := stubAlarm_spec 1 hk (recordAt_retiled
      (ts40 (stubNow (onTile k (errorCounted 37) s) k)) 0x10 (2 ^ 61 + l % 65536) hk hcounted)
    exact ⟨_, tileErrorEvent_37 l p hk hu hb, honly, htile, fun _ => hdriven, fun h => absurd h (by decide)⟩
  · obtain ⟨honly, htile⟩ := recordAt_retiled
      (ts40 (stubNow (onTile k (errorCounted 39) s) k)) 0x10 (3 * 2 ^ 61 + p % 65536) hk hcounted
    have halarm : (record k 0x10 (3 * 2 ^ 61 + p % 65536) (onTile k (errorCounted 39) s)).alarm = s.alarm :=
      (congrArg State.alarm honly.1 :)
    refine ⟨_, tileErrorEvent_39 l p hk hu hb, ?_, htile, fun h => absurd h (by decide), fun _ => ⟨halarm, ?_⟩⟩
    · rw [halarm]
      exact honly
    · exact hcounted.1.recorded hk hr (tileOf_onTile_self _ _ hk) rfl rfl _ _

/-! WAIT_DESCRIPTOR (10 R321) -/

/-- The tile whose stub holds engine `e`'s descriptor. -/
def descriptorHeld (e : Nat) (d : Word) (x : Tile) : Tile := { x with hang := { x.hang with wait := mput 0 x.hang.wait e d } }

theorem waitDescriptor_runs (hk : k < numTiles) (hr : EddyReady s k) (e : Nat) (d : Word) (hc : coreRuns s k = true) (he : e < 4) :
    ∃ t, exec (.waitDescriptor k e d) s = .next t ∧ Retiled s t k (descriptorHeld e d (tileOf s k)) ∧
      (d.getLsbD 63 = true → (mget 0 (tileOf s k).hang.wait e).getLsbD 63 = false →
        Recorded s t k (ts40 (stubNow s k)) 0x02 (eddyFlags (tileOf s k)) d) := by
  have hheld := onTile_retiled k (descriptorHeld e d) s hk
  have hexec : exec (.waitDescriptor k e d) s = .next
      (if d.getLsbD 63 && !(mget 0 (tileOf s k).hang.wait e).getLsbD 63 then record k 0x02 d.toNat (onTile k (descriptorHeld e d) s)
        else onTile k (descriptorHeld e d) s) :=
    congrArg Host.Outcome.next (if_pos (by rw [hc, decide_eq_true he]; rfl))
  refine ⟨_, hexec, ?_, fun hd hw => ?_⟩
  · split
    · exact recordAt_retiled _ _ _ hk hheld
    · exact hheld
  · rw [if_pos (by rw [hd, hw]; rfl)]
    have hrec := hheld.1.recorded hk hr (tileOf_onTile_self _ _ hk) rfl rfl 0x02 d.toNat
    rwa [BitVec.ofNat_toNat, BitVec.setWidth_eq] at hrec

/-! The watchdogs (10 R320, 12 R369) -/

theorem hang_fires (hk : k < numTiles) (hu : coreUp (tileOf s k) = true) (hb : NoBank s k) (hr : EddyReady s k)
    (hc : hangCounts (tileOf s k) = true) :
    let x := tileOf s k
    let e := elapse (now s + (hangLimit x - hangCount (stubNow s k) x)) s
    ∃ t, exec (.hang k) s = .next t ∧ OnlyTile { e with alarm := t.alarm } t k ∧
      (∃ w, tileOf t k = { hungTile (stubNow e k) x with eddy := w }) ∧ Driven e t 3 ∧
      Recorded s t k (ts40 (stubNow e k)) 0x05 (eddyFlags x) (BitVec.ofNat 64 (hangData x)) := by
  intro x e
  have he : tileOf e k = x := tileOf_elapse _ _ _
  have hhung := onTile_retiled k (hungTile (stubNow e k)) e hk
  obtain ⟨honly, htile⟩ := recordAt_retiled (ts40 (stubNow (onTile k (hungTile (stubNow e k)) e) k)) 0x05 (hangData x) hk hhung
  have hrec := hhung.1.recorded hk (eddyReady_elapse _ hr) (tileOf_onTile_self _ _ hk) rfl rfl 0x05 (hangData x)
  rw [he] at htile hrec
  exact ⟨_, hang_eq hk hu hb hc, honly.driveClass 3, htile, honly.driven 3,
    hrec.congr (elapse_cfg _ s).symm (congrArg Tile.eddy he).symm rfl⟩

/-- The tile whose stub's watchdog has expired. -/
def cwdtExpired (x : Tile) : Tile := { x with power := { x.power with cwdtFired := true, cwdtHeld := true } }

theorem cwdtExpiry_fires (hk : k < numTiles) (hu : coreUp (tileOf s k) = true) (hr : EddyReady s k)
    (hready : (tileOf s k).power.ready = true) (hthr : (tileOf s k).power.thr = false) (hheld : (tileOf s k).power.cwdtHeld = false) :
    let x := tileOf s k
    let e := elapse (now s + (x.power.cwdtSince + 100000 - stubNow s k)) s
    ∃ t, exec (.cwdtExpiry k) s = .next t ∧
      OnlyTile { e with alarm := t.alarm, port := { e.port with w1c := t.port.w1c, w1cAt := t.port.w1cAt } } t k ∧
      (∃ w, tileOf t k = { cwdtExpired x with eddy := w }) ∧ Driven e t 2 ∧
      Recorded s t k (ts40 (stubNow e k)) 0x04 (eddyFlags x) (BitVec.ofNat 64 (2 * 2 ^ 60 + cmdStep x)) := by
  intro x e
  let u := setW1c (agentKey k 0x48) 1 e
  let v := setW1c (agentKey k 0x48) 1 (onTile k cwdtExpired e)
  have he : tileOf e k = x := tileOf_elapse _ _ _
  have hv : tileOf v k = cwdtExpired x := (tileOf_onTile_self cwdtExpired e hk).trans (congrArg cwdtExpired he)
  have honly : OnlyTile u v k := (onTile_onlyTile k cwdtExpired e).setW1c _ _
  have hexec : exec (.cwdtExpiry k) s = .next (stubAlarm k 2 v) :=
    congrArg Host.Outcome.next (if_pos (by rw [hu, hready, hthr, hheld]; rfl))
  obtain ⟨hfin, htile, hdriven⟩ := stubAlarm_spec 2 hk (honly.retiled hv)
  have hrec := honly.recorded hk ((eddyReady_elapse _ hr).congr (u := u) rfl rfl rfl) hv (congrArg Tile.time he :).symm
    (congrArg Tile.eddy he :).symm 0x04 (2 * 2 ^ 60 + cmdStep (tileOf v k))
  have hstep : cmdStep (tileOf v k) = cmdStep x := by rw [hv]; rfl
  have hport : (stubAlarm k 2 v).port = u.port := (congrArg State.port hfin.1 :)
  refine ⟨_, hexec, ?_, htile, hdriven.congr rfl rfl, ?_⟩
  · rw [hport]
    exact hfin
  · rw [hstep] at hrec
    refine hrec.congr (elapse_cfg _ s).symm (congrArg Tile.eddy he).symm ?_
    unfold stubAlarm
    rw [hstep]
    rfl

theorem errors_dark (hu : coreUp (tileOf s k) = false) (i l p : Nat) : exec (.tileErrorEvent k i l p) s = .next s ∧
    exec (.hang k) s = .next s ∧ exec (.cwdtExpiry k) s = .next s := by
  simp only [exec, execTileErrorEvent, execHang, execCwdtExpiry, when, hu]
  exact ⟨rfl, rfl, rfl⟩

theorem hang_stopped (hc : hangCounts (tileOf s k) = false) : exec (.hang k) s = .next s := by
  simp only [exec, execHang, when, hc, Bool.and_false]
  rfl

end

/-- Settles O21: each row by what it makes of its tile, what the ring takes and which class is driven. -/
theorem errorsAndWatchdogs : Obligations.ErrorsAndWatchdogs := by
  intro s k hk x
  refine ⟨errors_dark, fun hu hb hr => ⟨fun i l p hi => ?_, fun l p => ?_, fun e d hc he => ?_, fun hc => ?_,
    fun hready hthr hheld => ?_⟩, hang_stopped⟩
  · obtain ⟨t, hexec, honly, ⟨w, hw⟩, hdriven, hrec⟩ := tileErrorEvent_counts hk hu hb hr i l p hi
    refine ⟨t, hexec, honly, ?_, ?_, ?_, hdriven, hrec⟩
    · rw [hw]
      rfl
    · rw [hw]
      exact errorCounted_cnt i x
    · rw [hw]
      exact errorCounted_lc i x
  · obtain ⟨honly, ⟨w, hw⟩, hdriven⟩ := stubAlarm_spec 1 hk ((OnlyTile.refl s k).retiled rfl)
    exact ⟨_, tileErrorEvent_41 l p hu, honly, by rw [hw], hdriven⟩
  · obtain ⟨t, hexec, ⟨honly, w, hw⟩, hrec⟩ := waitDescriptor_runs hk hr e d hc he
    exact ⟨t, hexec, honly, by rw [hw]; rfl, by rw [hw]; rfl, hrec⟩
  · obtain ⟨t, hexec, honly, ⟨w, hw⟩, hdriven, hrec⟩ := hang_fires hk hu hb hr hc
    exact ⟨t, hexec, honly, by rw [hw]; rfl, by rw [hw]; rfl, hdriven, hrec⟩
  · obtain ⟨t, hexec, honly, ⟨w, hw⟩, hdriven, hrec⟩ := cwdtExpiry_fires hk hu hr hready hthr hheld
    exact ⟨t, hexec, honly, by rw [hw]; rfl, by rw [hw]; rfl, hdriven, hrec⟩

end Sys2Proof.Machine
end

section
/-! Counter plans, step folds, step descriptors and the rings of the light census (07 R219 to R239). -/

namespace Sys2Proof.Machine

/-! CNT_LOAD (07 R219, R222, R239) -/

/-- The conditions of a counter plan do not look at the requests under way. -/
theorem cntChecks_assembling (id : Nat) (es : List CntEntry) (h : ReqHdr) (s : State) (as : List Assembly) :
    cntChecks id es h { s with sess := { s.sess with assembling := as } } = cntChecks id es h s := by
  have hl : ∀ base is, limitCheck { s with sess := { s.sess with assembling := as } } base is = limitCheck s base is :=
    fun base is => by simp only [limitCheck, overEntry_congr (nodeOver_assembling s as)]
  simp only [cntChecks, hl]
  rfl

/-- The wafer once every core that can and holds an LTN has fetched its part of a counter plan (07 R219; log 8). -/
def cntFetched (p : CntPlan) (s : State) : State :=
  onListedTiles (fun t x => if canFetch x && x.txn.ltnValid then takeCnt (some p) s t x else x) s

theorem tileOf_cntFetched (p : CntPlan) {s : State} (hwf : mwf {} s.tiles = true) (k : Nat) : tileOf (cntFetched p s) k =
    if canFetch (tileOf s k) = true ∧ (tileOf s k).txn.ltnValid = true then takeCnt (some p) s k (tileOf s k) else tileOf s k := by
  simp only [← Bool.and_eq_true]
  exact tileOf_onListedTiles _ s k hwf rfl

/-- Fetching leaves which cores can fetch. -/
theorem fetches_cntFetched (p : CntPlan) {s : State} (hwf : mwf {} s.tiles = true) : fetches (cntFetched p s) = fetches s := by
  funext k
  unfold fetches
  rw [tileOf_cntFetched p hwf]
  split <;> rfl

theorem loadCnt_eq (id : Nat) (e : CntEntry) (h : ReqHdr) (s : State) : loadCnt id [e] h s =
    let p := cntPlanOf id e h s
    let u := cntFetched p s
    if (ltnMembers s p.set).all (fetches u) then
      startCentre 2 u.txn.stageTmo [centreEntry 2] (some h) (onPlans (fun q => { q with cntNext := some p }) u)
    else fail h { st := .malformed, reason := 0x12 } u := rfl

theorem cntPlanOf_taken {s w : State} {h g : ReqHdr} (hw : Taken s w g) (id : Nat) (e : CntEntry) :
    cntPlanOf id e h w = cntPlanOf id e h s := by
  unfold cntPlanOf
  rw [isIntrusive_taken hw]

/-- Whether every member has fetched does not depend on the requests under way. -/
theorem allFetched_taken {s w : State} {g : ReqHdr} (hwf : mwf {} s.tiles = true) (hw : Taken s w g) (p : CntPlan) :
    (ltnMembers w p.set).all (fetches (cntFetched p w)) = (ltnMembers s p.set).all (fetches s) := by
  obtain ⟨f, rfl⟩ := hw.eq_onSess
  rw [fetches_cntFetched p (s := onSess f s) hwf]
  rfl

section
variable {s : State} {h : ReqHdr} {id : Nat} {e : CntEntry} (ho : AsObserver s h) (hwf : mwf {} s.tiles = true)
  (hc : ∀ c ∈ cntChecks id [e] { h with opcode := 0x44 } s, c.bad = false)
include ho hwf hc

/-- Every member can fetch: the plan waits to be activated, and the transaction that activates it stages. -/
theorem cntLoad_waits (ha : s.txn.active = none) (hq : s.txn.waiting = []) (ht : s.txn.tstate ≠ 6) :
    let p := cntPlanOf id e { h with opcode := 0x44 } s
    (∀ k ∈ ltnMembers s p.set, canFetch (tileOf s k) = true) → ∃ t, exec (.cntLoad h id [e]) s = .next t ∧
      Waits { s with plans := { s.plans with cntNext := some p }, tiles := t.tiles, txn := t.txn } t 0x44 h ∧
      t.tiles = (cntFetched p s).tiles ∧ t.txn.tstate = 2 ∧
      ∃ x, t.txn.active = some x ∧ x.purpose = 2 ∧ x.centre = true ∧ x.reply = some { h with opcode := 0x44 } := by
  intro p hall
  obtain ⟨w, hw, hexec⟩ := request_acts { op := 0x44, classC := true } h (cntChecks id [e]) (loadCnt id [e]) s ho.1
    (obs_allowed ho _ rfl) (fun as => by rw [cntChecks_assembling]; exact pick_none _ hc)
  have hfetch : (ltnMembers w p.set).all (fetches (cntFetched p w)) = true := by
    rw [allFetched_taken hwf hw, List.all_eq_true]
    exact hall
  obtain ⟨heq, hstate, -, -, x, hx, hpurpose, hcentre, -, hreply⟩ := startCentreAt_stages 0 2 (cntFetched p w).txn.stageTmo
    [centreEntry 2] (some { h with opcode := 0x44 }) (s := onPlans (fun q => { q with cntNext := some p }) (cntFetched p w))
    (hw.txn ▸ ha : w.txn.active = none) (hw.txn ▸ hq : w.txn.waiting = []) (hw.txn ▸ ht : w.txn.tstate ≠ 6)
  rw [loadCnt_eq, cntPlanOf_taken hw] at hexec
  refine ⟨_, hexec.trans (congrArg Host.Outcome.next (if_pos hfetch)), taken_waits _ _ 0x44 h ?_, ?_, hstate, x, hx, hpurpose,
    hcentre, hreply⟩
  · refine hw.replanned (ps := { s.plans with cntNext := some p }) ?_
    rw [← hw.plans]
    exact congrArg (fun u : State => { u with tiles := w.tiles }) heq
  · obtain ⟨g, rfl⟩ := hw.eq_onSess
    exact (congrArg State.tiles heq :)

/-- Some member cannot fetch: the request is MALFORMED, and the plan stays. -/
theorem cntLoad_malformed :
    let p := cntPlanOf id e { h with opcode := 0x44 } s
    (∃ k ∈ ltnMembers s p.set, canFetch (tileOf s k) = false) → ∃ t, exec (.cntLoad h id [e]) s = .next t ∧
      Answered (cntFetched p s) t 0x44 h .malformed (detail { reason := 0x12 }) := by
  intro p ⟨k, hk, hdark⟩
  refine ok_request { op := 0x44, classC := true } h (cntChecks id [e]) (loadCnt id [e]) s (cntFetched p s) .malformed _ ho.1
    (obs_allowed ho _ rfl) (fun as => by rw [cntChecks_assembling]; exact pick_none _ hc) rfl fun w hw => ?_
  refine ⟨cntFetched p w, hw.map (cntFetched p) (fun _ _ => rfl) rfl, ?_⟩
  have hfetch : ¬ (ltnMembers w p.set).all (fetches (cntFetched p w)) = true := by
    rw [allFetched_taken hwf hw, List.all_eq_true]
    exact fun hall => Bool.false_ne_true (hdark.symm.trans (hall k hk))
  rw [loadCnt_eq, cntPlanOf_taken hw]
  exact if_neg hfetch

end

/-! CNT_FOLD (07 R223, R236) -/

/-- From `s` to `t` tiles have sent `n` contributions upward, and nothing else but tiles has changed. -/
def Contributed (n : Nat) (s t : State) : Prop :=
  { t with folds := s.folds, tiles := s.tiles } = s ∧ t.folds = { s.folds with upward := t.folds.upward } ∧
  t.folds.upward.length = s.folds.upward.length + n

theorem Contributed.refl (s : State) : Contributed 0 s s := ⟨rfl, rfl, rfl⟩

theorem Contributed.trans {a b : Nat} {s t u : State} (h : Contributed a s t) (g : Contributed b t u) : Contributed (a + b) s u := by
  obtain ⟨hrest, hfolds, hlen⟩ := h
  obtain ⟨grest, gfolds, glen⟩ := g
  refine ⟨?_, ?_, by omega⟩
  · rw [← hrest, ← grest]
  · rw [gfolds, hfolds]

theorem Contributed.plans {n : Nat} {s t : State} (h : Contributed n s t) : t.plans = s.plans := (congrArg State.plans h.1 :)

theorem contribute_contributed (t id e : Nat) (p : FoldPartial) (s : State) : Contributed 1 s (contribute t id e p s) :=
  ⟨rfl, rfl, List.length_append⟩

theorem contributeAll_contributed (t e : Nat) (p : FoldInfo → FoldPartial) (is : List FoldInfo) : ∀ s,
    Contributed is.length s (is.foldl (fun s i => contribute t i.id e (p i) s) s) := by
  induction is with
  | nil => exact Contributed.refl
  | cons i is ih =>
    intro s
    rw [List.length_cons, Nat.add_comm]
    exact (contribute_contributed t i.id e (p i) s).trans (ih _)

theorem onTile_contributed (k : Nat) (f : Tile → Tile) (s : State) : Contributed 0 s (onTile k f s) := by
  unfold onTile
  split <;> exact ⟨rfl, rfl, rfl⟩

/-- One tile's part of a step: a contribution to each of the plan's three step folds. -/
theorem foldStepTile_contributed {s : State} {p : CntPlan} (hp : s.plans.cnt = some p) (step k : Nat) :
    Contributed 3 s (foldStepTile step k s) := by
  unfold foldStepTile
  rw [hp]
  dsimp only [optList]
  split
  · exact (contributeAll_contributed k (step % 65536) _ (cntFolds p) s).trans (onTile_contributed _ _ _)
  · exact contributeAll_contributed k (step % 65536) _ (cntFolds p) s

theorem foldStepTiles_contributed {p : CntPlan} (step : Nat) (ts : List Nat) : ∀ s : State, s.plans.cnt = some p →
    Contributed (3 * ts.length) s (ts.foldl (fun s t => foldStepTile step t s) s) := by
  induction ts with
  | nil => exact fun s _ => Contributed.refl s
  | cons k ts ih =>
    intro s hp
    have hk := foldStepTile_contributed hp step k
    rw [List.length_cons, Nat.mul_succ, Nat.add_comm]
    exact hk.trans (ih _ (by rw [hk.plans]; exact hp))

/-- A step that the centre folds at once is noted, and every member that answers contributes. -/
theorem foldStepAll_contributed {s : State} {p : CntPlan} (hp : s.plans.cnt = some p) (step : Nat) :
    Contributed (3 * ((ltnMembers s p.set).filter (fun k => (tileOf s k).power.answers)).length)
      { s with folds := { s.folds with stepFolded := s.folds.stepFolded ++ [step] } } (foldStepAll step s) := by
  unfold foldStepAll
  rw [hp]
  exact foldStepTiles_contributed step _ _ hp

/-- The record of a step closed by force. -/
def forcedRec (s : State) (step e : Nat) (cur : Nat × Nat × Bool) : LedgerRec := ledgerRates s (ledgerRec s step e true cur)

/-- The centre's ledger once step `step` has closed by force at boundary `e`. -/
def ledgerForced (s : State) (step e : Nat) (cur : Nat × Nat × Bool) : CensusState :=
  { s.census with
    ledger := lastN 4096 (s.census.ledger ++ [forcedRec s step e cur])
    closed := s.census.closed ++ [step]
    curStep := some (step + 1, e, false)
    curPartial := false }

/-- A new ledger, with the free value it draws and its event in the status frame. -/
theorem withLedger_spec (c : CensusState) (s : State) :
    let t := event 12 (drawFree { s with census := c })
    sent t = sent s ∧ t.sess = s.sess ∧ t.folds = s.folds ∧ t.census = c ∧ t.port.events.getLsbD 12 = true :=
  ⟨rfl, rfl, rfl, rfl, event_sets (by decide) _⟩

theorem closeLedger_forced {s : State} {cur : Nat × Nat × Bool} (hcur : s.census.curStep = some cur) (step e : Nat) :
    closeLedger step e true s = event 12 (drawFree { s with census := ledgerForced s step e cur }) := by
  unfold closeLedger
  rw [hcur]
  rfl

theorem getLast?_lastN_append {α : Type} {n : Nat} (hn : 1 ≤ n) (l : List α) (a : α) : (lastN n (l ++ [a])).getLast? = some a := by
  unfold lastN
  rw [List.length_append, List.length_singleton, List.drop_append_of_le_length (by omega), List.getLast?_concat]

theorem ledgerForced_last (s : State) (step e : Nat) (cur : Nat × Nat × Bool) :
    (ledgerForced s step e cur).ledger.getLast? = some (forcedRec s step e cur) := by
  dsimp only [ledgerForced]
  exact getLast?_lastN_append (by decide) _ _

/-- CNT_FOLD's two parts: the members contribute, and the step's record closes FORCED. -/
def stepForced (step : Nat) (s : State) : State := closeLedger step (lastBoundary s) true (foldStepAll step s)

theorem cntFold_eq (h : ReqHdr) (step : Nat) (s : State) : exec (.cntFold h step) s =
    request { op := 0x45, classC := true } h
      (fun _ s => [refuse (s.plans.cnt.isNone || s.folds.stepFolded.contains step || stepClosed s step)])
      (fun h s => respond h .ok [] (stepForced step s)) s := rfl

theorem stepForced_spec {s : State} {p : CntPlan} {cur : Nat × Nat × Bool} (hp : s.plans.cnt = some p)
    (hcur : s.census.curStep = some cur) (step : Nat) :
    let t := stepForced step s
    sent t = sent s ∧ t.sess = s.sess ∧ t.folds.stepFolded = s.folds.stepFolded ++ [step] ∧
    t.folds.upward.length = s.folds.upward.length + 3 * ((ltnMembers s p.set).filter (fun k => (tileOf s k).power.answers)).length ∧
    (∃ u, u.census = s.census ∧ t.census = ledgerForced u step (lastBoundary s) cur) ∧ t.port.events.getLsbD 12 = true := by
  obtain ⟨hrest, hfolds, hlen⟩ := foldStepAll_contributed hp step
  have hcensus : (foldStepAll step s).census = s.census := (congrArg State.census hrest :)
  intro t
  have ht : t = event 12 (drawFree { foldStepAll step s with census := ledgerForced (foldStepAll step s) step (lastBoundary s) cur }) :=
    closeLedger_forced (hcensus ▸ hcur) step (lastBoundary s)
  obtain ⟨hsent, hsess, hkept, hledger, hevent⟩ := withLedger_spec
    (ledgerForced (foldStepAll step s) step (lastBoundary s) cur) (foldStepAll step s)
  rw [← ht] at hsent hsess hkept hledger hevent
  rw [hkept]
  exact ⟨hsent.trans (congrArg sent hrest :), hsess.trans (congrArg State.sess hrest :),
    (congrArg FoldState.stepFolded hfolds :), hlen, ⟨_, hcensus, hledger⟩, hevent⟩

theorem cntFold_closes {s : State} {h : ReqHdr} {n : Nat} {p : CntPlan} {cur : Nat × Nat × Bool} (ho : AsObserver s h)
    (hp : s.plans.cnt = some p) (hf : n ∉ s.folds.stepFolded) (hcl : stepClosed s n = false) (hcur : s.census.curStep = some cur) :
    ∃ t, exec (.cntFold h n) s = .next t ∧ sent t = sent s ++ fragmentsOf (mkResponse { h with opcode := 0x45 } .ok []) ∧
      t.folds.stepFolded = s.folds.stepFolded ++ [n] ∧
      t.folds.upward.length = s.folds.upward.length + 3 * ((ltnMembers s p.set).filter (fun k => (tileOf s k).power.answers)).length ∧
      (∃ u, u.census = s.census ∧ t.census = ledgerForced u n (lastBoundary s) cur) ∧ t.port.events.getLsbD 12 = true := by
  have hgood : (s.plans.cnt.isNone || s.folds.stepFolded.contains n || stepClosed s n) = false := by
    rw [hp, hcl, List.contains_eq_mem, decide_eq_false hf]
    rfl
  obtain ⟨w, hw, hexec⟩ := request_acts { op := 0x45, classC := true } h
    (fun _ s => [refuse (s.plans.cnt.isNone || s.folds.stepFolded.contains n || stepClosed s n)])
    (fun h s => respond h .ok [] (stepForced n s)) s ho.1 (obs_allowed ho _ rfl)
    (fun as => pick_none _ (by rw [List.forall_mem_singleton]; exact hgood))
  obtain ⟨ss, as, c, m, rfl, hss⟩ := hw
  obtain ⟨hsent, hsess, hfolded, hlen, hcensus, hevent⟩ := stepForced_spec
    (s := { s with sess := { s.sess with
      sessions := ss, outstanding := s.sess.outstanding ++ [{ h with opcode := 0x45 }], assembling := as, cache := c, maxReqId0 := m } })
    hp hcur n
  obtain ⟨hanswer, hrest⟩ := respond_spec { h with opcode := 0x45 } .ok [] _ s.sess.outstanding ho.1.notMailbox
    (congrArg SessionState.outstanding hsess) ho.1.tagFree
  rw [cntFold_eq, hexec]
  refine ⟨_, rfl, hanswer.trans (congrArg (· ++ _) hsent), ?_⟩
  rw [hrest]
  exact ⟨hfolded, hlen, hcensus, hevent⟩

theorem cntFold_noPlan {s : State} {h : ReqHdr} (ho : AsObserver s h) (n : Nat) (hp : s.plans.cnt = none) :
    ∃ t, exec (.cntFold h n) s = .next t ∧ Answered s t 0x45 h .refused (detail { reason := 0x12 }) :=
  bad_request { op := 0x45, classC := true } h _ _ s (refuse true) ho.1 (obs_allowed ho _ rfl) (fun as => by rw [hp]; rfl)

/-! STEP_DESC (07 R235, R239) -/

theorem stepDesc_replaces {s : State} {h : ReqHdr} (ho : AsObserver s h) {n k : Nat} (hcl : stepClosed s n = false) (hk : k ≠ 0) :
    ∃ t, exec (.stepDesc h n k) s = .next t ∧ Answered { s with census := { s.census with
      tokens := s.census.tokens.filter (fun p => p.1 != n) ++ [(n, k)] } } t 0x46 h .ok [] := by
  have hset : setTokens n k s.census = { s.census with tokens := s.census.tokens.filter (fun p => p.1 != n) ++ [(n, k)] } := by
    rw [setTokens, if_neg hk]
  rw [← hset]
  refine outcome_request { op := 0x46, classC := true } h _ _ s (onCensus (setTokens n k)) .ok [] ho.1 (obs_allowed ho _ rfl)
    (fun as => pick_none _ ?_) (fun _ _ => rfl) rfl fun _ => rfl
  have hfew : (k == 0 && !s.census.tokens.any (fun p => p.1 == n)) = false := by rw [beq_false_of_ne hk]; rfl
  simp only [List.forall_mem_cons]
  exact ⟨hcl, hfew, fun c hc => absurd hc List.not_mem_nil⟩

theorem stepDesc_closed {s : State} {h : ReqHdr} (ho : AsObserver s h) (n k : Nat) (hcl : stepClosed s n = true) :
    ∃ t, exec (.stepDesc h n k) s = .next t ∧ Answered s t 0x46 h .refused (detail { reason := 0x12 }) := by
  refine bad_request { op := 0x46, classC := true } h _ _ s (refuse true) ho.1 (obs_allowed ho _ rfl) fun as => ?_
  have hclosed : stepClosed { s with sess := { s.sess with assembling := as } } n = true := hcl
  rw [hclosed]
  refine pick_first rfl ?_
  rw [List.forall_mem_singleton]
  exact (by decide : 7 ≤ 8)

/-! LC_READ and LEDGER_READ (07 R239, 13 R428) -/

theorem countChecks_good {n : Nat} (h1 : 1 ≤ n) (h2 : n ≤ 4096) : pick (countChecks n) = none := by
  refine pick_none _ ?_
  simp only [countChecks, List.forall_mem_cons]
  exact ⟨decide_eq_false (Nat.not_lt.2 h2), beq_false_of_ne (Nat.ne_of_gt h1), fun c hc => absurd hc List.not_mem_nil⟩

theorem lcRead_answers {s : State} {h : ReqHdr} (ho : AsObserver s h) {n : Nat} (h1 : 1 ≤ n) (h2 : n ≤ 4096) :
    ∃ t, exec (.lcRead h n) s = .next t ∧ Answered s t 0x47 h .ok ((lastN n s.census.ring).flatMap lcBytes) :=
  outcome_request { op := 0x47, classC := false } h _ (okWith _) s id .ok _ ho.1 (obs_allowed ho _ rfl)
    (fun _ => countChecks_good h1 h2) (fun _ _ => rfl) rfl fun _ => rfl

theorem ledgerRead_answers {s : State} {h : ReqHdr} (ho : AsObserver s h) {n : Nat} (h1 : 1 ≤ n) (h2 : n ≤ 4096) :
    ∃ t, exec (.ledgerRead h n) s = .next t ∧ Answered s t 0x48 h .ok ((lastN n s.census.ledger).flatMap ledgerBytes) :=
  outcome_request { op := 0x48, classC := false } h _ (okWith _) s id .ok _ ho.1 (obs_allowed ho _ rfl)
    (fun _ => countChecks_good h1 h2) (fun _ _ => rfl) rfl fun _ => rfl

/-- Settles O31, request by request; that a forced close takes the last boundary is log 25. -/
theorem countersAndStepsAnswer : Obligations.CountersAndStepsAnswer := by
  intro s h ho
  refine ⟨fun i e hwf hc => ?_, ?_, cntFold_noPlan ho, fun n k => stepDesc_replaces ho, stepDesc_closed ho,
    fun n h1 h2 => ⟨lcRead_answers ho h1 h2, ledgerRead_answers ho h1 h2⟩⟩
  · intro p fetched
    have htiles : ∀ t : State, t.tiles = (cntFetched p s).tiles → fetched t := fun t ht k =>
      (tileOf_of_tiles ht k).trans (tileOf_cntFetched p hwf.1 k)
    refine ⟨fun ha hq ht hall => ?_, fun hsome => ?_⟩
    · obtain ⟨t, hexec, hwaits, ht, hstate, hactive⟩ := cntLoad_waits ho hwf.1 hc ha hq ht hall
      exact ⟨t, hexec, hwaits, htiles t ht, hstate, hactive⟩
    · obtain ⟨t, hexec, hanswered⟩ := cntLoad_malformed ho hwf.1 hc hsome
      have ⟨_, _, hsame, _⟩ := hanswered
      have ht : t.tiles = (cntFetched p s).tiles := (congrArg State.tiles hsame :)
      exact ⟨t, hexec, ht ▸ hanswered, htiles t ht⟩
  · intro n p cur hp hf hcl hcur
    obtain ⟨t, hexec, hsent, hfolded, hlen, ⟨u, hu, hcensus⟩, hevent⟩ := cntFold_closes ho hp hf hcl hcur
    refine ⟨t, hexec, hsent, hfolded, hlen, ?_⟩
    rw [stepClosed, hcensus]
    refine ⟨rfl, rfl, ?_, ⟨_, ledgerForced_last u n _ cur, rfl, rfl, rfl, rfl, rfl⟩, hevent⟩
    rw [List.contains_eq_mem, decide_eq_true_eq]
    exact List.mem_append_right _ List.mem_cons_self

end Sys2Proof.Machine
end

section
/-! The light census's boundary, the PMBus readings and the observation cap (07 R228 to R238; 15 R476). -/

namespace Sys2Proof.Machine

/-- Without a press under way hub time is all that its passing changes. -/
theorem elapse_census {s : State} (n : Nat) (h : s.txn.pressed = false) : (elapse n s).census = s.census := by
  rw [elapse_idle n (.inl h)]
  split <;> rfl

theorem elapse_folds {s : State} (n : Nat) (h : s.txn.pressed = false) : (elapse n s).folds = s.folds := by
  rw [elapse_idle n (.inl h)]
  split <;> rfl

/-! LC_BOUNDARY (07 R229 to R231; 15 R476) -/

/-- An entry of a canonical collection is what its key reads as. -/
theorem mget_of_mem {α : Type} [DecidableEq α] {d : α} {m : Map α} (hm : mwf d m = true) {p : Nat × α} (hp : p ∈ m) :
    mget d m p.1 = p.2 := by
  replace hm := ((mwf_iff d m).1 hm).1
  induction m with
  | nil => cases hp
  | cons q r ih =>
    obtain ⟨hfirst, hrest⟩ := List.pairwise_cons.1 (by rw [List.map_cons] at hm; exact hm)
    rcases List.mem_cons.1 hp with rfl | hr
    · exact if_pos rfl
    · exact (if_neg (hfirst _ (List.mem_map_of_mem hr)).ne).trans (ih hr hrest)

/-- A tile whose stub has closed its period (07 R228). -/
def periodClosed (x : Tile) : Tile := { x with plan := { x.plan with lc := if x.power.answers then [] else x.plan.lc } }

theorem periodClosed_eq (x : Tile) :
    periodClosed x = if x.power.answers = true then { x with plan := { x.plan with lc := [] } } else x := by
  unfold periodClosed
  split <;> rfl

theorem tileOf_periodsClosed {s : State} (hwf : mwf {} s.tiles = true) (k : Nat) :
    tileOf (onListedTiles (fun _ => periodClosed) s) k = periodClosed (tileOf s k) :=
  tileOf_onListedTiles _ s k hwf rfl

/-- With no tile that awaits its plans, the RELOAD census changes nothing (15 R476). -/
theorem reloadCensus_none {s : State} (hwf : mwf {} s.tiles = true) (h : ∀ k, (tileOf s k).plan.reload = false) :
    reloadCensus s = s := by
  have hnone : reloadTiles s = [] := by
    unfold reloadTiles
    rw [List.map_eq_nil_iff, List.filter_eq_nil_iff]
    intro p hp
    have hkept : p.2.plan.reload = false := by rw [← mget_of_mem hwf hp]; exact h p.1
    rw [hkept, Bool.false_and]
    exact Bool.false_ne_true
  exact if_pos hnone

/-- The centre's part of a boundary: the period counts, and its result opens (07 R229, R231). -/
def boundaryCounted (k b : Nat) (c : CensusState) : CensusState :=
  pmSchedule b { c with nextK := k + 1, ring := lastN 4096 (c.ring ++ [{ boundary := b, period := k % 2 ^ 32 }]) }

theorem pmSchedule_rest (b : Nat) (c : CensusState) : pmSchedule b c = { c with
    busy := (pmSchedule b c).busy
    queued := (pmSchedule b c).queued
    rotation := (pmSchedule b c).rotation } := by
  unfold pmSchedule pmNext
  split
  · rfl
  · split <;> rfl

theorem pmSchedule_nextK (b : Nat) (c : CensusState) : (pmSchedule b c).nextK = c.nextK := by rw [pmSchedule_rest]

theorem pmSchedule_ring (b : Nat) (c : CensusState) : (pmSchedule b c).ring = c.ring := by rw [pmSchedule_rest]

theorem boundaryCounted_nextK (k b : Nat) (c : CensusState) : (boundaryCounted k b c).nextK = k + 1 := by
  rw [boundaryCounted, pmSchedule_nextK]

theorem boundaryCounted_ring (k b : Nat) (c : CensusState) :
    (boundaryCounted k b c).ring = lastN 4096 (c.ring ++ [{ boundary := b, period := k % 2 ^ 32 }]) := by
  rw [boundaryCounted, pmSchedule_ring]

/-- A free bus starts READ_EIN, and a reading of the rotation waits (07 R231). -/
theorem boundaryCounted_free (k b : Nat) {c : CensusState} (hb : c.busy = none) :
    (boundaryCounted k b c).busy = some (0x86, b, b) ∧ (boundaryCounted k b c).queued = [(pmRotation c.rotation, b)] := by
  unfold boundaryCounted pmSchedule
  rw [if_neg (by rw [hb]; decide), pmNext, hb]
  exact ⟨rfl, rfl⟩

theorem boundaryCounted_taken (k b : Nat) {c : CensusState} (hb : c.busy ≠ none) : (boundaryCounted k b c).busy = c.busy := by
  unfold boundaryCounted pmSchedule
  rw [if_pos (Option.isSome_iff_ne_none.2 hb)]

/-- A boundary of period `k`, at hub time `b` with the time already there. -/
def boundaryPassed (k b : Nat) (e : State) : State :=
  onCensus (boundaryCounted k b) (onListedTiles (fun _ => periodClosed)
    (onFolds (fun f => { f with upward := f.upward ++ allTiles.flatMap (lcContribs e (k % 65536)) }) e))

theorem lcBoundary_eq {s : State} (hen : s.census.lcEn = true) (hs : s.rill.inService = true) (hrom : s.boot.romReason = 0)
    (hwf : mwf {} s.tiles = true) (hr : ∀ k, (tileOf s k).plan.reload = false) :
    let b := s.census.p0 + s.census.nextK * 1000000
    exec .lcBoundary s = .next (boundaryPassed s.census.nextK b (elapse b s)) := by
  intro b
  have hwfe : mwf {} (elapse b s).tiles = true := by rwa [elapse_tiles]
  have htile : ∀ k, tileOf (boundaryPassed s.census.nextK b (elapse b s)) k = periodClosed (tileOf s k) := fun k => by
    rw [← tileOf_elapse b s k, ← tileOf_periodsClosed hwfe]
    rfl
  have hnone := reloadCensus_none (s := boundaryPassed s.census.nextK b (elapse b s))
    (mapAll_wf {} (fun _ => periodClosed) _ hwfe) (fun k => by rw [htile]; exact hr k)
  rw [← hnone]
  exact congrArg Host.Outcome.next (if_pos (by rw [hen, inService, hs, inRom, hrom]; rfl))

theorem lcBoundary_off {s : State} (h : s.census.lcEn = false) : exec .lcBoundary s = .next s := by
  simp only [exec, execLcBoundary, when, h]
  rfl

/-! PMBus readings (07 R231, R232) -/

/-- With nothing queued the bus stays as it is. -/
theorem pmNext_idle (n : Nat) {c : CensusState} (hq : c.queued = []) : pmNext n c = c := by
  unfold pmNext
  rw [hq]
  split
  · next h => cases h
  · rfl

/-- What a reading leaves of the bus, which is discarded where PEC fails. -/
def readingDone (bad : Bool) (c : CensusState) : CensusState :=
  { c with
    busy := none
    pecCount := if bad then satAdd 16 c.pecCount 1 else c.pecCount
    readValid := c.readValid || !bad }

theorem readingDone_good (c : CensusState) : readingDone false c = { c with busy := none, readValid := true } := by
  rw [readingDone, Bool.not_false, Bool.or_true]
  rfl

theorem readingDone_bad (c : CensusState) :
    readingDone true c = { c with busy := none, pecCount := satAdd 16 c.pecCount 1 } := by
  rw [readingDone, Bool.not_true, Bool.or_false]
  rfl

theorem pecBad_sound {pec ok : Bool} (h : pec = false ∨ ok = true) : (pec && !ok) = false := by
  rcases h with rfl | rfl
  · rfl
  · exact Bool.and_false pec

section
variable {s : State} {cmd from_ b : Nat} (hbusy : s.census.busy = some (cmd, from_, b)) (hq : s.census.queued = [])
include hbusy hq

theorem pmbusDone_eq (data : List Byte) {ok bad : Bool} (hbad : (s.census.pecEn && !ok) = bad) :
    exec (.pmbusDone data ok) s = .next (
      if cmd = pmEin then
        if bad then dropEin b { s with census := readingDone bad s.census }
        else takeEin (einOf data from_ b) { s with census := readingDone bad s.census }
      else if bad then { s with census := readingDone bad s.census }
      else onCensus (takeWord cmd (unle (data.take 2))) { s with census := readingDone bad s.census }) := by
  have hidle : onCensus (fun c => pmNext (now s) (readingDone bad c)) s = { s with census := readingDone bad s.census } :=
    congrArg (fun c => { s with census := c }) (pmNext_idle (c := readingDone bad s.census) (now s) hq)
  rw [← hidle, ← hbad]
  simp only [exec, execPmbusDone, hbusy]
  rfl

theorem pmbusTimeout_eq (hp : s.txn.pressed = false) : exec .pmbusTimeout s = .next (
    let e := elapse (from_ + 5000000) s
    { e with census := { s.census with busy := none, tmoCount := satAdd 16 s.census.tmoCount 1 } }) := by
  have hc := elapse_census (from_ + 5000000) hp
  have hidle : pmNext (now (elapse (from_ + 5000000) s)) { s.census with busy := none, tmoCount := satAdd 16 s.census.tmoCount 1 } =
      { s.census with busy := none, tmoCount := satAdd 16 s.census.tmoCount 1 } := pmNext_idle _ hq
  simp only [exec, execPmbusTimeout, hbusy, onCensus, hc, hidle]

/-- A sound reading of a word. -/
theorem pmbusDone_word (data : List Byte) {ok : Bool} (hcmd : cmd ≠ pmEin) (hok : s.census.pecEn = false ∨ ok = true) :
    exec (.pmbusDone data ok) s =
      .next (onCensus (fun c => takeWord cmd (unle (data.take 2)) { c with busy := none, readValid := true }) s) := by
  rw [pmbusDone_eq hbusy hq data (pecBad_sound hok), if_neg hcmd, if_neg Bool.false_ne_true, readingDone_good]
  rfl

theorem pmbusDone_badWord (data : List Byte) {ok : Bool} (hcmd : cmd ≠ pmEin) (hpec : s.census.pecEn = true) (hok : ok = false) :
    exec (.pmbusDone data ok) s = .next { s with census :=
      { s.census with busy := none, pecCount := satAdd 16 s.census.pecCount 1 } } := by
  have hbad : (s.census.pecEn && !ok) = true := by rw [hpec, hok]; rfl
  rw [pmbusDone_eq hbusy hq data hbad, if_neg hcmd, if_pos rfl, readingDone_bad]

/-- The first sound READ_EIN is the base of the next interval. -/
theorem pmbusDone_ein (data : List Byte) {ok : Bool} (hcmd : cmd = pmEin) (hfirst : s.census.lastEin = none)
    (hok : s.census.pecEn = false ∨ ok = true) :
    exec (.pmbusDone data ok) s = .next { s with census :=
      { s.census with busy := none, readValid := true, lastEin := some (einOf data from_ b) } } := by
  rw [pmbusDone_eq hbusy hq data (pecBad_sound hok), if_pos hcmd, if_neg Bool.false_ne_true, readingDone_good, takeEin]
  simp only [hfirst]
  rfl

end

theorem pmbus_idle {s : State} (h : s.census.busy = none) (data : List Byte) (ok : Bool) :
    exec (.pmbusDone data ok) s = .next s ∧ exec .pmbusTimeout s = .next s := by
  simp only [exec, execPmbusDone, execPmbusTimeout, h, and_self]

/-! PACE_REFILL (07 R237, R238) -/

/-- A die whose bucket has taken the rate of its live lanes for 1 µs. -/
def refilled (lanes : Nat) (e : Edge) : Edge :=
  { e with liveLanes := lanes, bucket := min 65536000 (e.bucket + lanes * 25000 * e.permille) }

/-- With nothing to drain a die sends nothing. -/
theorem paceSend_none {s : State} (d : Nat) (hd : s.snap.drains = []) (ha : drainsAlways s = false) : paceSend d s = s := by
  simp [paceSend, hd, ha]

theorem paceRefill_fills {s : State} {d : Nat} (lanes : Nat) (hs : s.rill.inService = true) (hd : d < numDies)
    (hdr : s.snap.drains = []) (ha : drainsAlways s = false) :
    exec (.paceRefill d lanes) s = .next (onEdge d (refilled lanes) s) := by
  have hrest := (onEdge_onlyEdge d (refilled lanes) s).1
  have hsnap : (onEdge d (refilled lanes) s).snap = s.snap := (congrArg State.snap hrest :)
  have halways : drainsAlways (onEdge d (refilled lanes) s) = drainsAlways s := (congrArg drainsAlways hrest :)
  rw [← paceSend_none (s := onEdge d (refilled lanes) s) d (by rw [hsnap, hdr]) (by rw [halways, ha])]
  exact congrArg Host.Outcome.next (if_pos (by rw [inService, hs, decide_eq_true hd]; rfl))

/-- Settles O32: the boundary as one change of folds, tiles and census, the readings by command, and the refilled bucket. -/
theorem censusAndPowerRun : Obligations.CensusAndPowerRun := by
  refine ⟨?_, fun s h => lcBoundary_off h, fun s data ok h => pmbus_idle h data ok, ?_, ?_⟩
  · intro s hen hs hrom hp ⟨hwf, _, _⟩ hr b e
    have hc : e.census = s.census := elapse_census b hp
    have hcensus : (boundaryPassed s.census.nextK b e).census = boundaryCounted s.census.nextK b s.census :=
      congrArg (boundaryCounted s.census.nextK b) hc
    refine ⟨_, lcBoundary_eq hen hs hrom hwf hr, rfl, ?_, fun k => ?_, ?_⟩
    · exact congrArg (fun f : FoldState => { f with upward := f.upward ++ allTiles.flatMap (lcContribs e (s.census.nextK % 65536)) })
        (elapse_folds b hp)
    · rw [← periodClosed_eq, ← tileOf_elapse b s k]
      exact tileOf_periodsClosed (s := onFolds _ e) (by rw [onFolds_tiles, elapse_tiles]; exact hwf) k
    · rw [hcensus]
      exact ⟨boundaryCounted_nextK _ b _, boundaryCounted_ring _ b _, fun hb _ => boundaryCounted_free _ _ hb, boundaryCounted_taken _ _⟩
  · intro s data ok cmd from_ b hbusy hq c
    refine ⟨?_, ?_, pmbusDone_badWord hbusy hq data, pmbusDone_ein hbusy hq data, fun hp => ⟨_, pmbusTimeout_eq hbusy hq hp, rfl⟩⟩
    · rintro rfl hok
      exact pmbusDone_word hbusy hq data (by decide) hok
    · rintro rfl hok
      exact pmbusDone_word hbusy hq data (by decide) hok
  · intro s d lanes hs hd hdr ha
    exact ⟨_, paceRefill_fills lanes hs hd hdr ha, onEdge_onlyEdge d _ s, edgeOf_onEdge_self _ s hd⟩

end Sys2Proof.Machine
end

section
/-! A tile's power and clock (07 R224 to R226; 04 R140, R141; 03 R98; 15 R475; 17 R502). -/

namespace Sys2Proof.Machine

theorem OnlyTile.drawFree {u v : State} {k : Nat} (h : OnlyTile u v k) : OnlyTile (drawFree u) (drawFree v) k :=
  ⟨congrArg Machine.drawFree h.1, h.2⟩

/-! The dark handshake (07 R225) -/

section
variable {s : State} {k : Nat}

/-- The save that DARK_PENDING starts, with the counters as they then stand. -/
def darkSaved (ok : Bool) (at_ : Nat) (x : Tile) : Tile :=
  { x with
    power := { x.power with darkPending := true, pendingAt := at_, darkReady := ok }
    save := if ok then some { count := x.core.count } else none
    plan := { x.plan with saved := ok, saveLost := x.plan.saveLost && !ok } }

theorem darkPendingRise_saves (hk : k < numTiles) (hs : s.rill.inService = true) (hp : (tileOf s k).power.pwrOk = true) (ok : Bool) :
    ∃ t n y, exec (.darkPendingRise k ok) s = .next t ∧ tileOf t k = darkSaved ok n y :=
  ⟨_, _, _, congrArg Host.Outcome.next (if_pos (by rw [inService, hs, hp]; rfl)), tileOf_onTile_self _ _ hk⟩

theorem darkPendingFall_cancels (hk : k < numTiles) (hp : (tileOf s k).power.pwrOk = true)
    (hd : (tileOf s k).power.darkPending = true) : ∃ t, exec (.darkPendingFall k) s = .next t ∧ OnlyTile s t k ∧
      tileOf t k = { tileOf s k with
        power := { (tileOf s k).power with darkPending := false, darkReady := false }
        save := none
        plan := { (tileOf s k).plan with saved := false } } :=
  ⟨_, rfl, onTile_onlyTile _ _ _, (tileOf_onTile_self _ _ hk).trans (if_pos (by rw [hp, hd]; rfl))⟩

theorem darkSaveTimeout_keepsNothing (hk : k < numTiles) (hs : s.rill.inService = true) (hp : (tileOf s k).power.pwrOk = true)
    (hd : (tileOf s k).power.darkPending = true) (hr : (tileOf s k).power.darkReady = false) :
    ∃ t, exec (.darkSaveTimeout k) s = .next t ∧ OnlyTile (elapse ((tileOf s k).power.pendingAt + 10000) s) t k ∧
      tileOf t k = { tileOf s k with
        power := { (tileOf s k).power with darkReady := true }
        save := none
        plan := { (tileOf s k).plan with saved := false, saveLost := true } } := by
  refine ⟨_, congrArg Host.Outcome.next (if_pos (by rw [inService, hs, hp, hd, hr]; rfl)), onTile_onlyTile _ _ _, ?_⟩
  rw [tileOf_onTile_self _ _ hk, tileOf_elapse]

/-! CORE_PWR_FALL (04 R141, 06 R205, 07 R225) -/

/-- The tile whose stub has taken note that core-bound items of its set are lost (06 R205). -/
def heldVoided (x : Tile) : Tile :=
  { x with txn := { x.txn with void := x.txn.void || x.txn.hold || x.txn.tstate == 4 } }

theorem voidHeld_retiled (hk : k < numTiles) : Retiled s (voidHeld k s) k (heldVoided (tileOf s k)) := by
  have hvoid : voidHeld k s = if (tileOf s k).txn.hold || (tileOf s k).txn.tstate = 4 then
      record k 0x0A ((tileOf s k).txn.id * 2 ^ 48) (onTile k (fun x => { x with txn := { x.txn with void := true } }) s) else s := rfl
  rw [hvoid]
  unfold heldVoided
  split
  · next h =>
    have hall : ((tileOf s k).txn.void || (tileOf s k).txn.hold || (tileOf s k).txn.tstate == 4) = true := by
      rw [Bool.or_assoc]
      exact Bool.or_eq_true_iff.2 (.inr h)
    rw [hall]
    exact recordAt_retiled _ _ _ hk (onTile_retiled k (fun x => { x with txn := { x.txn with void := true } }) s hk)
  · next h =>
    have hnone : ((tileOf s k).txn.hold || (tileOf s k).txn.tstate == 4) = false := Bool.eq_false_iff.2 h
    rw [Bool.or_assoc, hnone, Bool.or_false]
    exact (OnlyTile.refl s k).retiled rfl

theorem unfreeze_onlyStill (me scope : Nat) (idle step : Bool) (x : Tile) : ∃ st hg,
    unfreeze me scope idle step x = { x with still := st, hang := hg } := by
  by_cases h : maskLeft scope x = 0
  · exact ⟨_, _, unfreeze_runs h⟩
  · exact ⟨_, _, unfreeze_stays h⟩

/-- RELEASEs that take effect at the end of a hold change a tile's still and watchdog alone. -/
theorem releaseTiles_retiled {e : State} (hk : k < numTiles) (rs : List HeldRelease) : ∀ (v : State) (x : Tile), Retiled e v k x →
    ∃ st hg, Retiled e (rs.foldl (fun s r => releaseTile k r s) v) k { x with still := st, hang := hg } := by
  induction rs with
  | nil => exact fun v x h => ⟨x.still, x.hang, h⟩
  | cons r rs ih =>
    intro v x ⟨honly, w, hw⟩
    obtain ⟨st, hg, hu⟩ := unfreeze_onlyStill (stubNow v k) r.scope r.idle r.step { x with eddy := w }
    have hrel := releaseTile_retiled r hk honly hw
    rw [hu] at hrel
    obtain ⟨st', hg', honly', w', hw'⟩ := ih _ _ hrel
    exact ⟨st', hg', honly', w', hw'⟩

/-- The end of a tile's holds: FRZ drops where no still bit is set (09 R287). -/
def holdSettled (x : Tile) : Tile :=
  { x with still := { x.still with frz := x.still.frz && x.still.mask != 0, heldRel := [] } }

theorem settleHold_retiled {e v : State} {x : Tile} (hk : k < numTiles) (h : Retiled e v k x) (hc : copyHolds x = false) :
    ∃ st hg, Retiled e (settleHold k v) k { x with still := st, hang := hg } ∧
      (x.still.heldRel = [] → st = (holdSettled x).still) := by
  obtain ⟨w, hw⟩ := h.2
  have hset : Retiled e (onTile k holdSettled v) k (holdSettled x) := h.onTile hk (fun w => ⟨w, rfl⟩)
  have heq : settleHold k v = x.still.heldRel.foldl (fun s r => releaseTile k r s) (onTile k holdSettled v) := by
    have hcv : copyHolds (tileOf v k) = false := by rw [hw]; exact hc
    have hrel : (tileOf v k).still.heldRel = x.still.heldRel := by rw [hw]
    rw [← hrel]
    exact if_neg (Bool.eq_false_iff.1 hcv)
  rw [heq]
  by_cases hnil : x.still.heldRel = []
  · rw [hnil]
    exact ⟨_, _, hset, fun _ => rfl⟩
  · obtain ⟨st, hg, hfin⟩ := releaseTiles_retiled hk x.still.heldRel _ _ hset
    exact ⟨st, hg, hfin, fun hn => absurd hn hnil⟩

/-- With no stragglers listed none leaves the list. -/
theorem leaveStragglers_empty {t : State} (b : Bool) (h : t.root.stragglers = []) : (if b then leaveStragglers k t else t) = t := by
  rw [leaveStragglers_absent (by rw [h]; exact List.not_mem_nil), ite_self]

/-- The tile whose core has lost its power, but for the releases that were held back: `c` is the free content of its engine. -/
def powerLost (c k me : Nat) (x : Tile) : Tile := darkTile c k (stopHang me (heldVoided x))

theorem corePwrFall_darkens (hk : k < numTiles) (hs : s.rill.inService = true) (hp : (tileOf s k).power.pwrOk = true)
    (hr : s.root.stragglers = []) : ∃ t c st hg, exec (.corePwrFall k) s = .next t ∧
      Retiled (drawFree s) t k { powerLost c k (stubNow s k) (tileOf s k) with still := st, hang := hg } ∧
      ((tileOf s k).still.heldRel = [] → st = (holdSettled (powerLost c k (stubNow s k) (tileOf s k))).still) := by
  let v := onTile k (stopHang (stubNow s k)) (voidHeld k s)
  let u := drawFree (onTile k (darkTile v.boot.freeCount k) v)
  obtain ⟨honly, htile⟩ : Retiled s (onTile k (darkTile v.boot.freeCount k) v) k
      (powerLost v.boot.freeCount k (stubNow s k) (tileOf s k)) :=
    ((voidHeld_retiled hk).onTile hk (fun w => ⟨w, rfl⟩)).onTile hk (fun w => ⟨w, rfl⟩)
  obtain ⟨st, hg, hsettled, hst⟩ := settleHold_retiled (v := u) hk ⟨honly.drawFree, htile⟩ rfl
  let y := settleHold k u
  let t := record k 0x14 (2 ^ 63 + b2n (tileOf y k).plan.saveLost * 2 ^ 62) y
  have ht : Retiled (drawFree s) t k _ := recordAt_retiled _ _ _ hk hsettled
  have hroot : t.root.stragglers = [] := (congrArg (fun w : State => w.root.stragglers) ht.1.1 :).trans hr
  have hexec : exec (.corePwrFall k) s = .next (if (tileOf t k).still.mask != 0 then leaveStragglers k t else t) := by
    refine congrArg Host.Outcome.next ((if_pos hp).trans (if_neg ?_))
    rw [inService, hs]
    exact Bool.false_ne_true
  rw [leaveStragglers_empty _ hroot] at hexec
  exact ⟨t, _, st, hg, hexec, ht, hst⟩

/-! CORE_TIME_REBUILT (02 R80, 03 R98, 04 R126) -/

/-- The tile whose core has rebuilt its time, at stub time `me`. -/
def timeRebuilt (me : Nat) (v : Bool) (x : Tile) : Tile :=
  { x with
    power := { x.power with ready := true, cwdtSince := if x.power.ready then x.power.cwdtSince else me }
    still := { x.still with
      pending := x.still.pending.map (fun a => { a with late := a.late || decide (a.tick < me) })
      vpend := if x.still.frz && !x.power.ready then v else x.still.vpend } }

/-- The actions whose tick has passed and that are not yet marked so. -/
def newlyLate (me : Nat) (x : Tile) : List StillAction := x.still.pending.filter (fun a => decide (a.tick < me) && !a.late)

theorem recordLates_retiled {e : State} {x : Tile} (hk : k < numTiles) (as : List StillAction) : ∀ v : State, Retiled e v k x →
    Retiled e (as.foldl (fun s a => recordLate k a.kind a.scope a.tick s) v) k x := by
  induction as with
  | nil => exact fun _ h => h
  | cons a as ih => exact fun v h => ih _ (recordAt_retiled _ _ _ hk h)

theorem coreTimeRebuilt_eq (hs : s.rill.inService = true) (hp : (tileOf s k).power.pwrOk = true) (v : Bool) :
    exec (.coreTimeRebuilt (k, v)) s = .next ((newlyLate (stubNow s k) (tileOf s k)).foldl
      (fun s a => recordLate k a.kind a.scope a.tick s) (onTile k (timeRebuilt (stubNow s k) v) s)) :=
  congrArg Host.Outcome.next (if_pos (by rw [inService, hs, hp]; rfl))

theorem newlyLate_none {me : Nat} {x : Tile} (h : ∀ a ∈ x.still.pending, me ≤ a.tick) : newlyLate me x = [] := by
  unfold newlyLate
  rw [List.filter_eq_nil_iff]
  intro a ha
  rw [decide_eq_false (Nat.not_lt.2 (h a ha)), Bool.false_and]
  exact Bool.false_ne_true

theorem coreTimeRebuilt_acts (hk : k < numTiles) (hs : s.rill.inService = true) (hp : (tileOf s k).power.pwrOk = true) (v : Bool) :
    ∃ t, exec (.coreTimeRebuilt (k, v)) s = .next t ∧ Retiled s t k (timeRebuilt (stubNow s k) v (tileOf s k)) ∧
      ((∀ a ∈ (tileOf s k).still.pending, stubNow s k ≤ a.tick) → (tileOf t k).eddy = (tileOf s k).eddy) := by
  refine ⟨_, coreTimeRebuilt_eq hs hp v, recordLates_retiled hk _ _ (onTile_retiled k _ s hk), fun h => ?_⟩
  rw [newlyLate_none h, List.foldl_nil, tileOf_onTile_self _ _ hk]
  rfl

/-! CORE_PWR_RISE (15 R475, 07 R225) -/

/-- The tile whose core has its power again at hub time `n`, its counters running or not. -/
def powerBack (run : Bool) (n : Nat) (x : Tile) : Tile :=
  { x with
    power := { x.power with pwrOk := true, ready := false, darkReady := false }
    save := none
    still := { x.still with
      frz := x.still.mask != 0
      edgeAt := if x.still.mask ≠ 0 then n else x.still.edgeAt
      lateFrz := if x.still.mask ≠ 0 then decide (x.still.actTick + 1000 < ownTime x n) else x.still.lateFrz
      state := if x.still.mask ≠ 0 then 2 else if x.still.pending.any (fun a => a.kind == 1) then 1 else 0 }
    core := { x.core with count := restoredCount run x.save }
    plan := { x.plan with reload := x.plan.reload || takesPlan x, saved := false }
    hang := { x.hang with elapsed := 0, since := ownTime x n } }

theorem coreUpAgain_still (n : Nat) (x : Tile) : (coreUpAgain n x).still = (powerBack true n x).still := by
  by_cases h : x.still.mask = 0 <;> simp [coreUpAgain, powerBack, restartHang, stFreezing, stArmed, stRunning, h]

theorem corePwrRise_eq (hk : k < numTiles) (hs : s.rill.inService = true) (hp : (tileOf s k).power.pwrOk = false) :
    exec (.corePwrRise k) s = .next (
      let u := onTile k (powerBack (runsCounters s) (now s)) s
      record k 0x14 (b2n (tileOf u k).plan.saveLost * 2 ^ 62) u) := by
  have hback : (fun x : Tile =>
      let y := coreUpAgain (now s) x
      { y with
        core := { y.core with count := restoredCount (runsCounters s) x.save }
        save := none
        power := { y.power with darkReady := false }
        plan := { y.plan with saved := false } }) = powerBack (runsCounters s) (now s) := by
    funext x
    have hst := coreUpAgain_still (now s) x
    dsimp only
    rw [hst]
    rfl
  rw [← hback]
  refine congrArg Host.Outcome.next ((if_pos (by rw [decide_eq_true hk, hp]; rfl)).trans (if_neg ?_))
  rw [inService, hs]
  exact Bool.false_ne_true

theorem corePwrRise_returns (hk : k < numTiles) (hs : s.rill.inService = true) (hp : (tileOf s k).power.pwrOk = false) :
    ∃ t, exec (.corePwrRise k) s = .next t ∧ Retiled s t k (powerBack (runsCounters s) (now s) (tileOf s k)) :=
  ⟨_, corePwrRise_eq hk hs hp, recordAt_retiled _ _ _ hk (onTile_retiled k _ s hk)⟩

theorem restoredCount_saved (run : Bool) {o : Option SaveArea} {v : SaveArea} (h : o = some v) :
    (restoredCount run o).cnt = v.count.cnt ∧ (restoredCount run o).latched = v.count.latched ∧
    (restoredCount run o).dtab = v.count.dtab := by
  subst h
  exact ⟨rfl, rfl, rfl⟩

/-! THR_REGION and TCLK (07 R217, R224; 04 R140) -/

/-- A key that does not read as the default is listed. -/
theorem mem_of_mget {α : Type} {d : α} {m : Map α} {j : Nat} (h : mget d m j ≠ d) : (j, mget d m j) ∈ m := by
  induction m with
  | nil => exact absurd rfl h
  | cons p r ih =>
    obtain ⟨i, v⟩ := p
    by_cases hij : i = j
    · subst hij
      have hv : mget d ((i, v) :: r) i = v := if_pos rfl
      rw [hv]
      exact List.mem_cons_self
    · have hr : mget d ((i, v) :: r) j = mget d r j := if_neg hij
      rw [hr] at h ⊢
      exact List.mem_cons_of_mem _ (ih h)

theorem someThr_of_tile {t : State} (ht : (tileOf t k).power.thr = true) (hn : (tileOf t k).power.noClock = false) :
    someThr t = true := by
  have hne : mget {} t.tiles k ≠ {} := fun h => Bool.false_ne_true ((congrArg (fun x : Tile => x.power.thr) h).symm.trans ht)
  refine List.any_eq_true.2 ⟨_, mem_of_mget hne, ?_⟩
  show ((tileOf t k).power.thr && !(tileOf t k).power.noClock) = true
  rw [ht, hn]
  rfl

/-- THR_ANY after a change of one tile (07 R224). -/
theorem followThr_spec {v : State} (h : OnlyTile s v k) :
    let t := followThr v
    OnlyTile { s with boot := t.boot } t k ∧ tileOf t k = tileOf v k ∧
    t.boot = { s.boot with
      thrAny := someThr t
      thrAnyAt := if s.boot.thrAny ∧ someThr t = false then now s else s.boot.thrAnyAt } := by
  have hboot : v.boot = s.boot := (congrArg State.boot h.1 :)
  have hnow : now v = now s := (congrArg now h.1 :)
  have hsome : someThr (followThr v) = someThr v := rfl
  refine ⟨⟨congrArg (fun w : State => { w with boot := (followThr v).boot }) h.1, h.2⟩, rfl, ?_⟩
  rw [hsome, ← hboot, ← hnow]
  simp only [followThr, onBoot, Bool.and_eq_true, Bool.not_eq_true']

/-- The tile whose THR_REGION has changed at hub time `n`, with TCLK stopped or not. -/
def thrChanged (hi stopped : Bool) (n : Nat) (x : Tile) : Tile :=
  { x with
    power := { x.power with
      thr := hi
      noClock := x.power.noClock || (hi && stopped && x.power.pwrOk)
      cwdtSince := if x.power.thr ∧ hi = false then ownTime x n else x.power.cwdtSince }
    core := { x.core with count := if x.core.count.cmdOpen ∧ hi
      then { x.core.count with cmdo := { x.core.count.cmdo with thrSeen := true } } else x.core.count } }

theorem thrRegionChange_eq (hi stopped : Bool) : exec (.thrRegionChange k hi stopped) s =
    .next (followThr (onTile k (thrChanged hi stopped (now s)) s)) := by
  have hf : (fun x : Tile => onCount
      (fun c => if c.cmdOpen && hi then { c with cmdo := { c.cmdo with thrSeen := true } } else c)
      (onPower (fun p => { p with
        thr := hi
        noClock := p.noClock || (hi && stopped && p.pwrOk)
        cwdtSince := if p.thr && !hi then ownTime x (now s) else p.cwdtSince }) x)) = thrChanged hi stopped (now s) := by
    funext x
    simp only [onCount, onPower, thrChanged, Bool.and_eq_true, Bool.not_eq_true']
  rw [← hf]
  rfl

theorem thrRegionChange_follows (hk : k < numTiles) (hi stopped : Bool) :
    ∃ t, exec (.thrRegionChange k hi stopped) s = .next t ∧ OnlyTile { s with boot := t.boot } t k ∧
      tileOf t k = thrChanged hi stopped (now s) (tileOf s k) ∧
      t.boot = { s.boot with
        thrAny := someThr t
        thrAnyAt := if s.boot.thrAny ∧ someThr t = false then now s else s.boot.thrAnyAt } ∧
      (hi = true → stopped = false → (tileOf s k).power.noClock = false → t.boot.thrAny = true) := by
  obtain ⟨honly, htile, hboot⟩ := followThr_spec (onTile_onlyTile k (thrChanged hi stopped (now s)) s)
  rw [tileOf_onTile_self _ _ hk] at htile
  refine ⟨_, thrRegionChange_eq hi stopped, honly, htile, hboot, fun hh hst hn => ?_⟩
  rw [hboot]
  refine someThr_of_tile (k := k) ?_ ?_
  · rw [htile]
    exact hh
  · rw [htile, hst]
    simp [thrChanged, hn]

/-- The tile whose TCLK runs again at hub time `n`: one that was FREEZING is under FRZ. -/
def clockBack (n : Nat) (v : Bool) (x : Tile) : Tile :=
  { x with
    power := { x.power with noClock := false }
    still := if x.power.pwrOk ∧ x.still.mask ≠ 0 ∧ x.still.state = 2
      then { x.still with
        edgeAt := n
        lateFrz := decide (x.still.actTick + 1000 < ownTime x n)
        frz := true
        frzAck := false
        rfrzAck := false
        vpend := v
        state := 2 } else x.still }

theorem tclkResume_eq (hs : s.rill.inService = true) (hn : (tileOf s k).power.noClock = true) (v : Bool) :
    exec (.tclkResume (k, v)) s = .next (followThr (onTile k (clockBack (now s) v) s)) := by
  have hf : (fun x : Tile =>
      let y := onPower (fun p => { p with noClock := false }) x
      if inService s && y.power.pwrOk && y.still.mask != 0 && y.still.state == stFreezing then assertFrz (now s) v y else y) =
      clockBack (now s) v := by
    funext x
    simp only [inService, hs, onPower, clockBack, stFreezing, Bool.true_and, Bool.and_eq_true, bne_iff_ne, beq_iff_eq, and_assoc]
    split <;> rfl
  rw [← hf]
  exact congrArg Host.Outcome.next (if_pos hn)

theorem tclkResume_follows (hk : k < numTiles) (hs : s.rill.inService = true) (hn : (tileOf s k).power.noClock = true) (v : Bool) :
    ∃ t, exec (.tclkResume (k, v)) s = .next t ∧ OnlyTile { s with boot := t.boot } t k ∧
      t.boot = { s.boot with
        thrAny := someThr t
        thrAnyAt := if s.boot.thrAny ∧ someThr t = false then now s else s.boot.thrAnyAt } ∧
      tileOf t k = clockBack (now s) v (tileOf s k) := by
  obtain ⟨honly, htile, hboot⟩ := followThr_spec (onTile_onlyTile k (clockBack (now s) v) s)
  exact ⟨_, tclkResume_eq hs hn v, honly, hboot, htile.trans (tileOf_onTile_self _ _ hk)⟩

/-! Before the Rill is in service, and where a row's condition does not hold (log 2) -/

theorem corePwrFall_early (hk : k < numTiles) (hs : s.rill.inService = false) (hp : (tileOf s k).power.pwrOk = true) :
    ∃ t, exec (.corePwrFall k) s = .next t ∧ OnlyTile s t k ∧
      tileOf t k = { tileOf s k with power := { (tileOf s k).power with pwrOk := false, ready := false } } :=
  ⟨_, congrArg Host.Outcome.next ((if_pos hp).trans (if_pos (by rw [inService, hs]; rfl))), onTile_onlyTile _ _ _,
    tileOf_onTile_self _ _ hk⟩

theorem corePwrRise_early (hk : k < numTiles) (hs : s.rill.inService = false) (hp : (tileOf s k).power.pwrOk = false) :
    ∃ t, exec (.corePwrRise k) s = .next t ∧ OnlyTile s t k ∧
      tileOf t k = { tileOf s k with power := { (tileOf s k).power with pwrOk := true } } :=
  ⟨_, congrArg Host.Outcome.next ((if_pos (by rw [decide_eq_true hk, hp]; rfl)).trans (if_pos (by rw [inService, hs]; rfl))),
    onTile_onlyTile _ _ _, tileOf_onTile_self _ _ hk⟩

theorem power_off (hp : (tileOf s k).power.pwrOk = false) : exec (.corePwrFall k) s = .next s ∧
    (∀ b, exec (.darkPendingRise k b) s = .next s) ∧ exec (.darkSaveTimeout k) s = .next s ∧
    ∀ v, exec (.coreTimeRebuilt (k, v)) s = .next s := by
  simp only [exec, execCorePwrFall, execDarkPendingRise, execDarkSaveTimeout, execCoreTimeRebuilt, when, hp, Bool.and_false]
  exact ⟨rfl, fun _ => rfl, rfl, fun _ => rfl⟩

theorem corePwrRise_on (hp : (tileOf s k).power.pwrOk = true) : exec (.corePwrRise k) s = .next s := by
  simp only [exec, execCorePwrRise, when, hp, Bool.not_true, Bool.and_false]
  rfl

theorem tclkResume_runs (hn : (tileOf s k).power.noClock = false) (v : Bool) : exec (.tclkResume (k, v)) s = .next s := by
  simp only [exec, execTclkResume, when, hn]
  rfl

end

/-! VDD_AON_FALL (17 R502) -/

theorem vddAonFall_inReset {s : State} (h : s.boot.inReset = true) : exec .vddAonFall s = .next s := by
  simp only [exec, execVddAonFall, when, h]
  rfl

/-- The part of the hub that loses VDD_AON, but for its tiles. -/
def censusLost (s : State) : State :=
  drawFree (setW1c 0x600 (2 ^ 23) (onRoot (fun r => { r with censusFail := true }) (onBoot (fun b => { b with aonLost := true }) s)))

theorem censusLost_spec (m : Map Tile) (s : State) :
    let t := censusLost { s with tiles := m }
    t.root = { s.root with censusFail := true } ∧ t.boot = { s.boot with aonLost := true, freeCount := s.boot.freeCount + 1 } ∧
    { t with root := s.root, boot := s.boot, tiles := s.tiles, port := s.port } = s ∧ t.tiles = m :=
  ⟨rfl, rfl, rfl, rfl⟩

theorem vddAonFall_eq {s : State} (h : s.boot.inReset = false) :
    exec .vddAonFall s = .next (censusLost { s with tiles := mapBelow {} numTiles (aonTile s.boot.freeCount) s.tiles }) :=
  congrArg Host.Outcome.next (if_pos (by rw [h]; rfl))

theorem vddAonFall_silences {s : State} (h : s.boot.inReset = false) : ∃ t, exec .vddAonFall s = .next t ∧
    t.root = { s.root with censusFail := true } ∧ t.boot = { s.boot with aonLost := true, freeCount := s.boot.freeCount + 1 } ∧
    { t with root := s.root, boot := s.boot, tiles := s.tiles, port := s.port } = s ∧
    ∀ k, k < numTiles → tileOf t k = aonTile s.boot.freeCount k (tileOf s k) := by
  obtain ⟨hroot, hboot, hrest, htiles⟩ := censusLost_spec (mapBelow {} numTiles (aonTile s.boot.freeCount) s.tiles) s
  refine ⟨_, vddAonFall_eq h, hroot, hboot, hrest, fun k hk => ?_⟩
  rw [tileOf, htiles, mget_mapBelow, if_pos hk]
  rfl

/-- Settles O44, row by row; that VDD_AON's fall sets CENSUS_FAIL at once is log 56. -/
theorem tilesLoseAndRegainPower : Obligations.TilesLoseAndRegainPower := by
  refine ⟨fun s k => ⟨power_off, corePwrRise_on⟩, fun s k hk hs => ⟨corePwrFall_early hk hs, corePwrRise_early hk hs⟩, ?_,
    fun s => ⟨vddAonFall_inReset, fun h => ?_⟩⟩
  · intro s k hk hs x
    refine ⟨fun hp => ⟨fun ok => ?_, darkPendingFall_cancels hk hp, darkSaveTimeout_keepsNothing hk hs hp, fun hr => ?_, fun v => ?_⟩,
      fun hp => ?_, thrRegionChange_follows hk, tclkResume_runs, tclkResume_follows hk hs⟩
    · obtain ⟨t, n, y, hexec, ht⟩ := darkPendingRise_saves hk hs hp ok
      refine ⟨t, hexec, ?_⟩
      rw [ht]
      exact ⟨rfl, rfl, rfl, rfl⟩
    · obtain ⟨t, c, st, hg, hexec, ⟨honly, w, hw⟩, hst⟩ := corePwrFall_darkens hk hs hp hr
      have hboot : t.boot = (drawFree s).boot := (congrArg State.boot honly.1 :)
      refine ⟨t, hexec, ?_, hboot, ?_⟩
      · rw [hboot]
        exact honly
      · rw [hw]
        refine ⟨rfl, rfl, rfl, fun hrel => (hst hrel).trans ?_, rfl, rfl, rfl⟩
        simp only [holdSettled, powerLost, darkTile, heldVoided, stopHang, Bool.false_and, bne_iff_ne, stDarkStill, stDark]
        rw [hrel]
    · obtain ⟨t, hexec, ⟨honly, w, hw⟩, heddy⟩ := coreTimeRebuilt_acts hk hs hp v
      exact ⟨t, hexec, honly, heddy, by rw [hw]; rfl⟩
    · obtain ⟨t, hexec, honly, w, hw⟩ := corePwrRise_returns hk hs hp
      refine ⟨t, hexec, honly, ?_⟩
      rw [hw]
      exact ⟨rfl, rfl, rfl, rfl, fun v hv => restoredCount_saved _ hv, rfl, rfl, rfl⟩
  · obtain ⟨t, hexec, hroot, hboot, hrest, htile⟩ := vddAonFall_silences h
    refine ⟨t, hexec, hroot, hboot, hrest, fun k hk => ?_⟩
    rw [htile k hk]
    exact ⟨rfl, rfl, rfl, rfl⟩

end Sys2Proof.Machine
end

section
/-! FP_READ and FP_COMPARE: what they answer, and the outcome of a comparison (08 R263 to R265). -/

namespace Sys2Proof.Machine

/-- An answered request leaves which session is intrusive. -/
theorem isIntrusive_answered {s t : State} {op : Nat} {h : ReqHdr} {st : Status} {body : List Byte}
    (ha : Answered s t op h st body) (id : Nat) : isIntrusive t id = isIntrusive s id := by
  obtain ⟨-, -, ht, hss⟩ := ha
  have hfind : ∀ u : State, isIntrusive u id = ((findSession u id).map (·.intrusive)).getD false := by
    intro u
    unfold isIntrusive
    cases findSession u id <;> rfl
  have htap : t.tap = s.tap := (congrArg State.tap ht :)
  rw [hfind, hfind]
  unfold findSession
  rw [htap]
  split
  · rfl
  · rw [find_unstamped, find_unstamped s.sess.sessions, hss]

/-- A change of the recovery's fields keeps a request answered. -/
theorem Answered.onRec {s t : State} {op : Nat} {h : ReqHdr} {st : Status} {body : List Byte} (f : RecState → RecState)
    (ha : Answered s t op h st body) : Answered (onRec f s) (Machine.onRec f t) op h st body := by
  obtain ⟨hsent, hout, ht, hss⟩ := ha
  refine ⟨hsent, hout, ?_, hss⟩
  have hrec : t.recov = s.recov := (congrArg State.recov ht :)
  have hf := congrArg (fun u : State => { u with recov := f s.recov }) ht
  unfold Machine.onRec
  rw [hrec]
  exact hf

/-! The outcome of a comparison (08 R264) -/

/-- At most one value is held by more than half of a list. -/
theorem majority_unique {vs : List Word} {v w : Word} (hv : vs.length < 2 * (vs.filter (fun x => x == v)).length)
    (hw : vs.length < 2 * (vs.filter (fun x => x == w)).length) : w = v := by
  by_contra hne
  simp only [← List.countP_eq_length_filter] at hv hw
  have hsplit := List.length_eq_countP_add_countP (fun x => x == v) (l := vs)
  have hle : vs.countP (fun x => x == w) ≤ vs.countP (fun x => decide ¬(x == v) = true) :=
    List.countP_mono_left fun x _ hx => by
      rw [beq_iff_eq] at hx
      simp [hx, hne]
  omega

theorem majority_of {vs : List Word} {v : Word} (hv : vs.length < 2 * (vs.filter (fun x => x == v)).length) :
    majority vs = some v := by
  have hmem : v ∈ vs := by
    have hpos : 0 < (vs.filter (fun x => x == v)).length := by omega
    obtain ⟨x, hx⟩ := List.exists_mem_of_length_pos hpos
    obtain ⟨hx, hxv⟩ := List.mem_filter.1 hx
    rwa [beq_iff_eq.1 hxv] at hx
  have hfound : (majority vs).isSome = true := by
    unfold majority
    exact List.find?_isSome.2 ⟨v, hmem, decide_eq_true hv⟩
  obtain ⟨w, hw⟩ := Option.isSome_iff_exists.1 hfound
  have hw' : vs.length < 2 * (vs.filter (fun x => x == w)).length := of_decide_eq_true (List.find?_some hw :)
  rw [hw, majority_unique hv hw']

theorem majority_none {vs : List Word} (h : ∀ v, 2 * (vs.filter (fun x => x == v)).length ≤ vs.length) : majority vs = none :=
  List.find?_eq_none.2 fun v _ => by simpa using h v

theorem fpOutcome_incomplete {own : FpRecord} (peers : List FpRecord) (h : fpComplete own = false) : fpOutcome own peers = 4 :=
  if_pos (by rw [h]; rfl)

section
variable {own : FpRecord} {peers : List FpRecord} (hc : fpComplete own = true)
include hc

theorem fpOutcome_agree (h : ∀ v ∈ (peers.filter (fpCounts own)).map (·.fingerprint), v = own.fingerprint) :
    fpOutcome own peers = 0 := by
  unfold fpOutcome
  rw [if_neg (by simp [hc]), if_pos (List.all_eq_true.2 fun v hv => beq_iff_eq.2 (h v hv))]

/-- Where a comparable peer differs, the majority decides. -/
theorem fpOutcome_differ (h : ∃ v ∈ (peers.filter (fpCounts own)).map (·.fingerprint), v ≠ own.fingerprint) :
    fpOutcome own peers = (majority (own.fingerprint :: (peers.filter (fpCounts own)).map (·.fingerprint))).elim 3
      (fun v => if v = own.fingerprint then 1 else 2) := by
  obtain ⟨v, hv, hne⟩ := h
  unfold fpOutcome
  rw [if_neg (by simp [hc]), if_neg fun hall => hne (beq_iff_eq.1 (List.all_eq_true.1 hall v hv))]
  cases majority (own.fingerprint :: (peers.filter (fpCounts own)).map (·.fingerprint)) <;> rfl

end

/-- With outcomes SELF_DEVIANT and UNRESOLVED the answer ends with the key and the differing values (log 127). -/
theorem compareBody_deviant {own : FpRecord} {peers : List FpRecord} (h : fpOutcome own peers = 2 ∨ fpOutcome own peers = 3) :
    ∃ b, compareBody own peers = b ++ (padTo 4 (le 2 own.group) ++ le 4 own.tensor ++ padTo 8 (le 4 own.step) ++
      (fpDiffering own peers).flatMap (fun v => le 8 v.toNat)) := by
  have hd : deviantBody own peers = padTo 4 (le 2 own.group) ++ le 4 own.tensor ++ padTo 8 (le 4 own.step) ++
      (fpDiffering own peers).flatMap (fun v => le 8 v.toNat) := if_pos (by simpa using h)
  exact ⟨_, congrArg (_ ++ ·) hd⟩

section
variable {s : State} {h : ReqHdr} (ho : AsObserver s h)
include ho

/-! FP_READ (08 R263, 13 R430) -/

theorem fpRead_answered {n : Nat} (g tensor : Nat) (hs : s.cfg.skS = false) (hn : n ≠ 0) :
    ∃ t, exec (.fpRead h g n tensor) s = .next t ∧ Answered s t 0x60 h .ok
      ((lastN n (s.census.fpRing.filter (fun r => r.group == g && (tensor == 0 || r.tensor == tensor)))).flatMap fpBytes) := by
  refine ok_request { op := 0x60, classC := false } h _ _ s s .ok _ ho.1 (obs_allowed ho _ rfl) (fun as => pick_none _ ?_) rfl
    (fun w hw => ⟨w, hw, ?_⟩)
  · simp [absent, emptyIf, hs, hn]
  · obtain ⟨g, rfl⟩ := hw.eq_onSess
    rfl

theorem fpRead_absent (g n tensor : Nat) (hs : s.cfg.skS = true) :
    ∃ t, exec (.fpRead h g n tensor) s = .next t ∧ Answered s t 0x60 h .absent (detail {}) := by
  refine bad_request { op := 0x60, classC := false } h _ _ s (absent true) ho.1 (obs_allowed ho _ rfl) (fun as => ?_)
  rw [hs]
  exact pick_first rfl (by simp [absent, emptyIf, statusRank])

theorem fpRead_none (g tensor : Nat) (hs : s.cfg.skS = false) :
    ∃ t, exec (.fpRead h g 0 tensor) s = .next t ∧ Answered s t 0x60 h .empty [] := by
  refine bad_request { op := 0x60, classC := false } h _ _ s (emptyIf true) ho.1 (obs_allowed ho _ rfl) (fun as => ?_)
  rw [hs]
  rfl

/-! FP_COMPARE (08 R264, R265) -/

/-- What FP_COMPARE is checked for. -/
def compareChecks (g tensor step : Nat) (peers : List FpRecord) (s : State) : List Check :=
  [badField (decide (63 < peers.length)) 2, absent s.cfg.skS, refuse (ownFp s g tensor step).isNone, emptyIf peers.isEmpty]

section
variable {g tensor step : Nat} {own : FpRecord} (hs : s.cfg.skS = false) (hown : ownFp s g tensor step = some own)
include hs hown

omit ho in
theorem compareChecks_good {peers : List FpRecord} (hne : peers ≠ []) (hlen : peers.length ≤ 63) :
    pick (compareChecks g tensor step peers s) = none := by
  refine pick_none _ ?_
  simp [compareChecks, badField, absent, refuse, emptyIf, hs, hown, hne, hlen]

theorem fpCompare_acts {peers : List FpRecord} (hne : peers ≠ []) (hlen : peers.length ≤ 63) :
    ∃ t, Answered s t 0x61 h .ok (compareBody own peers) ∧ exec (.fpCompare h g tensor step peers) s =
      .next (if (fpOutcome own peers = 2 || fpOutcome own peers = 3) && isIntrusive s h.session then raiseSdc own peers t else t) := by
  obtain ⟨w, hw, hexec⟩ := request_acts { op := 0x61, classC := true } h (fun _ => compareChecks g tensor step peers) _ s ho.1
    (obs_allowed ho _ rfl) fun as => compareChecks_good (s := { s with sess := { s.sess with assembling := as } }) hs hown hne hlen
  have ha := taken_answered s w 0x61 h .ok (compareBody own peers) ho.1.notMailbox ho.1.tagFree hw
  have hown' : ownFp w g tensor step = some own := by
    obtain ⟨f, rfl⟩ := hw.eq_onSess
    exact hown
  refine ⟨_, ha, Eq.trans hexec ?_⟩
  rw [hown', ← isIntrusive_answered ha]

/-- Unless it is the intrusive session's and SELF_DEVIANT or UNRESOLVED, a comparison is answered and changes nothing. -/
theorem fpCompare_reports {peers : List FpRecord} (hne : peers ≠ []) (hlen : peers.length ≤ 63)
    (hq : (fpOutcome own peers ≠ 2 ∧ fpOutcome own peers ≠ 3) ∨ isIntrusive s h.session = false) :
    ∃ t, exec (.fpCompare h g tensor step peers) s = .next t ∧ Answered s t 0x61 h .ok (compareBody own peers) := by
  obtain ⟨t, ha, hexec⟩ := fpCompare_acts ho hs hown hne hlen
  refine ⟨t, hexec.trans (congrArg Host.Outcome.next (if_neg ?_)), ha⟩
  rcases hq with ⟨h2, h3⟩ | hi
  · simp [h2, h3]
  · simp [hi]

/-- The state in which SDC's key and the values of a comparison are kept (08 R264). -/
def sdcKept (own : FpRecord) (peers : List FpRecord) : State → State :=
  onRec (fun r => { r with sdcKey := some (own.group, own.tensor, own.step), sdcValues := own.fingerprint :: fpDiffering own peers })

/-- SELF_DEVIANT and UNRESOLVED in the intrusive session keep the key and the values and raise class 5. -/
theorem fpCompare_raises {peers : List FpRecord} (hne : peers ≠ []) (hlen : peers.length ≤ 63)
    (hq : fpOutcome own peers = 2 ∨ fpOutcome own peers = 3) (hi : isIntrusive s h.session = true) :
    ∃ v, exec (.fpCompare h g tensor step peers) s = .next (raiseClass 5 v) ∧
      Answered (sdcKept own peers s) v 0x61 h .ok (compareBody own peers) := by
  obtain ⟨t, ha, hexec⟩ := fpCompare_acts ho hs hown hne hlen
  exact ⟨sdcKept own peers t, hexec.trans (congrArg Host.Outcome.next (if_pos (by simp [hq, hi]))), ha.onRec _⟩

theorem fpCompare_none : ∃ t, exec (.fpCompare h g tensor step []) s = .next t ∧ Answered s t 0x61 h .empty [] := by
  refine bad_request { op := 0x61, classC := true } h _ _ s (emptyIf true) ho.1 (obs_allowed ho _ rfl) (fun as => ?_)
  have hown' : ownFp { s with sess := { s.sess with assembling := as } } g tensor step = some own := hown
  rw [hown', hs]
  rfl

end

end

end Sys2Proof.Machine
end

section
/-! What a class that the centre raises leaves of SK_ALARM's raised bits: nothing that the root does on accepting a class clears one
(02 R78; 05 R158 to R162). Most of it leaves the whole alarm root as it is. -/

namespace Sys2Proof.Machine

@[simp] theorem ite_alarm {c : Prop} {_ : Decidable c} (a b : State) :
    (if c then a else b).alarm = if c then a.alarm else b.alarm := apply_ite State.alarm c a b

@[simp] theorem ite_raised {c : Prop} {_ : Decidable c} (a b : AlarmState) :
    (if c then a else b).raised = if c then a.raised else b.raised := apply_ite AlarmState.raised c a b

@[simp] theorem foldl_alarm {α : Type} (f : State → α → State) (hf : ∀ s a, (f s a).alarm = s.alarm) (l : List α) (s : State) :
    (l.foldl f s).alarm = s.alarm :=
  List.foldlRecOn (motive := fun t : State => t.alarm = s.alarm) l f rfl fun t ht a _ => (hf t a).trans ht

/-! Answers, the queue, records and marks -/

@[simp] theorem setW1c_alarm (o m : Nat) (s : State) : (setW1c o m s).alarm = s.alarm := rfl

@[simp] theorem respond_alarm (h : ReqHdr) (st : Status) (body : List Byte) (s : State) : (respond h st body s).alarm = s.alarm := by
  unfold respond
  split <;> simp [send, mboxSend, portSend]

@[simp] theorem respondOpt_alarm (h : Option ReqHdr) (st : Status) (body : List Byte) (s : State) :
    (respondOpt h st body s).alarm = s.alarm := by
  cases h <;> simp [respondOpt]

@[simp] theorem unqueue_alarm (p : StillAction → Bool) (s : State) : (unqueue p s).alarm = s.alarm := rfl
@[simp] theorem enqueue_alarm (kind scope tick origin txn : Nat) (s : State) : (enqueue kind scope tick origin txn s).alarm = s.alarm :=
  rfl
@[simp] theorem queueRelease_alarm (origin : Nat) (s : State) : (queueRelease origin s).alarm = s.alarm := by
  simp [queueRelease, enqueueOwn]
@[simp] theorem dropStep_alarm (s : State) : (dropStep s).alarm = s.alarm := by rw [dropStep_eq]
@[simp] theorem dropReleases_alarm (s : State) : (dropReleases s).alarm = s.alarm := by simp [dropReleases]
@[simp] theorem beginMark_alarm (s : State) : (beginMark s).alarm = s.alarm := by simp [beginMark]

@[simp] theorem launchStillAt_alarm (scope l : Nat) (s : State) : (launchStillAt scope l s).alarm = s.alarm := by
  unfold launchStillAt
  dsimp only
  split
  · rfl
  · split
    · rw [beginMark_alarm]; rfl
    · rfl

@[simp] theorem launchAlarmStill_alarm (scope : Nat) (s : State) : (launchAlarmStill scope s).2.alarm = s.alarm := by
  unfold launchAlarmStill
  split <;> simp

/-! Recoveries (12 R371, R391) -/

@[simp] theorem closeCrash_alarm (s : State) : (closeCrash s).alarm = s.alarm := by
  unfold closeCrash
  split
  · rfl
  · simp [putWellHead, wellPut]

@[simp] theorem setOutcome_alarm (outcome : Nat) (s : State) : (setOutcome outcome s).alarm = s.alarm := by
  unfold setOutcome
  rw [event_alarm, closeCrash_alarm]
  split <;> rfl

@[simp] theorem endRecovery_raised (outcome : Nat) (s : State) : (endRecovery outcome s).alarm.raised = s.alarm.raised := by
  simp [endRecovery]
@[simp] theorem mendMapFailed_raised (s : State) : (mendMapFailed s).alarm.raised = s.alarm.raised := by simp [mendMapFailed]
@[simp] theorem beginRecovery_alarm (c : Nat) (s : State) : (beginRecovery c s).alarm = s.alarm := rfl
@[simp] theorem restartRecovery_alarm (s : State) : (restartRecovery s).alarm = s.alarm := by simp [restartRecovery]
@[simp] theorem recordOutcome_alarm (cs : BitVec 16) (s : State) : (recordOutcome cs s).alarm = s.alarm := by rw [recordOutcome_frame]
@[simp] theorem traceTrigger_alarm (cs : BitVec 16) (s : State) : (traceTrigger cs s).alarm = s.alarm := by rw [traceTrigger_frame]

@[simp] theorem joinRecovery_raised (cs : BitVec 16) (s : State) : (joinRecovery cs s).alarm.raised = s.alarm.raised := by
  simp [joinRecovery]

/-! Transactions (06 R201 to R206) -/

@[simp] theorem closeTxn_alarm (st : Status) (body : List Byte) (s : State) : (closeTxn st body s).alarm = s.alarm := by
  unfold closeTxn
  split <;> simp

@[simp] theorem dropPurpose_alarm (p : Nat) (s : State) : (dropPurpose p s).alarm = s.alarm := by
  unfold dropPurpose
  split <;> rfl

@[simp] theorem nextCentre_alarm (s : State) : (nextCentre s).alarm = s.alarm := by
  unfold nextCentre
  split
  · split <;> rfl
  · rfl

@[simp] theorem rinseTargets_alarm (id : Nat) (ks : List Nat) (s : State) : (rinseTargets id ks s).alarm = s.alarm :=
  foldl_alarm (fun s k => rinseStub id k s) (fun s k => (congrArg State.alarm (rinseStub_onlyTile id k s).1 :)) ks s

@[simp] theorem closeRinsed_raised (cause : Nat) (x : Txn) (s : State) : (closeRinsed cause x s).alarm.raised = s.alarm.raised := by
  simp [closeRinsed]

@[simp] theorem rinseWith_raised (cause : Nat) (answered : Bool) (s : State) :
    (rinseWith cause answered s).alarm.raised = s.alarm.raised := by
  unfold rinseWith
  split <;> simp

@[simp] theorem rinseForAlarm_raised (s : State) : (rinseForAlarm s).alarm.raised = s.alarm.raised := by
  unfold rinseForAlarm
  split
  · rfl
  · simp [rinseTxn]

@[simp] theorem fixedTxn_alarm (s : State) : (fixedTxn s).alarm = s.alarm := by
  unfold fixedTxn
  split
  · rfl
  · simp

/-! Snapshots (11 R333 to R338, R362) -/

@[simp] theorem freeSlots_alarm (s : State) : (freeSlots s).alarm = s.alarm := by simp [freeSlots, setResLow]
@[simp] theorem recomputeCurrent_alarm (s : State) : (recomputeCurrent s).alarm = s.alarm := by simp [recomputeCurrent, onPond]
@[simp] theorem startTake_alarm (id kind : Nat) (autoRel own forced : Bool) (t : Nat) (reply : Option ReqHdr) (s : State) :
    (startTake id kind autoRel own forced t reply s).alarm = s.alarm := by simp [startTake, retirePond, onPond]

@[simp] theorem releaseAfter_raised (k : SnapTake) (s : State) : (releaseAfter k s).alarm.raised = s.alarm.raised := by
  unfold releaseAfter
  split <;> simp [snapActionDone]

@[simp] theorem breakSnap_raised (cause : Nat) (s : State) : (breakSnap cause s).alarm.raised = s.alarm.raised := by
  unfold breakSnap
  split
  · rfl
  · simp [reportBreak, endLogs, onPond]

@[simp] theorem alarmSnap_raised (skip : Bool) (s : State) : (alarmSnap skip s).alarm.raised = s.alarm.raised := by simp [alarmSnap]

/-! Actions (05 R159 to R162) -/

@[simp] theorem actOnStill_raised (r : AlarmAction) (strag : Bool) (s : State) : (actOnStill r strag s).alarm.raised = s.alarm.raised := by
  simp [actOnStill]
@[simp] theorem startAction_raised (c act : Nat) (s : State) : (startAction c act s).alarm.raised = s.alarm.raised := by
  simp [startAction, apply_ite Prod.snd]
@[simp] theorem abandonAction_raised (s : State) : (abandonAction s).alarm.raised = s.alarm.raised := by
  unfold abandonAction
  split <;> simp
@[simp] theorem startFixed_raised (s : State) : (startFixed s).alarm.raised = s.alarm.raised := by simp [startFixed]
@[simp] theorem clearWay_raised (act : Nat) (s : State) : (clearWay act s).alarm.raised = s.alarm.raised := by simp [clearWay]

@[simp] theorem decodeAction_raised (c act : Nat) (s : State) : (decodeAction c act s).alarm.raised = s.alarm.raised := by
  unfold decodeAction
  split
  · rfl
  · split
    · simp
    · split <;> simp

/-- An enabled root keeps the bits of the classes that it accepts. -/
theorem acceptClasses_raised {cs : BitVec 16} {s : State} (he : s.alarm.enabled = true) :
    (acceptClasses cs s).alarm.raised = s.alarm.raised ||| cs := by
  by_cases hc : cs = 0
  · subst hc
    simp [acceptClasses]
  · rw [acceptClasses, if_neg (by rw [he, beq_eq_false_iff_ne.2 hc]; decide)]
    simp

theorem raiseClass_raised {c : Nat} {s : State} (hc : c < 16) (he : s.alarm.enabled = true) :
    (raiseClass c s).alarm.raised.getLsbD c = true := by
  have hset : c ∈ classList (1 <<< c) := by rw [classList_single hc, List.mem_singleton]
  rw [raiseClass, acceptClasses_raised he, BitVec.getLsbD_or, (mem_classList.1 hset).2, Bool.or_true]

/-! The obligation -/

/-- Settles O58: a comparison's answer, the class that the intrusive session's raises and its bit, and the conditions of requests
without records. -/
theorem comparisonsRaiseByRight : Obligations.ComparisonsRaiseByRight := by
  intro s h g tensor step peers own ho hs hown
  refine ⟨fun hne hlen => ⟨fun hi => fpCompare_reports ho hs hown hne hlen (.inr hi), fun hi => ?_⟩, fpCompare_none ho hs hown,
    fpRead_none ho g tensor hs⟩
  by_cases hq : fpOutcome own peers = 2 ∨ fpOutcome own peers = 3
  · obtain ⟨v, hexec, ha⟩ := fpCompare_raises ho hs hown hne hlen hq hi
    have halarm : v.alarm = s.alarm := (congrArg State.alarm ha.2.2.1 :)
    exact ⟨_, hexec, fun _ => ⟨v, rfl, ha.1, fun he => raiseClass_raised (by decide) (halarm ▸ he)⟩,
      fun h2 h3 => absurd hq (by simp [h2, h3])⟩
  · obtain ⟨h2, h3⟩ := not_or.1 hq
    obtain ⟨t, hexec, ha⟩ := fpCompare_reports ho hs hown hne hlen (.inl ⟨h2, h3⟩)
    exact ⟨t, hexec, fun h => absurd h hq, fun _ _ => ha⟩

end Sys2Proof.Machine
end

section
/-! SYM_LOAD and PMAP_LOAD: records put in place by their key, and what a new BUILD empties (09 R276 to R279). -/

namespace Sys2Proof.Machine

/-! Putting a record in its place (09 R279) -/

section
variable {α β : Type} [BEq β] [LawfulBEq β] {same : α → α → Bool} {key : α → β} (hkey : ∀ a b, same a b = (key a == key b))
include hkey

theorem mem_putRecord_self (l : List α) (r : α) : r ∈ putRecord same l r := by
  have hself : same r r = true := by rw [hkey, beq_self_eq_true]
  unfold putRecord
  split
  · next h =>
    obtain ⟨x, hx, hs⟩ := List.any_eq_true.1 h
    exact List.mem_map.2 ⟨x, hx, if_pos hs⟩
  · simp

theorem mem_putRecord_other {l : List α} {r q : α} (h : key q ≠ key r) : q ∈ putRecord same l r ↔ q ∈ l := by
  have hq : same r q = false := by rw [hkey, beq_eq_false_iff_ne]; exact h.symm
  have hr : q ≠ r := fun heq => h (congrArg key heq)
  unfold putRecord
  split
  · rw [List.mem_map]
    constructor
    · rintro ⟨x, hx, rfl⟩
      by_cases hs : same r x = true
      · rw [if_pos hs] at hr
        exact absurd rfl hr
      · rwa [if_neg hs]
    · exact fun hm => ⟨q, hm, if_neg (by simp [hq])⟩
  · simp [hr]

end

theorem length_putRecord {α : Type} (same : α → α → Bool) (l : List α) (r : α) :
    (putRecord same l r).length = l.length + if l.any (same r) then 0 else 1 := by
  unfold putRecord
  split <;> simp

theorem length_putRecord_le {α : Type} (same : α → α → Bool) (l : List α) (r : α) : (putRecord same l r).length ≤ l.length + 1 := by
  rw [length_putRecord]
  split <;> omega

theorem sameSym_eq (a b : SymRecord) : sameSym a b = (a.tensor == b.tensor) := rfl

theorem sameMap_eq (a b : MapRecord) : sameMap a b = ((a.tensor, a.ltn) == (b.tensor, b.ltn)) := rfl

/-! SYM_LOAD (09 R276, R277, R279) -/

/-- What SYM_LOAD of one record is checked for. -/
def symChecks (b : Nat) (r : SymRecord) (s : State) : List Check :=
  [badField (decide (12 < r.fmt)) 0, busy (capturing s), refuse (decide (16384 < (putRecord sameSym (heldSyms s b) r).length)),
    emptyIf false]

/-- The state once one symbol record is loaded. -/
def symLoaded (b : Nat) (r : SymRecord) : State → State := fun s =>
  onPlans (fun p => { p with build := b, symbols := putRecord sameSym (heldSyms s b) r, pmap := heldMap s b }) s

theorem symLoad_eq (h : ReqHdr) (b : Nat) (r : SymRecord) (s : State) : exec (.symLoad h b [r]) s =
    request { op := 0x62, classC := true } h (fun _ => symChecks b r) (fun h s => respond h .ok [] (symLoaded b r s)) s := rfl

/-! PMAP_LOAD (09 R276, R278, R279) -/

/-- What PMAP_LOAD of one record is checked for. -/
def pmapChecks (b : Nat) (r : MapRecord) (s : State) : List Check :=
  [badField (sliceBad r.slice || decide (345600 ≤ r.ltn)) 0, busy (capturing s),
    refuse (!(heldSyms s b).any (fun x => x.tensor == r.tensor)) 0,
    refuse (decide (209715 < (putRecord sameMap (heldMap s b) r).length)), emptyIf false]

/-- The state once one map record is loaded. -/
def pmapLoaded (b : Nat) (r : MapRecord) : State → State := fun s =>
  onPlans (fun p => { p with build := b, symbols := heldSyms s b, pmap := putRecord sameMap (heldMap s b) r }) s

theorem pmapLoad_eq (h : ReqHdr) (b : Nat) (r : MapRecord) (s : State) : exec (.pmapLoad h b [r]) s =
    request { op := 0x63, classC := true } h (fun _ => pmapChecks b r) (fun h s => respond h .ok [] (pmapLoaded b r s)) s := rfl

section
variable {s : State} {h : ReqHdr} (ho : AsObserver s h) (b : Nat)
include ho

section
variable {r : SymRecord} (hf : r.fmt ≤ 12)
include hf

theorem symLoad_answered (hc : capturing s = false) (hroom : (heldSyms s b).length < 16384) :
    ∃ t, exec (.symLoad h b [r]) s = .next t ∧ Answered (symLoaded b r s) t 0x62 h .ok [] := by
  rw [symLoad_eq]
  refine effect_request { op := 0x62, classC := true } h (fun _ => symChecks b r) _ s (symLoaded b r) [] ho.1 (obs_allowed ho _ rfl)
    (fun as => pick_none (symChecks b r s) ?_) (fun _ _ => rfl) rfl (fun _ => rfl)
  have hlen := length_putRecord_le sameSym (heldSyms s b) r
  have hfits : ¬16384 < (putRecord sameSym (heldSyms s b) r).length := by omega
  simp [symChecks, badField, busy, refuse, emptyIf, hc, hf, hfits]

theorem symLoad_busy (hc : capturing s = true) :
    ∃ t, exec (.symLoad h b [r]) s = .next t ∧ Answered s t 0x62 h .busy (detail {}) := by
  rw [symLoad_eq]
  refine bad_request { op := 0x62, classC := true } h (fun _ => symChecks b r) _ s (busy true) ho.1 (obs_allowed ho _ rfl)
    (fun as => (?_ : pick (symChecks b r s) = _))
  rw [symChecks, ← List.singleton_append, pick_good _ _ (by simp [badField, hf]), hc]
  exact pick_first rfl (by simp [busy, refuse, emptyIf, statusRank])

end

section
variable {r : MapRecord} (hsl : sliceBad r.slice = false) (hl : r.ltn < 345600)
include hsl hl

omit ho in
/-- A sound map record is judged by the conditions that come after those of its form. -/
theorem pmapChecks_sound : pick (pmapChecks b r s) = pick (busy (capturing s) ::
    refuse (!(heldSyms s b).any (fun x => x.tensor == r.tensor)) 0 ::
    [refuse (decide (209715 < (putRecord sameMap (heldMap s b) r).length)), emptyIf false]) := by
  rw [pmapChecks, ← List.singleton_append, pick_good _ _ (by simp [badField, hsl, hl])]

theorem pmapLoad_answered (hc : capturing s = false) (ht : (heldSyms s b).any (fun q => q.tensor == r.tensor) = true)
    (hroom : (heldMap s b).length < 209715) :
    ∃ t, exec (.pmapLoad h b [r]) s = .next t ∧ Answered (pmapLoaded b r s) t 0x63 h .ok [] := by
  rw [pmapLoad_eq]
  refine effect_request { op := 0x63, classC := true } h (fun _ => pmapChecks b r) _ s (pmapLoaded b r) [] ho.1
    (obs_allowed ho _ rfl) (fun as => (?_ : pick (pmapChecks b r s) = _)) (fun _ _ => rfl) rfl (fun _ => rfl)
  have hlen := length_putRecord_le sameMap (heldMap s b) r
  have hfits : ¬209715 < (putRecord sameMap (heldMap s b) r).length := by omega
  rw [pmapChecks_sound b hsl hl, pick_none]
  simp [busy, refuse, emptyIf, hc, ht, hfits]

theorem pmapLoad_busy (hc : capturing s = true) :
    ∃ t, exec (.pmapLoad h b [r]) s = .next t ∧ Answered s t 0x63 h .busy (detail {}) := by
  rw [pmapLoad_eq]
  refine bad_request { op := 0x63, classC := true } h (fun _ => pmapChecks b r) _ s (busy true) ho.1 (obs_allowed ho _ rfl)
    (fun as => (?_ : pick (pmapChecks b r s) = _))
  rw [pmapChecks_sound b hsl hl, hc]
  exact pick_first rfl (by simp [busy, refuse, emptyIf, statusRank])

/-- A map record of a tensor without a symbol record is refused. -/
theorem pmapLoad_refused (hc : capturing s = false) (ht : (heldSyms s b).any (fun q => q.tensor == r.tensor) = false) :
    ∃ t, exec (.pmapLoad h b [r]) s = .next t ∧ Answered s t 0x63 h .refused (detail { reason := 0x12 }) := by
  rw [pmapLoad_eq]
  refine bad_request { op := 0x63, classC := true } h (fun _ => pmapChecks b r) _ s (refuse true) ho.1 (obs_allowed ho _ rfl)
    (fun as => (?_ : pick (pmapChecks b r s) = _))
  rw [pmapChecks_sound b hsl hl, hc, ht, ← List.singleton_append, pick_good _ _ (by simp [busy])]
  exact pick_first rfl (by simp [refuse, emptyIf, statusRank])

end

end

/-! The obligation -/

/-- Settles O27: what the records' requests answer, the outcomes by their majority, and what one loaded record changes. The layout of the
key and the differing values is log 127. -/
theorem fingerprintsAndSymbols : Obligations.FingerprintsAndSymbols := by
  refine ⟨⟨fun s h g n tensor ho => ⟨fpRead_answered ho g tensor, fpRead_absent ho g n tensor⟩,
    fun s h g tensor step peers own ho hs hne hlen hown => ⟨fpCompare_reports ho hs hown hne hlen, compareBody_deviant, ?_⟩,
    fun own peers => ⟨fpOutcome_incomplete peers, fpOutcome_agree, fun hc hd => ⟨fun v hv => ?_, fun hv => ?_⟩⟩⟩,
    fun s h b ho => ⟨fun r hf => ⟨fun hc hroom => ?_, symLoad_busy ho b hf⟩,
      fun r hsl hl => ⟨fun hc ht hroom => ?_, pmapLoad_busy ho b hsl hl, pmapLoad_refused ho b hsl hl⟩⟩⟩
  · intro hq hi
    obtain ⟨v, hexec, ha⟩ := fpCompare_raises ho hs hown hne hlen hq hi
    exact ⟨_, v, hexec, rfl, ha⟩
  · exact (fpOutcome_differ hc hd).trans (congrArg (fun m => Option.elim m 3 _) (majority_of (vs := own.fingerprint :: _) hv))
  · exact (fpOutcome_differ hc hd).trans (congrArg (fun m => Option.elim m 3 _) (majority_none (vs := own.fingerprint :: _) hv))
  · obtain ⟨t, hexec, ha⟩ := symLoad_answered ho b hf hc hroom
    refine ⟨t, _, hexec, ha, mem_putRecord_self sameSym_eq _ r, fun q hq => mem_putRecord_other sameSym_eq hq, ?_⟩
    have hflip : sameSym r = fun q => q.tensor == r.tensor := funext fun q => BEq.comm
    rw [length_putRecord, hflip]
    rfl
  · obtain ⟨t, hexec, ha⟩ := pmapLoad_answered ho b hsl hl hc ht hroom
    exact ⟨t, _, hexec, ha, mem_putRecord_self sameMap_eq _ r, fun q hq => mem_putRecord_other sameMap_eq hq⟩

end Sys2Proof.Machine
end

section
/-! Writes into a tile's SRAM, and the lines and descriptors of a core without a watch plan (08 R245, R266 to R268; 07 R213; 04 R123). -/

namespace Sys2Proof.Machine

/-! Without a watch plan no slot takes a line (08 R249, 09 R283) -/

theorem bankWord_none {c : Core} (h : activeBank c = []) (i : Nat) : bankWord c i = 0 := by
  rw [bankWord, h]
  rfl

theorem dipLine_noBank {s : State} {k : Nat} (n : Nat) (q : Desc) (l : SnoopLine) (h : NoBank s k) : dipLine k n q l s = s := by
  have hen : (dipCfg (tileOf s k).core n).en = false := by
    simp only [dipCfg, dipReg, bankWord_none h]
    rfl
  refine if_pos ?_
  rw [dipWants, hen]
  rfl

theorem capLine_noBank {s : State} {k : Nat} (n : Nat) (q : Desc) (l : SnoopLine) (h : NoBank s k) : capLine k n q l s = s := by
  have hen : (capCfg (tileOf s k).core n).en = false := by
    simp only [capCfg, capReg, bankWord_none h]
    rfl
  refine if_pos ?_
  rw [capWants, hen]
  simp

/-- What leaves a state as it is does so however often it is done. -/
theorem foldl_fixed {α : Type} {f : State → α → State} {s : State} (l : List α) (h : ∀ a, f s a = s) : l.foldl f s = s := by
  induction l with
  | nil => rfl
  | cons a l ih => rw [List.foldl_cons, h, ih]

theorem takeLine_noBank {s : State} {k : Nat} (q : Desc) (l : SnoopLine) (h : NoBank s k) : takeLine k q l s = s := by
  have hdips : (List.range 4).foldl (fun s n => dipLine k n q l s) s = s := foldl_fixed _ fun n => dipLine_noBank n q l h
  unfold takeLine
  rw [hdips]
  exact foldl_fixed _ fun n => capLine_noBank n q l h

theorem noBank_onCore {s : State} {k : Nat} {f : Core → Core} (hk : k < numTiles)
    (hf : activeBank (f (tileOf s k).core) = activeBank (tileOf s k).core) (h : NoBank s k) : NoBank (onCore k f s) k := by
  rw [NoBank, tileOf_onCore_self f s hk]
  exact hf.trans h

theorem onCore_onlyTile (k : Nat) (f : Core → Core) (s : State) : OnlyTile s (onCore k f s) k := onTile_onlyTile _ _ _

/-! The bytes of a write (08 R245) -/

theorem mget_foldl_mput_if {α : Type} [DecidableEq α] (d : α) (p : Nat → Bool) (f : Nat → α) (a n j : Nat) (m : Map α) :
    mget d ((List.range n).foldl (fun m i => if p i then mput d m (a + i) (f i) else m) m) j =
      if a ≤ j ∧ j < a + n ∧ p (j - a) = true then f (j - a) else mget d m j := by
  induction n with
  | zero =>
    rw [if_neg (by omega)]
    rfl
  | succ n ih =>
    have hlast : mget d (if p n then mput d ((List.range n).foldl (fun m i => if p i then mput d m (a + i) (f i) else m) m) (a + n) (f n)
        else (List.range n).foldl (fun m i => if p i then mput d m (a + i) (f i) else m) m) j =
        if j = a + n ∧ p n = true then f n
        else mget d ((List.range n).foldl (fun m i => if p i then mput d m (a + i) (f i) else m) m) j := by
      by_cases hp : p n = true
      · simp only [hp, if_true, mget_mput, and_true]
      · rw [if_neg hp, if_neg (fun h => hp h.2)]
    rw [List.range_succ, List.foldl_append, List.foldl_cons, List.foldl_nil, hlast, ih]
    by_cases hj : j = a + n
    · subst hj
      simp
    · have hin : j < a + (n + 1) ↔ j < a + n := by omega
      simp only [hj, false_and, if_false, hin]

theorem mget_writeSram (w : SnoopLine) (x : Tile) (a : Nat) : mget 0 (writeSram w x).engine.sram a =
    if 64 * w.line ≤ a ∧ a < 64 * w.line + 64 ∧ w.be.getLsbD (a - 64 * w.line) = true
    then w.data.extractLsb' (8 * (a - 64 * w.line)) 8 else mget 0 x.engine.sram a :=
  mget_foldl_mput_if 0 (fun i => w.be.getLsbD i) (fun i => w.data.extractLsb' (8 * i) 8) (64 * w.line) 64 a x.engine.sram

/-! A tagged line (08 R267) -/

/-- The core once a line waits for its descriptor. -/
def lineWaits (w : SnoopLine) (c : Core) : Core :=
  { c with dip := { c.dip with waitq := c.dip.waitq ++ [w], queuePeak := max c.dip.queuePeak (c.dip.waitq.length + 1) } }

/-- The core once a line has met its descriptor, or waits for one. -/
def lineTagged (w : SnoopLine) (c : Core) : Core := if (descOf c w.tag).isSome then countLines w.tag 1 c else lineWaits w c

/-- Either way the line changes the dips' part of the core alone. -/
theorem lineTagged_rest (w : SnoopLine) (c : Core) : { c with dip := (lineTagged w c).dip } = lineTagged w c := by
  unfold lineTagged
  split <;> rfl

theorem tagLine_noBank {s : State} {k : Nat} (w : SnoopLine) (hk : k < numTiles) (hb : NoBank s k)
    (hq : (tileOf s k).core.dip.waitq.length < 16) :
    OnlyTile s (tagLine k w s) k ∧ tileOf (tagLine k w s) k = { tileOf s k with core := lineTagged w (tileOf s k).core } := by
  cases hd : descOf (tileOf s k).core w.tag with
  | some q =>
    have ht : tagLine k w s = onCore k (countLines w.tag 1) s := by
      unfold tagLine
      rw [hd]
      exact takeLine_noBank q w (noBank_onCore hk rfl hb)
    rw [ht, tileOf_onCore_self _ _ hk, lineTagged, hd]
    exact ⟨onCore_onlyTile _ _ _, rfl⟩
  | none =>
    have ht : tagLine k w s = onCore k (lineWaits w) s := by
      unfold tagLine
      rw [hd, if_neg (by omega)]
      rfl
    rw [ht, tileOf_onCore_self _ _ hk, lineTagged, hd]
    exact ⟨onCore_onlyTile _ _ _, rfl⟩

/-- The tile once its SRAM has taken a write. -/
def written (w : SnoopLine) (x : Tile) : Tile :=
  { writeSram w x with core := if w.tag = 0 then x.core else lineTagged w x.core }

theorem written_core {w : SnoopLine} (x : Tile) (h : w.tag ≠ 0) : (written w x).core = lineTagged w x.core := if_neg h

/-! Descriptors (08 R266 to R268) -/

/-- The descriptor that DESC_ARRIVE enters. -/
def entered (e : DescIn) (c : Core) : Desc :=
  { tag := e.tag, tensor := e.tensor, step := e.step, lines := e.lines, scales := e.scales, svalid := e.svalid, tok := c.cmd.tok
    cmdSeq := c.cmdSeq }

/-- A descriptor comes last in the table, and no older one of its tag stays. -/
theorem enterDesc_descs (e : DescIn) (c : Core) : ∃ l, (enterDesc e c).dip.descs = l ++ [entered e c] ∧
    ∀ p ∈ l, p ∈ c.dip.descs ∧ p.tag ≠ e.tag := by
  refine ⟨_, rfl, fun p hp => ?_⟩
  have hrest : p ∈ c.dip.descs.filter (fun q => q.tag != e.tag) := by
    split at hp
    · exact List.mem_of_mem_drop hp
    · exact hp
  simpa using List.mem_filter.1 hrest

/-- The descriptor of a tag that stands last, and once in the table. -/
theorem find_last_tag {l : List Desc} {q : Desc} {tag : Nat} (hl : ∀ p ∈ l, p.tag ≠ tag) (hq : q.tag = tag) :
    (l ++ [q]).find? (fun p => p.tag == tag) = some q := by
  rw [List.find?_append, List.find?_eq_none.2 fun p hp => by simpa using hl p hp]
  simp [hq]

theorem descOf_enterDesc (e : DescIn) (c : Core) : descOf (enterDesc e c) e.tag = some (entered e c) := by
  obtain ⟨l, hd, hl⟩ := enterDesc_descs e c
  rw [descOf, hd]
  exact find_last_tag (fun p hp => (hl p hp).2) rfl

/-- A descriptor that stands last and once keeps open while lines are missing. -/
theorem descOf_countLines {c : Core} {l : List Desc} {q : Desc} {tag k : Nat} (hd : c.dip.descs = l ++ [q])
    (hl : ∀ p ∈ l, p.tag ≠ tag) (hq : q.tag = tag) (hk : q.matched + k < q.lines) :
    descOf (countLines tag k c) tag = some { q with matched := q.matched + k } := by
  have hmap : (c.dip.descs.map (fun q => if q.tag == tag then { q with matched := q.matched + k } else q)) =
      l ++ [{ q with matched := q.matched + k }] := by
    rw [hd, List.map_append]
    congr 1
    · exact (List.map_congr_left fun p hp => if_neg (by simpa using hl p hp)).trans (List.map_id l)
    · simp [hq]
  unfold descOf countLines
  rw [hmap, List.filter_append, List.filter_singleton, decide_eq_true hk]
  exact find_last_tag (fun p hp => hl p (List.mem_filter.1 hp).1) hq

/-- With no line counted, and none of the descriptors full, the table stays. -/
theorem countLines_zero {c : Core} (tag : Nat) (h : ∀ q ∈ c.dip.descs, q.matched < q.lines) : countLines tag 0 c = c := by
  have hmap : c.dip.descs.map (fun q => if q.tag == tag then { q with matched := q.matched + 0 } else q) = c.dip.descs :=
    (List.map_congr_left fun p _ => ite_self p).trans (List.map_id _)
  unfold countLines
  rw [hmap, List.filter_eq_self.2 fun q hq => decide_eq_true (h q hq)]

/-- The lines that wait under a descriptor's tag, up to its count. -/
def waitingFor (e : DescIn) (c : Core) : List SnoopLine := (c.dip.waitq.filter (fun l => l.tag == e.tag)).take e.lines

/-- The core once a descriptor has met the lines that waited for it. -/
def linesMet (e : DescIn) (c : Core) : Core :=
  let mine := waitingFor e c
  countLines e.tag mine.length { c with dip := { c.dip with waitq := mine.foldl (fun w l => w.erase l) c.dip.waitq } }

section
variable {s : State} {k : Nat} (hk : k < numTiles) (hr : coreRuns s k = true) (hb : NoBank s k)
include hk hr hb

theorem sramWrite_runs (w : SnoopLine) (hq : (tileOf s k).core.dip.waitq.length < 16) :
    ∃ t, exec (.sramWrite k w) s = .next t ∧ OnlyTile s t k ∧ tileOf t k = written w (tileOf s k) := by
  have hx : tileOf (onTile k (writeSram w) s) k = writeSram w (tileOf s k) := tileOf_onTile_self _ s hk
  have hb' : NoBank (onTile k (writeSram w) s) k := by
    rw [NoBank, hx]
    exact hb
  have hexec : exec (.sramWrite k w) s =
      .next (if w.tag = 0 then onTile k (writeSram w) s else tagLine k w (onTile k (writeSram w) s)) := by
    simp only [exec, execSramWrite, hr, when_true]
    rw [cmpEvent_noBank _ hb' (by decide)]
  rw [hexec]
  by_cases htag : w.tag = 0
  · rw [if_pos htag]
    refine ⟨_, rfl, onTile_onlyTile _ _ _, ?_⟩
    rw [hx, written, if_pos htag]
    rfl
  · rw [if_neg htag]
    obtain ⟨honly, htile⟩ := tagLine_noBank w hk hb' (by rw [hx]; exact hq)
    refine ⟨_, rfl, (onTile_onlyTile _ _ _).trans honly, ?_⟩
    rw [htile, hx, written, if_neg htag]
    rfl

theorem descArrive_runs {e : DescIn} (ht : e.tag ≠ 0) : ∃ t, exec (.descArrive k e) s = .next t ∧ OnlyTile s t k ∧
    tileOf t k = { tileOf s k with core := linesMet e (enterDesc e (tileOf s k).core) } := by
  let u := onCore k (enterDesc e) s
  have hu : tileOf u k = { tileOf s k with core := enterDesc e (tileOf s k).core } := tileOf_onCore_self _ _ hk
  have hdesc : descOf (tileOf u k).core e.tag = some (entered e (tileOf s k).core) := by
    rw [hu]
    exact descOf_enterDesc e _
  let mine := waitingFor e (tileOf u k).core
  let v := onCore k (fun c => countLines e.tag mine.length { c with dip := { c.dip with
    waitq := mine.foldl (fun w l => w.erase l) c.dip.waitq } }) u
  have hbu : NoBank u k := noBank_onCore hk rfl hb
  have hbv : NoBank v k := noBank_onCore hk rfl hbu
  have hexec : exec (.descArrive k e) s = .next v := by
    simp only [exec, execDescArrive, hr, bne_iff_ne.2 ht, Bool.and_self, when_true]
    rw [hdesc]
    exact congrArg Host.Outcome.next (foldl_fixed (s := v) mine fun l => takeLine_noBank _ l hbv)
  refine ⟨v, hexec, (onCore_onlyTile _ _ _).trans (onCore_onlyTile _ _ _), ?_⟩
  rw [tileOf_onCore_self _ _ hk, hu]
  simp only [mine, hu]
  rfl

/-- A descriptor that no line waits for only enters the table. -/
theorem descArrive_enters {e : DescIn} (ht : e.tag ≠ 0) (hq : ∀ l ∈ (tileOf s k).core.dip.waitq, l.tag ≠ e.tag) (hl : 1 ≤ e.lines)
    (hd : ∀ q ∈ (tileOf s k).core.dip.descs, q.matched < q.lines) : ∃ t, exec (.descArrive k e) s = .next t ∧ OnlyTile s t k ∧
      tileOf t k = { tileOf s k with core := enterDesc e (tileOf s k).core } ∧ (descOf (tileOf t k).core e.tag).isSome = true := by
  obtain ⟨t, hexec, honly, htile⟩ := descArrive_runs hk hr hb ht
  have hmine : waitingFor e (enterDesc e (tileOf s k).core) = [] := by
    rw [waitingFor, List.filter_eq_nil_iff.2 fun l hm => by simpa using hq l hm, List.take_nil]
  have hopen : ∀ q ∈ (enterDesc e (tileOf s k).core).dip.descs, q.matched < q.lines := by
    obtain ⟨l, hl', hold⟩ := enterDesc_descs e (tileOf s k).core
    rw [hl', List.forall_mem_append, List.forall_mem_singleton]
    exact ⟨fun q hm => hd q (hold q hm).1, hl⟩
  have hmet : linesMet e (enterDesc e (tileOf s k).core) = enterDesc e (tileOf s k).core := by
    rw [linesMet, hmine]
    exact countLines_zero e.tag hopen
  rw [hmet] at htile
  refine ⟨t, hexec, honly, htile, ?_⟩
  rw [htile, descOf_enterDesc]
  rfl

/-- The one line that waits under a descriptor's tag leaves the queue and counts. -/
theorem descArrive_meets {e : DescIn} {l : SnoopLine} {r : List SnoopLine} (ht : e.tag ≠ 0)
    (hq : (tileOf s k).core.dip.waitq = l :: r) (hlt : l.tag = e.tag) (hr' : ∀ m ∈ r, m.tag ≠ e.tag) (hl : 2 ≤ e.lines) :
    ∃ t q, exec (.descArrive k e) s = .next t ∧ OnlyTile s t k ∧ (tileOf t k).core.dip.waitq = r ∧
      descOf (tileOf t k).core e.tag = some q ∧ q.tensor = e.tensor ∧ q.matched = 1 := by
  obtain ⟨t, hexec, honly, htile⟩ := descArrive_runs hk hr hb ht
  have hwait : (enterDesc e (tileOf s k).core).dip.waitq = l :: r := hq
  have hmine : waitingFor e (enterDesc e (tileOf s k).core) = [l] := by
    rw [waitingFor, hwait, List.filter_cons_of_pos (by simpa using hlt), List.filter_eq_nil_iff.2 fun m hm => by simpa using hr' m hm]
    exact List.take_of_length_le (by simp; omega)
  obtain ⟨ds, hd, hold⟩ := enterDesc_descs e (tileOf s k).core
  refine ⟨t, { entered e (tileOf s k).core with matched := 1 }, hexec, honly, ?_, ?_, rfl, rfl⟩
  · rw [htile, linesMet, hmine, hwait]
    exact List.erase_cons_head l r
  · rw [htile, linesMet, hmine]
    exact descOf_countLines (q := entered e (tileOf s k).core) hd (fun p hp => (hold p hp).2) rfl (Nat.lt_of_lt_of_le Nat.one_lt_two hl)

end

section
variable {s : State} {k : Nat}

theorem descClose_runs (n : Nat) (hk : k < numTiles) (hr : coreRuns s k = true) :
    ∃ t, exec (.descClose k n) s = .next t ∧ OnlyTile s t k ∧ tileOf t k = { tileOf s k with core := { (tileOf s k).core with
      dip := { (tileOf s k).core.dip with descs := (tileOf s k).core.dip.descs.filter (fun q => q.tag != n) } } } := by
  simp only [exec, execDescClose, hr, when_true]
  exact ⟨_, rfl, onCore_onlyTile _ _ _, tileOf_onCore_self _ _ hk⟩

/-- The oldest waiting line is discarded and counted in index 40 (07 R213). -/
theorem lineDiscard_runs {l : SnoopLine} {r : List SnoopLine} (hk : k < numTiles) (hr : coreRuns s k = true) (hb : NoBank s k)
    (hq : (tileOf s k).core.dip.waitq = l :: r) : ∃ t, exec (.lineDiscard k) s = .next t ∧ OnlyTile s t k ∧
      (tileOf t k).core.dip.waitq = r ∧ (tileOf t k).core.dip.descs = (tileOf s k).core.dip.descs ∧
      ((tileOf s k).core.count.run = true →
        mget 0 (tileOf t k).core.count.cnt 40 = (mget 0 (tileOf s k).core.count.cnt 40 + 1) % 2 ^ 48) := by
  let f : Core → Core := fun c => flagUnmatched (countUnmatched { c with dip := { c.dip with waitq := r } })
  have hexec : exec (.lineDiscard k) s = .next (countError k 40 l.line (onCore k f s)) := by
    simp only [exec, execLineDiscard, hr, when_true, discardOldest]
    rw [hq]
  have hbu : NoBank (onCore k f s) k := noBank_onCore hk rfl hb
  rw [countError_noBank 40 l.line hk hbu (by decide)] at hexec
  obtain ⟨honly, w, htile⟩ := recordAt_retiled (ts40 (stubNow (onTile k (errorCounted 40) (onCore k f s)) k)) 0x10
    ((40 - 36) * 2 ^ 61 + l.line % 65536) hk (onTile_retiled k (errorCounted 40) (onCore k f s) hk)
  rw [tileOf_onCore_self f s hk] at htile
  refine ⟨_, hexec, (onCore_onlyTile _ _ _).trans honly, ?_, ?_, fun hrun => ?_⟩
  · exact (congrArg (fun x : Tile => x.core.dip.waitq) htile :)
  · exact (congrArg (fun x : Tile => x.core.dip.descs) htile :)
  · refine (congrArg (fun x : Tile => mget 0 x.core.count.cnt 40) htile).trans ?_
    exact (errorCounted_cnt 40 _ 40).trans (if_pos ⟨hrun, rfl⟩)

theorem lines_stopped (hr : coreRuns s k = false) (w : SnoopLine) (e : DescIn) (n : Nat) : exec (.sramWrite k w) s = .next s ∧
    exec (.descArrive k e) s = .next s ∧ exec (.descClose k n) s = .next s ∧ exec (.lineDiscard k) s = .next s := by
  simp only [exec, execSramWrite, execDescArrive, execDescClose, execLineDiscard, hr, Bool.false_and, when_false, and_self]

end

/-- Settles O19: each row by what it makes of its tile; without a watch plan no slot takes a line. -/
theorem writesMatchDescriptors : Obligations.WritesMatchDescriptors := by
  intro s k hk x d
  refine ⟨lines_stopped, fun hr hb => ⟨fun w hq => ?_, fun e => descArrive_enters hk hr hb, fun e l r => descArrive_meets hk hr hb,
    fun n => descClose_runs n hk hr, fun l r => lineDiscard_runs hk hr hb⟩⟩
  obtain ⟨t, hexec, honly, htile⟩ := sramWrite_runs hk hr hb w hq
  refine ⟨t, hexec, honly, ?_⟩
  rw [htile]
  refine ⟨mget_writeSram w x, rfl, ?_, fun h0 => if_pos h0, fun h0 hd => ?_, fun h0 hd => ?_⟩
  · by_cases h0 : w.tag = 0
    · rw [written, if_pos h0]
    · rw [written_core x h0, lineTagged_rest]
  · rw [written_core x h0, lineTagged, hd]
    rfl
  · rw [written_core x h0, lineTagged, if_pos hd]

end Sys2Proof.Machine
end

section
/-! How lines and frames of a tile's capture slots move, and how a frame closes (09 R284, R285, R291 to R294). -/

namespace Sys2Proof.Machine

/-! What changes when lines and frames move -/

/-- From `s` to `t` only the dips of tile `k`'s core and the shim of its field have changed, and no slot has begun or ended a hold. -/
structure FramesMoved (s t : State) (k : Nat) : Prop where
  rest : { t with tiles := s.tiles, shims := s.shims } = s
  tiles : ∀ v, v ≠ k → tileOf t v = tileOf s v
  shims : ∀ v, v ≠ fieldOf k → shimOf t v = shimOf s v
  tile : ∃ d, tileOf t k = { tileOf s k with core := { (tileOf s k).core with dip := d } }
  holding : ∀ m, (capOf t k m).holding = (capOf s k m).holding
  wf : mwf {} (tileOf s k).core.dip.caps = true → mwf {} (tileOf t k).core.dip.caps = true

namespace FramesMoved
variable {s t u : State} {k : Nat}

theorem refl (s : State) (k : Nat) : FramesMoved s s k :=
  ⟨rfl, fun _ _ => rfl, fun _ _ => rfl, ⟨_, rfl⟩, fun _ => rfl, id⟩

theorem trans (h : FramesMoved s t k) (g : FramesMoved t u k) : FramesMoved s u k where
  rest := (congrArg (fun v : State => { v with tiles := s.tiles, shims := s.shims }) g.rest).trans h.rest
  tiles v hv := (g.tiles v hv).trans (h.tiles v hv)
  shims v hv := (g.shims v hv).trans (h.shims v hv)
  tile := by
    obtain ⟨d, hd⟩ := h.tile
    obtain ⟨d', hd'⟩ := g.tile
    exact ⟨d', by rw [hd', hd]⟩
  holding m := (g.holding m).trans (h.holding m)
  wf hw := g.wf (h.wf hw)

theorem txn (h : FramesMoved s t k) : (tileOf t k).txn = (tileOf s k).txn := by
  obtain ⟨d, hd⟩ := h.tile
  rw [hd]

/-- The settings of the slots stand in the active bank, which does not change. -/
theorem capCfg (h : FramesMoved s t k) (n : Nat) : capCfg (tileOf t k).core n = capCfg (tileOf s k).core n := by
  obtain ⟨d, hd⟩ := h.tile
  rw [hd]
  rfl

theorem ltnOf (h : FramesMoved s t k) : ltnOf t k = ltnOf s k := by
  unfold Machine.ltnOf
  rw [h.txn]

theorem stubNow (h : FramesMoved s t k) : stubNow t k = stubNow s k := by
  have htime : t.time = s.time := (congrArg State.time h.rest :)
  obtain ⟨d, hd⟩ := h.tile
  simp only [Machine.stubNow, stub8, rclkNow, now, htime, hd]

end FramesMoved

theorem capOf_onCap {k : Nat} (n m : Nat) (f : CapSlot → CapSlot) (s : State) (hk : k < numTiles) :
    capOf (onCap k n f s) k m = if m = n then f (capOf s k n) else capOf s k m := by
  rw [capOf, onCap, tileOf_onCore_self _ _ hk]
  exact mget_mmod _ _ _ _ _

/-- A change of the dips' part of the core that begins and ends no hold. -/
theorem onCore_moved {k : Nat} {f : Core → Core} (s : State) (hk : k < numTiles)
    (hd : ∃ d, f (tileOf s k).core = { (tileOf s k).core with dip := d })
    (hh : ∀ m, (mget {} (f (tileOf s k).core).dip.caps m).holding = (capOf s k m).holding)
    (hw : mwf {} (tileOf s k).core.dip.caps = true → mwf {} (f (tileOf s k).core).dip.caps = true) :
    FramesMoved s (onCore k f s) k := by
  obtain ⟨honly, hother⟩ := onCore_onlyTile k f s
  have htile := tileOf_onCore_self f s hk
  refine ⟨congrArg (fun u : State => { u with shims := s.shims }) honly, hother, fun v _ => ?_, ?_, fun m => ?_, fun h => ?_⟩
  · have hshims : (onCore k f s).shims = s.shims := (congrArg State.shims honly :)
    rw [shimOf, hshims]
    rfl
  · obtain ⟨d, hd⟩ := hd
    exact ⟨d, by rw [htile, hd]⟩
  · rw [capOf, htile]
    exact hh m
  · rw [htile]
    exact hw h

theorem onCap_moved {k : Nat} (n : Nat) {f : CapSlot → CapSlot} (s : State) (hk : k < numTiles)
    (hf : ∀ x, (f x).holding = x.holding) : FramesMoved s (onCap k n f s) k := by
  refine onCore_moved s hk ⟨_, rfl⟩ (fun m => ?_) (mmod_wf _ _ _ _)
  dsimp only
  rw [mget_mmod]
  split
  · next h => rw [h]; exact hf _
  · rfl

/-! Frames in the watch area -/

theorem onFrame_tiles (k n i : Nat) (f : Frame → Frame) (s : State) : (onFrame k n i f s).tiles = s.tiles := by
  unfold onFrame
  split
  · rfl
  · exact onShim_tiles _ _ _

theorem capOf_onFrame (k n i m : Nat) (f : Frame → Frame) (s : State) : capOf (onFrame k n i f s) k m = capOf s k m := by
  rw [capOf, tileOf_of_tiles (onFrame_tiles k n i f s)]
  rfl

theorem onFrame_moved (k n i : Nat) (f : Frame → Frame) (s : State) : FramesMoved s (onFrame k n i f s) k := by
  have htile : ∀ v, tileOf (onFrame k n i f s) v = tileOf s v := tileOf_of_tiles (onFrame_tiles k n i f s)
  refine ⟨?_, fun v _ => htile v, fun v hv => ?_, ⟨_, htile k⟩, fun m => by rw [capOf_onFrame], fun hw => by rwa [htile]⟩
  · unfold onFrame
    split
    · rfl
    · unfold onShim
      split <;> rfl
  · unfold onFrame
    split
    · rfl
    · rw [shimOf_onShim, if_neg (fun h => hv h.2)]

/-- The frames of the member's slot that have this index are those that change. -/
theorem frames_onFrame {s : State} {k l : Nat} (n i : Nat) (f : Frame → Frame) (hk : k < numTiles) (hl : ltnOf s k = some l) :
    (shimOf (onFrame k n i f s) (fieldOf k)).frames =
      (shimOf s (fieldOf k)).frames.map (fun x => if x.slot = n ∧ x.tile = l ∧ x.index = i then f x else x) := by
  unfold onFrame
  rw [hl]
  dsimp only
  rw [shimOf_onShim, if_pos ⟨fieldOf_lt hk, rfl⟩]
  simp only [Bool.and_eq_true, beq_iff_eq, and_assoc]

/-! Lines that leave the agent (09 R285, R291) -/

/-- An open frame without the list of its lines. -/
def bare (o : OpenFrame) : OpenFrame := { o with lines := [] }

/-- From `s` to `t` lines of tile `k` have come to lie in their frames. -/
structure LinesMoved (s t : State) (k : Nat) : Prop extends FramesMoved s t k where
  slots : ∀ m, mapOpen bare (capOf t k m) = mapOpen bare (capOf s k m)

namespace LinesMoved
variable {s t u : State} {k : Nat}

theorem refl (s : State) (k : Nat) : LinesMoved s s k := ⟨.refl s k, fun _ => rfl⟩

theorem trans (h : LinesMoved s t k) (g : LinesMoved t u k) : LinesMoved s u k :=
  ⟨h.toFramesMoved.trans g.toFramesMoved, fun m => (g.slots m).trans (h.slots m)⟩

theorem foldl {α : Type} {f : State → α → State} (hf : ∀ t a, LinesMoved t (f t a) k) (l : List α) (h : LinesMoved s t k) :
    LinesMoved s (l.foldl f t) k :=
  List.foldlRecOn (motive := fun t => LinesMoved s t k) l f h fun _ ht a _ => ht.trans (hf _ a)

theorem seq (h : LinesMoved s t k) (m : Nat) : (capOf t k m).seq = (capOf s k m).seq := (congrArg CapSlot.seq (h.slots m) :)

theorem frameOf (h : LinesMoved s t k) (old : Bool) (m : Nat) :
    (frameOf old (capOf t k m)).map bare = (frameOf old (capOf s k m)).map bare := by
  cases old
  · exact (congrArg CapSlot.open_ (h.slots m) :)
  · exact (congrArg CapSlot.older (h.slots m) :)

/-- Open frames stay open, with their step and their place. -/
theorem frameOf_some (h : LinesMoved s t k) {old : Bool} {m : Nat} {p : OpenFrame}
    (hp : Machine.frameOf old (capOf s k m) = some p) : ∃ o, Machine.frameOf old (capOf t k m) = some o ∧ bare o = bare p := by
  have hmap := h.frameOf old m
  rw [hp] at hmap
  exact Option.map_eq_some_iff.1 hmap

theorem frameOf_none (h : LinesMoved s t k) {old : Bool} {m : Nat} (hp : Machine.frameOf old (capOf s k m) = none) :
    Machine.frameOf old (capOf t k m) = none := by
  have hmap := h.frameOf old m
  rw [hp] at hmap
  exact Option.map_eq_none_iff.1 hmap

end LinesMoved

section
variable {k : Nat} (hk : k < numTiles)
include hk

theorem landLine_moves (p : CapLine) (s : State) : LinesMoved s (landLine k p s) k := by
  refine ⟨(onFrame_moved _ _ _ _ _).trans (onCap_moved _ _ hk fun _ => rfl), fun m => ?_⟩
  rw [landLine, capOf_onCap _ _ _ _ hk, capOf_onFrame, capOf_onFrame]
  split
  · next h =>
    subst h
    have hbare : ∀ (g : OpenFrame → OpenFrame) (x : CapSlot), (∀ o, bare (g o) = bare o) →
        mapOpen bare (mapOpen g x) = mapOpen bare x := fun g x hg => by
      simp [mapOpen, Option.map_map, Function.comp_def, hg]
    exact hbare _ _ fun o => by split <;> rfl
  · rfl

theorem drainLines_moves (j : Nat) (s : State) : LinesMoved s (drainLines k j s) k :=
  LinesMoved.foldl (fun t p => landLine_moves hk p t) _ ⟨onCore_moved s hk ⟨_, rfl⟩ (fun _ => rfl) id, fun m => by
    rw [capOf, tileOf_onCore_self _ _ hk]
    rfl⟩

theorem copyLines_moves (n j : Nat) (s : State) : LinesMoved s (copyLines k n j s) k := by
  unfold copyLines
  split
  · exact .refl s k
  · exact LinesMoved.foldl (fun t l => landLine_moves hk _ t) _ (.refl s k)

end

/-! A frame closes (09 R284, R291, R293, R294) -/

/-- What the shim writes into a frame at its close. -/
def frameClosed (o : OpenFrame) (epoch seq ts : Nat) (flags : BitVec 16) (f : Frame) : Frame :=
  { f with step := o.step, tok := o.tok, mapEpoch := epoch, seq := seq, closeTs := ts, flags := flags, lost := o.lost, lineMap := o.lines }

@[simp] theorem frameClosed_seq (o : OpenFrame) (epoch seq ts : Nat) (flags : BitVec 16) (f : Frame) :
    (frameClosed o epoch seq ts flags f).seq = seq := rfl
@[simp] theorem frameClosed_flags (o : OpenFrame) (epoch seq ts : Nat) (flags : BitVec 16) (f : Frame) :
    (frameClosed o epoch seq ts flags f).flags = flags := rfl

/-- The slot once one of its frames has closed. -/
def slotClosed (d : CapCfg) (old : Bool) (x : CapSlot) : CapSlot :=
  { x with
    open_ := if old then x.open_ else x.older
    older := none
    framesDone := satAdd 16 x.framesDone 1
    taken := x.taken + 1
    seq := (x.seq + 1) % 2 ^ 32
    next := if d.frames = 0 then 0 else (x.next + 1) % d.frames }

@[simp] theorem slotClosed_older (d : CapCfg) (old : Bool) (x : CapSlot) : (slotClosed d old x).older = none := rfl
@[simp] theorem slotClosed_open (d : CapCfg) (x : CapSlot) : (slotClosed d false x).open_ = x.older := rfl

/-- The flags that a frame closes with have those given and VALID. -/
theorem closeFlags_of {d : CapCfg} {o : OpenFrame} {extra : BitVec 16} {i : Nat} (h : (extra ||| 1).getLsbD i = true) :
    (closeFlags d o extra).getLsbD i = true := by
  unfold closeFlags
  rw [BitVec.or_assoc o.flags, BitVec.getLsbD_or, BitVec.getLsbD_or, BitVec.getLsbD_or, h]
  simp

/-- What a frame that closes leaves in its shim and its slot, once the queued lines have left. -/
def closing (k n : Nat) (old : Bool) (extra : BitVec 16) (o : OpenFrame) (u : State) : State :=
  let d := capCfg (tileOf u k).core n
  onCap k n (slotClosed d old) (onFrame k n o.frame (frameClosed o (tileOf u k).txn.mapEpoch (((capOf u k n).seq + 1) % 2 ^ 32)
    (ts40 (stubNow u k)) (closeFlags d o extra)) u)

section
variable {s : State} {k n : Nat} {old : Bool} {extra : BitVec 16}

theorem closeOneFrame_none (h : frameOf old (capOf (drainLines k 64 s) k n) = none) :
    closeOneFrame k n old extra s = drainLines k 64 s := by
  unfold closeOneFrame
  dsimp only
  rw [h]

theorem closeOneFrame_some {o : OpenFrame} (h : frameOf old (capOf (drainLines k 64 s) k n) = some o) :
    closeOneFrame k n old extra s = closing k n old extra o (drainLines k 64 s) := by
  unfold closeOneFrame
  dsimp only
  rw [h]
  rfl

end

section
variable {k : Nat} (hk : k < numTiles) (n : Nat) (old : Bool) (extra : BitVec 16)
include hk

theorem closing_moves (o : OpenFrame) (u : State) : FramesMoved u (closing k n old extra o u) k :=
  (onFrame_moved _ _ _ _ _).trans (onCap_moved _ _ hk fun _ => rfl)

theorem capOf_closing (o : OpenFrame) (u : State) :
    capOf (closing k n old extra o u) k n = slotClosed (capCfg (tileOf u k).core n) old (capOf u k n) := by
  rw [closing, capOf_onCap _ _ _ _ hk, if_pos rfl, capOf_onFrame]

theorem frames_closing (o : OpenFrame) {u : State} {l : Nat} (hl : ltnOf u k = some l) :
    (shimOf (closing k n old extra o u) (fieldOf k)).frames = (shimOf u (fieldOf k)).frames.map (fun f =>
      if f.slot = n ∧ f.tile = l ∧ f.index = o.frame then
        frameClosed o (tileOf u k).txn.mapEpoch (((capOf u k n).seq + 1) % 2 ^ 32) (ts40 (stubNow u k))
          (closeFlags (capCfg (tileOf u k).core n) o extra) f
      else f) := by
  have hshims : (closing k n old extra o u).shims = (onFrame k n o.frame (frameClosed o (tileOf u k).txn.mapEpoch
      (((capOf u k n).seq + 1) % 2 ^ 32) (ts40 (stubNow u k)) (closeFlags (capCfg (tileOf u k).core n) o extra)) u).shims :=
    (congrArg State.shims (onCore_onlyTile _ _ _).1 :)
  rw [← frames_onFrame n o.frame _ hk hl, shimOf, hshims]
  rfl

theorem closeOneFrame_moves (s : State) : FramesMoved s (closeOneFrame k n old extra s) k := by
  have hd := (drainLines_moves hk 64 s).toFramesMoved
  cases h : frameOf old (capOf (drainLines k 64 s) k n) with
  | none => rwa [closeOneFrame_none h]
  | some o => rw [closeOneFrame_some h]; exact hd.trans (closing_moves hk n old extra o _)

theorem closeFrame_moves (s : State) : FramesMoved s (closeFrame k n extra s) k :=
  (closeOneFrame_moves hk n true extra s).trans (closeOneFrame_moves hk n false extra _)

theorem closeOneFrame_older (s : State) : (capOf (closeOneFrame k n true extra s) k n).older = none := by
  cases h : frameOf true (capOf (drainLines k 64 s) k n) with
  | none => rw [closeOneFrame_none h]; exact h
  | some o => rw [closeOneFrame_some h, capOf_closing hk, slotClosed_older]

theorem closeOneFrame_newest {s : State} (hn : (capOf s k n).older = none) :
    (capOf (closeOneFrame k n false extra s) k n).open_ = none ∧ (capOf (closeOneFrame k n false extra s) k n).older = none := by
  have hdrained : (capOf (drainLines k 64 s) k n).older = none := (drainLines_moves hk 64 s).frameOf_none (old := true) hn
  cases h : frameOf false (capOf (drainLines k 64 s) k n) with
  | none => rw [closeOneFrame_none h]; exact ⟨h, hdrained⟩
  | some o => rw [closeOneFrame_some h, capOf_closing hk, slotClosed_older, slotClosed_open]; exact ⟨hdrained, rfl⟩

/-- After both closes no frame of the slot is open. -/
theorem closeFrame_empties (s : State) :
    (capOf (closeFrame k n extra s) k n).open_ = none ∧ (capOf (closeFrame k n extra s) k n).older = none :=
  closeOneFrame_newest hk n extra (closeOneFrame_older hk n extra s)

/-- The one open frame of a slot closes with its step, the next SEQ, VALID and the flags given. -/
theorem closeFrame_writes {s : State} {o : OpenFrame} {l : Nat} (ho : (capOf s k n).open_ = some o) (hn : (capOf s k n).older = none)
    (hl : ltnOf s k = some l) : ∀ f ∈ (shimOf (closeFrame k n extra s) (fieldOf k)).frames, f.slot = n → f.tile = l →
      f.index = o.frame → f.step = o.step ∧ f.seq = ((capOf s k n).seq + 1) % 2 ^ 32 ∧
        ∀ i, (extra ||| 1).getLsbD i = true → f.flags.getLsbD i = true := by
  have h1 := drainLines_moves hk 64 s
  have hfirst : closeOneFrame k n true extra s = drainLines k 64 s := closeOneFrame_none (h1.frameOf_none (old := true) hn)
  have h2 := h1.trans (drainLines_moves hk 64 (drainLines k 64 s))
  obtain ⟨o', ho', hbare⟩ := h2.frameOf_some (old := false) ho
  have hstep : o'.step = o.step := (congrArg OpenFrame.step hbare :)
  have hframe : o'.frame = o.frame := (congrArg OpenFrame.frame hbare :)
  rw [closeFrame, hfirst, closeOneFrame_some ho', frames_closing hk n false extra o' (h2.ltnOf.trans hl)]
  intro f hf hslot htile hindex
  obtain ⟨g, -, rfl⟩ := List.mem_map.1 hf
  by_cases hg : g.slot = n ∧ g.tile = l ∧ g.index = o'.frame
  · rw [if_pos hg]
    refine ⟨hstep, ?_, fun i hi => ?_⟩
    · rw [frameClosed_seq, h2.seq]
    · rw [frameClosed_flags]
      exact closeFlags_of hi
  · rw [if_neg hg] at hslot htile hindex
    exact absurd ⟨hslot, htile, hindex.trans hframe.symm⟩ hg

end

end Sys2Proof.Machine
end

section
/-! DIP_ACC_CLOSE, SNOOP_FRAME_CLOSE and STILL_COPY_HOLD_END (08 R250; 09 R284, R287, R288, R291 to R293). -/

namespace Sys2Proof.Machine

/-! An accumulation closes (08 R250) -/

theorem dipSlotOf_onDipSlot {k : Nat} (n m : Nat) (f : DipSlot → DipSlot) (s : State) (hk : k < numTiles) :
    dipSlotOf (onDipSlot k n f s) k m = if m = n then f (dipSlotOf s k n) else dipSlotOf s k m := by
  rw [dipSlotOf, onDipSlot, tileOf_onCore_self _ _ hk]
  exact mget_mmod _ _ _ _ _

/-- One of a slot's open accumulations has closed, and has not contributed yet. -/
def accClosed (k n : Nat) (old : Bool) (a : Acc) (s : State) : State :=
  onDipSlot k n (fun x => { x with last := { a with closed := true } })
    (onDipSlot k n (fun x => if old then { x with older := none } else { x with cur := none }) s)

theorem sendAcc_none (k : Nat) {d : DipCfg} (a : Acc) (s : State) (h : d.foldSel = 0) : sendAcc k d a s = s := by
  have hnone : ∀ g, bit g 0 = false := fun g => by simp [bit]
  unfold sendAcc
  simp only [h, hnone, List.filter_false, List.foldl_nil]

section
variable {s : State} {k : Nat} (hk : k < numTiles)
include hk

theorem accClosed_only (n : Nat) (old : Bool) (a : Acc) : OnlyTile s (accClosed k n old a s) k ∧
    ∃ d, tileOf (accClosed k n old a s) k = { tileOf s k with core := { (tileOf s k).core with dip := d } } := by
  refine ⟨(onCore_onlyTile _ _ _).trans (onCore_onlyTile _ _ _), ?_⟩
  rw [accClosed, onDipSlot, tileOf_onCore_self _ _ hk, onDipSlot, tileOf_onCore_self _ _ hk]
  exact ⟨_, rfl⟩

theorem dipSlotOf_accClosed (n m : Nat) (old : Bool) (a : Acc) : dipSlotOf (accClosed k n old a s) k m =
    if m = n then { dipSlotOf s k n with
      last := { a with closed := true }
      older := if old then none else (dipSlotOf s k n).older
      cur := if old then (dipSlotOf s k n).cur else none }
    else dipSlotOf s k m := by
  rw [accClosed, dipSlotOf_onDipSlot _ _ _ _ hk, dipSlotOf_onDipSlot _ _ _ _ hk, dipSlotOf_onDipSlot _ _ _ _ hk]
  split
  · rw [if_pos rfl]
    cases old <;> rfl
  · rfl

theorem dipAccClose_closes {n : Nat} {old : Bool} {a : Acc} (hu : coreUp (tileOf s k) = true)
    (ha : accOf old (dipSlotOf s k n) = some a) (hd : stepDone (tileOf s k).core a.step = true) :
    exec (.dipAccClose k (n, old)) s =
      .next (sendAcc k (dipCfg (tileOf s k).core n) { a with closed := true } (accClosed k n old a s)) := by
  have hcond : (coreUp (tileOf s k) && (accOf old (dipSlotOf s k n)).any (fun a => stepDone (tileOf s k).core a.step)) = true := by
    rw [hu, ha]
    exact hd
  have hclose : closeOne k n old false s =
      sendAcc k (dipCfg (tileOf s k).core n) { a with closed := true } (accClosed k n old a s) := by
    unfold closeOne
    rw [ha]
    unfold closeAcc
    dsimp only
    rw [Bool.or_false, onDipSlot, tileOf_onCore_self _ _ hk]
    rfl
  simp only [exec, execDipAccClose, hcond, when_true]
  rw [hclose]

end

theorem dipAccClose_contributes {s : State} {k n : Nat} {old : Bool} {a : Acc} (hk : k < numTiles) (hu : coreUp (tileOf s k) = true)
    (ha : accOf old (dipSlotOf s k n) = some a) (hd : stepDone (tileOf s k).core a.step = true) :
    ∃ u, exec (.dipAccClose k (n, old)) s = .next (sendAcc k (dipCfg (tileOf s k).core n) { a with closed := true } u) ∧
      OnlyTile s u k ∧ { tileOf u k with core := (tileOf s k).core } = tileOf s k ∧
      { (tileOf u k).core with dip := (tileOf s k).core.dip } = (tileOf s k).core ∧
      dipSlotOf u k n = { dipSlotOf s k n with
        last := { a with closed := true }
        older := if old then none else (dipSlotOf s k n).older
        cur := if old then (dipSlotOf s k n).cur else none } ∧
      (∀ m, m ≠ n → dipSlotOf u k m = dipSlotOf s k m) ∧
      ((dipCfg (tileOf s k).core n).foldSel = 0 → exec (.dipAccClose k (n, old)) s = .next u) := by
  obtain ⟨honly, d, htile⟩ := accClosed_only (s := s) hk n old a
  have hexec := dipAccClose_closes hk hu ha hd
  refine ⟨_, hexec, honly, by rw [htile], by rw [htile], ?_, fun m hm => ?_, fun hf => ?_⟩
  · rw [dipSlotOf_accClosed hk, if_pos rfl]
  · rw [dipSlotOf_accClosed hk, if_neg hm]
  · rw [hexec, sendAcc_none _ _ _ hf]

theorem dipAccClose_idle {s : State} {k n : Nat} {old : Bool} (h : coreUp (tileOf s k) = false ∨
    ∀ a, accOf old (dipSlotOf s k n) = some a → stepDone (tileOf s k).core a.step = false) :
    exec (.dipAccClose k (n, old)) s = .next s := by
  have hcond : (coreUp (tileOf s k) && (accOf old (dipSlotOf s k n)).any (fun a => stepDone (tileOf s k).core a.step)) = false := by
    rcases h with h | h
    · rw [h, Bool.false_and]
    · cases ha : accOf old (dipSlotOf s k n) with
      | none => simp
      | some a => simp [h a ha]
  simp only [exec, execDipAccClose, hcond, when_false]

/-! A snoop slot's frame closes (09 R284, R291 to R293) -/

theorem snoopFrameClose_idle {s : State} {k n : Nat} {old : Bool} (h : coreUp (tileOf s k) = false ∨
    (capCfg (tileOf s k).core n).still = true ∨
    ∀ p, frameOf old (capOf s k n) = some p → frameDone (tileOf s k).core (capCfg (tileOf s k).core n) p = false) :
    exec (.snoopFrameClose k (n, old)) s = .next s := by
  have hcond : (coreUp (tileOf s k) && !(capCfg (tileOf s k).core n).still &&
      (frameOf old (capOf s k n)).any (frameDone (tileOf s k).core (capCfg (tileOf s k).core n))) = false := by
    rcases h with h | h | h
    · simp [h]
    · simp [h]
    · cases hp : frameOf old (capOf s k n) with
      | none => simp
      | some p => simp [h p hp]
  simp only [exec, execSnoopFrameClose, hcond, when_false]

theorem snoopFrameClose_closes {s : State} {k n : Nat} {old : Bool} {p : OpenFrame} (hk : k < numTiles)
    (hu : coreUp (tileOf s k) = true) (hp : frameOf old (capOf s k n) = some p) (hs : (capCfg (tileOf s k).core n).still = false)
    (hd : frameDone (tileOf s k).core (capCfg (tileOf s k).core n) p = true) :
    ∃ o, exec (.snoopFrameClose k (n, old)) s = .next (closing k n old 0 o (drainLines k 64 s)) ∧
      frameOf old (capOf (drainLines k 64 s) k n) = some o ∧ o.step = p.step ∧ o.frame = p.frame := by
  obtain ⟨o, ho, hbare⟩ := (drainLines_moves hk 64 s).frameOf_some hp
  have hcond : (coreUp (tileOf s k) && !(capCfg (tileOf s k).core n).still &&
      (frameOf old (capOf s k n)).any (frameDone (tileOf s k).core (capCfg (tileOf s k).core n))) = true := by
    rw [hu, hs, hp]
    exact hd
  refine ⟨o, ?_, ho, (congrArg OpenFrame.step hbare :), (congrArg OpenFrame.frame hbare :)⟩
  simp only [exec, execSnoopFrameClose, hcond, when_true]
  rw [closeOneFrame_some ho]

/-! A hold ends (09 R287, R288) -/

theorem mget_mem {α : Type} (d : α) (m : Map α) (k : Nat) : mget d m k = d ∨ (k, mget d m k) ∈ m := by
  induction m with
  | nil => exact .inl rfl
  | cons p r ih =>
    obtain ⟨i, v⟩ := p
    by_cases hi : i = k
    · subst hi
      exact .inr (List.mem_cons.2 (.inl (congrArg (i, ·) (if_pos rfl))))
    · have hrest : mget d ((i, v) :: r) k = mget d r k := if_neg hi
      rw [hrest]
      exact ih.imp_right (List.mem_cons_of_mem _)

theorem copyHolds_of {x : Tile} {m : Nat} (h : (mget {} x.core.dip.caps m).holding = true) : copyHolds x = true := by
  rcases mget_mem {} x.core.dip.caps m with hd | hm
  · rw [hd] at h
    exact absurd h Bool.false_ne_true
  · exact List.any_eq_true.2 ⟨_, hm, h⟩

theorem copyHolds_none {x : Tile} (hw : mwf {} x.core.dip.caps = true) (h : ∀ m, (mget {} x.core.dip.caps m).holding = false) :
    copyHolds x = false :=
  List.any_eq_false.2 fun p hp => by
    rw [← mget_of_mem hw hp]
    exact ne_true_of_eq_false (h p.1)

/-- A slot that has ended its hold. -/
def holdEnded (q : CapSlot) : CapSlot := { q with holding := false }

/-- The tile once slot `n` has ended its hold. -/
def unheld (n : Nat) (x : Tile) : Tile :=
  { x with core := { x.core with dip := { x.core.dip with caps := mmod {} x.core.dip.caps n holdEnded } } }

theorem unheld_slot (n m : Nat) (x : Tile) : mget {} (unheld n x).core.dip.caps m =
    if m = n then holdEnded (mget {} x.core.dip.caps n) else mget {} x.core.dip.caps m := mget_mmod _ _ _ _ _

/-- The last slot's end leaves no slot that holds the tile. -/
theorem copyHolds_unheld_last {n : Nat} {x : Tile} (hw : mwf {} x.core.dip.caps = true)
    (h : ∀ m, m ≠ n → (mget {} x.core.dip.caps m).holding = false) : copyHolds (unheld n x) = false := by
  refine copyHolds_none (mmod_wf _ _ _ _ hw) fun m => ?_
  rw [unheld_slot]
  split
  · rfl
  · next hm => exact h m hm

/-- Another slot that holds the tile goes on holding it. -/
theorem copyHolds_unheld_other {n m : Nat} {x : Tile} (hm : m ≠ n) (h : (mget {} x.core.dip.caps m).holding = true) :
    copyHolds (unheld n x) = true :=
  copyHolds_of (m := m) (by rwa [unheld_slot, if_neg hm])

/-- The end of a slot's hold changes its tile alone: the slot, and of the rest the still, the hang watchdog and the eddies. -/
theorem endHold_retiled {k : Nat} (n : Nat) (v : State) (hk : k < numTiles) :
    ∃ st hg, Retiled v (endHold k n v) k { unheld n (tileOf v k) with still := st, hang := hg } ∧
      (copyHolds (unheld n (tileOf v k)) = true → st = (tileOf v k).still) ∧
      (copyHolds (unheld n (tileOf v k)) = false → (tileOf v k).still.heldRel = [] → st = (holdSettled (tileOf v k)).still) := by
  have hw : Retiled v (onCap k n holdEnded v) k (unheld n (tileOf v k)) :=
    OnlyTile.retiled (onCore_onlyTile _ _ _) (tileOf_onCore_self _ v hk)
  have hend : endHold k n v = settleHold k (onCap k n holdEnded v) := rfl
  rw [hend]
  cases hc : copyHolds (unheld n (tileOf v k)) with
  | true =>
    have hheld : copyHolds (tileOf (onCap k n holdEnded v) k) = true := by
      rw [onCap, tileOf_onCore_self _ v hk]
      exact hc
    have hsettle : settleHold k (onCap k n holdEnded v) = onCap k n holdEnded v := if_pos hheld
    rw [hsettle]
    exact ⟨_, _, hw, fun _ => rfl, fun h => absurd h (by decide)⟩
  | false =>
    obtain ⟨st, hg, hret, hst⟩ := settleHold_retiled hk hw hc
    exact ⟨st, hg, hret, fun h => absurd h (by decide), fun _ hrel => hst hrel⟩

/-- The slot's last lines are copied and its frame closes. -/
def copied (k n j : Nat) (extra : BitVec 16) (s : State) : State := closeFrame k n extra (copyLines k n j s)

section
variable {k : Nat} (hk : k < numTiles) (n j : Nat) (extra : BitVec 16)
include hk

theorem copied_moves (s : State) : FramesMoved s (copied k n j extra s) k :=
  (copyLines_moves hk n j s).toFramesMoved.trans (closeFrame_moves hk n extra _)

theorem copied_writes {s : State} {o : OpenFrame} {l : Nat} (ho : (capOf s k n).open_ = some o) (hn : (capOf s k n).older = none)
    (hl : ltnOf s k = some l) : ∀ f ∈ (shimOf (copied k n j extra s) (fieldOf k)).frames, f.slot = n → f.tile = l →
      f.index = o.frame → f.step = o.step ∧ f.seq = ((capOf s k n).seq + 1) % 2 ^ 32 ∧
        ∀ i, (extra ||| 1).getLsbD i = true → f.flags.getLsbD i = true := by
  have hc := copyLines_moves hk n j s
  obtain ⟨o', ho', hbare⟩ := hc.frameOf_some (old := false) ho
  intro f hf hslot htile hindex
  obtain ⟨hstep, hseq, hflags⟩ := closeFrame_writes hk n extra ho' (hc.frameOf_none (old := true) hn) (hc.ltnOf.trans hl) f hf hslot
    htile (hindex.trans (congrArg OpenFrame.frame hbare :).symm)
  exact ⟨hstep.trans (congrArg OpenFrame.step hbare :), by rw [hseq, hc.seq], hflags⟩

end

/-- What the end of a hold of slot `n` on tile `k` has changed from `s` to `t`, once the slot's frame has closed. -/
structure HoldReleased (s t : State) (k n : Nat) : Prop where
  tiles : ∀ v, v ≠ k → tileOf t v = tileOf s v
  shims : ∀ v, v ≠ fieldOf k → shimOf t v = shimOf s v
  tile : ∃ d st hg w, tileOf t k =
    { tileOf s k with core := { (tileOf s k).core with dip := d }, still := st, hang := hg, eddy := w }
  slot : (capOf t k n).holding = false ∧ (capOf t k n).open_ = none ∧ (capOf t k n).older = none
  last : (∀ m, m ≠ n → (capOf s k m).holding = false) → mwf {} (tileOf s k).core.dip.caps = true →
    (tileOf s k).still.heldRel = [] → (tileOf t k).still = { (tileOf s k).still with
      frz := (tileOf s k).still.frz && (tileOf s k).still.mask != 0 }
  other : ∀ m, m ≠ n → (capOf s k m).holding = true → (tileOf t k).still = (tileOf s k).still

/-- What has changed does not hang on what else differs between states of the same tiles and shims. -/
theorem HoldReleased.congr {s u t : State} {k n : Nat} (h : HoldReleased u t k n) (ht : ∀ w, tileOf u w = tileOf s w)
    (hf : ∀ w, shimOf u w = shimOf s w) : HoldReleased s t k n := by
  obtain ⟨htiles, hshims, htile, hslot, hlast, hother⟩ := h
  simp only [capOf, ht, hf] at htiles hshims htile hlast hother
  exact ⟨htiles, hshims, htile, hslot, hlast, hother⟩

theorem endHold_shims {k : Nat} (n : Nat) (v : State) (hk : k < numTiles) : (endHold k n v).shims = v.shims := by
  obtain ⟨_, _, ⟨⟨hrest, _⟩, _⟩, _⟩ := endHold_retiled n v hk
  exact (congrArg State.shims hrest :)

theorem endHold_rest {s v : State} {k : Nat} (n : Nat) (hk : k < numTiles) (hv : FramesMoved s v k) :
    { endHold k n v with tiles := s.tiles, shims := s.shims } = s := by
  obtain ⟨_, _, ⟨⟨hrest, _⟩, _⟩, _⟩ := endHold_retiled n v hk
  exact (congrArg (fun u : State => { u with tiles := s.tiles, shims := s.shims }) hrest).trans hv.rest

theorem endHold_releases {s v : State} {k n : Nat} (hk : k < numTiles) (hv : FramesMoved s v k)
    (hempty : (capOf v k n).open_ = none ∧ (capOf v k n).older = none) : HoldReleased s (endHold k n v) k n := by
  obtain ⟨st, hg, ⟨⟨-, hother⟩, w, htile⟩, hheld, hlast⟩ := endHold_retiled n v hk
  obtain ⟨d, hd⟩ := hv.tile
  have hshims := endHold_shims n v hk
  have hstill : (tileOf v k).still = (tileOf s k).still := (congrArg Tile.still hd :)
  have hslot : capOf (endHold k n v) k n = holdEnded (capOf v k n) := by
    refine (congrArg (fun y : Tile => mget {} y.core.dip.caps n) htile).trans ?_
    exact (unheld_slot n n _).trans (if_pos rfl)
  refine ⟨fun u hu => (hother u hu).trans (hv.tiles u hu), fun u hu => ?_, ?_, ?_, fun hm hwf hrel => ?_, fun m hm hh => ?_⟩
  · rw [shimOf, hshims]
    exact hv.shims u hu
  · rw [htile, hd]
    exact ⟨_, st, hg, w, rfl⟩
  · rw [hslot]
    exact ⟨rfl, hempty⟩
  · have hfree := copyHolds_unheld_last (n := n) (hv.wf hwf) fun m h => (hv.holding m).trans (hm m h)
    rw [htile]
    refine (hlast hfree (hstill ▸ hrel)).trans ?_
    rw [holdSettled, hstill, ← hrel]
  · have hkept := copyHolds_unheld_other (x := tileOf v k) hm ((hv.holding m).trans hh)
    rw [htile]
    exact (hheld hkept).trans hstill

/-- The state in which a hold ends: at once, or at HOLD_MAX (09 R287). -/
def atHoldEnd (k n : Nat) (acked : Bool) (s : State) : State :=
  if acked then s else elapse ((capOf s k n).holdFrom + (capCfg (tileOf s k).core n).holdMax * 1000) s

/-- Where the shim has not acknowledged, how much it has copied is a free choice (log 7). -/
def drawn (acked : Bool) (e : State) : State := if acked then e else drawFree e

section
variable {s : State} {k n : Nat}

theorem tileOf_atHoldEnd (acked : Bool) (v : Nat) : tileOf (atHoldEnd k n acked s) v = tileOf s v := by
  cases acked
  · exact tileOf_elapse _ _ _
  · rfl

theorem tileOf_drawn (acked : Bool) (e : State) (v : Nat) : tileOf (drawn acked e) v = tileOf e v := by
  cases acked <;> rfl

theorem shimOf_drawn_atHoldEnd (acked : Bool) (v : Nat) : shimOf (drawn acked (atHoldEnd k n acked s)) v = shimOf s v := by
  cases acked
  · exact (congrArg (fun u : State => shimOf u v) (elapse_frame _ s) :)
  · rfl

/-- Besides the tiles and the shims a free choice changes the count of such choices alone. -/
theorem drawn_parts {t e : State} {acked : Bool}
    (h : { t with tiles := (drawn acked e).tiles, shims := (drawn acked e).shims } = drawn acked e) :
    { t with tiles := e.tiles, shims := e.shims, boot := e.boot } = e ∧
      t.boot = { e.boot with freeCount := e.boot.freeCount + if acked then 0 else 1 } := by
  have hboot : t.boot = (drawn acked e).boot := (congrArg State.boot h :)
  have hrest := congrArg (fun u : State => { u with boot := e.boot }) h
  rw [hboot]
  cases acked <;> exact ⟨hrest, rfl⟩

theorem stillCopyHoldEnd_idle (h : (capOf s k n).holding = false) (acked : Bool) :
    exec (.stillCopyHoldEnd k n acked) s = .next s := by
  simp only [exec, execStillCopyHoldEnd, h, when_false]

/-- A hold's last lines are copied, all of them where the shim has acknowledged them, its frame closes, and it ends. -/
theorem stillCopyHoldEnd_ends (hk : k < numTiles) (acked : Bool) (h : (capOf s k n).holding = true) :
    let u := drawn acked (atHoldEnd k n acked s)
    ∃ t, exec (.stillCopyHoldEnd k n acked) s = .next t ∧ { t with tiles := u.tiles, shims := u.shims } = u ∧ HoldReleased s t k n ∧
      ∀ o l, (capOf s k n).open_ = some o → (capOf s k n).older = none → ltnOf s k = some l →
        ∀ f ∈ (shimOf t (fieldOf k)).frames, f.slot = n → f.tile = l → f.index = o.frame →
          f.step = o.step ∧ f.seq = ((capOf s k n).seq + 1) % 2 ^ 32 ∧ f.flags.getLsbD 0 = true ∧
          (acked = false → f.flags.getLsbD 2 = true) := by
  intro u
  have htiles : ∀ v, tileOf u v = tileOf s v := fun v => (tileOf_drawn acked _ v).trans (tileOf_atHoldEnd acked v)
  have htile := htiles k
  have hcap : capOf u k n = capOf s k n := (congrArg (fun y : Tile => mget {} y.core.dip.caps n) htile :)
  have hltn : ltnOf u k = ltnOf s k := by rw [ltnOf, htile]; rfl
  have hh : (capOf (atHoldEnd k n acked s) k n).holding = true := by
    rw [capOf, tileOf_atHoldEnd]
    exact h
  obtain ⟨j, hexec⟩ : ∃ j, exec (.stillCopyHoldEnd k n acked) s =
      .next (endHold k n (copied k n j (if acked then 0 else 4) u)) := by
    have hfinish : exec (.stillCopyHoldEnd k n acked) s = .next (finishHold k n acked 0 (atHoldEnd k n acked s)) := by
      simp only [exec, execStillCopyHoldEnd, h, when_true]
      rfl
    rw [hfinish, finishHold, hh]
    cases acked <;> exact ⟨_, rfl⟩
  have hmoved := copied_moves hk n j (if acked then 0 else 4) u
  refine ⟨_, hexec, endHold_rest n hk hmoved, (endHold_releases hk hmoved (closeFrame_empties hk n _ _)).congr htiles
    (shimOf_drawn_atHoldEnd acked), fun o l ho hn hl f hf h1 h2 h3 => ?_⟩
  rw [shimOf, endHold_shims n _ hk] at hf
  obtain ⟨hstep, hseq, hflags⟩ := copied_writes hk n j _ (hcap ▸ ho) (hcap ▸ hn) (hltn.trans hl) f hf h1 h2 h3
  refine ⟨hstep, by rw [hseq, hcap], hflags 0 ?_, fun ha => hflags 2 ?_⟩
  · cases acked <;> decide
  · rw [ha]
    decide

end

/-! The obligation -/

/-- Settles O20: an accumulation's close before its contributions, a frame's close after its lines, and the end of a hold after its
frame's. That SEQ counts the frame that closes is log 67. -/
theorem accumulationsAndFramesClose : Obligations.AccumulationsAndFramesClose := by
  intro s k n hk _ x
  refine ⟨fun old a hu ha hd => dipAccClose_contributes hk hu ha hd, fun old => dipAccClose_idle, fun old p hu hp => ?_,
    fun old => snoopFrameClose_idle, stillCopyHoldEnd_idle, fun acked hh => ?_⟩
  · intro d u c hs hd
    obtain ⟨o, hexec, ho, hstep, hframe⟩ := snoopFrameClose_closes hk hu hp hs hd
    have hdrain : FramesMoved s u k := (drainLines_moves hk 64 s).toFramesMoved
    have ht : FramesMoved s (closing k n old 0 o u) k := hdrain.trans (closing_moves hk n old 0 o u)
    have hcfg : capCfg (tileOf u k).core n = d := hdrain.capCfg n
    obtain ⟨dip, htile⟩ := ht.tile
    refine ⟨_, o, hexec, ho, hstep, hframe, ht.rest, ht.tiles, ht.shims, by rw [htile], ?_, fun l hl => ?_⟩
    · rw [capOf_closing hk, hcfg]
      rfl
    · rw [frames_closing hk n old 0 o (hdrain.ltnOf.trans hl), hcfg, hdrain.txn, hdrain.stubNow]
      rfl
  · intro e
    obtain ⟨t, hexec, hrest, ⟨htiles, hshims, ⟨d, st, hg, w, htile⟩, ⟨hhold, hopen, holder⟩, hlast, hother⟩, hwrites⟩ :=
      stillCopyHoldEnd_ends hk acked hh
    obtain ⟨hparts, hboot⟩ := drawn_parts hrest
    exact ⟨t, hexec, hparts, hboot, htiles, hshims, by rw [htile], by rw [htile], hhold, hopen, holder, hlast, hother, hwrites⟩

end Sys2Proof.Machine
end
